-- ==== Sys2Proof/Word.lean ====
section
/-!
DEFINITION. The words of the machine: bytes, 32-bit and 64-bit words, the 32-lane mask, and the fields that
name registers (spec 01 R15, R68). A register field's type holds exactly the values its class can encode,
so an operand outside its class (R16, R68) has no term here; Decode refuses such a word by name.
-/

namespace Sys2Proof

/-- A byte. -/
abbrev Byte := BitVec 8
/-- A 16-bit half word. -/
abbrev Half := BitVec 16
/-- A 32-bit word: a lane's value, a uniform register, an instruction address (01 R15, 03 R71). -/
abbrev Word := BitVec 32
/-- A 64-bit word: an even and odd register pair (01 R18), a virtual address (06 R142). -/
abbrev DWord := BitVec 64
/-- One bit for each of the 32 lanes of a pack (01 R11). -/
abbrev Mask := BitVec 32

/-- A vector-class field: 0–119 name `v`k, 120–127 name `e`(k − 120) (01 R15). -/
abbrev VReg := BitVec 7
/-- A uniform-class field: 0–63 name `g`k. -/
abbrev GReg := BitVec 6
/-- A predicate field: 0–6 name `p`k, 7 is always true and discards as a destination (01 R16). -/
abbrev PReg := BitVec 3
/-- A tile-class field: `t`k. -/
abbrev TReg := BitVec 5
/-- An accumulator-class field: `a`k. -/
abbrev AReg := BitVec 4
/-- A queue or copy-write-pointer field. -/
abbrev QReg := BitVec 3
/-- A bank number 0–15 (06 R171). -/
abbrev Bank := BitVec 4

end Sys2Proof
end

