-- ==== Sys2Proof/Syntax.lean ====
section
/-!
DEFINITION. The syntax of the machine's steps: one constructor for each row of spec/opcode_table.json. The first
part holds the instruction words (fields as the table names them, typed by register class), the second the
events, which have no encoding and arrive through the machine's agenda or come about inside it.
-/

namespace Sys2Proof

/-- A unit named by a defect map entry or an error record: its KIND and its location (18 R385). -/
structure DefectUnit where
  kind : Nat
  loc : Nat
  deriving DecidableEq, Repr

/-- The operation of a host hart on memory (11 R290). -/
inductive HartOp where
  | load
  | store
  | amoSwap
  | amoAdd
  | amoAnd
  | amoOr
  | amoXor
  | amoMin
  | amoMax
  | amoMinu
  | amoMaxu
  | amoCas (expected : Nat)
  | lr
  | sc
  deriving DecidableEq, Repr

/-- One access of a host hart to the physical address space (16 R345, R355). -/
structure HostAccess where
  complex : Nat
  hart : Nat
  op : HartOp
  pa : Nat
  size : Nat
  value : Nat
  deriving DecidableEq, Repr

/-- A hardware fault as the error logic sees it (20 R420, R421): the class and severity of the record, the place,
the work affected (a pack by core and slot), and for an uncorrectable error the WHERE code of the ECC trap and whether the operand was
read during a joint of the pack (07 R204). -/
structure ErrorReport where
  cls : Nat
  severity : Nat
  field : Nat
  cluster : Nat
  position : Nat
  unitNo : Nat
  addr : Nat
  spared : Bool
  replaced : Bool
  victim : Option (Nat × Nat)
  whereCode : Nat
  joint : Bool := false
  deriving DecidableEq, Repr

/-- What a frame of the Sett shows of the slot that a participant emitted on a bus in the frame before: how many receivers veto it, and
whether its own readback was uncorrectable (19 R396, R397). -/
structure SlotReport where
  bus : Nat
  participant : Nat
  vetoes : Nat
  unread : Bool
  deriving DecidableEq, Repr

/-- One step of the part: an instruction word, or an event (95). -/
inductive Instr where
  /-- add.i32: Vector add modulo 2^32 in each active lane (R96). -/
  | addI32 (g : PReg) (d a b : VReg)
  /-- adds.i32: Vector signed saturating add in each active lane (R96). -/
  | addsI32 (g : PReg) (d a b : VReg)
  /-- sub.i32: Vector subtract modulo 2^32 (R96). -/
  | subI32 (g : PReg) (d a b : VReg)
  /-- subs.i32: Vector signed saturating subtract (R96). -/
  | subsI32 (g : PReg) (d a b : VReg)
  /-- mul.i32: Vector multiply, low 32 bits (R96). -/
  | mulI32 (g : PReg) (d a b : VReg)
  /-- mulh.i32: Vector signed multiply, high 32 bits (R96). -/
  | mulhI32 (g : PReg) (d a b : VReg)
  /-- mulhu.i32: Vector unsigned multiply, high 32 bits (R96). -/
  | mulhuI32 (g : PReg) (d a b : VReg)
  /-- min.i32: Vector signed minimum (R96). -/
  | minI32 (g : PReg) (d a b : VReg)
  /-- minu.i32: Vector unsigned minimum (R96). -/
  | minuI32 (g : PReg) (d a b : VReg)
  /-- max.i32: Vector signed maximum (R96). -/
  | maxI32 (g : PReg) (d a b : VReg)
  /-- maxu.i32: Vector unsigned maximum (R96). -/
  | maxuI32 (g : PReg) (d a b : VReg)
  /-- and.i32: Vector bitwise AND (R96). -/
  | andI32 (g : PReg) (d a b : VReg)
  /-- andn.i32: Vector a AND NOT b (R96). -/
  | andnI32 (g : PReg) (d a b : VReg)
  /-- or.i32: Vector bitwise OR (R96). -/
  | orI32 (g : PReg) (d a b : VReg)
  /-- xor.i32: Vector bitwise XOR (R96). -/
  | xorI32 (g : PReg) (d a b : VReg)
  /-- shl.i32: Vector shift left by b[7:0], zero at 32 or more (R96). -/
  | shlI32 (g : PReg) (d a b : VReg)
  /-- shr.i32: Vector logical shift right by b[7:0] (R96). -/
  | shrI32 (g : PReg) (d a b : VReg)
  /-- sra.i32: Vector arithmetic shift right (R96). -/
  | sraI32 (g : PReg) (d a b : VReg)
  /-- rotl.i32: Vector rotate left by b[4:0] (R96). -/
  | rotlI32 (g : PReg) (d a b : VReg)
  /-- add.i32: Uniform add modulo 2^32 (R96). -/
  | addI32U (d a b : GReg)
  /-- adds.i32: Uniform signed saturating add (R96). -/
  | addsI32U (d a b : GReg)
  /-- sub.i32: Uniform subtract (R96). -/
  | subI32U (d a b : GReg)
  /-- subs.i32: Uniform signed saturating subtract (R96). -/
  | subsI32U (d a b : GReg)
  /-- mul.i32: Uniform multiply, low 32 bits (R96). -/
  | mulI32U (d a b : GReg)
  /-- mulh.i32: Uniform signed multiply high (R96). -/
  | mulhI32U (d a b : GReg)
  /-- mulhu.i32: Uniform unsigned multiply high (R96). -/
  | mulhuI32U (d a b : GReg)
  /-- min.i32: Uniform signed minimum (R96). -/
  | minI32U (d a b : GReg)
  /-- minu.i32: Uniform unsigned minimum (R96). -/
  | minuI32U (d a b : GReg)
  /-- max.i32: Uniform signed maximum (R96). -/
  | maxI32U (d a b : GReg)
  /-- maxu.i32: Uniform unsigned maximum (R96). -/
  | maxuI32U (d a b : GReg)
  /-- and.i32: Uniform bitwise AND (R96). -/
  | andI32U (d a b : GReg)
  /-- andn.i32: Uniform a AND NOT b (R96). -/
  | andnI32U (d a b : GReg)
  /-- or.i32: Uniform bitwise OR (R96). -/
  | orI32U (d a b : GReg)
  /-- xor.i32: Uniform bitwise XOR (R96). -/
  | xorI32U (d a b : GReg)
  /-- shl.i32: Uniform shift left (R96). -/
  | shlI32U (d a b : GReg)
  /-- shr.i32: Uniform logical shift right (R96). -/
  | shrI32U (d a b : GReg)
  /-- sra.i32: Uniform arithmetic shift right (R96). -/
  | sraI32U (d a b : GReg)
  /-- rotl.i32: Uniform rotate left (R96). -/
  | rotlI32U (d a b : GReg)
  /-- bfe.i32: Extracts a zero-extended bit field described by b (R97). -/
  | bfeI32 (g : PReg) (d a b : VReg)
  /-- bfes.i32: Extracts a sign-extended bit field (R97). -/
  | bfesI32 (g : PReg) (d a b : VReg)
  /-- bfi.i32: Inserts a bit field of a into the destination (R97). -/
  | bfiI32 (g : PReg) (d a b : VReg)
  /-- cmp: Vector integer comparison writing a predicate per active lane (R102). -/
  | cmp (g p : PReg) (c : BitVec 4) (a b : VReg)
  /-- cmpa: Vector integer comparison ANDed into a predicate (R102). -/
  | cmpa (g p : PReg) (c : BitVec 4) (a b : VReg)
  /-- cmp: Uniform comparison writing one bit to every live lane of the split (R102). -/
  | cmpU (p : PReg) (c : BitVec 4) (a b : GReg)
  /-- cmpa: Uniform comparison ANDed into the live lanes' predicate bits (R102). -/
  | cmpaU (p : PReg) (c : BitVec 4) (a b : GReg)
  /-- cmpi: Vector comparison against an immediate (R102). -/
  | cmpi (g p : PReg) (c : BitVec 4) (a : VReg) (i : BitVec 8)
  /-- mov.i32: Vector move, the select operation under a guard (R98). -/
  | movI32 (g : PReg) (d a : VReg)
  /-- not.i32: Vector bitwise NOT (R98). -/
  | notI32 (g : PReg) (d a : VReg)
  /-- neg.i32: Vector two's-complement negation (R98). -/
  | negI32 (g : PReg) (d a : VReg)
  /-- abs.i32: Vector absolute value (R98). -/
  | absI32 (g : PReg) (d a : VReg)
  /-- popc.i32: Vector population count (R98). -/
  | popcI32 (g : PReg) (d a : VReg)
  /-- clz.i32: Vector count of leading zeros (R98). -/
  | clzI32 (g : PReg) (d a : VReg)
  /-- ctz.i32: Vector count of trailing zeros (R98). -/
  | ctzI32 (g : PReg) (d a : VReg)
  /-- brev.i32: Vector bit reversal (R98). -/
  | brevI32 (g : PReg) (d a : VReg)
  /-- sext8.i32: Vector sign extension from 8 bits (R98). -/
  | sext8I32 (g : PReg) (d a : VReg)
  /-- sext16.i32: Vector sign extension from 16 bits (R98). -/
  | sext16I32 (g : PReg) (d a : VReg)
  /-- zext8.i32: Vector zero extension from 8 bits (R98). -/
  | zext8I32 (g : PReg) (d a : VReg)
  /-- zext16.i32: Vector zero extension from 16 bits (R98). -/
  | zext16I32 (g : PReg) (d a : VReg)
  /-- mov.i32: Uniform move (R98). -/
  | movI32U (d a : GReg)
  /-- not.i32: Uniform bitwise NOT (R98). -/
  | notI32U (d a : GReg)
  /-- neg.i32: Uniform negation (R98). -/
  | negI32U (d a : GReg)
  /-- abs.i32: Uniform absolute value (R98). -/
  | absI32U (d a : GReg)
  /-- popc.i32: Uniform population count (R98). -/
  | popcI32U (d a : GReg)
  /-- clz.i32: Uniform count of leading zeros (R98). -/
  | clzI32U (d a : GReg)
  /-- ctz.i32: Uniform count of trailing zeros (R98). -/
  | ctzI32U (d a : GReg)
  /-- brev.i32: Uniform bit reversal (R98). -/
  | brevI32U (d a : GReg)
  /-- sext8.i32: Uniform sign extension from 8 bits (R98). -/
  | sext8I32U (d a : GReg)
  /-- sext16.i32: Uniform sign extension from 16 bits (R98). -/
  | sext16I32U (d a : GReg)
  /-- zext8.i32: Uniform zero extension from 8 bits (R98). -/
  | zext8I32U (d a : GReg)
  /-- zext16.i32: Uniform zero extension from 16 bits (R98). -/
  | zext16I32U (d a : GReg)
  /-- addi: Vector add of a sign-extended immediate (R99). -/
  | addi (g : PReg) (d a : VReg) (i : BitVec 8)
  /-- movi: Vector move of an immediate (R99). -/
  | movi (g : PReg) (d : VReg) (i : BitVec 8)
  /-- movi: Uniform move of an immediate (R99). -/
  | moviU (d : GReg) (i : BitVec 8)
  /-- addi: Uniform add of an immediate (R99). -/
  | addiU (d a : GReg) (i : BitVec 8)
  /-- addi.i64: Uniform 64-bit pair add of an immediate (R99). -/
  | addiI64 (d a : GReg) (i : BitVec 8)
  /-- shli: Vector shift left by an immediate (R100). -/
  | shli (g : PReg) (d a : VReg) (n : BitVec 5)
  /-- shri: Vector logical shift right by an immediate (R100). -/
  | shri (g : PReg) (d a : VReg) (n : BitVec 5)
  /-- srai: Vector arithmetic shift right by an immediate (R100). -/
  | srai (g : PReg) (d a : VReg) (n : BitVec 5)
  /-- rotli: Vector rotate left by an immediate (R100). -/
  | rotli (g : PReg) (d a : VReg) (n : BitVec 5)
  /-- shli: Uniform shift left by an immediate (R100). -/
  | shliU (d a : GReg) (n : BitVec 5)
  /-- shri: Uniform logical shift right by an immediate (R100). -/
  | shriU (d a : GReg) (n : BitVec 5)
  /-- srai: Uniform arithmetic shift right by an immediate (R100). -/
  | sraiU (d a : GReg) (n : BitVec 5)
  /-- rotli: Uniform rotate left by an immediate (R100). -/
  | rotliU (d a : GReg) (n : BitVec 5)
  /-- pand: Predicate AND per active lane (R103). -/
  | pand (g d a b : PReg)
  /-- por: Predicate OR per active lane (R103). -/
  | por (g d a b : PReg)
  /-- pxor: Predicate XOR per active lane; pnot is its alias (R103). -/
  | pxor (g d a b : PReg)
  /-- pandn: Predicate AND NOT per active lane (R103). -/
  | pandn (g d a b : PReg)
  /-- br: Uniform branch taken when the predicate holds in every live lane (R106). -/
  | br (p : PReg) (o : BitVec 19)
  /-- jmp: Unconditional uniform jump, br with P = 7 (R106). -/
  | jmp (o : BitVec 19)
  /-- brd: Divergent branch dividing a split into target and fall-through children (R107). -/
  | brd (p : PReg) (t : BitVec 10) (r : BitVec 9)
  /-- call: Writes the return address to the link register and jumps (R110). -/
  | call (d : VReg) (i : BitVec 8)
  /-- jmpi: Indirect jump (also written ret) to a uniform lane value, ADDR if lanes differ (R111). -/
  | jmpi (a : VReg)
  /-- calli: Indirect call through the call table, one child per distinct index (R112). -/
  | calli (d a : VReg)
  /-- regang: Stops the split until its family is stopped, then merges (R113). -/
  | regang
  /-- exit: Active lanes exit; empty splits are removed (R114). -/
  | exit (g : PReg)
  /-- nop: No effect beyond an issue slot and a window place (R115). -/
  | nop (g : PReg)
  /-- wait: Stalls the split until the outstanding-operation counters are within bounds (R117). -/
  | wait (l s c : BitVec 6) (t : BitVec 4)
  /-- lea: Forms a 64-bit address from a uniform base and a sign-extended scaled offset (R105). -/
  | lea (g : PReg) (d : VReg) (a : GReg) (b : VReg)
  /-- leau: Forms an address with a zero-extended offset (R105). -/
  | leau (g : PReg) (d : VReg) (a : GReg) (b : VReg)
  /-- mov.vg: Broadcasts a uniform register into active lanes (R104). -/
  | movVg (g : PReg) (d : VReg) (a : GReg)
  /-- mov.pg: Writes predicate bits of live lanes from a uniform register (R104). -/
  | movPg (d : PReg) (a : GReg)
  /-- mov.gp: Copies a predicate into a uniform register (R104). -/
  | movGp (d : GReg) (a : PReg)
  /-- mov.vp: Writes 1 or 0 per active lane from a predicate (R104). -/
  | movVp (g : PReg) (d : VReg) (a : PReg)
  /-- mov.pv: Sets predicate bits where the vector value is nonzero (R104). -/
  | movPv (g d : PReg) (a : VReg)
  /-- laneid: Writes each active lane's number (R104). -/
  | laneid (g : PReg) (d : VReg)
  /-- mov.gv: Reads one named lane of a vector register into a uniform register (R104). -/
  | movGv (d : GReg) (a : VReg) (l : BitVec 5)
  /-- fadd.f32: Correctly rounded FP32 add (R124). -/
  | faddF32 (g : PReg) (d a b : VReg)
  /-- fsub.f32: Correctly rounded FP32 subtract (R124). -/
  | fsubF32 (g : PReg) (d a b : VReg)
  /-- fmul.f32: Correctly rounded FP32 multiply (R124). -/
  | fmulF32 (g : PReg) (d a b : VReg)
  /-- fdiv.f32: Correctly rounded FP32 divide (R124). -/
  | fdivF32 (g : PReg) (d a b : VReg)
  /-- fmin.f32: FP32 minimum with NaN and signed-zero rules (R125). -/
  | fminF32 (g : PReg) (d a b : VReg)
  /-- fmax.f32: FP32 maximum with NaN and signed-zero rules (R125). -/
  | fmaxF32 (g : PReg) (d a b : VReg)
  /-- ffma.f32: FP32 fused multiply-add into the destination (R126). -/
  | ffmaF32 (g : PReg) (d a b : VReg)
  /-- ffms.f32: FP32 fused negated multiply-add (R126). -/
  | ffmsF32 (g : PReg) (d a b : VReg)
  /-- fadd.f16x2: Packed FP16 add (R124). -/
  | faddF16x2 (g : PReg) (d a b : VReg)
  /-- fsub.f16x2: Packed FP16 subtract (R124). -/
  | fsubF16x2 (g : PReg) (d a b : VReg)
  /-- fmul.f16x2: Packed FP16 multiply (R124). -/
  | fmulF16x2 (g : PReg) (d a b : VReg)
  /-- ffma.f16x2: Packed FP16 fused multiply-add (R126). -/
  | ffmaF16x2 (g : PReg) (d a b : VReg)
  /-- fadd.bf16x2: Packed BF16 add (R124). -/
  | faddBf16x2 (g : PReg) (d a b : VReg)
  /-- fsub.bf16x2: Packed BF16 subtract (R124). -/
  | fsubBf16x2 (g : PReg) (d a b : VReg)
  /-- fmul.bf16x2: Packed BF16 multiply (R124). -/
  | fmulBf16x2 (g : PReg) (d a b : VReg)
  /-- ffma.bf16x2: Packed BF16 fused multiply-add (R126). -/
  | ffmaBf16x2 (g : PReg) (d a b : VReg)
  /-- fmin.f16x2: Packed FP16 minimum (R125). -/
  | fminF16x2 (g : PReg) (d a b : VReg)
  /-- fmax.f16x2: Packed FP16 maximum (R125). -/
  | fmaxF16x2 (g : PReg) (d a b : VReg)
  /-- fmin.bf16x2: Packed BF16 minimum (R125). -/
  | fminBf16x2 (g : PReg) (d a b : VReg)
  /-- fmax.bf16x2: Packed BF16 maximum (R125). -/
  | fmaxBf16x2 (g : PReg) (d a b : VReg)
  /-- fcmp: FP32 comparison writing a predicate (R128). -/
  | fcmp (g p : PReg) (c : BitVec 4) (a b : VReg)
  /-- fcmpa: FP32 comparison ANDed into a predicate (R128). -/
  | fcmpa (g p : PReg) (c : BitVec 4) (a b : VReg)
  /-- fneg: Inverts the sign bit of each element (R129). -/
  | fneg (g : PReg) (d a : VReg) (t : BitVec 2)
  /-- fabs: Clears the sign bit of each element (R129). -/
  | fabs (g : PReg) (d a : VReg) (t : BitVec 2)
  /-- fsqrt: Correctly rounded square root (R130). -/
  | fsqrt (g : PReg) (d a : VReg) (t : BitVec 2)
  /-- frsq: Correctly rounded reciprocal square root (R130). -/
  | frsq (g : PReg) (d a : VReg) (t : BitVec 2)
  /-- frcp: Correctly rounded reciprocal (R130). -/
  | frcp (g : PReg) (d a : VReg) (t : BitVec 2)
  /-- fexp2: Correctly rounded 2^x (R130). -/
  | fexp2 (g : PReg) (d a : VReg) (t : BitVec 2)
  /-- flog2: Correctly rounded log2 x (R130). -/
  | flog2 (g : PReg) (d a : VReg) (t : BitVec 2)
  /-- fsinpi: Correctly rounded sin(pi x) (R130). -/
  | fsinpi (g : PReg) (d a : VReg) (t : BitVec 2)
  /-- fcospi: Correctly rounded cos(pi x) (R130). -/
  | fcospi (g : PReg) (d a : VReg) (t : BitVec 2)
  /-- frint: Rounds to an integral value in the applicable direction (R130). -/
  | frint (g : PReg) (d a : VReg) (t : BitVec 2)
  /-- fclass: Writes a one-hot class mask per element (R131). -/
  | fclass (g : PReg) (d a : VReg) (t : BitVec 2)
  /-- fcpsgn.f32: Copies the sign of b onto a for FP32 (R127). -/
  | fcpsgnF32 (g : PReg) (d a b : VReg)
  /-- fcpsgn.h: Copies signs onto both 16-bit halves (R127). -/
  | fcpsgnH (g : PReg) (d a b : VReg)
  /-- pk16.f16: Converts two FP32 values and packs them as FP16 (R132). -/
  | pk16F16 (g : PReg) (d a b : VReg)
  /-- pk16.bf16: Converts two FP32 values and packs them as BF16 (R132). -/
  | pk16Bf16 (g : PReg) (d a b : VReg)
  /-- pk8.e4m3: Converts FP32 to saturating E4M3 into a selected byte (R133). -/
  | pk8E4m3 (g : PReg) (d a : VReg) (s : BitVec 3) (b : BitVec 5)
  /-- pk8.e5m2: Converts FP32 to E5M2 into a selected byte (R133). -/
  | pk8E5m2 (g : PReg) (d a : VReg) (s : BitVec 3) (b : BitVec 5)
  /-- srnd: Stochastically rounds FP32 to a narrow format using a Philox word (R138). -/
  | srnd (g : PReg) (d a : VReg) (s : BitVec 3) (b : BitVec 5)
  /-- pk4.e2m1: Converts FP32 to saturating E2M1 into a selected nibble (R133). -/
  | pk4E2m1 (g : PReg) (d a : VReg) (s : BitVec 3) (b : BitVec 5)
  /-- prng: Writes a Philox word chosen by site, call count and position (R139). -/
  | prng (g : PReg) (d : VReg) (s : BitVec 3) (b : BitVec 5)
  /-- upk16.f16: Unpacks an FP16 half exactly to FP32 (R134). -/
  | upk16F16 (g : PReg) (d : VReg) (s : BitVec 3) (b : BitVec 5)
  /-- upk16.bf16: Unpacks a BF16 half exactly to FP32 (R134). -/
  | upk16Bf16 (g : PReg) (d : VReg) (s : BitVec 3) (b : BitVec 5)
  /-- upk8.e4m3: Unpacks an E4M3 byte to FP32 (R134). -/
  | upk8E4m3 (g : PReg) (d : VReg) (s : BitVec 3) (b : BitVec 5)
  /-- upk8.e5m2: Unpacks an E5M2 byte to FP32 (R134). -/
  | upk8E5m2 (g : PReg) (d : VReg) (s : BitVec 3) (b : BitVec 5)
  /-- upk8.i8: Unpacks a signed INT8 byte to FP32 (R134). -/
  | upk8I8 (g : PReg) (d : VReg) (s : BitVec 3) (b : BitVec 5)
  /-- upk4.e2m1: Unpacks an E2M1 nibble to FP32 (R134). -/
  | upk4E2m1 (g : PReg) (d : VReg) (s : BitVec 3) (b : BitVec 5)
  /-- upk4.i4: Unpacks a signed INT4 nibble to FP32 (R134). -/
  | upk4I4 (g : PReg) (d : VReg) (s : BitVec 3) (b : BitVec 5)
  /-- dot4: Exact four-element FP8 dot product plus addend, rounded once (R136). -/
  | dot4 (g : PReg) (d a b : VReg)
  /-- dot4s: Scaled FP8 dot product with E3M5 scales in v[D+1] (R136). -/
  | dot4s (g : PReg) (d a b : VReg)
  /-- dot8: Exact eight-element E2M1 dot product plus addend (R136). -/
  | dot8 (g : PReg) (d a b : VReg)
  /-- dot8s: Scaled E2M1 dot product (R136). -/
  | dot8s (g : PReg) (d a b : VReg)
  /-- fscale.e3m5: Multiplies FP32 by a selected E3M5 scale byte (R135). -/
  | fscaleE3m5 (g : PReg) (d a : VReg) (s : BitVec 3) (b : BitVec 5)
  /-- cvt.f32.s32: Converts signed integer to FP32 (R137). -/
  | cvtF32S32 (g : PReg) (d a : VReg)
  /-- cvt.f32.u32: Converts unsigned integer to FP32 (R137). -/
  | cvtF32U32 (g : PReg) (d a : VReg)
  /-- cvt.s32.f32: Converts FP32 to clamped signed 32-bit integer (R137). -/
  | cvtS32F32 (g : PReg) (d a : VReg)
  /-- cvt.u32.f32: Converts FP32 to clamped unsigned 32-bit integer (R137). -/
  | cvtU32F32 (g : PReg) (d a : VReg)
  /-- cvt.s8.f32: Converts FP32 to clamped INT8 (R137). -/
  | cvtS8F32 (g : PReg) (d a : VReg)
  /-- cvt.s4.f32: Converts FP32 to clamped INT4 (R137). -/
  | cvtS4F32 (g : PReg) (d a : VReg)
  /-- cvt.e3m5.f32: Converts FP32 to E3M5 (R137). -/
  | cvtE3m5F32 (g : PReg) (d a : VReg)
  /-- cvt.f32.e3m5: Converts E3M5 exactly to FP32 (R137). -/
  | cvtF32E3m5 (g : PReg) (d a : VReg)
  /-- ld.b32: Lane load of 4 bytes (R148). -/
  | ldB32 (g : PReg) (d a : VReg) (i : BitVec 8)
  /-- st.b32: Lane store of 4 bytes (R148). -/
  | stB32 (g : PReg) (d a : VReg) (i : BitVec 8)
  /-- ld.b8: Lane load of a zero-extended byte (R148). -/
  | ldB8 (g : PReg) (d a : VReg)
  /-- ld.s8: Lane load of a sign-extended byte (R148). -/
  | ldS8 (g : PReg) (d a : VReg)
  /-- ld.b16: Lane load of a zero-extended halfword (R148). -/
  | ldB16 (g : PReg) (d a : VReg)
  /-- ld.s16: Lane load of a sign-extended halfword (R148). -/
  | ldS16 (g : PReg) (d a : VReg)
  /-- ld.b64: Lane load of 8 bytes into a pair (R148). -/
  | ldB64 (g : PReg) (d a : VReg)
  /-- ld.b128: Lane load of 16 bytes into a group of four (R148). -/
  | ldB128 (g : PReg) (d a : VReg)
  /-- ldp.b32: Polling load whose unchanged lanes split off and are demoted (R153). -/
  | ldpB32 (g : PReg) (d a : VReg)
  /-- ldp.b64: 64-bit polling load (R153). -/
  | ldpB64 (g : PReg) (d a : VReg)
  /-- st.b8: Lane store of a byte (R148). -/
  | stB8 (g : PReg) (d a : VReg)
  /-- st.b16: Lane store of a halfword (R148). -/
  | stB16 (g : PReg) (d a : VReg)
  /-- st.b64: Lane store of 8 bytes (R148). -/
  | stB64 (g : PReg) (d a : VReg)
  /-- st.b128: Lane store of 16 bytes (R148). -/
  | stB128 (g : PReg) (d a : VReg)
  /-- ldu.b32: Uniform load of 4 bytes (R149). -/
  | lduB32 (d a : GReg) (i : BitVec 8)
  /-- stu.b32: Uniform store of 4 bytes (R149). -/
  | stuB32 (d a : GReg) (i : BitVec 8)
  /-- ldu.b64: Uniform load of 8 bytes (R149). -/
  | lduB64 (d a : GReg)
  /-- stu.b64: Uniform store of 8 bytes (R149). -/
  | stuB64 (d a : GReg)
  /-- gather.b32: Loads words at base plus 4 × index on the gather path (R154). -/
  | gatherB32 (g : PReg) (d : VReg) (a : GReg) (b : VReg)
  /-- scatter.b32: Stores words at base plus 4 × index on the gather path (R154). -/
  | scatterB32 (g : PReg) (d : VReg) (a : GReg) (b : VReg)
  /-- cstore.b32: Compress-stores active 32-bit lanes densely and advances the pointer (R155). -/
  | cstoreB32 (g : PReg) (d : GReg) (a : VReg)
  /-- cstore.b64: Compress-stores active 64-bit elements (R155). -/
  | cstoreB64 (g : PReg) (d : GReg) (a : VReg)
  /-- atom.add.i32: Atomic 32-bit add at the point of coherence, returning the old value unless nr (R150). -/
  | atomAddI32 (g : PReg) (d a : VReg) (n : BitVec 1)
  /-- atom.and.b32: Atomic AND (R150). -/
  | atomAndB32 (g : PReg) (d a : VReg) (n : BitVec 1)
  /-- atom.or.b32: Atomic OR (R150). -/
  | atomOrB32 (g : PReg) (d a : VReg) (n : BitVec 1)
  /-- atom.xor.b32: Atomic XOR (R150). -/
  | atomXorB32 (g : PReg) (d a : VReg) (n : BitVec 1)
  /-- atom.min.i32: Atomic signed minimum (R150). -/
  | atomMinI32 (g : PReg) (d a : VReg) (n : BitVec 1)
  /-- atom.max.i32: Atomic signed maximum (R150). -/
  | atomMaxI32 (g : PReg) (d a : VReg) (n : BitVec 1)
  /-- atom.minu.i32: Atomic unsigned minimum (R150). -/
  | atomMinuI32 (g : PReg) (d a : VReg) (n : BitVec 1)
  /-- atom.maxu.i32: Atomic unsigned maximum (R150). -/
  | atomMaxuI32 (g : PReg) (d a : VReg) (n : BitVec 1)
  /-- atom.xchg.b32: Atomic exchange (R150). -/
  | atomXchgB32 (g : PReg) (d a : VReg) (n : BitVec 1)
  /-- atom.cas.b32: Atomic 32-bit compare-and-swap; failing lanes are demoted (R150). -/
  | atomCasB32 (g : PReg) (d a : VReg) (n : BitVec 1)
  /-- atom.add.f32: Atomic FP32 add rounded to nearest, raising no flags (R150). -/
  | atomAddF32 (g : PReg) (d a : VReg) (n : BitVec 1)
  /-- atom.add.i64: Atomic 64-bit add (R150). -/
  | atomAddI64 (g : PReg) (d a : VReg) (n : BitVec 1)
  /-- atom.cas.b64: Atomic 64-bit compare-and-swap (R150). -/
  | atomCasB64 (g : PReg) (d a : VReg) (n : BitVec 1)
  /-- adet.fadd.f32: Adds FP32 contributions exactly into a group long accumulator (R158). -/
  | adetFaddF32 (g : PReg) (d a : VReg)
  /-- adet.fadd.f16: Adds FP16 contributions into a long accumulator (R158). -/
  | adetFaddF16 (g : PReg) (d a : VReg)
  /-- adet.fadd.bf16: Adds BF16 contributions into a long accumulator (R158). -/
  | adetFaddBf16 (g : PReg) (d a : VReg)
  /-- adet.add.i32: Deterministic 32-bit integer sum (R158). -/
  | adetAddI32 (g : PReg) (d a : VReg)
  /-- adet.add.i64: Deterministic 64-bit integer sum (R158). -/
  | adetAddI64 (g : PReg) (d a : VReg)
  /-- adet.min.i32: Deterministic signed minimum (R158). -/
  | adetMinI32 (g : PReg) (d a : VReg)
  /-- adet.max.i32: Deterministic signed maximum (R158). -/
  | adetMaxI32 (g : PReg) (d a : VReg)
  /-- adet.minu.b64: Deterministic unsigned 64-bit minimum (R158). -/
  | adetMinuB64 (g : PReg) (d a : VReg)
  /-- adet.maxu.b64: Deterministic unsigned 64-bit maximum (R158). -/
  | adetMaxuB64 (g : PReg) (d a : VReg)
  /-- adet.xchg.b32: Buffers an order-sensitive exchange applied at drain (R159). -/
  | adetXchgB32 (g : PReg) (d a : VReg)
  /-- adet.cas.b32: Buffers an order-sensitive compare-and-swap applied at drain (R159). -/
  | adetCasB32 (g : PReg) (d a : VReg)
  /-- adet.app.b32: Buffers a list append applied at drain (R159). -/
  | adetAppB32 (g : PReg) (d a : VReg)
  /-- aflush: Group flush barrier for deterministic atomics; nf discards flags (R161). -/
  | aflush (n : BitVec 1)
  /-- fence: Orders the split's lane-path accesses at a scope by kind (R162). -/
  | fence (k : BitVec 2) (s : BitVec 3)
  /-- xfence: Stalls until the pack's earlier operations on one path are performed before another path issues (R163). -/
  | xfence (t f s : BitVec 3)
  /-- cpy.in: Copies a described tile from memory into a scratchpad region on a channel (R165). -/
  | cpyIn (d a : TReg) (b : GReg)
  /-- cpy.out: Copies a scratchpad region out to memory on a channel (R165). -/
  | cpyOut (d a : TReg) (b : GReg)
  /-- bst: Broadcast store of a 128-byte payload to a multicast group (R169). -/
  | bst (g : PReg) (d : VReg) (a : GReg) (i : BitVec 8)
  /-- mov.gc: Reads a copy write pointer, acquiring the copied bytes (R168). -/
  | movGc (d : GReg) (a : QReg)
  /-- cwpwait: Stalls until a copy write pointer reaches a target (R168). -/
  | cwpwait (d : GReg) (a : QReg)
  /-- bankcfg.cache: Switches named banks to cache mode (R170). -/
  | bankcfgCache (a : GReg)
  /-- bankcfg.pad: Switches named banks to scratchpad mode (R170). -/
  | bankcfgPad (a : GReg)
  /-- bankcfg.fifo: Switches named banks to FIFO mode (R170). -/
  | bankcfgFifo (a : GReg)
  /-- After in-flight accesses drain, changed banks are zeroed over 512 cycles and enter their new mode (R170). -/
  | bankSwitchCompletion (core : Nat)
  /-- fpush: Appends one 128-byte entry to a FIFO bank, blocking while full (R171). -/
  | fpush (g : PReg) (k : Bank) (a : VReg)
  /-- fpop: Removes the oldest FIFO entry into active lanes, blocking while empty (R171). -/
  | fpop (g : PReg) (d : VReg) (k : Bank)
  /-- fcount: Reads the entry count of a FIFO bank (R171). -/
  | fcount (d : GReg) (k : Bank)
  /-- A blocked fpush or fpop proceeds once room or an entry appears (R171). -/
  | fifoUnblock (core slot split : Nat)
  /-- qunbind: Unbinds an empty engine queue (R172). -/
  | qunbind (d : QReg)
  /-- qbind.peer: Binds a queue to a peer pack's queue on the core (R172). -/
  | qbindPeer (d : QReg) (a : GReg)
  /-- qbind.gather: Binds a queue as a gather stream over a base address (R172). -/
  | qbindGather (d : QReg) (a : GReg)
  /-- qpush: Pushes an entry of lane values and mask to a queue (R172). -/
  | qpush (g : PReg) (d : QReg) (a : VReg)
  /-- qpop: Pops the oldest queue entry into active lanes (R172). -/
  | qpop (g : PReg) (d : VReg) (a : QReg)
  /-- A blocked qpush or qpop proceeds once room or an entry appears (R172). -/
  | queueUnblock (core slot split : Nat)
  /-- A gather-stream push's loaded words enter the queue as a result entry (R173). -/
  | gatherStreamResult (core slot op : Nat)
  /-- lds.b32: Lane read of a scratchpad word through a tile handle (R164). -/
  | ldsB32 (g : PReg) (d : VReg) (a : TReg) (b : VReg)
  /-- sts.b32: Lane write of a scratchpad word through a tile handle (R164). -/
  | stsB32 (g : PReg) (d : VReg) (a : TReg) (b : VReg)
  /-- tset: Writes a tile handle from a uniform register (R178). -/
  | tset (d : TReg) (a : GReg)
  /-- tget: Reads a tile handle into a uniform register (R178). -/
  | tget (d : GReg) (a : TReg)
  /-- tclr: Sets a tile register to EMPTY (R178). -/
  | tclr (d : TReg)
  /-- tdesc.r: Checks a TSR as a read use and reports a code without trapping (R182). -/
  | tdescR (d : GReg) (a : TReg) (b : GReg)
  /-- tdesc.w: Checks a TSR as a write use and reports a code (R182). -/
  | tdescW (d : GReg) (a : TReg) (b : GReg)
  /-- tload.p: Loads a tile and aligns it into planed layout (R187). -/
  | tloadP (d a : TReg) (b : GReg)
  /-- tload.r: Loads a tile as a parallel operand in source format (R187). -/
  | tloadR (d a : TReg) (b : GReg)
  /-- tstore: Stores dense region bytes to a tile in memory (R188). -/
  | tstore (d a : TReg) (b : GReg)
  /-- muster: Writes the muster register (R189). -/
  | muster (a : GReg)
  /-- rdmst: Reads the muster register (R189). -/
  | rdmst (d : GReg)
  /-- mmj: Joint matrix multiply arrival at the core's rendezvous latch (R190). -/
  | mmj (d : AReg) (a : VReg) (b : TReg)
  /-- When every mustered pack has arrived, the joint forms, votes and runs the engine (R191). -/
  | jointFormation (core slot : Nat)
  /-- mmc: Cooperative matrix arrival at the set's rendezvous (R194). -/
  | mmc (d : GReg) (a : VReg) (b : TReg)
  /-- When every rank has arrived, checks run, source tiles broadcast and partials combine (R196). -/
  | coopRendezvous (ctx coopid : Nat)
  /-- aclr: Clears an accumulator granule to +0 (R198). -/
  | aclr (d : AReg)
  /-- amov: Copies an accumulator granule (R198). -/
  | amov (d a : AReg)
  /-- aadd: Adds granules elementwise rounded to nearest (R198). -/
  | aadd (d a : AReg)
  /-- ald: Loads a granule from a scratchpad region (R198). -/
  | ald (d : AReg) (a : TReg)
  /-- ast: Stores a granule to a scratchpad region (R198). -/
  | ast (d : TReg) (a : AReg)
  /-- aget: Reads an accumulator row into active lanes (R199). -/
  | aget (g : PReg) (d : VReg) (a : AReg) (b : GReg)
  /-- aset: Writes an accumulator row from active lanes (R199). -/
  | aset (g : PReg) (d : VReg) (a : AReg) (b : GReg)
  /-- aepi: Epilogue scales, biases, activates and rounds a granule into an output tile (R200). -/
  | aepi (d : TReg) (a : AReg) (b : GReg)
  /-- aepi.clr: Epilogue that also clears the granule (R200). -/
  | aepiClr (d : TReg) (a : AReg) (b : GReg)
  /-- gwidth: Writes the split's live lane count (R208). -/
  | gwidth (d : GReg)
  /-- gslices: Writes the number of slices holding live lanes (R208). -/
  | gslices (d : GReg)
  /-- vballot: Writes a predicate's live-lane bits to a uniform register (R208). -/
  | vballot (d : GReg) (a : PReg)
  /-- vany: Writes the OR of a predicate over live lanes (R208). -/
  | vany (d a : PReg)
  /-- vall: Writes the AND of a predicate over live lanes (R208). -/
  | vall (d a : PReg)
  /-- shfl.idx: Shuffle from an indexed lane of the split (R209). -/
  | shflIdx (g : PReg) (d a : VReg) (v : PReg)
  /-- shfl.up: Shuffle from a lower lane (R209). -/
  | shflUp (g : PReg) (d a : VReg) (v : PReg)
  /-- shfl.down: Shuffle from a higher lane (R209). -/
  | shflDown (g : PReg) (d a : VReg) (v : PReg)
  /-- shfl.xor: Shuffle from lane i XOR b (R209). -/
  | shflXor (g : PReg) (d a : VReg) (v : PReg)
  /-- shfl.idxi: Shuffle from an immediate lane index (R209). -/
  | shflIdxi (g : PReg) (d a : VReg) (n : BitVec 5)
  /-- shfl.upi: Shuffle up by an immediate (R209). -/
  | shflUpi (g : PReg) (d a : VReg) (n : BitVec 5)
  /-- shfl.downi: Shuffle down by an immediate (R209). -/
  | shflDowni (g : PReg) (d a : VReg) (n : BitVec 5)
  /-- shfl.xori: Shuffle by XOR with an immediate (R209). -/
  | shflXori (g : PReg) (d a : VReg) (n : BitVec 5)
  /-- bar: Stops the split at the group barrier (R210). -/
  | bar
  /-- When stopped splits cover every non-exited lane, the barrier completes and releases them (R210). -/
  | barCompletion (queue index group : Nat)
  /-- When every non-exited lane is stopped without completion, SYNC 0x01 is raised at barrier splits (R211). -/
  | barrierDeadlock (queue index group : Nat)
  /-- yield: Ends the split's issue for a cycle; a switch point in deterministic mode (R212). -/
  | yield
  /-- pbinit: Initialises a phase barrier word (R214). -/
  | pbinit (d : TReg) (a : GReg)
  /-- pbarrive: After the pack's operations complete, counts an arrival and flips the phase at EXPECT (R214). -/
  | pbarrive (d : TReg) (a : GReg)
  /-- pbwait: Stalls until the phase differs from PAR (R214). -/
  | pbwait (d : TReg) (a : GReg)
  /-- A stalled pbwait passes once the phase flips, acquiring the released bytes (R214). -/
  | pbwaitPass (core slot split : Nat)
  /-- wid: Writes each lane's 64-bit work identifier (R215). -/
  | wid (g : PReg) (d : VReg)
  /-- widf: Writes one field of the work identifier (R215). -/
  | widf (g : PReg) (d : VReg) (k : BitVec 3)
  /-- fetchw: Asks the distributor for an unplaced group, clearing READY in a mailbox (R216). -/
  | fetchw (d : TReg) (a : GReg)
  /-- The distributor grants the lowest unplaced group or answers DRAINED or DENIED and sets READY (R330). -/
  | fetchwAnswer (core slot : Nat)
  /-- launch: Enqueues a launch record from the device (R217). -/
  | launch (d a : GReg)
  /-- qtok.rel: Atomically adds to a token's COUNT and widens its location as a release (R219). -/
  | qtokRel (d a : GReg)
  /-- qtok.acq: Stalls until COUNT reaches a target, then acquires (R219). -/
  | qtokAcq (d a : GReg)
  /-- qtok.try: Reads COUNT at once and acquires (R219). -/
  | qtokTry (d a : GReg)
  /-- A stalled qtok.acq passes once COUNT reaches its target (R219). -/
  | qtokAcqPass (core slot split : Nat)
  /-- wlpush: Appends active lanes' items to work lists (R220). -/
  | wlpush (g : PReg) (d a : VReg)
  /-- wlpop: Takes items from a work list into the lowest active lanes (R221). -/
  | wlpop (g : PReg) (d : VReg) (a : GReg) (p : PReg)
  /-- wldone: Releases one hold per active lane (R222). -/
  | wldone (g : PReg)
  /-- A wlpush stalled on a full list proceeds when every item fits (R220). -/
  | wlpushResume (core slot split : Nat)
  /-- A stalled wlpop proceeds when the list holds an item or the context is quiescent (R221). -/
  | wlpopResume (core slot split : Nat)
  /-- jrec.tok: Journals a token record and advances NEXT, forcing journalled payloads in replay (R224). -/
  | jrecTok (d a : GReg)
  /-- jrec.gen: Journals a generator record (R224). -/
  | jrecGen (d a : GReg)
  /-- jrec.route: Journals a routing record (R224). -/
  | jrecRoute (d a : GReg)
  /-- The Trail accepts a pending record and the jrec completes (R224). -/
  | jrecAcceptance (core slot split : Nat)
  /-- jemit: Releases the emission of a journalled token into the Trail's hold (R225). -/
  | jemit (a : GReg)
  /-- jmark: Records a pending checkpoint mark at a position (R226). -/
  | jmark (a : GReg)
  /-- jtrunc: Drops records at or below a durable position on device and partner (R226). -/
  | jtrunc (a : GReg)
  /-- trap: Raises SYSCALL with a code (R231). -/
  | trap (i : BitVec 8)
  /-- brk: Raises BRK with a code (R231). -/
  | brk (i : BitVec 8)
  /-- hret.retry: Leaves the handler and re-issues the trapped instruction (R235). -/
  | hretRetry
  /-- hret.skip: Leaves the handler past the trapped unit (R235). -/
  | hretSkip
  /-- hret.end: Ends the task from the handler (R235). -/
  | hretEnd
  /-- rdsr: Reads a system register into a uniform register (R227). -/
  | rdsr (d : GReg) (s : BitVec 12)
  /-- wrsr: Writes a system register from a uniform register (R227). -/
  | wrsr (d : GReg) (s : BitVec 12)
  /-- imm: Hint word supplying bits [26:8] of the following instruction's immediate (R75). -/
  | hintImm (i : BitVec 19)
  /-- immtop: Hint word supplying bits [31:27] of the immediate (R75). -/
  | hintImmtop (i : BitVec 5)
  /-- rm=: Hint word overriding the rounding direction or selecting stochastic rounding with a site (R73). -/
  | hintRnd (s : BitVec 11) (m : BitVec 3)
  /-- l1=: Hint word giving L1 and L2 cache policies (R262). -/
  | hintCache (b : BitVec 1) (c l : BitVec 2)
  /-- ctl: Hint word widening brd target and reconvergence offsets (R75). -/
  | hintCtl (t : BitVec 9) (r : BitVec 10)
  /-- mod=: Hint word carrying modifier bits for the following instruction (R73). -/
  | hintMod (m : BitVec 19)
  /-- dpair: Issues the dictionary entry named by a slot of a dictionary word (R78). -/
  | dictionarySlot (i : BitVec 10) (k : BitVec 16)
  /-- Writes the trap record, saves the window and starts the split at HANDLER once earlier work completes (R233). -/
  | trapEntry (core slot split : Nat)
  /-- When all live lanes are stopped at the join or exited, the parent resumes there (R108). -/
  | reconvergenceResume (core slot split : Nat)
  /-- When the whole family is stopped, splits at a regang merge and continue (R113). -/
  | regangRelease (core slot split : Nat)
  /-- A spilled split is restored to a table entry when one can be had (R244). -/
  | splitRefill (core slot split : Nat)
  /-- In deterministic mode the core passes to the next pack with a selectable split (R253). -/
  | detPackSwitch (core : Nat)
  /-- A stalled wait continues once all counters are within bounds in one cycle (R117). -/
  | waitSatisfied (core slot split : Nat)
  /-- A stalled cwpwait passes once the pointer reaches its target (R168). -/
  | cwpwaitPass (core slot split : Nat)
  /-- A load's value is bound and written, and LDC falls (R146). -/
  | loadCompletion (core slot op : Nat) (lanes : Mask) (age : Nat)
  /-- A store is performed at the point of coherence, and STC falls (R146). -/
  | storeCompletion (core slot op : Nat) (lanes : Mask)
  /-- An atomic is performed indivisibly at the line's point of coherence (R151). -/
  | atomicCompletion (core slot op : Nat) (lanes : Mask)
  /-- A channel writes a copy's last byte and CPC falls (R166). -/
  | copyCompletion (core channel upto : Nat)
  /-- A tile operation finishes its writes and TLC falls (R177). -/
  | tileOpCompletion (core slot op : Nat)
  /-- After every lane arrives, entries drain, accumulators round and write, flags OR in and packs release (R161). -/
  | aflushFlush (queue index group : Nat)
  /-- A pack whose lanes have exited and whose counters reach zero ends and releases its resources (R114). -/
  | packEnd (core slot : Nat)
  /-- A broadcast payload is emitted once every accepting cluster has granted room (R268). -/
  | bstEmission (core slot op : Nat)
  /-- An arriving payload enters FIFO banks or an L2 ring slot, incrementing ARRIVED (R268). -/
  | broadcastDelivery (bus : Nat)
  /-- A host write to a reader filter entry, zeroing DROPS when it covers MODE (R267). -/
  | filterEntryWrite (cluster mgroup byte size value : Nat)
  /-- A TLB miss walks the Sv57 tables to a leaf or a fault (R348). -/
  | tableWalk (core : Nat) (va : BitVec 64)
  /-- A host hart load, store or AMO to device memory takes its place in memory order (R290). -/
  | hostHartAccess (acc : HostAccess)
  /-- An endpoint write is applied at the point of coherence by its root port (R290). -/
  | pcieEndpointWrite (pa : Nat) (bytes : List Byte)
  /-- A CREATE record makes a new context with its root, seed, pool and work lists (R316). -/
  | create (queue : Nat)
  /-- A DESTROY record ends the context's work, releases reservations and zeroes its resources (R317). -/
  | destroy (queue : Nat)
  /-- The distributor takes the head record of a queue, clears its slot and advances HEAD (R319). -/
  | launchRecordConsume (queue : Nat)
  /-- Once the record's conditions hold, the distributor checks the header and dispatches its groups (R324). -/
  | launchDispatch (queue : Nat)
  /-- The distributor walks every leased page to make a launch's leases resident (R353). -/
  | leaseWalk (queue index : Nat)
  /-- A group is placed whole on cores of one cluster that meet every condition (R327). -/
  | groupPlacement (queue index group cluster : Nat) (positions : List Nat)
  /-- When every group completes, writes are performed, COMPLETE is written and SIGTOK released (R325). -/
  | launchCompletion (queue index : Nat)
  /-- Each millisecond of waiting raises a queue's effective priority by one (R326). -/
  | queueAging (queue : Nat)
  /-- The termination detector declares a context quiescent and stalled wlpops complete (R332). -/
  | quiescenceDeclared (ctx : Nat)
  /-- A blocked launch with a latency bound picks victims and a drain, save or flush action (R333). -/
  | preemption (queue : Nat)
  /-- A victim stops issuing and its outstanding work completes or is withdrawn (R336). -/
  | victimStop (queue index group : Nat)
  /-- The closure's state is written as a save record and its cores are released (R338). -/
  | closureSave (queue index group : Nat)
  /-- A saved closure is placed again, images written back and broadcast records re-emitted (R341). -/
  | closureRestore (ctx save cluster : Nat) (positions : List Nat)
  /-- A dormant circuit reservation is released at its EXPIRY (R342). -/
  | reservationExpiry (resv : Nat)
  /-- An event record is written to the routed ring, EVTAIL increments and the MSI is sent (R364). -/
  | eventDelivery (ctx : Nat)
  /-- Writing 1 acquires a free hardware semaphore for the writer's complex (R359). -/
  | semaphoreAcquire (complex n : Nat)
  /-- Writing 0 by the owner releases a semaphore (R359). -/
  | semaphoreRelease (complex n : Nat)
  /-- A complex reset releases its semaphores and returns guarded resources to safe states (R360). -/
  | hostComplexReset (complex : Nat)
  /-- Command resuming a suspended split as by hret.skip, or ending its task (R358). -/
  | resume (complex : Nat)
  /-- Command walking again the pages that failed the context's lease walks (R358). -/
  | retry (complex : Nat)
  /-- Command saving or draining groups whose leases overlap a range and holding their launches (R358). -/
  | revoke (complex : Nat)
  /-- Command releasing a revoke hold (R358). -/
  | unrevoke (complex : Nat)
  /-- Command moving an unleased page by arm, copy, commit and release (R354). -/
  | migrate (complex : Nat)
  /-- Command writing the core handle bindings of one binding generation (R391). -/
  | query (complex : Nat)
  /-- Command writing a signed attestation report (R388). -/
  | attest (complex : Nat)
  /-- Command binding a context to a peer module over circuit planes (R403). -/
  | reserve (complex : Nat)
  /-- Command freeing a circuit reservation (R403). -/
  | release (complex : Nat)
  /-- Command opening a journal sequence live or in replay (R410). -/
  | seqopen (complex : Nat)
  /-- Command closing a sequence after released emissions leave (R410). -/
  | seqclose (complex : Nat)
  /-- Command setting the context's journal partner and re-shipping retained records (R415). -/
  | partner (complex : Nat)
  /-- Command making a pending mark durable and appending MARKDONE (R410). -/
  | markdone (complex : Nat)
  /-- Command opening or replacing a partner store for a source module's streams (R414). -/
  | jstore (complex : Nat)
  /-- MAPCTL GO verifies a new defect map and writes both copies (R387). -/
  | mapInstall (complex : Nat)
  /-- A guarded write requests a new operating point for an island (R375). -/
  | islandPointWrite (complex island point : Nat)
  /-- The island pauses, drains crossings and resumes at the new frequency (R376). -/
  | islandPointChange (island : Nat)
  /-- Temperature or power limit lowers CURRENT below POINT (R376). -/
  | islandThrottle (island point temp : Nat)
  /-- CURRENT is restored once the sensor falls to 95 °C and power allows (R376). -/
  | islandThrottleEnd (island temp : Nat)
  /-- Every 4,096 ns a region exchanges timestamps with its parent and slews its rate (R377); `link` is the region + 256 · its parent. -/
  | timeExchange (link t1 t2 t3 t4 : Nat)
  /-- A STEP write advances global time or slews it backward (R379). -/
  | timeStepWrite (complex : Nat) (value : BitVec 64)
  /-- Power-on reset starts bring-up at SELFTEST (R380). -/
  | powerOnReset
  /-- A module reset restarts bring-up (R380). -/
  | moduleReset
  /-- Fields finish self-test and record the test map (R380). -/
  | selftestDone (failures : List DefectUnit)
  /-- Seam links finish training and fix their stage counts (R380). -/
  | seamtrainDone (extra : List Nat) (failedLinks : List Nat)
  /-- Fabric islands finish merging into one (R380). -/
  | mergeDone (fields : List Nat) (west east : Bool)
  /-- The defect map is verified and applied, Sett groups assigned and time aligned (R386). -/
  | verifyDone (skewPs : Nat)
  /-- A QUERY datagram is answered with a STATUS (R384); `ports` is its UDP source port + 65,536 · its destination port. -/
  | mgmtQuery (sender ports : Nat) (datagram : List Byte)
  /-- A SUBSCRIBE datagram adds its sender as a collector (R384); `ports` as in mgmtQuery. -/
  | mgmtSubscribe (sender ports : Nat) (datagram : List Byte)
  /-- A malformed management datagram is discarded (R384); `ports` as in mgmtQuery. -/
  | mgmtBadDatagram (sender ports : Nat) (datagram : List Byte)
  /-- A STATUS is sent once per second (R384). -/
  | mgmtStatusPeriodic
  /-- Each 16 ns frame every participant emits slots, applied at frame n + 2 in rotated order (R395). -/
  | settFrame (bad : List SlotReport)
  /-- After four bad frames a transmit ring fails and moves to a spare group (R397). -/
  | ringFailure (bus participant : Nat)
  /-- A guarded write of ON lights or darkens a laser module (R399). -/
  | laserOnWrite (complex laser value : Nat)
  /-- A Sett laser module is removed or faults and its partner takes the bus (R400). -/
  | laserModuleLoss (laser : Nat) (fault : Bool)
  /-- A laser module is seated and begins WARM (R400). -/
  | laserModuleInsert (laser : Nat)
  /-- A warming module becomes LIT (R399). -/
  | laserWarmDone (laser : Nat)
  /-- An I/O laser module leaves LIT and its ports enter LASER_ABSENT (R401). -/
  | ioLaserLoss (laser : Nat) (fault : Bool)
  /-- ENABLE := 1 moves an optical port from DOWN to LASER_WAIT (R402). -/
  | portEnable (complex port : Nat)
  /-- ENABLE := 0 returns a port to DOWN (R402). -/
  | portDisable (complex port : Nat)
  /-- GATE := 1 turns the transmitter off into GATED (R402). -/
  | portGate (complex port : Nat)
  /-- GATE := 0 moves a gated port to CARRIER (R402). -/
  | portUngate (complex port : Nat)
  /-- Ring calibration completes and the port goes to CARRIER or GATED (R402). -/
  | portCalibrationDone (port : Nat)
  /-- Frequency offset locks and the port enters POL (R402). -/
  | portCarrierLock (port : Nat)
  /-- Polarisation locks and the port enters ALIGN (R402). -/
  | portPolarisationLock (port : Nat)
  /-- Wavelengths deskew, PEER is learned and the port goes UP (R402). -/
  | portAlignDone (port peer : Nat)
  /-- Lock loss or peer silence moves an UP port to DIVERT (R402). -/
  | portLockLost (port : Nat)
  /-- CMD := 1 makes a plane DRAINING (R405). -/
  | planeDrain (complex plane : Nat)
  /-- Once in-flight chunks arrive, the plane goes DARK and ports DIVERT (R405). -/
  | planeDark (plane : Nat)
  /-- CMD := 2 makes a dark plane RETRAIN (R405). -/
  | planeResume (complex plane : Nat)
  /-- When ports are UP again or after 1 ms the plane becomes ACTIVE (R405). -/
  | planeRetrainDone (plane : Nat)
  /-- A chunk is written at the receiver and the token counts contiguous chunks (R404). -/
  | collectiveChunkArrival (resv chunk : Nat) (ethernet : Bool) (bytes : List Byte)
  /-- A resume marker on Ethernet lets a plane take back its turns (R407). -/
  | resumeMarker (resv plane : Nat)
  /-- A partner stores a received record and acknowledges it once performed (R414). -/
  | journalRecordReceive (source : Nat) (bytes : List Byte)
  /-- An acknowledgement raises ACKIDX for a sequence (R413). -/
  | journalAckReceive (peer ctx seq ackidx : Nat)
  /-- An emission whose conditions hold leaves as a frame and a LEFT record is appended (R413). -/
  | emissionRelease (ctx seq : Nat)
  /-- A heartbeat is sent after 100 µs without other traffic (R416). -/
  | heartbeatSend (peer : Nat)
  /-- After 1 ms of silence a JOURNAL event is raised for the peer (R416). -/
  | peerSilent (peer : Nat)
  /-- The module becomes fail-silent and reports CLASS 13 (R417). -/
  | chipFailure (cause : Nat)
  /-- A hardware fault is recorded as an ERROR event (R420). -/
  | hardwareError (err : ErrorReport)
  /-- A failing core ends its tasks and its handle is rebound or retired (R423). -/
  | coreFailure (core : Nat)
  /-- A write to a register with no behaviour of its own updates its writable fields (R8). -/
  | registerWrite (complex offset size value : Nat)
  /-- Issue of a word or address that names no instruction (primary 0x00, 0x7D, unassigned primary, undefined FN or M, or a REASON 7 address) raises ILLOP (R70). -/
  | illegalInstruction (word : Word) (reason : Nat)
  /-- When the migration copy finishes, the hardware checks ARMED and WVER, rewrites or leaves the leaf, and sets STATUS DONE or CHANGED (R354). -/
  | migrateCommit (complex : Nat)
  /-- A failed receive ring makes its participant take that group's slots over the mesh from a relay partner, with STATE RELAY (R398). -/
  | receiveRingFailure (bus participant : Nat)
  /-- A port in DIVERT returns to CARRIER when light is present again and the plane is not DARK (R402). -/
  | portLightRestored (port : Nat)
  /-- A heartbeat arriving from a partner or source renews that peer's liveness so that silence detection restarts (R416). -/
  | heartbeatReceive (peer : Nat)
  /-- The management controller starts serving the management port when standby power becomes present, before bring-up (R382). -/
  | standbyPowerOn
  deriving DecidableEq, Repr

end Sys2Proof
end

