-- ==== Sys2Proof/Config.lean ====
section
/-!
DEFINITION. What one module fixes and the spec does not: free values and opaque identities (no body, so no proof can see
a value), and the constants of 00 R1 that other rules use.
-/

namespace Sys2Proof.Config

/-- The n-th value that the spec leaves open, numbered by the counter `State.free` (log entry 3). -/
opaque freeWord : Nat → Word
/-- SERIAL (18 R381), the module's serial number (log entry 7). -/
opaque serial : DWord
/-- The module's index in its circuit domain (19 R402, 20 R410) (log entry 7). -/
opaque moduleIndex : Nat
/-- SHA-256 of the firmware running on both complexes (18 R388) (log entry 7). -/
opaque firmwareDigest : BitVec 256
/-- The vendor's public map key: modulus and exponent (18 R385) (log entry 7). -/
opaque mapModulus : BitVec 3072
opaque mapExponent : BitVec 3072
/-- SHA-256 of the map in force, whose units have no byte layout in the spec (18 R388) (log entry 7). -/
opaque forceDigest : List DefectUnit → BitVec 256
/-- The module's identity key: modulus and private exponent (18 R388) (log entry 7). -/
opaque identityModulus : BitVec 3072
opaque identityExponent : BitVec 3072

/-- The DRAM channel of each 4 KiB page of device memory, as field + 256 · channel: the spec gives no interleaving (20 R424) (log entry 69). -/
opaque channelOf : Nat → Nat

/-- Clusters, 160 (00 R1). -/
def clusters : Nat := 160
/-- Physical core positions of a cluster, 128 (00 R1). -/
def positions : Nat := 128
/-- Logical cores exposed by a cluster, at most 120 (00 R1, 18 R386). -/
def logicalPerCluster : Nat := 120
/-- Vector registers of a core (01 R15). -/
def coreVectors : Nat := 1536
/-- Uniform registers of a core (01 R15). -/
def coreUniforms : Nat := 1024
/-- Accumulator granules of a core (01 R15). -/
def coreGranules : Nat := 16
/-- Split-table entries of a core (09 R243). -/
def splitEntries : Nat := 128
/-- The bytes of device memory, 2,560 GiB (10 R265). -/
def deviceMemory : Nat := 2560 * 2 ^ 30

end Sys2Proof.Config
end

