-- ==== Sys2Proof/Machine/Store.lean ====
section
/-!
DEFINITION. Sparse data: stores (a value for every key, only those that differ from the default listed, keys
rising) and tables (the present entries listed, keys rising). Every register class, memory and table of the state
is one of the two. Laws are in Laws/Store.lean.
-/

namespace Sys2Proof.Machine

/-- Entries by key. -/
abbrev Table (α : Type) := List (Nat × α)

/-- Drop every entry of key `k`. -/
def eraseKey {α : Type} (m : List (Nat × α)) (k : Nat) : List (Nat × α) :=
  m.filter fun e => e.1 != k

/-- Insert before the first entry with a larger key. -/
def insertKey {α : Type} : List (Nat × α) → Nat → α → List (Nat × α)
  | [], k, v => [(k, v)]
  | e :: m, k, v => if k < e.1 then (k, v) :: e :: m else e :: insertKey m k v

/-- The entry of key `k`, if present. -/
def Table.get {α : Type} : Table α → Nat → Option α
  | [], _ => none
  | e :: m, k => if e.1 = k then some e.2 else Table.get m k

/-- Set the entry of key `k`. -/
def Table.put {α : Type} (m : Table α) (k : Nat) (v : α) : Table α := insertKey (eraseKey m k) k v

/-- Remove the entry of key `k`. -/
def Table.del {α : Type} (m : Table α) (k : Nat) : Table α := eraseKey m k

/-- The entry of key `k`, or `d`. -/
def Table.getD {α : Type} (m : Table α) (k : Nat) (d : α) : α := (Table.get m k).getD d

/-- Change the entry of key `k` where present. -/
def Table.update {α : Type} (m : Table α) (k : Nat) (f : α → α) : Table α :=
  match Table.get m k with
  | some v => Table.put m k (f v)
  | none => m

/-- Read key `k` of a store whose unlisted keys hold `d`. -/
def Store.read {α : Type} (d : α) (m : List (Nat × α)) (k : Nat) : α := (Table.get m k).getD d

/-- Write key `k` of a store, keeping its form: the default is never listed. -/
def Store.write {α : Type} [DecidableEq α] (d : α) (m : List (Nat × α)) (k : Nat) (v : α) :
    List (Nat × α) :=
  if v = d then eraseKey m k else insertKey (eraseKey m k) k v

/-- The keys rise strictly. -/
def sortedKeys {α : Type} : List (Nat × α) → Bool
  | [] => true
  | [_] => true
  | a :: b :: m => decide (a.1 < b.1) && sortedKeys (b :: m)

/-- The form of a store: keys rise strictly and no entry equals the default. -/
def Store.wf {α : Type} [DecidableEq α] (d : α) (m : List (Nat × α)) : Bool :=
  sortedKeys m && m.all fun e => e.2 != d

/-- 32-bit values by key, 0 where unlisted. -/
abbrev Words := List (Nat × Word)

/-- Read a 32-bit value. -/
def Words.get (m : Words) (k : Nat) : Word := Store.read 0 m k

/-- Write a 32-bit value. -/
def Words.set (m : Words) (k : Nat) (v : Word) : Words := Store.write 0 m k v

/-- Bytes by address, 0 where unlisted. -/
abbrev Bytes := List Host.Cell

/-- The one form of memory: addresses rise strictly and no entry equals what an unlisted address reads as (log entry 1). -/
def Memory.wf (m : Bytes) : Bool := Store.wf 0 m

/-- Read one byte (log entry 1). -/
def Bytes.get (m : Bytes) (a : Nat) : Byte := Store.read 0 m a

/-- Write one byte (log entry 1). -/
def Bytes.set (m : Bytes) (a : Nat) (v : Byte) : Bytes := Store.write 0 m a v

/-- `n` bytes from `a` as a number, the byte at the lowest address least significant (00 R5). -/
def Bytes.readLE (m : Bytes) (a : Nat) : Nat → Nat
  | 0 => 0
  | n + 1 => (Bytes.get m a).toNat + 256 * Bytes.readLE m (a + 1) n

/-- Write the low `n` bytes of `v` from `a` up (00 R5). -/
def Bytes.writeLE (m : Bytes) (a : Nat) : Nat → Nat → Bytes
  | 0, _ => m
  | n + 1, v => Bytes.writeLE (Bytes.set m a (BitVec.ofNat 8 v)) (a + 1) n (v / 256)

/-- Write a list of bytes from `a` up. -/
def Bytes.writeList (m : Bytes) (a : Nat) : List Byte → Bytes
  | [] => m
  | b :: r => Bytes.writeList (Bytes.set m a b) (a + 1) r

/-- `n` bytes from `a` up. -/
def Bytes.readList (m : Bytes) (a : Nat) : Nat → List Byte
  | 0 => []
  | n + 1 => Bytes.get m a :: Bytes.readList m (a + 1) n

/-- Set the bytes of `[lo, hi)` to 0. -/
def Bytes.clear (m : Bytes) (lo hi : Nat) : Bytes := m.filter fun e => e.1 < lo || hi ≤ e.1

/-- The low `n` bytes of `v`, lowest first. -/
def bytesLE : Nat → Nat → List Byte
  | 0, _ => []
  | n + 1, v => BitVec.ofNat 8 v :: bytesLE n (v / 256)

/-- Bytes as a number, the first least significant. -/
def natLE : List Byte → Nat
  | [] => 0
  | b :: r => b.toNat + 256 * natLE r

end Sys2Proof.Machine
end

