-- ==== Sys2Proof/Machine/State.lean ====
section
/-!
DEFINITION. The state of the module as plain data: splits, packs, cores, contexts, launches, device memory, the
Sett, the Trail, the host interface, and the machine right after reset. INVENTORY.md lists every field with the
rule that names it and its reset value.
-/

namespace Sys2Proof.Machine

/-! ### Splits and packs (spec 01, 08, 09) -/

/-- The split states of 09 R239. -/
inductive SplitStatus where
  | ready
  | waiting
  | stoppedReconv
  | stoppedRegang
  | barrier
  deriving DecidableEq, Repr

/-- One ephemeral register with a write in the window: `reg` is k of `e`k, `age` 1–8 the instructions issued since
the write, `vals` its words by lane (01 R26, R27, R36). -/
structure WinReg where
  reg : Nat
  age : Nat
  vals : Words
  deriving DecidableEq, Repr

/-- The per-split trap registers of 08 R227, R230. -/
structure TrapRegs where
  cause : Word := 0
  epc : Word := 0
  mask : Word := 0
  active : Word := 0
  info0 : Word := 0
  info1 : Word := 0
  info2 : Word := 0
  info3 : Word := 0
  scratch0 : Word := 0
  scratch1 : Word := 0
  scratch2 : Word := 0
  scratch3 : Word := 0
  deriving DecidableEq, Repr

/-- The walk part of a task-end record: LEVEL, REASON and the entry read (16 R350, R364). -/
structure WalkInfo where
  level : Nat := 0
  reason : Nat := 0
  entry : Nat := 0
  deriving DecidableEq, Repr

/-- A trap raised: its cause code (08 R232), its cause word, whether it is delivered to every participant of a
joint (08 R229), the dictionary slot, the address reported, and the live and active lanes at the trap. -/
structure TrapRec where
  code : Nat
  info : BitVec 128
  joint : Bool
  slot : Nat
  epc : Word
  mask : Word
  active : Word
  walk : WalkInfo := {}
  deriving DecidableEq, Repr

/-- The instruction a READY split is stalled at, with its operand fields: it has not taken effect, and the event that
ends the stall carries it out (09 R239, R252) (log entry 14). -/
inductive Stall where
  /-- `wait` with its four bounds (04 R117). -/
  | wait (ld st cp tl : Nat)
  /-- `fpush` of `a` under guard `g` to bank `k`, or `fpop` from it into `d` (06 R171). -/
  | fpush (g : PReg) (k a : Nat)
  | fpop (g : PReg) (d k : Nat)
  /-- `qpush` and `qpop` (06 R172). -/
  | qpush (g : PReg) (q a : Nat)
  | qpop (g : PReg) (d q : Nat)
  /-- `cwpwait` on a channel for a count in a uniform register (06 R168). -/
  | cwpwait (d a : Nat)
  /-- `bankcfg` in progress (06 R170). -/
  | bankcfg
  /-- `mmj` or `mmc`: the arrival waits in the latch or at the rendezvous (07 R191, R194). -/
  | joint
  /-- `pbwait` (08 R214). -/
  | pbwait (t a : Nat)
  /-- A second `fetchw` while one is outstanding (08 R216). -/
  | fetchw (t a : Nat)
  /-- `qtok.acq` (08 R219). -/
  | acquire (d a : Nat)
  /-- `wlpush` and `wlpop` (08 R220, R221). -/
  | wlpush (g : PReg) (d a : Nat)
  | wlpop (g : PReg) (d a : Nat) (p : PReg)
  /-- `jrec` with its FN, while the Trail cannot accept (08 R224). -/
  | jrec (fn d a : Nat)
  /-- `yield`, or an `ldp` whose every active lane failed, in deterministic mode, until the pack is next current (09 R252,
  R253). -/
  | yielded
  deriving DecidableEq, Repr

/-- A dictionary entry about to issue: the entry's word, its index, the slot 1 or 2 it stands in (03 R77, R81),
and whether slot 1 of its word is empty (03 R72) (log entry 10). -/
structure SlotEntry where
  word : Word
  index : Nat
  slot : Nat
  lastSlot : Bool
  deriving DecidableEq, Repr

/-- One split (09 R237–R240). `ahead` holds the address of a broadcast store issued before the `qtok.acq` in front of it, and the address
behind it (11 R286, 14 R315) (log entry 98). -/
structure Split where
  id : Nat
  pc : Word
  mask : Mask
  reconv : Word
  parent : Option Nat
  status : SplitStatus := .ready
  demoted : Bool := false
  win : List WinReg := []
  saved : List WinReg := []
  trap : TrapRegs := {}
  gtHigh : Word := 0
  lastTime : Nat := 0
  hints : List Word := []
  hintAt : Word := 0
  slot : Option SlotEntry := none
  stall : Option Stall := none
  pending : Option TrapRec := none
  suspended : Bool := false
  stamp : Nat := 0
  atFlush : Bool := false
  spill : Option Nat := none
  spillImage : List Byte := []
  await : Option Nat := none
  gateAll : List Nat := []
  gateSt : List Nat := []
  flagOps : List Nat := []
  seen : Table Nat := []
  ahead : Option (Word × Word) := none
  deriving DecidableEq, Repr

/-- The engine access paths to memory, in the order of the PATH codes of 06 R145. -/
inductive Path where
  | lane
  | copy
  | matrix
  | gather
  | collective
  | broadcast
  deriving DecidableEq, Repr

/-- The outstanding-operation counters of 04 R116. -/
inductive OpClass where
  | ld
  | st
  | cp
  | tl
  /-- Counted by none of the four: the entries of gather streams (06 R141). -/
  | none_
  deriving DecidableEq, Repr

/-- One lane's part of an outstanding access: the lane, the physical address (a scratchpad byte address for
scratchpad accesses), the data or operand, a second operand, the attribute byte met by its translation (16 R347),
and whether it has been performed. -/
structure LaneAcc where
  lane : Nat
  pa : Nat
  data : Nat := 0
  aux : Nat := 0
  attr : Nat := 0
  done : Bool := false
  deriving DecidableEq, Repr

/-- Where the bytes of a transfer lie on its memory side: runs of (physical address, length, attribute byte). -/
abbrev Runs := List (Nat × Nat × Nat)

/-- What an outstanding operation does when it is performed. Register numbers are field values. -/
inductive OpKind where
  /-- A lane load of `size` bytes into `dst` (06 R148). -/
  | load (dst size : Nat) (sext : Bool)
  /-- A uniform load (06 R149). -/
  | loadU (dst size : Nat)
  /-- A lane, uniform, scatter or compress store (06 R148, R149, R154, R155). -/
  | store (size : Nat)
  /-- An atomic of function `fn`; `dst` is none for `.nr` (06 R150). -/
  | atomic (fn : Nat) (dst : Option Nat)
  /-- A polling load (06 R153). -/
  | poll (dst size : Nat)
  /-- A scratchpad load (06 R164). -/
  | loadS (dst : Nat)
  /-- A scratchpad store (06 R164). -/
  | storeS
  /-- A gather stream entry for queue `q` (06 R173); its words are those of the mask's lanes. -/
  | stream (q : Nat) (lanes : Mask)
  /-- A broadcast store of `vals` under `lanes` to `mgroup`, with the virtual address it was issued at (06 R169). -/
  | bst (mgroup : Nat) (va : DWord) (lanes : Mask) (vals : Words)
  /-- A deterministic atomic accepted at its accumulator or buffer (06 R160). -/
  | adet
  /-- A copy on `channel`: sequence number, into scratchpad or out of it, scratchpad byte base, bytes, bytes written
  so far and the memory runs in traversal order (06 R165–R167). -/
  | copy (channel seq : Nat) (into : Bool) (base bytes donep : Nat) (runs : Runs)
  /-- A tile load: planed or parallel, the planes, the region's first byte, the record's fields and runs, the layout's bytes
  (07 R187). -/
  | tload (planed : Bool) (planes base fmt smode ext0 ext1 size : Nat) (runs : Runs)
  /-- A tile store: the region's first byte, the bytes and their runs (07 R188). -/
  | tstore (base bytes : Nat) (runs : Runs)
  /-- A granule operation of 07 R198: its FN, destination and source granules, and the region's first byte. -/
  | acc (fn d a base : Nat)
  /-- A joint's part for this pack or an epilogue, its results known at issue: the scratchpad bytes and granules it touches,
  the bytes, accumulator words and flags it leaves, and for a joint or cooperative set its number, by which all its parts complete together (07
R193, R197, R200); 0 for an operation of one pack. -/
  | tile (spans : List (Nat × Nat)) (grans : List Nat) (bytes : List (Nat × List Byte)) (words : Words) (flags : Word) (joint : Nat := 0)
  deriving DecidableEq, Repr

/-- An outstanding operation of a pack (04 R116, 06 R146). `lineage` holds the lanes of the split that issued it,
so that the splits it is earlier for (11 R279) are those with a lane in common; `pol` is its CACHE hint (10 R262), `stamp`
its place in the core's order of issue (07 R177), `after` names the operations that were earlier ones for its split when it issued (11 R278),
`again` marks a broadcast store saved with its pack, which is emitted first (15 R341), and `till` is when the matrix engine ends a joint's
part, in ns (07 R203) (log entries 15, 37). -/
structure PendOp where
  id : Nat
  cls : OpClass
  path : Path
  lineage : Mask
  split : Nat
  kind : OpKind
  lanes : List LaneAcc := []
  sc : Bool := false
  done : Bool := false
  pol : Nat := 0
  stamp : Nat := 0
  after : List Nat := []
  again : Bool := false
  till : Nat := 0
  deriving DecidableEq, Repr

/-- Queue bindings (06 R172, 15 R340). -/
inductive QBind where
  | unbound
  | peer (slot queue : Nat)
  | gather (base : DWord)
  deriving DecidableEq, Repr

/-- One queue entry: the mask of the write that made it and its words by lane (01 R23). -/
structure QEntry where
  mask : Mask
  vals : Words
  deriving DecidableEq, Repr

/-- One queue register (01 R23). -/
structure Queue where
  bind : QBind := .unbound
  entries : List QEntry := []
  deriving DecidableEq, Repr

/-- One entry of the deterministic atomic buffer (06 R159, 15 R340). -/
structure DetEntry where
  addr : Nat
  va : DWord
  fn : Nat
  lane : Nat
  seq : Nat
  operand : Nat
  compare : Nat
  deriving DecidableEq, Repr

/-- An outstanding `fetchw`: the scratchpad byte address of its mailbox (08 R216). -/
structure Fetch where
  mailbox : Nat
  deriving DecidableEq, Repr

/-- A launch tag: the queue of the record and the ring index at which it was consumed (16 R364). -/
structure Tag where
  queue : Nat
  index : Nat
  deriving DecidableEq, Repr

/-- The pack states of 09 R237. -/
inductive PackPhase where
  | placed
  | running
  | draining
  | ended
  | saved
  deriving DecidableEq, Repr

/-- One pack resident in a core slot or held in a save record (09 R237, 01 R19, 15 R340). -/
structure Pack where
  ctx : Nat
  tag : Tag
  group : Nat
  lpack : Nat
  role : Nat
  slices : Nat
  nv : Nat
  ng : Nat
  na : Nat
  phase : PackPhase := .placed
  v : Words := []
  g : Words := []
  p : Words := []
  t : Words := []
  acc : Words := []
  queues : Table Queue := []
  mst : Word := 0
  fpctl : Word := 0
  fpstat : Word := 0
  wlhold : Nat := 0
  spillAt : Nat := 0
  exited : Mask := 0
  splits : Table Split := []
  order : List Nat := []
  cur : Option Nat := none
  ops : List PendOp := []
  nextOp : Nat := 0
  det : List DetEntry := []
  detSeq : Table Nat := []
  fetch : Option Fetch := none
  wid : DWord := 0
  loop : Option (Word × Word) := none
  granted : List Nat := []
  wantFlags : Bool := false
  stopping : Bool := false
  reaped : Bool := false
  deriving DecidableEq, Repr

/-! ### Cores (spec 06, 07, 10) -/

/-- The bank modes, in the coding of the kernel header's BANKS (03 R88). -/
inductive BankMode where
  | cache
  | pad
  | fifo
  deriving DecidableEq, Repr

/-- A FIFO bank: its entries (words by lane), oldest first, the ring position of the oldest, and the entries promised
to broadcast payloads not yet arrived (06 R171, 10 R268, 15 R339). -/
structure Fifo where
  entries : List Words := []
  head : Nat := 0
  promised : Nat := 0
  deriving DecidableEq, Repr

/-- A line of a cache directory: its line address, way, retain and next-victim marks, and the table mark of a line that a walk has
read (16 R352); lists of lines keep the most recently used first (10 R261–R263) (log entry 67). -/
structure CacheLine where
  line : Nat
  way : Nat
  retained : Bool
  victim : Bool
  table : Bool := false
  deriving DecidableEq, Repr

/-- An arrival waiting in the rendezvous latch or at a cooperative rendezvous (07 R191, R196): the pack's slot, the
split, the muster word, the accumulator, the tile pair, the voters with their format words by lane, and for `mmc` the
eight words of the cooperation record. -/
structure Arrival where
  slot : Nat
  split : Nat
  mst : Word
  acc : Nat
  tile : Nat
  voters : Mask
  words : Words
  coop : List Word
  deriving DecidableEq, Repr

/-- A bank switch in progress (06 R170). -/
structure BankSwitch where
  slot : Nat
  split : Nat
  banks : Word
  mode : BankMode
  deriving DecidableEq, Repr

/-- A kernel's dictionary in a core's dictionary store (03 R79): the kernel by context and header address. -/
structure Dict where
  ctx : Nat
  image : DWord
  words : Words
  count : Nat
  deriving DecidableEq, Repr

/-- One physical core position. -/
structure Core where
  packs : Table Pack := []
  banks : Table BankMode := []
  fifos : Table Fifo := []
  sram : Bytes := []
  cwp : Words := []
  copySeq : Table Nat := []
  copyQ : List (Nat × Nat × Nat) := []
  l1 : List CacheLine := []
  latch : List Arrival := []
  lastPack : Nat := 0
  detCur : Option Nat := none
  detPass : Bool := false
  detKey : Option Nat := none
  switching : Option BankSwitch := none
  dicts : List Dict := []
  owner : Option Nat := none
  heldFor : Option Tag := none
  failed : Bool := false
  deriving DecidableEq, Repr

/-! ### Launches and contexts (spec 15) -/

/-- A kernel header as read at dispatch (03 R88). -/
structure KHeader where
  nbv : Nat := 1
  flags : Nat := 0
  slices : Nat := 1
  gpacks : Nat := 1
  regs : Nat × Nat × Nat := (8, 8, 0)
  roles : List (Nat × Nat × Nat × Nat × Nat) := []
  banks : Nat := 0
  spill : Nat := 0
  widths : List Nat := []
  fpctl : Nat := 0
  entry : Nat := 0
  codeOff : Nat := 0
  codeSize : Nat := 0
  dictOff : Nat := 0
  dictCount : Nat := 0
  callOff : Nat := 0
  callCount : Nat := 0
  handler : Nat := 0
  leaseOff : Nat := 0
  leaseCount : Nat := 0
  deriving DecidableEq, Repr

/-- A lease range of a launch: base, length, permission flags (03 R88, 16 R353). -/
structure Lease where
  base : Nat
  len : Nat
  perms : Nat
  deriving DecidableEq, Repr

/-- A long or integer accumulator of a group (06 R158, 02 R62, 15 R340): destination, the FN of its first
contribution, the L2 set and way it holds (10 R263), the notes of R62 and the exact sum, which is FIELD and EXT of R62 as one signed
integer in units of the accumulator's least bit (an integer sum or extreme for the integer kinds). -/
structure Accum where
  dest : Nat
  va : DWord
  fn : Nat
  set : Nat := 0
  way : Nat := 0
  nan : Bool := false
  snan : Bool := false
  posInf : Bool := false
  negInf : Bool := false
  allNegZero : Bool := true
  contrib : Bool := false
  sum : BitVec 384 := 0
  deriving DecidableEq, Repr

/-- The action chosen for a victim of pre-emption (15 R333). -/
inductive Victim where
  | drain
  | save
  | flush
  deriving DecidableEq, Repr

/-- A group placed on a cluster (15 R327–R336): the (core, slot) of each pack in logical order, whether it is
committed, when it was placed, its place in the order of placements, and its victim action if one is in hand with the launch it makes
room for. -/
structure Group where
  x : Nat
  cluster : Nat
  packs : List (Nat × Nat)
  committed : Bool := false
  since : Nat := 0
  ran : Nat := 0
  serial : Nat := 0
  victim : Option Victim := none
  requester : Option Tag := none
  stopped : Bool := false
  flushing : Bool := false
  ended : Bool := false
  accs : List Accum := []
  deriving DecidableEq, Repr

/-- How far a launch record has come (15 R319, R324). -/
inductive LaunchPhase where
  | consumed
  | resident
  | placing
  | closed
  deriving DecidableEq, Repr

/-- A record consumed by the distributor and, for a LAUNCH record, its launch (15 R319–R325). -/
structure Launch where
  tag : Tag
  kind : Nat
  bytes : List Byte
  ctx : Nat
  phase : LaunchPhase := .consumed
  hdr : KHeader := {}
  args : List Word := []
  places : List Nat := []
  waitPa : Nat := 0
  sigPa : Nat := 0
  next : Nat := 0
  returned : List Nat := []
  groups : Table Group := []
  savedGroups : List Nat := []
  granted : List Nat := []
  completed : Nat := 0
  leased : Bool := false
  leases : List Lease := []
  failedPages : List DWord := []
  reported : List DWord := []
  deriving DecidableEq, Repr

/-- A work list (15 R331): ring, capacity, ring position of the oldest item and the items held. -/
structure WorkList where
  ring : Nat
  cap : Nat
  head : Nat := 0
  count : Nat := 0
  deriving DecidableEq, Repr

/-- A save record (15 R337–R340): where it stands in the pool, the bytes written there, the cores of the closure as
saved (with their packs), its groups and the collective records (reservation, chunk, expiry). -/
structure Save where
  id : Nat
  base : Nat
  size : Nat
  bytes : List Byte
  cores : Table Core
  groups : List (Tag × Group)
  colls : List (Nat × Nat × Nat)
  time : Nat
  deriving DecidableEq, Repr

/-- A journal record (20 R412); `matched` is used for given records in replay (20 R418). -/
structure JRec where
  kind : Nat
  ord : Nat
  seq : Nat
  pos : Nat
  ctx : Nat
  sidx : Nat
  payload : DWord
  matched : Bool := false
  deriving DecidableEq, Repr

/-- A held emission: position, TOKEN, RESENT and FORCED as they stand at release, and the stream index of its TOK
record, none once truncation has dropped it (20 R413). -/
structure Emission where
  pos : Nat
  token : Word
  tokIdx : Option Nat
  resent : Bool
  deriving DecidableEq, Repr

/-- An open sequence (08 R223, 20 R409–R418). Positions that can be NONE are options; `toks` holds the token in force at each
position not yet emitted. -/
structure Seq where
  seq : Nat
  next : Nat
  emit : Nat
  durable : Option Nat
  replay : Bool := false
  forced : Bool := false
  port : Nat := 0
  dmac : Nat := 0
  client : Nat := 0
  leftMax : Option Nat := none
  lastJ : Option Nat := none
  lastR : Option Nat := none
  given : List JRec := []
  stream : List JRec := []
  sidx : Nat := 0
  shipped : Nat := 0
  ackIdx : Nat := 0
  ords : List (Nat × Nat × Nat) := []
  marks : List (Nat × DWord) := []
  toks : Words := []
  held : List Emission := []
  left : List Nat := []
  deriving DecidableEq, Repr

/-- The journal partner of a context (20 R410). -/
structure Partner where
  peer : Nat
  ethernet : Bool
  pmac : Nat
  silent : Bool := false
  deriving DecidableEq, Repr

/-- Who waits for room in a context's pool: a split at a journal instruction, or a sequence whose LEFT records wait (20 R412). -/
inductive Asker where
  | split (core slot split : Nat)
  | left (seq : Nat)
  deriving DecidableEq, Repr

/-- A context (15 R316); `asks` are those that wait for room in its pool, in the order in which they asked (20 R412), and `ending` is the record of the DESTROY that ends it, until its resources are zeroed (15 R317). -/
structure Context where
  num : Nat
  root : DWord
  attrMap : Nat
  key0 : Word
  key1 : Word
  pool : Nat
  poolSize : Nat
  wlTable : Nat
  dormant : Nat
  poolUsed : List (Nat × Nat) := []
  lists : Table WorkList := []
  quiescent : Bool := false
  ending : Option Tag := none
  asks : List Asker := []
  saves : List Save := []
  holds : List (Nat × Nat) := []
  seqs : Table Seq := []
  partner : Option Partner := none
  deriving DecidableEq, Repr

/-- An event record raised and not yet delivered: its 64 bytes, and for an ERROR record the unit whose binding is
read at delivery (16 R364, 20 R420). -/
structure Event where
  ctx : Nat
  bytes : List Byte
  unitAt : Option (Nat × Nat) := none
  deriving DecidableEq, Repr

/-- An error record still open for coalescing (20 R420). -/
structure OpenError where
  cls : Nat
  severity : Nat
  field : Nat
  cluster : Nat
  position : Nat
  unitNo : Nat
  first : Nat
  errSeq : Nat
  deriving DecidableEq, Repr

/-! ### Translation (spec 16) -/

/-- A core or tile TLB entry (16 R351): home core, tile translator or core TLB, context, page base and size, leaf
entry and attribute byte of the accessed granule's page, and the physical 64-byte lines it was built from. -/
structure TlbEntry where
  core : Nat
  tile : Bool
  ctx : Nat
  vbase : Nat
  size : Nat
  leaf : Nat
  leafAt : Nat
  lines : List Nat
  deriving DecidableEq, Repr

/-- A walk cache entry (16 R351): the field it serves, the context, level and key bits, the pointer entry and the
line it was read from. -/
structure WalkEntry where
  field : Nat
  ctx : Nat
  level : Nat
  key : Nat
  entry : Nat
  line : Nat
  deriving DecidableEq, Repr

/-- The page list of a tile of more than 512 pages (16 R351): the pack and operation, the first granule of the pool that it takes, and
the translations it holds: page address, and the table lines each was built from. -/
structure PageList where
  core : Nat
  slot : Nat
  op : Nat
  ctx : Nat
  granule : Nat
  pages : List (Nat × List Nat)
  deriving DecidableEq, Repr

/-- A migration in progress (16 R354): the context, VA, new address, size, the old page, the leaf's address, and the
attribute granules armed with their recorded WVER. -/
structure Migration where
  ctx : Nat
  va : Nat
  newPa : Nat
  size : Nat
  oldPa : Nat
  leafAt : Nat
  leaf : Nat
  armed : List (Nat × Nat)
  deriving DecidableEq, Repr

/-- The issuer of an engine path's write: the path, and the group (launch tag and index), core and logical pack (11 R285). -/
structure Writer where
  path : Path
  tag : Tag
  group : Nat
  core : Nat
  lpack : Nat
  deriving DecidableEq, Repr

/-- A write of one byte of device memory: its address, the value it replaced, the write's place in coherence order, one for all its
bytes, and its issuer while it is an engine write not yet lane-visible (11 R276, R285) (log entry 16). -/
structure StaleByte where
  pa : Nat
  old : Byte
  serial : Nat
  writer : Option Writer
  deriving DecidableEq, Repr

/-! ### The host interface, time, the Sett, optics, the Trail (spec 16, 18, 19, 20) -/

/-- A hardware semaphore (16 R359): OWNER is 0 West, 1 East. -/
structure Sem where
  held : Bool := false
  owner : Nat := 0
  count : Nat := 0
  deriving DecidableEq, Repr

/-- A voltage and frequency island (18 R375); `throttled` holds CURRENT down until the sensor has fallen and power allows (18 R376). -/
structure Island where
  point : Nat := 2
  current : Nat := 2
  throttled : Bool := false
  temp : Nat := 0
  deriving DecidableEq, Repr

/-- The laser states of 19 R399. -/
inductive LaserState where
  | absent
  | warm
  | lit
  | off
  | fault
  deriving DecidableEq, Repr

/-- A laser module (19 R399). -/
structure Laser where
  on : Bool := true
  present : Bool := false
  state : LaserState := .absent
  sole : Bool := false
  temp : Nat := 0
  deriving DecidableEq, Repr

/-- The port states of 19 R402. -/
inductive PortState where
  | down
  | laserWait
  | cal
  | carrier
  | pol
  | align
  | up
  | divert
  | gated
  | laserAbsent
  deriving DecidableEq, Repr

/-- An optical port (19 R402). -/
structure Port where
  enable : Bool := false
  gate : Bool := false
  state : PortState := .down
  peer : Nat := 0
  deriving DecidableEq, Repr

/-- The plane states of 19 R405. -/
inductive PlaneState where
  | active
  | draining
  | dark
  | retrain
  deriving DecidableEq, Repr

/-- A circuit plane: its state, the ports that were UP before the drain, and when retraining began (19 R405). -/
structure Plane where
  state : PlaneState := .active
  wasUp : List Nat := []
  since : Nat := 0
  deriving DecidableEq, Repr

/-- A circuit reservation and its collective at this module (19 R403–R407, 15 R342). As receiver: chunks arrived out of order, the contiguous
count, and the planes whose turns come on Ethernet until their resume marker. As sender: the next chunk, the chunks in flight and whether
each went by Ethernet, those that have completed without a gap and those beyond a gap, and the planes whose turns go to Ethernet until the
marker is sent. Then the dormant expiry, and whether it was released there. -/
structure Resv where
  ctx : Nat
  peer : Nat
  planes : Nat
  token : Nat
  dest : Nat
  len : Nat
  arrived : List Nat := []
  contiguous : Nat := 0
  diverted : List Nat := []
  next : Nat := 0
  flying : List (Nat × Bool) := []
  completed : Nat := 0
  landed : List Nat := []
  away : List Nat := []
  dormant : Option Nat := none
  released : Bool := false
  deriving DecidableEq, Repr

/-- A participant's link on a bus (10 R271): waveguide, group, STATE 0–3, MOVES, the consecutive frames to now whose slot read back
uncorrectable, and those vetoed by three or more receivers, the frame whose header cell on the next bus announces its last move, and the
frame from which new slots go out after the held ones (19 R397). -/
structure Link where
  wg : Nat := 0
  group : Nat := 0
  state : Nat := 0
  moves : Nat := 0
  unread : Nat := 0
  vetoed : Nat := 0
  announce : Nat := 0
  resume : Nat := 0
  deriving DecidableEq, Repr

/-- A `bst` payload emitted and not yet delivered (10 R268, 11 R289): bus, multicast group, words and lanes, the
frame and participant of its slot, the pack that sent it, the cores and banks at which a FIFO entry is promised, the clusters whose
rings have granted a slot, once it has arrived the clusters at which it still waits for its ring (10 R269), and its serial. -/
structure Payload where
  bus : Nat
  mgroup : Nat
  lanes : Mask
  vals : Words
  frame : Nat
  participant : Nat
  core : Nat
  slot : Nat
  tag : Tag
  group : Nat := 0
  lpack : Nat := 0
  promised : List (Nat × Nat)
  rings : List Nat
  late : Option (List Nat) := none
  serial : Nat
  deriving DecidableEq, Repr

/-- A logical core's binding (18 R389–R391). -/
structure Binding where
  handle : Word
  cluster : Nat
  position : Nat
  retired : Bool := false
  deriving DecidableEq, Repr

/-- The defect maps (18 R385–R388): the two copies' bytes, the units found by self-test with the ERRSEQ of the first, the units of
the map in force, and the installation registers. -/
structure Maps where
  copy1 : List Byte := []
  copy2 : List Byte := []
  test : List DefectUnit := []
  testSeq : Nat := 0
  force : List DefectUnit := []
  addr : DWord := 0
  stat : Nat := 0
  deriving DecidableEq, Repr

/-- The management controller (18 R382–R384): standby power, collectors (sender, port) oldest first, MSEQ, and the ns since the last
STATUS to the collectors. -/
structure Mgmt where
  standby : Bool := false
  collectors : List (Nat × Nat) := []
  mseq : Nat := 0
  wait : Nat := 0
  deriving DecidableEq, Repr

/-- A reservation that a host hart's LR holds: the bytes, their value, and the place in coherence order up to which it has seen them
(16 R356, 11 R290). -/
structure HartResv where
  pa : Nat
  size : Nat
  value : Nat
  serial : Nat
  deriving DecidableEq, Repr

/-- What leaves the module: MSI writes (16 R362), what a host hart's load, AMO, LR or SC gives it (16 R355, R356), management datagrams
with the Ethernet and IPv6 source addresses and the ports of both ends (18 R382, R384), emission frames (20 R413), journal
records and acknowledgements (20 R413, R414), heartbeats (20 R416), resume markers and chunks (19 R407), and the accesses of host harts to PCI
Express windows and ECAM space (16 R345, R365) (log entries 73, 92). -/
inductive OutMsg where
  | msi (pa eiid : Nat)
  | hartData (complex hart value : Nat)
  | datagram (mac src sport dest port : Nat) (bytes : List Byte)
  | emission (port dmac client seq pos : Nat) (token : Word) (resent forced : Bool)
  | record (peer : Nat) (ethernet : Bool) (rec : JRec)
  | ack (peer ctx seq ackIdx : Nat)
  | heartbeat (peer : Nat)
  | marker (resv plane : Nat)
  | chunk (resv chunk : Nat) (port : Option Nat) (offset bytes : Nat)
  | pcie (pa size : Nat) (op : HartOp) (value : Nat)
  deriving DecidableEq, Repr

/-- A partner store for streams of a source module (20 R414): base, size, bytes used, and per (context, sequence) the
stream index after the highest stored. -/
structure JStore where
  base : Nat
  size : Nat
  used : Nat := 0
  acks : List (Nat × Nat × Nat) := []
  deriving DecidableEq, Repr

/-- A watched peer (20 R416): whether it is a partner or a source of this module, when it was last heard and when it
was last sent to. -/
structure Peer where
  heard : Nat := 0
  sent : Nat := 0
  silent : Bool := false
  deriving DecidableEq, Repr

/-- What the schedule or the outside world does next (log entry 2). -/
inductive Move where
  /-- An event of the table strikes. -/
  | event (i : Instr)
  /-- This split issues its next word, where 09 R241 or R252 permits it. -/
  | issue (core slot split : Nat)
  /-- A port of this core issues the word that 09 R241 or R252 selects. -/
  | cycle (core : Nat)
  /-- Time passes, in ns. -/
  | elapse (ns : Nat)
  /-- A temperature sensor reads in °C: island 0–47, or 48 + m the laser module m (18 R375, 19 R399). -/
  | sense (unit temp : Nat)
  /-- The next chunk of a reservation's collective goes out (19 R404). -/
  | chunk (resv : Nat)
  /-- A chunk in flight has arrived at the peer (19 R404, R405). -/
  | landed (resv chunk : Nat)
  /-- A split that waits at a `qtok.acq` issues the broadcast store behind it first (11 R286, 14 R315). -/
  | ahead (core slot split : Nat)
  deriving DecidableEq, Repr

/-- The issue in progress: who issues, the address of the word, the word itself, the next address in sequence (03
R72), and the dictionary slot and index (03 R81). -/
structure Focus where
  core : Nat
  slot : Nat
  split : Nat
  addr : Word
  word : Word
  next : Word
  dslot : Nat := 0
  dindex : Nat := 0
  deriving DecidableEq, Repr

/-- The machine. `unstored` are the records, by source, context, sequence and stream index, that came while their source's store had no room
or was not open (20 R414). -/
structure State where
  cores : Table Core
  mem : Bytes
  stale : List StaleByte
  tlb : List TlbEntry
  walkCache : List WalkEntry
  pageLists : List PageList
  l2 : Table (List CacheLine)
  contexts : Table Context
  launches : List Launch
  waits : Table (Nat × Nat)
  served : Table Nat
  window : Bytes
  cmdStatus : Table Nat
  cmdHeld : Table (List Byte)
  migrations : Table Migration
  sems : Table Sem
  hartResvs : Table HartResv
  events : List Event
  errSeq : Nat
  errors : List OpenError
  gtime : Nat
  dev : Table Int
  corr : Table Int
  exchanged : Table Nat
  parents : Table Nat
  skew : Nat
  step : DWord
  slew : Nat
  islands : Table Island
  phase : Nat
  sheltered : Bool
  replReq : Bool
  mapCopy : Bool
  fieldMap : List Nat
  hosts : Nat
  bindings : List Binding
  spares : Table (List Nat)
  bindGen : Nat
  maps : Maps
  retired : List DefectUnit
  mgmt : Mgmt
  seams : List Nat
  deadLinks : List Nat
  settGen : Nat
  settRelay : Bool
  links : Table Link
  spareGroups : Table (List Nat)
  frame : Nat
  inflight : List Payload
  lasers : Table Laser
  ports : Table Port
  planes : Table Plane
  resvs : Table Resv
  nextResv : Nat
  stores : Table JStore
  unstored : List (Nat × Nat × Nat × Nat)
  peers : Table Peer
  failSilent : Bool
  outbox : List OutMsg
  agenda : List Move
  focus : Option Focus
  free : Nat
  clock : Nat
  deriving DecidableEq, Repr

/-- Reasons to stop with a fault. -/
inductive Fault where
  /-- Raised by HOST_HART_ACCESS and PCIE_ENDPOINT_WRITE at a physical address that 16 R345 does not list, or does not
  open to them. Safe: the machine stops where the spec gives no effect. -/
  | noSuchAddress (pa : Nat)
  deriving DecidableEq, Repr

/-- Reasons to refuse. -/
inductive Refusal where
  /-- Raised by an arm of exec whose instruction has no meaning yet. Safe. -/
  | notModelled (mnemonic : String)
  /-- Raised by an event whose own condition does not hold in this state: the hardware would not make it. Safe: the
  agenda asked for something that cannot come about. -/
  | notEnabled (event : String)
  /-- Raised by an instruction word's meaning when no issue is in progress (exec called outside step). Safe. -/
  | noIssuer (mnemonic : String)
  deriving DecidableEq, Repr

/-- What a step or a meaning answers. -/
abbrev Out := Host.Outcome State Fault Refusal

/-- The machine right after power-on reset, before bring-up: IDSTAT.PHASE 0 (18 R381), nothing placed, memory with
nothing listed, every register table at its Reset column (log entries 1, 5, 6, 8). -/
def State.reset : State where
  cores := []
  mem := []
  stale := []
  tlb := []
  walkCache := []
  pageLists := []
  l2 := []
  contexts := []
  launches := []
  waits := []
  served := []
  window := []
  cmdStatus := []
  cmdHeld := []
  migrations := []
  sems := []
  hartResvs := []
  events := []
  errSeq := 0
  errors := []
  gtime := 0
  dev := []
  corr := []
  exchanged := []
  parents := []
  skew := 0
  step := 0
  slew := 0
  islands := []
  phase := 0
  sheltered := false
  replReq := false
  mapCopy := false
  fieldMap := []
  hosts := 0
  bindings := []
  spares := []
  bindGen := 0
  maps := {}
  retired := []
  mgmt := {}
  seams := []
  deadLinks := []
  settGen := 0
  settRelay := false
  links := []
  spareGroups := []
  frame := 0
  inflight := []
  lasers := []
  ports := []
  planes := []
  resvs := []
  nextResv := 0
  stores := []
  unstored := []
  peers := []
  failSilent := false
  outbox := []
  agenda := []
  focus := none
  free := 0
  clock := 0

end Sys2Proof.Machine
end

