-- ==== Sys2Proof/Machine/Bits.lean ====
section
/-!
DEFINITION. Bits, lanes and lists: sets of lanes as lists in ascending order, counting and reversing bits, the integer
reading of words, and the field cutting that the other definitions share.
-/

namespace Sys2Proof.Machine

/-- The 32 lane numbers in ascending order (01 R11). -/
def allLanes : List Nat := List.range 32

/-- The lanes of a mask in ascending order. -/
def lanesOf (m : Mask) : List Nat := allLanes.filter fun i => m.getLsbD i

/-- The mask with exactly the listed lanes. -/
def maskOf (ls : List Nat) : Mask := ls.foldl (fun m i => m ||| (1#32 <<< i)) 0

/-- The lanes where `f` holds. -/
def maskWhere (f : Nat → Bool) : Mask := maskOf (allLanes.filter f)

/-- The lowest lane of a mask, 0 for the empty one. -/
def lowLane (m : Mask) : Nat := (lanesOf m).headD 0

/-- The number of set bits of a word, 0–32. -/
def popcount (x : Word) : Nat := (lanesOf x).length

/-- Lanes present in a pack of `s` slices (01 R11). -/
def presentMask (s : Nat) : Mask := BitVec.ofNat 32 (2 ^ (4 * s) - 1)

/-- The number of leading zero bits, 32 for 0. -/
def clz (x : Word) : Nat := if x.toNat = 0 then 32 else 31 - x.toNat.log2

/-- The number of trailing zero bits, 32 for 0. -/
def ctz (x : Word) : Nat := if x.toNat = 0 then 32 else lowLane x

/-- Bit i moved to bit 31 − i. -/
def brev (x : Word) : Word := maskOf ((lanesOf x).map fun i => 31 - i)

/-- `n` bits of a natural number from bit `lo`. -/
def cut (x lo n : Nat) : Nat := x / 2 ^ lo % 2 ^ n

/-- One bit of a natural number. -/
def bit (x i : Nat) : Bool := x / 2 ^ i % 2 == 1

/-- The low `n` bits of `x` read as signed. -/
def signedOf (n x : Nat) : Int := if x % 2 ^ n < 2 ^ (n - 1) then (x % 2 ^ n : Nat) else ((x % 2 ^ n : Nat) : Int) - (2 ^ n : Nat)

/-- The low `n` bits of an integer, in two's complement. -/
def wrap (n : Nat) (x : Int) : Nat := (x % ((2 ^ n : Nat) : Int)).toNat

/-- Whether a half-open range meets another. -/
def overlap (a n b m : Nat) : Bool := decide (a < b + m) && decide (b < a + n)

/-- Insert into an ascending list without repeating. -/
def insertNat : List Nat → Nat → List Nat
  | [], x => [x]
  | y :: r, x => if x < y then x :: y :: r else if x = y then y :: r else y :: insertNat r x

/-- The members in ascending order, each once. -/
def sortNats (l : List Nat) : List Nat := l.foldl insertNat []

/-- Insert before the first member with a larger key. -/
def insertBy {α : Type} (key : α → Nat) (x : α) : List α → List α
  | [] => [x]
  | y :: r => if key x < key y then x :: y :: r else y :: insertBy key x r

/-- Sort by a key, members of equal keys keeping their order. -/
def sortBy {α : Type} (key : α → Nat) (l : List α) : List α := l.foldl (fun acc x => insertBy key x acc) []

/-- The smallest number a predicate holds of, searched from `n` up over `fuel` numbers. -/
def firstFrom (p : Nat → Bool) : Nat → Nat → Option Nat
  | _, 0 => none
  | n, fuel + 1 => if p n then some n else firstFrom p (n + 1) fuel

/-- The smallest `k` below `fuel` that is not in the list. -/
def freshFrom (used : List Nat) (fuel : Nat) : Nat := (firstFrom (fun k => !used.contains k) 0 fuel).getD 0

/-- ceil(a / b). -/
def ceilDiv (a b : Nat) : Nat := (a + b - 1) / b

/-- Round `a` up to a multiple of `b`. -/
def roundUp (a b : Nat) : Nat := ceilDiv a b * b

/-- Change the members of a list that satisfy a predicate. -/
def mapIf {α : Type} (p : α → Bool) (f : α → α) (l : List α) : List α := l.map fun x => if p x then f x else x

end Sys2Proof.Machine
end

