-- ==== Sys2Proof/Machine/Phys.lean ====
section
/-!
DEFINITION. Physical memory: device bytes, the Sett status block as read by the lane path, and the one write through
which every agent's store to device memory goes, which drops the translations built from the lines it touches (16 R352).
-/

namespace Sys2Proof.Machine

/-- The address lies in device memory (16 R345). -/
def inDevice (pa n : Nat) : Bool := decide (pa + n ≤ Config.deviceMemory)

/-- The base of the broadcast aperture (10 R266). -/
def apertureBase : Nat := 0x00F0000000000000

/-- The address lies in the broadcast aperture (10 R266). -/
def inAperture (pa : Nat) : Bool := decide (apertureBase ≤ pa) && decide (pa < apertureBase + 0x8000)

/-- The base of the Sett status block (10 R270). -/
def settBase : Nat := 0x00F0000000010000

/-- The bytes lie in the Sett status block's 8 KiB (16 R345). -/
def inSett (pa n : Nat) : Bool := decide (settBase ≤ pa) && decide (pa + n ≤ settBase + 0x2000)

/-- The link of participant `p` on bus `b` (10 R271). -/
def State.link (s : State) (p b : Nat) : Link := s.links.getD (8 * p + b) {}

/-- The LINKS word (10 R271). -/
def Link.word (l : Link) : Nat :=
  l.wg % 4 + l.group % 64 * 4 + l.state % 4 * 256 + min l.moves 65535 * 65536

/-- Replacement requested, as IDSTAT and bit 0 of FLAGS show it: what bring-up asks for shows with its second write of the Sett status
block (10 R270, 18 R381) (log entry 52). -/
def State.replShown (s : State) : Bool := s.replReq && decide (5 ≤ s.phase)

/-- A byte of the Sett status block (10 R270). -/
def State.settByte (s : State) (off : Nat) : Byte :=
  if off < 8 then BitVec.ofNat 8 (s.settGen / 256 ^ off)
  else if off < 12 then
    BitVec.ofNat 8 (((if s.replShown then 1 else 0) + (if s.settRelay then 2 else 0)) / 256 ^ (off - 8))
  else if off < 64 then 0
  else if off < 96 then BitVec.ofNat 8 (s.spareGroups.getD (off - 64) []).length
  else if off < 107 then BitVec.ofNat 8 (s.seams.getD (off - 96) 0)
  else if off < 128 then 0
  else if off < 5312 then
    let k := off - 128
    BitVec.ofNat 8 ((s.link (k / 32) (k % 32 / 4)).word / 256 ^ (k % 4))
  else 0

/-- `n` bytes from `a`, lowest first, of a byte-valued function. -/
def readFn (f : Nat → Byte) (a : Nat) : Nat → Nat
  | 0 => 0
  | n + 1 => (f a).toNat + 256 * readFn f (a + 1) n

/-- The value of `n` bytes at a physical address open to loads (16 R345). -/
def State.physRead (s : State) (pa n : Nat) : Nat :=
  if inSett pa n then readFn (fun a => s.settByte (a - settBase)) pa n else s.mem.readLE pa n

/-- The 64-byte table lines that `n` bytes at `pa` touch (16 R351). -/
def linesOf (pa n : Nat) : List Nat := (List.range ((pa + n - 1) / 64 + 1 - pa / 64)).map fun k => pa / 64 + k

/-- Page-list entries built from a line are invalid (16 R352). -/
def State.dropPages (s : State) (p : Nat → Bool) : List PageList :=
  s.pageLists.map fun l => { l with pages := l.pages.filter fun e => !e.2.any p }

/-- Drop every TLB, walk-cache and page-list entry built from a line that the bytes touch (16 R352) (log entry 19). -/
def State.dropTranslations (s : State) (pa n : Nat) : State :=
  let ls := linesOf pa n
  { s with
    tlb := s.tlb.filter fun e => !e.lines.any ls.contains
    walkCache := s.walkCache.filter fun e => !ls.contains e.line
    pageLists := s.dropPages ls.contains }

/-- The history of device memory after one more write in coherence order: its bytes with the values they replace, those that
change nothing only for an engine write (11 R276, R285) (log entry 16). -/
def State.history (s : State) (w : Option Writer) (pa : Nat) (bs : List Byte) : List StaleByte :=
  let n := (s.stale.getLast?.elim 0 (·.serial)) + 1
  s.stale ++ (bs.zipIdx.filter fun b => w.isSome || s.mem.get (pa + b.2) != b.1).map fun b =>
    { pa := pa + b.2, old := s.mem.get (pa + b.2), serial := n, writer := w }

/-- Write the low `n` bytes of `v` at `pa` in device memory; translations built from those lines drop first (16 R352). -/
def State.physWrite (s : State) (pa n v : Nat) : State :=
  let s := s.dropTranslations pa n
  { s with mem := s.mem.writeLE pa n v, stale := s.history none pa (bytesLE n v) }

/-- Write a list of bytes at `pa`, for `w` where an engine path writes them. -/
def State.physWriteList (s : State) (pa : Nat) (bs : List Byte) (w : Option Writer := none) : State :=
  let s := s.dropTranslations pa bs.length
  { s with mem := s.mem.writeList pa bs, stale := s.history w pa bs }

/-- Engine writes become lane-visible (11 R285) (log entry 16). -/
def State.reveal (s : State) (p : Nat → Writer → Bool) : State :=
  { s with
    stale := s.stale.map fun b => if b.writer.any (p b.pa) then { b with writer := none } else b }

/-- Zero `n` bytes at `pa`: no earlier value of them can be read again (15 R343). -/
def State.physZero (s : State) (pa n : Nat) : State :=
  let ls := fun l => decide (pa / 64 ≤ l) && decide (l ≤ (pa + n - 1) / 64)
  { s with
    tlb := s.tlb.filter fun e => !e.lines.any ls
    walkCache := s.walkCache.filter fun e => !ls e.line
    pageLists := s.dropPages ls
    stale := s.stale.filter fun b => b.pa < pa || pa + n ≤ b.pa
    mem := s.mem.clear pa (pa + n) }

/-- Global time in ns (18 R377). -/
def State.now (s : State) : Nat := s.gtime / 65536

end Sys2Proof.Machine
end

