-- ==== Sys2Proof/Machine/Access.lean ====
section
/-!
DEFINITION. Reading and changing cores, packs and splits, and the registers of a pack: the one home of every register
class (01 R15), with absent lanes and the always-true predicate handled here (01 R11, R16).
-/

namespace Sys2Proof.Machine

/-- The core at physical index `c` (cluster × 128 + position, 08 R218). -/
def State.core (s : State) (c : Nat) : Core := s.cores.getD c {}

/-- Replace a core. -/
def State.setCore (s : State) (c : Nat) (k : Core) : State := { s with cores := s.cores.put c k }

/-- The pack resident in a slot. -/
def State.pack (s : State) (c slot : Nat) : Option Pack := (s.core c).packs.get slot

/-- Replace a resident pack. -/
def State.setPack (s : State) (c slot : Nat) (k : Pack) : State :=
  s.setCore c { s.core c with packs := (s.core c).packs.put slot k }

/-- Change a resident pack. -/
def State.modPack (s : State) (c slot : Nat) (f : Pack → Pack) : State :=
  match s.pack c slot with
  | some k => s.setPack c slot (f k)
  | none => s

/-- The split with this ID. -/
def Pack.split (k : Pack) (i : Nat) : Option Split := k.splits.get i

/-- Replace a split. -/
def Pack.setSplit (k : Pack) (sp : Split) : Pack := { k with splits := k.splits.put sp.id sp }

/-- Change a split. -/
def Pack.modSplit (k : Pack) (i : Nat) (f : Split → Split) : Pack := { k with splits := k.splits.update i f }

/-- The context of number `n`. -/
def State.context (s : State) (n : Nat) : Option Context := s.contexts.get n

/-- Replace a context. -/
def State.setContext (s : State) (c : Context) : State := { s with contexts := s.contexts.put c.num c }

/-- Change a context. -/
def State.modContext (s : State) (n : Nat) (f : Context → Context) : State :=
  { s with contexts := s.contexts.update n f }

/-- The launch with this tag. -/
def State.launch (s : State) (t : Tag) : Option Launch := s.launches.find? fun l => l.tag == t

/-- Change the launch with this tag. -/
def State.modLaunch (s : State) (t : Tag) (f : Launch → Launch) : State :=
  { s with launches := mapIf (fun l => l.tag == t) f s.launches }

/-- Change the placed group `x` of a launch. -/
def State.modGroup (s : State) (t : Tag) (x : Nat) (f : Group → Group) : State :=
  s.modLaunch t fun l => { l with groups := l.groups.update x f }

/-- The placed group of a pack. -/
def State.group (s : State) (t : Tag) (x : Nat) : Option Group :=
  match s.launch t with
  | some l => l.groups.get x
  | none => none

/-- The kernel header a pack runs under. -/
def State.header (s : State) (k : Pack) : KHeader :=
  match s.launch k.tag with
  | some l => l.hdr
  | none => {}

/-- FLAGS.DET of the pack's kernel (09 R251). -/
def KHeader.det (h : KHeader) : Bool := bit h.flags 0
/-- FLAGS.ROLES (03 R88). -/
def KHeader.hasRoles (h : KHeader) : Bool := bit h.flags 1
/-- FLAGS.JOURNAL (03 R88). -/
def KHeader.journal (h : KHeader) : Bool := bit h.flags 2
/-- FLAGS.PERSIST (03 R88). -/
def KHeader.persist (h : KHeader) : Bool := bit h.flags 3

/-- The lanes of a split that have not exited and are not absent (04 R91). -/
def Pack.live (k : Pack) (sp : Split) : Mask := sp.mask &&& ~~~k.exited &&& presentMask k.slices

/-- The bits of predicate `p`; 7 is always true (01 R12, R16). -/
def Pack.pred (k : Pack) (p : PReg) : Mask := if p = 7 then BitVec.allOnes 32 else k.p.get p.toNat

/-- The active lanes of a vector instruction with guard `g` (01 R12). -/
def Pack.active (k : Pack) (sp : Split) (g : PReg) : Mask := k.live sp &&& k.pred g

/-- The window entry of `e`r, if it has a write in the window (01 R27). -/
def Split.winReg (sp : Split) (r : Nat) : Option WinReg := sp.win.find? fun e => e.reg == r

/-- Lane `i` of a vector-class register: `v`k, or `e`k from the split's window (01 R15, R27). -/
def Pack.readV (k : Pack) (sp : Split) (r i : Nat) : Word :=
  if r < 120 then k.v.get (32 * r + i)
  else
    match sp.winReg (r - 120) with
    | some e => e.vals.get i
    | none => 0

/-- Write lane `i` of `v`r. -/
def Pack.setV (k : Pack) (r i : Nat) (x : Word) : Pack := { k with v := k.v.set (32 * r + i) x }

/-- Write `f` to the lanes of `m` in `v`r. -/
def Pack.setLanes (k : Pack) (r : Nat) (m : Mask) (f : Nat → Word) : Pack :=
  (lanesOf m).foldl (fun k i => k.setV r i (f i)) k

/-- Write `f` to the lanes of `m` in `e`r: the write replaces the register, and a lane outside `m` reads zero (01 R27). Age 0
stands for the instruction that is writing; retiring makes it 1. -/
def Split.setWin (sp : Split) (r : Nat) (m : Mask) (f : Nat → Word) : Split :=
  let vals := (lanesOf m).foldl (fun v i => Words.set v i (f i)) []
  { sp with win := { reg := r, age := 0, vals := vals } :: sp.win.filter fun e => e.reg != r }

/-- A uniform register. -/
def Pack.readG (k : Pack) (r : Nat) : Word := k.g.get r

/-- Write a uniform register. -/
def Pack.setG (k : Pack) (r : Nat) (x : Word) : Pack := { k with g := k.g.set r x }

/-- A 64-bit uniform pair, the even register low (01 R18). -/
def Pack.readG64 (k : Pack) (r : Nat) : DWord := k.readG (r + 1) ++ k.readG r

/-- Write a uniform pair. -/
def Pack.setG64 (k : Pack) (r : Nat) (x : DWord) : Pack :=
  (k.setG r (x.extractLsb' 0 32)).setG (r + 1) (x.extractLsb' 32 32)

/-- A lane's 64-bit vector pair. -/
def Pack.readV64 (k : Pack) (sp : Split) (r i : Nat) : DWord := k.readV sp (r + 1) i ++ k.readV sp r i

/-- Write the bits of `m` in `p`r from `f`; 7 discards (01 R16). -/
def Pack.setP (k : Pack) (r : PReg) (m f : Mask) : Pack :=
  if r = 7 then k else { k with p := k.p.set r.toNat ((k.p.get r.toNat &&& ~~~m) ||| (f &&& m)) }

/-- A tile register's handle. -/
def Pack.readT (k : Pack) (r : Nat) : Word := k.t.get r

/-- The key of element (i, j) of granule `a`. -/
def accKey (a i j : Nat) : Nat := 1024 * a + 32 * i + j

/-- Element (i, j) of an accumulator granule. -/
def Pack.readAcc (k : Pack) (a i j : Nat) : Word := k.acc.get (accKey a i j)

/-- Write element (i, j) of an accumulator granule. -/
def Pack.setAcc (k : Pack) (a i j : Nat) (x : Word) : Pack := { k with acc := k.acc.set (accKey a i j) x }

/-- A queue register. -/
def Pack.queue (k : Pack) (q : Nat) : Queue := k.queues.getD q {}

/-- Replace a queue register. -/
def Pack.setQueue (k : Pack) (q : Nat) (x : Queue) : Pack := { k with queues := k.queues.put q x }

/-- OR flags into `sr.fpstat` (01 R34). -/
def Pack.orFlags (k : Pack) (f : Word) : Pack := { k with fpstat := k.fpstat ||| (f &&& 0x1F) }

/-- The number of outstanding operations of a class: LDC, STC, CPC or TLC (04 R116). -/
def Pack.counter (k : Pack) (c : OpClass) : Nat := (k.ops.filter fun o => o.cls == c).length

/-- The mode of a bank (10 R260). -/
def Core.bank (k : Core) (b : Nat) : BankMode := k.banks.getD b .cache

/-- A FIFO bank's state. -/
def Core.fifo (k : Core) (b : Nat) : Fifo := k.fifos.getD b {}

/-- The cluster of a physical core (08 R218). -/
def clusterOf (c : Nat) : Nat := c / 128

/-- The compute field of a cluster (10 R264). -/
def fieldOf (cluster : Nat) : Nat := cluster / 4

/-- Draw the next free value (log entry 3). -/
def State.drawFree (s : State) : Word × State := (Config.freeWord s.free, { s with free := s.free + 1 })

/-- Free bytes (log entry 3). -/
def State.freeBytes (s : State) (n : Nat) : List Byte × State :=
  ((List.range n).map fun i => (Config.freeWord (s.free + i)).setWidth 8, { s with free := s.free + n })

/-- The next stamp of the model's order counter. -/
def State.tick (s : State) : Nat × State := (s.clock, { s with clock := s.clock + 1 })

end Sys2Proof.Machine
end

