-- ==== Sys2Proof/Machine/Cache.lean ====
section
/-!
DEFINITION. The directories of the L1s and the cluster L2s (10 R261–R263): which lines they keep, their use order, retain,
next-victim and table marks, and the L2 ways that accumulators hold. They never change what an access reads, but for a line that
leaves the L2 that applied an engine write: the write is then lane-visible (11 R285).
-/

namespace Sys2Proof.Machine

/-- The way a new line takes among `ways` of its set: a free one, else that of the least recently used among lines marked next victim,
then among lines not retained, then of the set (10 R261, R262), with the line it replaces (log entry 67). -/
def wayFor (ways : List Nat) (set : List CacheLine) : Option (Nat × Option Nat) :=
  match ways.find? fun w => !set.any fun x => x.way == w with
  | some w => some (w, none)
  | none =>
    ((set.filter fun x => x.victim && !x.retained).getLast? <|> (set.filter fun x => !x.retained).getLast? <|> set.getLast?).map
      fun x => (x.way, some x.line)

/-- Place a line in a way of its set; answers the line replaced (log entry 67). -/
def placeLine (sets : Nat) (ways : List Nat) (l : List CacheLine) (e : CacheLine) : List CacheLine × Option Nat :=
  match wayFor ways (l.filter fun x => x.line % sets == e.line % sets && ways.contains x.way) with
  | some (w, old) => ({ e with way := w } :: l.filter (fun x => some x.line != old), old)
  | none => (l, none)

/-- Use a line of a directory of `sets` sets: a hit moves it first and keeps its marks; a miss allocates where asked. Answers the
line replaced (log entry 67). -/
def touchLine (sets : Nat) (ways : List Nat) (alloc retain victim table : Bool) (l : List CacheLine) (line : Nat) :
    List CacheLine × Option Nat :=
  match l.find? fun x => x.line == line with
  | some x =>
    ({ x with retained := x.retained || retain, victim := x.victim && !retain, table := x.table || table } ::
      l.filter (fun y => y.line != line), none)
  | none =>
    if alloc then placeLine sets ways l { line := line, way := 0, retained := retain, victim := victim, table := table }
    else (l, none)

/-- Drop a line from every L1 of a cluster (10 R261). -/
def State.dropL1 (s : State) (cluster line : Nat) : State :=
  { s with
    cores := s.cores.map fun e =>
      if e.1 / 128 == cluster then (e.1, { e.2 with l1 := e.2.l1.filter fun x => x.line != line }) else e }

/-- A line leaves a cluster's L2: its L1 copies go first (10 R261), and engine writes that this L2 applied to it become
lane-visible (11 R285) (log entry 67). -/
def State.leaveL2 (s : State) (cluster line : Nat) : State :=
  let s := s.dropL1 cluster line
  ({ s with l2 := s.l2.update cluster fun l => l.filter fun x => x.line != line } : State).reveal fun pa w =>
    clusterOf w.core == cluster && pa / 128 == line

/-! ### Ways (10 R263, 18 R385) -/

/-- The L2 ways of a cluster that the map in force disables, and those retired since bring-up (18 R385, R386, 20 R424). -/
def State.deadWays (s : State) (cluster : Nat) : List Nat :=
  ((s.maps.force ++ s.retired).filter fun u => u.kind == 2 && 4 * cut u.loc 0 8 + cut u.loc 8 2 == cluster).map fun u => cut u.loc 10 4

/-- The ways of a set that accumulators of the cluster's groups hold (10 R263). -/
def State.accWays (s : State) (cluster set : Nat) : List Nat :=
  s.launches.flatMap fun l => l.groups.flatMap fun g =>
    if g.2.cluster == cluster then (g.2.accs.filter fun a => a.set == set).map (·.way) else []

/-- The ways in which a set of a cluster's L2 keeps lines. -/
def State.l2Ways (s : State) (cluster set : Nat) : List Nat :=
  (List.range 16).filter fun w => !(s.deadWays cluster).contains w && !(s.accWays cluster set).contains w

/-- The nearest set in ascending order with room for one more accumulator: fewer than 8 of its ways hold one (10 R263) (log
entry 67). -/
def State.accSet (s : State) (cluster : Nat) : (fuel set : Nat) → Nat
  | 0, set => set
  | n + 1, set =>
    if (s.accWays cluster set).length < 8 && !(s.l2Ways cluster set).isEmpty then set else s.accSet cluster n ((set + 1) % 16384)

/-- Take the set and way that a new accumulator for a destination holds; the line that stood there leaves (10 R263). -/
def State.pinWay (s : State) (cluster dest : Nat) : State × Nat × Nat :=
  let set := s.accSet cluster 16384 (dest / 128 % 16384)
  match wayFor (s.l2Ways cluster set) ((s.l2.getD cluster []).filter fun x => x.line % 16384 == set) with
  | some (w, some old) => (s.leaveL2 cluster old, set, w)
  | some (w, none) => (s, set, w)
  | none => (s, set, 0)

/-! ### Uses -/

/-- Some L2 holds the line with a table mark (16 R352). -/
def State.tableMark (s : State) (line : Nat) : Bool := s.l2.any fun e => e.2.any fun x => x.line == line && x.table

/-- A walk of a unit with no L2 of its own reads a line: the L2s that hold it mark it (16 R352). -/
def State.markTable (s : State) (line : Nat) : State :=
  { s with l2 := s.l2.map fun e => (e.1, e.2.map fun x => if x.line == line then { x with table := true } else x) }

/-- A cluster's L2 uses a line under an L2 policy; `table` says that a walk reads it (10 R262, 16 R352) (log entry 67). -/
def State.useL2 (s : State) (cluster pol line : Nat) (table : Bool := false) : State :=
  let t := touchLine 16384 (s.l2Ways cluster (line % 16384)) true (pol == 2) (pol == 1) (table || s.tableMark line)
    (s.l2.getD cluster []) line
  let u := match t.2 with
    | some old => s.leaveL2 cluster old
    | none => s
  { u with l2 := u.l2.put cluster t.1 }

/-- A load on the lane path uses a line under its CACHE hint: the L1 unless it is bypassed, and the L2 (10 R261, R262). -/
def State.cacheLoad (s : State) (core pol line : Nat) : State :=
  let c := s.core core
  let ways := (List.range 16).filter fun b => c.bank b == .cache
  let hit := c.l1.any fun x => x.line == line
  let s :=
    if bit pol 4 || ways.isEmpty then s
    else s.setCore core { c with l1 := (touchLine 512 ways (cut pol 0 2 != 1) (cut pol 0 2 == 2) false false c.l1 line).1 }
  if hit && !bit pol 4 then s else s.useL2 (clusterOf core) (cut pol 2 2) line

/-- Every L2 but a cluster's own loses a line that is written (10 R263). -/
def State.takeLine (s : State) (cluster : Option Nat) (line : Nat) : State :=
  (s.l2.filter fun e => some e.1 != cluster && e.2.any fun x => x.line == line).foldl (fun s e => s.leaveL2 e.1 line) s

/-- A cluster writes a line: its L2 owns it, with the table mark another held (10 R263, 16 R352). -/
def State.cacheWrite (s : State) (core pol line : Nat) : State :=
  (s.takeLine (some (clusterOf core)) line).useL2 (clusterOf core) (cut pol 2 2) line (s.tableMark line)

/-- The 128-byte lines that `n` bytes touch. -/
def lines128 (pa n : Nat) : List Nat :=
  if n = 0 then [] else (List.range ((pa + n - 1) / 128 + 1 - pa / 128)).map fun k => pa / 128 + k

/-- Bytes written at a line's point of coherence by a unit that keeps no copy, such as a host or the distributor: every L2 loses the line, and
its L1 copies go (R263, 11 R285, R290) (log entry 67). -/
def State.outsideWrite (s : State) (pa : Nat) (bs : List Byte) : State :=
  ((lines128 pa bs.length).foldl (fun s l => s.takeLine none l) s).physWriteList pa bs

/-- Device bytes written by a unit of a cluster: other L2s lose the line, and the cluster's L1s drop it first (11 R285). -/
def State.unitWrite (s : State) (cluster pa : Nat) (bs : List Byte) : State :=
  let s := (lines128 pa bs.length).foldl (fun s l => (s.cacheWrite (128 * cluster) 0 l).dropL1 cluster l) s
  s.physWriteList pa bs

/-- Device memory changes owner: no L2 keeps a retain mark on its lines (10 R262). -/
def State.unretain (s : State) (pa n : Nat) : State :=
  { s with
    l2 := s.l2.map fun e => (e.1, e.2.map fun x =>
      if decide (pa / 128 ≤ x.line) && decide (x.line * 128 < pa + n) then { x with retained := false } else x) }

/-- An engine of a core reads runs of device memory through its cluster's L2 (10 R261). -/
def State.useRuns (s : State) (core pol : Nat) (rs : List (Nat × Nat × Nat)) : State :=
  rs.foldl (fun s r => (lines128 r.1 r.2.1).foldl (fun s l => s.useL2 (clusterOf core) (cut pol 2 2) l) s) s

end Sys2Proof.Machine
end

