-- ==== Sys2Proof/WellFormed.lean ====
section
/-!
DEFINITION. Well-formed instructions: the operands an encoding admits beyond what their types already hold. Each
conjunct names the rule that refuses the other values; Decode refuses exactly these words.
-/

namespace Sys2Proof

/-- The system register numbers of 08 R227. -/
def knownSrn (s : BitVec 12) : Bool :=
  s == 0x000 || s == 0x001 || s == 0x010 || s == 0x011 || (decide (0x020 ≤ s.toNat) && decide (s.toNat ≤ 0x023)) ||
    (decide (0x030 ≤ s.toNat) && decide (s.toNat ≤ 0x032)) || (decide (0x040 ≤ s.toNat) && decide (s.toNat ≤ 0x04B))

/-- The instruction's operands are those an encoding admits: condition codes below 11 (04 R101, 05 R128), the unary
types (05 R129), selectors in range (05 R133–R138), data destinations among `v0`–`v119` (06 R142), fence scopes and
kinds and paths (06 R162, R163), work-identifier fields 0–5 (08 R215), assigned system registers (08 R227), rounding
modes and cache policies (03 R73), and P = 7 written `jmp` (04 R106). -/
def Instr.wf : Instr → Bool
  | .cmp _ _ c _ _ => decide (c.toNat < 11)
  | .cmpa _ _ c _ _ => decide (c.toNat < 11)
  | .cmpU _ c _ _ => decide (c.toNat < 11)
  | .cmpaU _ c _ _ => decide (c.toNat < 11)
  | .cmpi _ _ c _ _ => decide (c.toNat < 11)
  | .br p _ => p != 7
  | .fcmp _ _ c _ _ => decide (c.toNat < 11)
  | .fcmpa _ _ c _ _ => decide (c.toNat < 11)
  | .fneg _ _ _ t => t != 3
  | .fabs _ _ _ t => t != 3
  | .fsqrt _ _ _ t => t != 3
  | .frsq _ _ _ t => t != 3
  | .frcp _ _ _ t => t != 3
  | .fexp2 _ _ _ t => t != 3
  | .flog2 _ _ _ t => t != 3
  | .fsinpi _ _ _ t => t != 3
  | .fcospi _ _ _ t => t != 3
  | .frint _ _ _ t => t != 3
  | .fclass _ _ _ t => t != 3
  | .pk8E4m3 _ _ _ s _ => decide (s.toNat < 4)
  | .pk8E5m2 _ _ _ s _ => decide (s.toNat < 4)
  | .srnd _ _ _ s _ => decide (s.toNat < 5)
  | .upk16F16 _ _ s _ => decide (s.toNat < 2)
  | .upk16Bf16 _ _ s _ => decide (s.toNat < 2)
  | .upk8E4m3 _ _ s _ => decide (s.toNat < 4)
  | .upk8E5m2 _ _ s _ => decide (s.toNat < 4)
  | .upk8I8 _ _ s _ => decide (s.toNat < 4)
  | .fscaleE3m5 _ _ _ s _ => decide (s.toNat < 4)
  | .ldB32 _ d _ _ => decide (d.toNat < 120)
  | .ldB8 _ d _ => decide (d.toNat < 120)
  | .ldS8 _ d _ => decide (d.toNat < 120)
  | .ldB16 _ d _ => decide (d.toNat < 120)
  | .ldS16 _ d _ => decide (d.toNat < 120)
  | .ldB64 _ d _ => decide (d.toNat < 120)
  | .ldB128 _ d _ => decide (d.toNat < 120)
  | .ldpB32 _ d _ => decide (d.toNat < 120)
  | .ldpB64 _ d _ => decide (d.toNat < 120)
  | .gatherB32 _ d _ _ => decide (d.toNat < 120)
  | .atomAddI32 _ d _ n => (n == 1 || decide (d.toNat < 120))
  | .atomAndB32 _ d _ n => (n == 1 || decide (d.toNat < 120))
  | .atomOrB32 _ d _ n => (n == 1 || decide (d.toNat < 120))
  | .atomXorB32 _ d _ n => (n == 1 || decide (d.toNat < 120))
  | .atomMinI32 _ d _ n => (n == 1 || decide (d.toNat < 120))
  | .atomMaxI32 _ d _ n => (n == 1 || decide (d.toNat < 120))
  | .atomMinuI32 _ d _ n => (n == 1 || decide (d.toNat < 120))
  | .atomMaxuI32 _ d _ n => (n == 1 || decide (d.toNat < 120))
  | .atomXchgB32 _ d _ n => (n == 1 || decide (d.toNat < 120))
  | .atomCasB32 _ d _ n => (n == 1 || decide (d.toNat < 120))
  | .atomAddF32 _ d _ n => (n == 1 || decide (d.toNat < 120))
  | .atomAddI64 _ d _ n => (n == 1 || decide (d.toNat < 120))
  | .atomCasB64 _ d _ n => (n == 1 || decide (d.toNat < 120))
  | .fence k s => (k != 3 && decide (s.toNat < 5))
  | .xfence t f s => (decide (t.toNat < 6) && decide (f.toNat < 6) && decide (s.toNat < 5))
  | .fpop _ d _ => decide (d.toNat < 120)
  | .qpop _ d _ => decide (d.toNat < 120)
  | .ldsB32 _ d _ _ => decide (d.toNat < 120)
  | .widf _ _ k => decide (k.toNat < 6)
  | .wlpop _ d _ _ => decide (d.toNat < 120)
  | .rdsr _ s => knownSrn s
  | .wrsr _ s => knownSrn s
  | .hintRnd s m => (m == 5 || s == 0) && decide (m.toNat < 6)
  | .hintCache _ c l => (l != 3 && c != 3)
  | _ => true

end Sys2Proof
end

