-- ==== Sys2Proof/Decode.lean ====
section
/-!
DEFINITION. Decoding. `wordReason` gives the REASON code of 03 R81 under which the device refuses a word, or none where
the word is an instruction; within a word the checks stand in the order of the REASON codes (03 R80): the primary, FN, M
and condition field (0), reserved bits and the fixed guard (1), register classes (2), selectors (3), hint kinds and modes
(4). `buildWord` cuts the fields of a word that is an instruction. Then the encoder, written from the same tables, and the
host's reading of a table word. The builders are marked noncomputable because compiled code cannot hold a constructor tag
above 244, and the table has 425 rows; the kernel evaluates them.
-/

namespace Sys2Proof

/-- A decoded instruction, or the REASON of the ILLOP. -/
abbrev Dec := Except Nat Instr

/-- The field of `n` bits of `w` whose lowest bit is `lo`. -/
def fld (w : Word) (lo n : Nat) : BitVec n := w.extractLsb' lo n

/-- The guard field (03 R67). -/
def guard (w : Word) : BitVec 3 := fld w 22 3

/-- Refuse with REASON `r` unless `c` holds. -/
def req (r : Nat) (c : Bool) (k : Option Nat) : Option Nat := if c then k else some r

/-- The REASON of a word of primaries 0x01–0x27 (04 R90), none for an instruction. -/
def reasonInt (w : Word) (prim : Nat) : Option Nat :=
  match prim with
  | 0x01 => if fld w 0 1 == 0 then none
    else none
  | 0x02 => if fld w 0 1 == 0 then none
    else none
  | 0x03 => if fld w 0 1 == 0 then none
    else none
  | 0x04 => if fld w 0 1 == 0 then none
    else some 0
  | 0x05 => if fld w 0 1 == 0 then none
    else none
  | 0x06 => if fld w 0 1 == 0 then none
    else none
  | 0x07 => if fld w 0 1 == 0 then none
    else none
  | 0x08 => if fld w 0 1 == 0 then none
    else none
  | 0x09 => if fld w 0 1 == 0 then none
    else none
  | 0x0A => if fld w 0 1 == 0 then none
    else none
  | 0x13 => if fld w 0 1 == 0 then req 1 (guard w == 7) <| req 2 (fld w 21 1 == 0 && fld w 14 1 == 0 && fld w 7 1 == 0) <| none
    else req 1 (guard w == 7) <| req 2 (fld w 21 1 == 0 && fld w 14 1 == 0 && fld w 7 1 == 0) <| none
  | 0x14 => if fld w 0 1 == 0 then req 1 (guard w == 7) <| req 2 (fld w 21 1 == 0 && fld w 14 1 == 0 && fld w 7 1 == 0) <| none
    else req 1 (guard w == 7) <| req 2 (fld w 21 1 == 0 && fld w 14 1 == 0 && fld w 7 1 == 0) <| none
  | 0x15 => if fld w 0 1 == 0 then req 1 (guard w == 7) <| req 2 (fld w 21 1 == 0 && fld w 14 1 == 0 && fld w 7 1 == 0) <| none
    else req 1 (guard w == 7) <| req 2 (fld w 21 1 == 0 && fld w 14 1 == 0 && fld w 7 1 == 0) <| none
  | 0x16 => if fld w 0 1 == 0 then req 1 (guard w == 7) <| req 2 (fld w 21 1 == 0 && fld w 14 1 == 0 && fld w 7 1 == 0) <| none
    else some 0
  | 0x17 => if fld w 0 1 == 0 then req 1 (guard w == 7) <| req 2 (fld w 21 1 == 0 && fld w 14 1 == 0 && fld w 7 1 == 0) <| none
    else req 1 (guard w == 7) <| req 2 (fld w 21 1 == 0 && fld w 14 1 == 0 && fld w 7 1 == 0) <| none
  | 0x18 => if fld w 0 1 == 0 then req 1 (guard w == 7) <| req 2 (fld w 21 1 == 0 && fld w 14 1 == 0 && fld w 7 1 == 0) <| none
    else req 1 (guard w == 7) <| req 2 (fld w 21 1 == 0 && fld w 14 1 == 0 && fld w 7 1 == 0) <| none
  | 0x19 => if fld w 0 1 == 0 then req 1 (guard w == 7) <| req 2 (fld w 21 1 == 0 && fld w 14 1 == 0 && fld w 7 1 == 0) <| none
    else req 1 (guard w == 7) <| req 2 (fld w 21 1 == 0 && fld w 14 1 == 0 && fld w 7 1 == 0) <| none
  | 0x1A => if fld w 0 1 == 0 then req 1 (guard w == 7) <| req 2 (fld w 21 1 == 0 && fld w 14 1 == 0 && fld w 7 1 == 0) <| none
    else req 1 (guard w == 7) <| req 2 (fld w 21 1 == 0 && fld w 14 1 == 0 && fld w 7 1 == 0) <| none
  | 0x1B => if fld w 0 1 == 0 then req 1 (guard w == 7) <| req 2 (fld w 21 1 == 0 && fld w 14 1 == 0 && fld w 7 1 == 0) <| none
    else req 1 (guard w == 7) <| req 2 (fld w 21 1 == 0 && fld w 14 1 == 0 && fld w 7 1 == 0) <| none
  | 0x1C => if fld w 0 1 == 0 then req 1 (guard w == 7) <| req 2 (fld w 21 1 == 0 && fld w 14 1 == 0 && fld w 7 1 == 0) <| none
    else req 1 (guard w == 7) <| req 2 (fld w 21 1 == 0 && fld w 14 1 == 0 && fld w 7 1 == 0) <| none
  | 0x0B => if fld w 0 1 == 0 then none
    else none
  | 0x0C => if fld w 0 1 == 0 then none
    else some 0
  | 0x0D => if fld w 0 1 == 0 then req 0 (decide ((fld w 15 4).toNat < 11)) <| none
    else req 0 (decide ((fld w 15 4).toNat < 11)) <| none
  | 0x1D => if fld w 0 1 == 0 then req 0 (decide ((fld w 15 4).toNat < 11)) <| req 1 (guard w == 7) <| req 2 (fld w 14 1 == 0 && fld w 7 1 == 0) <| none
    else req 0 (decide ((fld w 15 4).toNat < 11)) <| req 1 (guard w == 7) <| req 2 (fld w 14 1 == 0 && fld w 7 1 == 0) <| none
  | 0x0E => req 0 (decide ((fld w 15 4).toNat < 11)) <| none
  | 0x0F => match (fld w 0 8).toNat with
    | 0 => none
    | 2 => none
    | 4 => none
    | 6 => none
    | 8 => none
    | 10 => none
    | 12 => none
    | 14 => none
    | 16 => none
    | 18 => none
    | 20 => none
    | 22 => none
    | 1 => req 1 (guard w == 7) <| req 2 (fld w 21 1 == 0 && fld w 14 1 == 0) <| none
    | 3 => req 1 (guard w == 7) <| req 2 (fld w 21 1 == 0 && fld w 14 1 == 0) <| none
    | 5 => req 1 (guard w == 7) <| req 2 (fld w 21 1 == 0 && fld w 14 1 == 0) <| none
    | 7 => req 1 (guard w == 7) <| req 2 (fld w 21 1 == 0 && fld w 14 1 == 0) <| none
    | 9 => req 1 (guard w == 7) <| req 2 (fld w 21 1 == 0 && fld w 14 1 == 0) <| none
    | 11 => req 1 (guard w == 7) <| req 2 (fld w 21 1 == 0 && fld w 14 1 == 0) <| none
    | 13 => req 1 (guard w == 7) <| req 2 (fld w 21 1 == 0 && fld w 14 1 == 0) <| none
    | 15 => req 1 (guard w == 7) <| req 2 (fld w 21 1 == 0 && fld w 14 1 == 0) <| none
    | 17 => req 1 (guard w == 7) <| req 2 (fld w 21 1 == 0 && fld w 14 1 == 0) <| none
    | 19 => req 1 (guard w == 7) <| req 2 (fld w 21 1 == 0 && fld w 14 1 == 0) <| none
    | 21 => req 1 (guard w == 7) <| req 2 (fld w 21 1 == 0 && fld w 14 1 == 0) <| none
    | 23 => req 1 (guard w == 7) <| req 2 (fld w 21 1 == 0 && fld w 14 1 == 0) <| none
    | _ => some 0
  | 0x10 => none
  | 0x11 => match (fld w 8 7).toNat with
    | 0 => none
    | 1 => req 1 (guard w == 7) <| req 2 (fld w 21 1 == 0) <| none
    | _ => some 0
  | 0x1E => req 1 (guard w == 7) <| req 2 (fld w 21 1 == 0 && fld w 14 1 == 0) <| none
  | 0x1F => req 1 (guard w == 7) <| req 2 (fld w 21 1 == 0 && fld w 14 1 == 0) <| none
  | 0x12 => match (fld w 6 2).toNat, (fld w 0 1).toNat with
    | 0, 0 => none
    | 1, 0 => none
    | 2, 0 => none
    | 3, 0 => none
    | 0, 1 => req 1 (guard w == 7) <| req 2 (fld w 21 1 == 0 && fld w 14 1 == 0) <| none
    | 1, 1 => req 1 (guard w == 7) <| req 2 (fld w 21 1 == 0 && fld w 14 1 == 0) <| none
    | 2, 1 => req 1 (guard w == 7) <| req 2 (fld w 21 1 == 0 && fld w 14 1 == 0) <| none
    | _, _ => req 1 (guard w == 7) <| req 2 (fld w 21 1 == 0 && fld w 14 1 == 0) <| none
  | 0x20 => match (fld w 1 4).toNat with
    | 0 => req 1 (fld w 0 1 == 0) <| req 2 (fld w 18 4 == 0 && fld w 11 4 == 0) <| none
    | 1 => req 1 (fld w 0 1 == 0) <| req 2 (fld w 18 4 == 0 && fld w 11 4 == 0) <| none
    | 2 => req 1 (fld w 0 1 == 0) <| req 2 (fld w 18 4 == 0 && fld w 11 4 == 0) <| none
    | 3 => req 1 (fld w 0 1 == 0) <| req 2 (fld w 18 4 == 0 && fld w 11 4 == 0) <| none
    | _ => some 0
  | 0x21 => if fld w 19 3 == 7 then req 1 (guard w == 7) <| none
    else req 1 (guard w == 7) <| none
  | 0x22 => req 1 (guard w == 7) <| none
  | 0x23 => req 1 (guard w == 7 && fld w 8 7 == 0) <| none
  | 0x24 => match (fld w 1 7).toNat with
    | 0 => req 1 (guard w == 7 && fld w 0 1 == 0 && fld w 15 7 == 0) <| none
    | 1 => req 1 (guard w == 7 && fld w 0 1 == 0) <| none
    | 2 => req 1 (guard w == 7 && fld w 0 1 == 0 && fld w 8 14 == 0) <| none
    | 3 => req 1 (fld w 0 1 == 0 && fld w 8 14 == 0) <| none
    | 4 => req 1 (fld w 0 1 == 0 && fld w 8 14 == 0) <| none
    | _ => some 0
  | 0x25 => req 1 (guard w == 7) <| none
  | 0x26 => if fld w 0 1 == 0 then req 2 (fld w 14 1 == 0) <| none
    else req 2 (fld w 14 1 == 0) <| none
  | 0x27 => match (fld w 1 7).toNat with
    | 0 => req 1 (fld w 0 1 == 0) <| req 2 (fld w 14 1 == 0) <| none
    | 1 => req 1 (guard w == 7 && fld w 0 1 == 0) <| req 2 (fld w 18 4 == 0 && fld w 14 1 == 0) <| none
    | 2 => req 1 (guard w == 7 && fld w 0 1 == 0) <| req 2 (fld w 21 1 == 0 && fld w 11 4 == 0) <| none
    | 3 => req 1 (fld w 0 1 == 0) <| req 2 (fld w 11 4 == 0) <| none
    | 4 => req 1 (fld w 0 1 == 0) <| req 2 (fld w 18 4 == 0) <| none
    | 5 => req 1 (fld w 0 1 == 0 && fld w 8 7 == 0) <| none
    | _ => req 0 (fld w 6 2 == 1) <| req 1 (guard w == 7 && fld w 0 1 == 0) <| req 2 (fld w 21 1 == 0) <| none
  | _ => some 0

/-- The REASON of a word of primaries 0x28–0x3F (05 R119), none for an instruction. -/
def reasonFloat (w : Word) (prim : Nat) : Option Nat :=
  match prim with
  | 0x28 => if fld w 0 1 == 0 then none
    else none
  | 0x29 => if fld w 0 1 == 0 then none
    else none
  | 0x2A => if fld w 0 1 == 0 then none
    else none
  | 0x2B => if fld w 0 1 == 0 then none
    else none
  | 0x2C => if fld w 0 1 == 0 then none
    else none
  | 0x2D => if fld w 0 1 == 0 then none
    else none
  | 0x2E => if fld w 0 1 == 0 then none
    else none
  | 0x2F => if fld w 0 1 == 0 then none
    else none
  | 0x30 => if fld w 0 1 == 0 then none
    else none
  | 0x31 => if fld w 0 1 == 0 then none
    else none
  | 0x32 => if fld w 0 1 == 0 then req 0 (decide ((fld w 15 4).toNat < 11)) <| none
    else req 0 (decide ((fld w 15 4).toNat < 11)) <| none
  | 0x33 => match (fld w 0 6).toNat with
    | 0 => req 0 ((fld w 6 2) != 3) <| none
    | 2 => req 0 ((fld w 6 2) != 3) <| none
    | 4 => req 0 ((fld w 6 2) != 3) <| none
    | 6 => req 0 ((fld w 6 2) != 3) <| none
    | 8 => req 0 ((fld w 6 2) != 3) <| none
    | 10 => req 0 ((fld w 6 2) != 3) <| none
    | 12 => req 0 ((fld w 6 2) != 3) <| none
    | 14 => req 0 ((fld w 6 2) != 3) <| none
    | 16 => req 0 ((fld w 6 2) != 3) <| none
    | 18 => req 0 ((fld w 6 2) != 3) <| none
    | 20 => req 0 ((fld w 6 2) != 3) <| none
    | _ => some 0
  | 0x34 => if fld w 0 1 == 0 then none
    else none
  | 0x35 => if fld w 0 1 == 0 then none
    else none
  | 0x36 => req 3 (decide ((fld w 5 3).toNat < 4)) <| none
  | 0x37 => req 3 (decide ((fld w 5 3).toNat < 4)) <| none
  | 0x38 => req 3 (decide ((fld w 5 3).toNat < 5)) <| none
  | 0x39 => none
  | 0x3A => req 1 (fld w 8 7 == 0) <| none
  | 0x3B => match (fld w 8 7).toNat with
    | 0 => req 3 (decide ((fld w 5 3).toNat < 2)) <| none
    | 1 => req 3 (decide ((fld w 5 3).toNat < 2)) <| none
    | 2 => req 3 (decide ((fld w 5 3).toNat < 4)) <| none
    | 3 => req 3 (decide ((fld w 5 3).toNat < 4)) <| none
    | 4 => req 3 (decide ((fld w 5 3).toNat < 4)) <| none
    | 5 => none
    | 6 => none
    | _ => some 0
  | 0x3C => if fld w 0 1 == 0 then none
    else none
  | 0x3D => if fld w 0 1 == 0 then none
    else none
  | 0x3E => req 3 (decide ((fld w 5 3).toNat < 4)) <| none
  | 0x3F => match (fld w 0 8).toNat with
    | 0 => none
    | 2 => none
    | 4 => none
    | 6 => none
    | 8 => none
    | 10 => none
    | 12 => none
    | 14 => none
    | _ => some 0
  | _ => some 0

/-- The REASON of a word of primaries 0x40–0x57 (06 R141), none for an instruction. -/
def reasonMem (w : Word) (prim : Nat) : Option Nat :=
  match prim with
  | 0x40 => req 2 (decide ((fld w 15 7).toNat < 120)) <| none
  | 0x41 => none
  | 0x42 => match (fld w 0 8).toNat with
    | 0 => req 2 (decide ((fld w 15 7).toNat < 120)) <| none
    | 2 => req 2 (decide ((fld w 15 7).toNat < 120)) <| none
    | 4 => req 2 (decide ((fld w 15 7).toNat < 120)) <| none
    | 6 => req 2 (decide ((fld w 15 7).toNat < 120)) <| none
    | 8 => req 2 (decide ((fld w 15 7).toNat < 120)) <| none
    | 10 => req 2 (decide ((fld w 15 7).toNat < 120)) <| none
    | 12 => req 2 (decide ((fld w 15 7).toNat < 120)) <| none
    | 14 => req 2 (decide ((fld w 15 7).toNat < 120)) <| none
    | _ => some 0
  | 0x43 => match (fld w 0 8).toNat with
    | 0 => none
    | 2 => none
    | 8 => none
    | 10 => none
    | _ => some 0
  | 0x44 => req 1 (guard w == 7) <| req 2 (fld w 21 1 == 0 && fld w 14 1 == 0) <| none
  | 0x45 => req 1 (guard w == 7) <| req 2 (fld w 21 1 == 0 && fld w 14 1 == 0) <| none
  | 0x46 => match (fld w 0 8).toNat with
    | 0 => req 1 (guard w == 7) <| req 2 (fld w 21 1 == 0 && fld w 14 1 == 0) <| none
    | 2 => req 1 (guard w == 7) <| req 2 (fld w 21 1 == 0 && fld w 14 1 == 0) <| none
    | _ => some 0
  | 0x47 => if fld w 0 1 == 0 then req 2 (fld w 14 1 == 0 && decide ((fld w 15 7).toNat < 120)) <| none
    else req 2 (fld w 14 1 == 0) <| none
  | 0x48 => if fld w 0 1 == 0 then req 1 (fld w 1 7 == 0) <| req 2 (fld w 21 1 == 0) <| none
    else req 1 (fld w 1 7 == 0) <| req 2 (fld w 21 1 == 0) <| none
  | 0x49 => match (fld w 1 7).toNat with
    | 0 => req 2 (((fld w 0 1) == 1 || decide ((fld w 15 7).toNat < 120))) <| none
    | 1 => req 2 (((fld w 0 1) == 1 || decide ((fld w 15 7).toNat < 120))) <| none
    | 2 => req 2 (((fld w 0 1) == 1 || decide ((fld w 15 7).toNat < 120))) <| none
    | 3 => req 2 (((fld w 0 1) == 1 || decide ((fld w 15 7).toNat < 120))) <| none
    | 4 => req 2 (((fld w 0 1) == 1 || decide ((fld w 15 7).toNat < 120))) <| none
    | 5 => req 2 (((fld w 0 1) == 1 || decide ((fld w 15 7).toNat < 120))) <| none
    | 6 => req 2 (((fld w 0 1) == 1 || decide ((fld w 15 7).toNat < 120))) <| none
    | 7 => req 2 (((fld w 0 1) == 1 || decide ((fld w 15 7).toNat < 120))) <| none
    | 8 => req 2 (((fld w 0 1) == 1 || decide ((fld w 15 7).toNat < 120))) <| none
    | 9 => req 2 (((fld w 0 1) == 1 || decide ((fld w 15 7).toNat < 120))) <| none
    | 10 => req 2 (((fld w 0 1) == 1 || decide ((fld w 15 7).toNat < 120))) <| none
    | 11 => req 2 (((fld w 0 1) == 1 || decide ((fld w 15 7).toNat < 120))) <| none
    | 12 => req 2 (((fld w 0 1) == 1 || decide ((fld w 15 7).toNat < 120))) <| none
    | _ => some 0
  | 0x4A => match (fld w 1 7).toNat with
    | 0 => req 1 (fld w 0 1 == 0) <| none
    | 1 => req 1 (fld w 0 1 == 0) <| none
    | 2 => req 1 (fld w 0 1 == 0) <| none
    | 3 => req 1 (fld w 0 1 == 0) <| none
    | 4 => req 1 (fld w 0 1 == 0) <| none
    | 5 => req 1 (fld w 0 1 == 0) <| none
    | 6 => req 1 (fld w 0 1 == 0) <| none
    | 7 => req 1 (fld w 0 1 == 0) <| none
    | 8 => req 1 (fld w 0 1 == 0) <| none
    | 16 => req 1 (fld w 0 1 == 0) <| none
    | 17 => req 1 (fld w 0 1 == 0) <| none
    | 18 => req 1 (fld w 0 1 == 0) <| none
    | _ => some 0
  | 0x4B => match (fld w 0 8).toNat with
    | 0 => req 1 (guard w == 7 && fld w 8 14 == 0) <| none
    | 1 => req 1 (guard w == 7 && fld w 8 14 == 0) <| none
    | 2 => req 1 (guard w == 7 && fld w 8 7 == 0 && fld w 20 2 == 0 && ((fld w 18 2) != 3 && decide ((fld w 15 3).toNat < 5))) <| none
    | 4 => req 1 (guard w == 7 && fld w 11 4 == 0 && fld w 21 1 == 0 && (decide ((fld w 18 3).toNat < 6) && decide ((fld w 15 3).toNat < 6) && decide ((fld w 8 3).toNat < 5))) <| none
    | _ => some 0
  | 0x4C => if fld w 0 1 == 0 then req 1 (guard w == 7) <| req 2 (fld w 20 2 == 0 && fld w 13 2 == 0 && fld w 7 1 == 0) <| none
    else req 1 (guard w == 7) <| req 2 (fld w 20 2 == 0 && fld w 13 2 == 0 && fld w 7 1 == 0) <| none
  | 0x4D => req 2 (fld w 14 1 == 0) <| none
  | 0x4E => match (fld w 1 7).toNat with
    | 0 => req 1 (guard w == 7 && fld w 0 1 == 0) <| req 2 (fld w 21 1 == 0 && fld w 11 4 == 0) <| none
    | 1 => req 1 (guard w == 7 && fld w 0 1 == 0) <| req 2 (fld w 21 1 == 0 && fld w 11 4 == 0) <| none
    | _ => some 0
  | 0x4F => match (fld w 1 7).toNat with
    | 0 => req 1 (guard w == 7 && fld w 0 1 == 0 && fld w 15 7 == 0) <| req 2 (fld w 14 1 == 0) <| none
    | 1 => req 1 (guard w == 7 && fld w 0 1 == 0 && fld w 15 7 == 0) <| req 2 (fld w 14 1 == 0) <| none
    | 2 => req 1 (guard w == 7 && fld w 0 1 == 0 && fld w 15 7 == 0) <| req 2 (fld w 14 1 == 0) <| none
    | _ => some 0
  | 0x50 => match (fld w 0 8).toNat with
    | 0 => req 2 (fld w 19 3 == 0) <| none
    | 2 => req 2 (fld w 12 3 == 0 && decide ((fld w 15 7).toNat < 120)) <| none
    | 4 => req 1 (guard w == 7) <| req 2 (fld w 21 1 == 0 && fld w 12 3 == 0) <| none
    | _ => some 0
  | 0x51 => match (fld w 1 7).toNat with
    | 0 => req 1 (guard w == 7 && fld w 0 1 == 0 && fld w 8 7 == 0) <| req 2 (fld w 18 4 == 0) <| none
    | 1 => req 1 (guard w == 7 && fld w 0 1 == 0) <| req 2 (fld w 18 4 == 0 && fld w 14 1 == 0) <| none
    | 2 => req 1 (guard w == 7 && fld w 0 1 == 0) <| req 2 (fld w 18 4 == 0 && fld w 14 1 == 0) <| none
    | 3 => req 1 (fld w 0 1 == 0) <| req 2 (fld w 18 4 == 0) <| none
    | 4 => req 1 (fld w 0 1 == 0) <| req 2 (fld w 11 4 == 0 && decide ((fld w 15 7).toNat < 120)) <| none
    | _ => some 0
  | 0x52 => if fld w 0 1 == 0 then req 2 (fld w 13 2 == 0 && decide ((fld w 15 7).toNat < 120)) <| none
    else req 2 (fld w 13 2 == 0) <| none
  | _ => some 0

/-- The REASON of a word of primaries 0x58–0x67 (07 R175), none for an instruction. -/
def reasonTile (w : Word) (prim : Nat) : Option Nat :=
  match prim with
  | 0x58 => match (fld w 1 7).toNat with
    | 0 => req 1 (guard w == 7 && fld w 0 1 == 0) <| req 2 (fld w 20 2 == 0 && fld w 14 1 == 0) <| none
    | 1 => req 1 (guard w == 7 && fld w 0 1 == 0) <| req 2 (fld w 21 1 == 0 && fld w 13 2 == 0) <| none
    | 2 => req 1 (guard w == 7 && fld w 0 1 == 0 && fld w 8 7 == 0) <| req 2 (fld w 20 2 == 0) <| none
    | _ => some 0
  | 0x59 => if fld w 0 1 == 0 then req 1 (guard w == 7) <| req 2 (fld w 21 1 == 0 && fld w 13 2 == 0 && fld w 7 1 == 0) <| none
    else req 1 (guard w == 7) <| req 2 (fld w 21 1 == 0 && fld w 13 2 == 0 && fld w 7 1 == 0) <| none
  | 0x5A => if fld w 0 1 == 0 then req 1 (guard w == 7) <| req 2 (fld w 20 2 == 0 && fld w 13 2 == 0 && fld w 7 1 == 0) <| none
    else req 1 (guard w == 7) <| req 2 (fld w 20 2 == 0 && fld w 13 2 == 0 && fld w 7 1 == 0) <| none
  | 0x5B => if fld w 0 1 == 0 then req 1 (guard w == 7) <| req 2 (fld w 20 2 == 0 && fld w 13 2 == 0 && fld w 7 1 == 0) <| none
    else some 0
  | 0x5C => match (fld w 1 7).toNat with
    | 0 => req 1 (guard w == 7 && fld w 0 1 == 0 && fld w 15 7 == 0) <| req 2 (fld w 14 1 == 0) <| none
    | 1 => req 1 (guard w == 7 && fld w 0 1 == 0 && fld w 8 7 == 0) <| req 2 (fld w 21 1 == 0) <| none
    | _ => some 0
  | 0x5D => if fld w 0 1 == 0 then req 1 (guard w == 7) <| req 2 (fld w 19 3 == 0 && fld w 6 2 == 0) <| none
    else some 0
  | 0x5E => if fld w 0 1 == 0 then req 1 (guard w == 7) <| req 2 (fld w 21 1 == 0 && fld w 6 2 == 0) <| none
    else some 0
  | 0x5F => match (fld w 1 7).toNat with
    | 0 => req 1 (guard w == 7 && fld w 0 1 == 0 && fld w 8 7 == 0) <| req 2 (fld w 19 3 == 0) <| none
    | 1 => req 1 (guard w == 7 && fld w 0 1 == 0) <| req 2 (fld w 19 3 == 0 && fld w 12 3 == 0) <| none
    | 2 => req 1 (guard w == 7 && fld w 0 1 == 0) <| req 2 (fld w 19 3 == 0 && fld w 12 3 == 0) <| none
    | 3 => req 1 (guard w == 7 && fld w 0 1 == 0) <| req 2 (fld w 19 3 == 0 && fld w 13 2 == 0) <| none
    | 4 => req 1 (guard w == 7 && fld w 0 1 == 0) <| req 2 (fld w 20 2 == 0 && fld w 12 3 == 0) <| none
    | _ => some 0
  | 0x60 => if fld w 0 1 == 0 then req 2 (fld w 12 3 == 0 && fld w 7 1 == 0) <| none
    else req 2 (fld w 12 3 == 0 && fld w 7 1 == 0) <| none
  | 0x61 => if fld w 0 1 == 0 then req 1 (guard w == 7) <| req 2 (fld w 20 2 == 0 && fld w 12 3 == 0 && fld w 7 1 == 0) <| none
    else req 1 (guard w == 7) <| req 2 (fld w 20 2 == 0 && fld w 12 3 == 0 && fld w 7 1 == 0) <| none
  | _ => some 0

/-- The REASON of a word of primaries 0x68–0x7B (08 R206), none for an instruction. -/
def reasonGang (w : Word) (prim : Nat) : Option Nat :=
  match prim with
  | 0x68 => match (fld w 1 7).toNat with
    | 0 => req 1 (guard w == 7 && fld w 0 1 == 0 && fld w 8 7 == 0) <| req 2 (fld w 21 1 == 0) <| none
    | 1 => req 1 (guard w == 7 && fld w 0 1 == 0 && fld w 8 7 == 0) <| req 2 (fld w 21 1 == 0) <| none
    | 2 => req 1 (guard w == 7 && fld w 0 1 == 0) <| req 2 (fld w 21 1 == 0 && fld w 11 4 == 0) <| none
    | 3 => req 1 (guard w == 7 && fld w 0 1 == 0) <| req 2 (fld w 18 4 == 0 && fld w 11 4 == 0) <| none
    | 4 => req 1 (guard w == 7 && fld w 0 1 == 0) <| req 2 (fld w 18 4 == 0 && fld w 11 4 == 0) <| none
    | _ => some 0
  | 0x69 => match (fld w 6 2).toNat with
    | 0 => req 1 (fld w 0 3 == 0) <| none
    | 1 => req 1 (fld w 0 3 == 0) <| none
    | 2 => req 1 (fld w 0 3 == 0) <| none
    | _ => req 1 (fld w 0 3 == 0) <| none
  | 0x6A => match (fld w 6 2).toNat with
    | 0 => req 1 (fld w 0 1 == 0) <| none
    | 1 => req 1 (fld w 0 1 == 0) <| none
    | 2 => req 1 (fld w 0 1 == 0) <| none
    | _ => req 1 (fld w 0 1 == 0) <| none
  | 0x6B => match (fld w 1 7).toNat with
    | 0 => req 1 (guard w == 7 && fld w 0 1 == 0 && fld w 8 14 == 0) <| none
    | 1 => req 1 (guard w == 7 && fld w 0 1 == 0 && fld w 8 14 == 0) <| none
    | 2 => req 1 (guard w == 7 && fld w 0 1 == 0) <| req 2 (fld w 20 2 == 0 && fld w 14 1 == 0) <| none
    | 3 => req 1 (guard w == 7 && fld w 0 1 == 0) <| req 2 (fld w 20 2 == 0 && fld w 14 1 == 0) <| none
    | 4 => req 1 (guard w == 7 && fld w 0 1 == 0) <| req 2 (fld w 20 2 == 0 && fld w 14 1 == 0) <| none
    | _ => some 0
  | 0x6C => match (fld w 1 7).toNat with
    | 0 => req 1 (fld w 0 1 == 0 && fld w 8 7 == 0) <| none
    | 1 => req 0 (decide ((fld w 8 3).toNat < 6) && fld w 11 4 == 0) <| req 1 (fld w 0 1 == 0) <| none
    | _ => some 0
  | 0x6D => match (fld w 1 7).toNat with
    | 0 => req 1 (guard w == 7 && fld w 0 1 == 0) <| req 2 (fld w 20 2 == 0 && fld w 14 1 == 0) <| none
    | 1 => req 1 (guard w == 7 && fld w 0 1 == 0) <| req 2 (fld w 21 1 == 0 && fld w 14 1 == 0) <| none
    | _ => some 0
  | 0x6E => match (fld w 1 7).toNat with
    | 0 => req 1 (guard w == 7 && fld w 0 1 == 0) <| req 2 (fld w 21 1 == 0 && fld w 14 1 == 0) <| none
    | 1 => req 1 (guard w == 7 && fld w 0 1 == 0) <| req 2 (fld w 21 1 == 0 && fld w 14 1 == 0) <| none
    | 2 => req 1 (guard w == 7 && fld w 0 1 == 0) <| req 2 (fld w 21 1 == 0 && fld w 14 1 == 0) <| none
    | _ => some 0
  | 0x6F => match (fld w 1 4).toNat with
    | 0 => req 1 (fld w 0 1 == 0 && fld w 5 3 == 0) <| none
    | 1 => req 1 (fld w 0 1 == 0) <| req 2 (fld w 14 1 == 0 && decide ((fld w 15 7).toNat < 120)) <| none
    | 2 => req 1 (fld w 0 1 == 0 && fld w 5 17 == 0) <| none
    | _ => some 0
  | 0x70 => match (fld w 1 7).toNat with
    | 0 => req 1 (guard w == 7 && fld w 0 1 == 0) <| req 2 (fld w 21 1 == 0 && fld w 14 1 == 0) <| none
    | 1 => req 1 (guard w == 7 && fld w 0 1 == 0) <| req 2 (fld w 21 1 == 0 && fld w 14 1 == 0) <| none
    | 2 => req 1 (guard w == 7 && fld w 0 1 == 0) <| req 2 (fld w 21 1 == 0 && fld w 14 1 == 0) <| none
    | 3 => req 1 (guard w == 7 && fld w 0 1 == 0 && fld w 15 7 == 0) <| req 2 (fld w 14 1 == 0) <| none
    | 4 => req 1 (guard w == 7 && fld w 0 1 == 0 && fld w 15 7 == 0) <| req 2 (fld w 14 1 == 0) <| none
    | 5 => req 1 (guard w == 7 && fld w 0 1 == 0 && fld w 15 7 == 0) <| req 2 (fld w 14 1 == 0) <| none
    | _ => some 0
  | 0x71 => req 1 (guard w == 7 && fld w 8 14 == 0) <| none
  | 0x72 => req 1 (guard w == 7 && fld w 8 14 == 0) <| none
  | 0x73 => match (fld w 1 7).toNat with
    | 0 => req 1 (guard w == 7 && fld w 0 1 == 0 && fld w 8 14 == 0) <| none
    | 1 => req 1 (guard w == 7 && fld w 0 1 == 0 && fld w 8 14 == 0) <| none
    | 2 => req 1 (guard w == 7 && fld w 0 1 == 0 && fld w 8 14 == 0) <| none
    | _ => some 0
  | 0x74 => req 0 (knownSrn (fld w 3 12)) <| req 1 (guard w == 7 && fld w 0 3 == 0) <| req 2 (fld w 21 1 == 0) <| none
  | 0x75 => req 0 (knownSrn (fld w 3 12)) <| req 1 (guard w == 7 && fld w 0 3 == 0) <| req 2 (fld w 21 1 == 0) <| none
  | _ => some 0

/-- The instruction of a word of primaries 0x01–0x27 (04 R90) that has no REASON. -/
noncomputable def buildInt (w : Word) (prim : Nat) : Instr :=
  match prim with
  | 0x01 => if fld w 0 1 == 0 then .addI32 (fld w 22 3) (fld w 15 7) (fld w 8 7) (fld w 1 7)
    else .addsI32 (fld w 22 3) (fld w 15 7) (fld w 8 7) (fld w 1 7)
  | 0x02 => if fld w 0 1 == 0 then .subI32 (fld w 22 3) (fld w 15 7) (fld w 8 7) (fld w 1 7)
    else .subsI32 (fld w 22 3) (fld w 15 7) (fld w 8 7) (fld w 1 7)
  | 0x03 => if fld w 0 1 == 0 then .mulI32 (fld w 22 3) (fld w 15 7) (fld w 8 7) (fld w 1 7)
    else .mulhI32 (fld w 22 3) (fld w 15 7) (fld w 8 7) (fld w 1 7)
  | 0x04 => if fld w 0 1 == 0 then .mulhuI32 (fld w 22 3) (fld w 15 7) (fld w 8 7) (fld w 1 7)
    else .nop 7
  | 0x05 => if fld w 0 1 == 0 then .minI32 (fld w 22 3) (fld w 15 7) (fld w 8 7) (fld w 1 7)
    else .minuI32 (fld w 22 3) (fld w 15 7) (fld w 8 7) (fld w 1 7)
  | 0x06 => if fld w 0 1 == 0 then .maxI32 (fld w 22 3) (fld w 15 7) (fld w 8 7) (fld w 1 7)
    else .maxuI32 (fld w 22 3) (fld w 15 7) (fld w 8 7) (fld w 1 7)
  | 0x07 => if fld w 0 1 == 0 then .andI32 (fld w 22 3) (fld w 15 7) (fld w 8 7) (fld w 1 7)
    else .andnI32 (fld w 22 3) (fld w 15 7) (fld w 8 7) (fld w 1 7)
  | 0x08 => if fld w 0 1 == 0 then .orI32 (fld w 22 3) (fld w 15 7) (fld w 8 7) (fld w 1 7)
    else .xorI32 (fld w 22 3) (fld w 15 7) (fld w 8 7) (fld w 1 7)
  | 0x09 => if fld w 0 1 == 0 then .shlI32 (fld w 22 3) (fld w 15 7) (fld w 8 7) (fld w 1 7)
    else .shrI32 (fld w 22 3) (fld w 15 7) (fld w 8 7) (fld w 1 7)
  | 0x0A => if fld w 0 1 == 0 then .sraI32 (fld w 22 3) (fld w 15 7) (fld w 8 7) (fld w 1 7)
    else .rotlI32 (fld w 22 3) (fld w 15 7) (fld w 8 7) (fld w 1 7)
  | 0x13 => if fld w 0 1 == 0 then .addI32U (fld w 15 6) (fld w 8 6) (fld w 1 6)
    else .addsI32U (fld w 15 6) (fld w 8 6) (fld w 1 6)
  | 0x14 => if fld w 0 1 == 0 then .subI32U (fld w 15 6) (fld w 8 6) (fld w 1 6)
    else .subsI32U (fld w 15 6) (fld w 8 6) (fld w 1 6)
  | 0x15 => if fld w 0 1 == 0 then .mulI32U (fld w 15 6) (fld w 8 6) (fld w 1 6)
    else .mulhI32U (fld w 15 6) (fld w 8 6) (fld w 1 6)
  | 0x16 => if fld w 0 1 == 0 then .mulhuI32U (fld w 15 6) (fld w 8 6) (fld w 1 6)
    else .nop 7
  | 0x17 => if fld w 0 1 == 0 then .minI32U (fld w 15 6) (fld w 8 6) (fld w 1 6)
    else .minuI32U (fld w 15 6) (fld w 8 6) (fld w 1 6)
  | 0x18 => if fld w 0 1 == 0 then .maxI32U (fld w 15 6) (fld w 8 6) (fld w 1 6)
    else .maxuI32U (fld w 15 6) (fld w 8 6) (fld w 1 6)
  | 0x19 => if fld w 0 1 == 0 then .andI32U (fld w 15 6) (fld w 8 6) (fld w 1 6)
    else .andnI32U (fld w 15 6) (fld w 8 6) (fld w 1 6)
  | 0x1A => if fld w 0 1 == 0 then .orI32U (fld w 15 6) (fld w 8 6) (fld w 1 6)
    else .xorI32U (fld w 15 6) (fld w 8 6) (fld w 1 6)
  | 0x1B => if fld w 0 1 == 0 then .shlI32U (fld w 15 6) (fld w 8 6) (fld w 1 6)
    else .shrI32U (fld w 15 6) (fld w 8 6) (fld w 1 6)
  | 0x1C => if fld w 0 1 == 0 then .sraI32U (fld w 15 6) (fld w 8 6) (fld w 1 6)
    else .rotlI32U (fld w 15 6) (fld w 8 6) (fld w 1 6)
  | 0x0B => if fld w 0 1 == 0 then .bfeI32 (fld w 22 3) (fld w 15 7) (fld w 8 7) (fld w 1 7)
    else .bfesI32 (fld w 22 3) (fld w 15 7) (fld w 8 7) (fld w 1 7)
  | 0x0C => if fld w 0 1 == 0 then .bfiI32 (fld w 22 3) (fld w 15 7) (fld w 8 7) (fld w 1 7)
    else .nop 7
  | 0x0D => if fld w 0 1 == 0 then .cmp (fld w 22 3) (fld w 19 3) (fld w 15 4) (fld w 8 7) (fld w 1 7)
    else .cmpa (fld w 22 3) (fld w 19 3) (fld w 15 4) (fld w 8 7) (fld w 1 7)
  | 0x1D => if fld w 0 1 == 0 then .cmpU (fld w 19 3) (fld w 15 4) (fld w 8 6) (fld w 1 6)
    else .cmpaU (fld w 19 3) (fld w 15 4) (fld w 8 6) (fld w 1 6)
  | 0x0E => .cmpi (fld w 22 3) (fld w 19 3) (fld w 15 4) (fld w 8 7) (fld w 0 8)
  | 0x0F => match (fld w 0 8).toNat with
    | 0 => .movI32 (fld w 22 3) (fld w 15 7) (fld w 8 7)
    | 2 => .notI32 (fld w 22 3) (fld w 15 7) (fld w 8 7)
    | 4 => .negI32 (fld w 22 3) (fld w 15 7) (fld w 8 7)
    | 6 => .absI32 (fld w 22 3) (fld w 15 7) (fld w 8 7)
    | 8 => .popcI32 (fld w 22 3) (fld w 15 7) (fld w 8 7)
    | 10 => .clzI32 (fld w 22 3) (fld w 15 7) (fld w 8 7)
    | 12 => .ctzI32 (fld w 22 3) (fld w 15 7) (fld w 8 7)
    | 14 => .brevI32 (fld w 22 3) (fld w 15 7) (fld w 8 7)
    | 16 => .sext8I32 (fld w 22 3) (fld w 15 7) (fld w 8 7)
    | 18 => .sext16I32 (fld w 22 3) (fld w 15 7) (fld w 8 7)
    | 20 => .zext8I32 (fld w 22 3) (fld w 15 7) (fld w 8 7)
    | 22 => .zext16I32 (fld w 22 3) (fld w 15 7) (fld w 8 7)
    | 1 => .movI32U (fld w 15 6) (fld w 8 6)
    | 3 => .notI32U (fld w 15 6) (fld w 8 6)
    | 5 => .negI32U (fld w 15 6) (fld w 8 6)
    | 7 => .absI32U (fld w 15 6) (fld w 8 6)
    | 9 => .popcI32U (fld w 15 6) (fld w 8 6)
    | 11 => .clzI32U (fld w 15 6) (fld w 8 6)
    | 13 => .ctzI32U (fld w 15 6) (fld w 8 6)
    | 15 => .brevI32U (fld w 15 6) (fld w 8 6)
    | 17 => .sext8I32U (fld w 15 6) (fld w 8 6)
    | 19 => .sext16I32U (fld w 15 6) (fld w 8 6)
    | 21 => .zext8I32U (fld w 15 6) (fld w 8 6)
    | 23 => .zext16I32U (fld w 15 6) (fld w 8 6)
    | _ => .nop 7
  | 0x10 => .addi (fld w 22 3) (fld w 15 7) (fld w 8 7) (fld w 0 8)
  | 0x11 => match (fld w 8 7).toNat with
    | 0 => .movi (fld w 22 3) (fld w 15 7) (fld w 0 8)
    | 1 => .moviU (fld w 15 6) (fld w 0 8)
    | _ => .nop 7
  | 0x1E => .addiU (fld w 15 6) (fld w 8 6) (fld w 0 8)
  | 0x1F => .addiI64 (fld w 15 6) (fld w 8 6) (fld w 0 8)
  | 0x12 => match (fld w 6 2).toNat, (fld w 0 1).toNat with
    | 0, 0 => .shli (fld w 22 3) (fld w 15 7) (fld w 8 7) (fld w 1 5)
    | 1, 0 => .shri (fld w 22 3) (fld w 15 7) (fld w 8 7) (fld w 1 5)
    | 2, 0 => .srai (fld w 22 3) (fld w 15 7) (fld w 8 7) (fld w 1 5)
    | 3, 0 => .rotli (fld w 22 3) (fld w 15 7) (fld w 8 7) (fld w 1 5)
    | 0, 1 => .shliU (fld w 15 6) (fld w 8 6) (fld w 1 5)
    | 1, 1 => .shriU (fld w 15 6) (fld w 8 6) (fld w 1 5)
    | 2, 1 => .sraiU (fld w 15 6) (fld w 8 6) (fld w 1 5)
    | _, _ => .rotliU (fld w 15 6) (fld w 8 6) (fld w 1 5)
  | 0x20 => match (fld w 1 4).toNat with
    | 0 => .pand (fld w 22 3) (fld w 15 3) (fld w 8 3) (fld w 5 3)
    | 1 => .por (fld w 22 3) (fld w 15 3) (fld w 8 3) (fld w 5 3)
    | 2 => .pxor (fld w 22 3) (fld w 15 3) (fld w 8 3) (fld w 5 3)
    | 3 => .pandn (fld w 22 3) (fld w 15 3) (fld w 8 3) (fld w 5 3)
    | _ => .nop 7
  | 0x21 => if fld w 19 3 == 7 then .jmp (fld w 0 19)
    else .br (fld w 19 3) (fld w 0 19)
  | 0x22 => .brd (fld w 19 3) (fld w 9 10) (fld w 0 9)
  | 0x23 => .call (fld w 15 7) (fld w 0 8)
  | 0x24 => match (fld w 1 7).toNat with
    | 0 => .jmpi (fld w 8 7)
    | 1 => .calli (fld w 15 7) (fld w 8 7)
    | 2 => .regang
    | 3 => .exit (fld w 22 3)
    | 4 => .nop (fld w 22 3)
    | _ => .nop 7
  | 0x25 => .wait (fld w 16 6) (fld w 10 6) (fld w 4 6) (fld w 0 4)
  | 0x26 => if fld w 0 1 == 0 then .lea (fld w 22 3) (fld w 15 7) (fld w 8 6) (fld w 1 7)
    else .leau (fld w 22 3) (fld w 15 7) (fld w 8 6) (fld w 1 7)
  | 0x27 => match (fld w 1 7).toNat with
    | 0 => .movVg (fld w 22 3) (fld w 15 7) (fld w 8 6)
    | 1 => .movPg (fld w 15 3) (fld w 8 6)
    | 2 => .movGp (fld w 15 6) (fld w 8 3)
    | 3 => .movVp (fld w 22 3) (fld w 15 7) (fld w 8 3)
    | 4 => .movPv (fld w 22 3) (fld w 15 3) (fld w 8 7)
    | 5 => .laneid (fld w 22 3) (fld w 15 7)
    | _ => .movGv (fld w 15 6) (fld w 8 7) (fld w 1 5)
  | _ => .nop 7

/-- The instruction of a word of primaries 0x28–0x3F (05 R119) that has no REASON. -/
noncomputable def buildFloat (w : Word) (prim : Nat) : Instr :=
  match prim with
  | 0x28 => if fld w 0 1 == 0 then .faddF32 (fld w 22 3) (fld w 15 7) (fld w 8 7) (fld w 1 7)
    else .fsubF32 (fld w 22 3) (fld w 15 7) (fld w 8 7) (fld w 1 7)
  | 0x29 => if fld w 0 1 == 0 then .fmulF32 (fld w 22 3) (fld w 15 7) (fld w 8 7) (fld w 1 7)
    else .fdivF32 (fld w 22 3) (fld w 15 7) (fld w 8 7) (fld w 1 7)
  | 0x2A => if fld w 0 1 == 0 then .fminF32 (fld w 22 3) (fld w 15 7) (fld w 8 7) (fld w 1 7)
    else .fmaxF32 (fld w 22 3) (fld w 15 7) (fld w 8 7) (fld w 1 7)
  | 0x2B => if fld w 0 1 == 0 then .ffmaF32 (fld w 22 3) (fld w 15 7) (fld w 8 7) (fld w 1 7)
    else .ffmsF32 (fld w 22 3) (fld w 15 7) (fld w 8 7) (fld w 1 7)
  | 0x2C => if fld w 0 1 == 0 then .faddF16x2 (fld w 22 3) (fld w 15 7) (fld w 8 7) (fld w 1 7)
    else .fsubF16x2 (fld w 22 3) (fld w 15 7) (fld w 8 7) (fld w 1 7)
  | 0x2D => if fld w 0 1 == 0 then .fmulF16x2 (fld w 22 3) (fld w 15 7) (fld w 8 7) (fld w 1 7)
    else .ffmaF16x2 (fld w 22 3) (fld w 15 7) (fld w 8 7) (fld w 1 7)
  | 0x2E => if fld w 0 1 == 0 then .faddBf16x2 (fld w 22 3) (fld w 15 7) (fld w 8 7) (fld w 1 7)
    else .fsubBf16x2 (fld w 22 3) (fld w 15 7) (fld w 8 7) (fld w 1 7)
  | 0x2F => if fld w 0 1 == 0 then .fmulBf16x2 (fld w 22 3) (fld w 15 7) (fld w 8 7) (fld w 1 7)
    else .ffmaBf16x2 (fld w 22 3) (fld w 15 7) (fld w 8 7) (fld w 1 7)
  | 0x30 => if fld w 0 1 == 0 then .fminF16x2 (fld w 22 3) (fld w 15 7) (fld w 8 7) (fld w 1 7)
    else .fmaxF16x2 (fld w 22 3) (fld w 15 7) (fld w 8 7) (fld w 1 7)
  | 0x31 => if fld w 0 1 == 0 then .fminBf16x2 (fld w 22 3) (fld w 15 7) (fld w 8 7) (fld w 1 7)
    else .fmaxBf16x2 (fld w 22 3) (fld w 15 7) (fld w 8 7) (fld w 1 7)
  | 0x32 => if fld w 0 1 == 0 then .fcmp (fld w 22 3) (fld w 19 3) (fld w 15 4) (fld w 8 7) (fld w 1 7)
    else .fcmpa (fld w 22 3) (fld w 19 3) (fld w 15 4) (fld w 8 7) (fld w 1 7)
  | 0x33 => match (fld w 0 6).toNat with
    | 0 => .fneg (fld w 22 3) (fld w 15 7) (fld w 8 7) (fld w 6 2)
    | 2 => .fabs (fld w 22 3) (fld w 15 7) (fld w 8 7) (fld w 6 2)
    | 4 => .fsqrt (fld w 22 3) (fld w 15 7) (fld w 8 7) (fld w 6 2)
    | 6 => .frsq (fld w 22 3) (fld w 15 7) (fld w 8 7) (fld w 6 2)
    | 8 => .frcp (fld w 22 3) (fld w 15 7) (fld w 8 7) (fld w 6 2)
    | 10 => .fexp2 (fld w 22 3) (fld w 15 7) (fld w 8 7) (fld w 6 2)
    | 12 => .flog2 (fld w 22 3) (fld w 15 7) (fld w 8 7) (fld w 6 2)
    | 14 => .fsinpi (fld w 22 3) (fld w 15 7) (fld w 8 7) (fld w 6 2)
    | 16 => .fcospi (fld w 22 3) (fld w 15 7) (fld w 8 7) (fld w 6 2)
    | 18 => .frint (fld w 22 3) (fld w 15 7) (fld w 8 7) (fld w 6 2)
    | 20 => .fclass (fld w 22 3) (fld w 15 7) (fld w 8 7) (fld w 6 2)
    | _ => .nop 7
  | 0x34 => if fld w 0 1 == 0 then .fcpsgnF32 (fld w 22 3) (fld w 15 7) (fld w 8 7) (fld w 1 7)
    else .fcpsgnH (fld w 22 3) (fld w 15 7) (fld w 8 7) (fld w 1 7)
  | 0x35 => if fld w 0 1 == 0 then .pk16F16 (fld w 22 3) (fld w 15 7) (fld w 8 7) (fld w 1 7)
    else .pk16Bf16 (fld w 22 3) (fld w 15 7) (fld w 8 7) (fld w 1 7)
  | 0x36 => .pk8E4m3 (fld w 22 3) (fld w 15 7) (fld w 8 7) (fld w 5 3) (fld w 0 5)
  | 0x37 => .pk8E5m2 (fld w 22 3) (fld w 15 7) (fld w 8 7) (fld w 5 3) (fld w 0 5)
  | 0x38 => .srnd (fld w 22 3) (fld w 15 7) (fld w 8 7) (fld w 5 3) (fld w 0 5)
  | 0x39 => .pk4E2m1 (fld w 22 3) (fld w 15 7) (fld w 8 7) (fld w 5 3) (fld w 0 5)
  | 0x3A => .prng (fld w 22 3) (fld w 15 7) (fld w 5 3) (fld w 0 5)
  | 0x3B => match (fld w 8 7).toNat with
    | 0 => .upk16F16 (fld w 22 3) (fld w 15 7) (fld w 5 3) (fld w 0 5)
    | 1 => .upk16Bf16 (fld w 22 3) (fld w 15 7) (fld w 5 3) (fld w 0 5)
    | 2 => .upk8E4m3 (fld w 22 3) (fld w 15 7) (fld w 5 3) (fld w 0 5)
    | 3 => .upk8E5m2 (fld w 22 3) (fld w 15 7) (fld w 5 3) (fld w 0 5)
    | 4 => .upk8I8 (fld w 22 3) (fld w 15 7) (fld w 5 3) (fld w 0 5)
    | 5 => .upk4E2m1 (fld w 22 3) (fld w 15 7) (fld w 5 3) (fld w 0 5)
    | 6 => .upk4I4 (fld w 22 3) (fld w 15 7) (fld w 5 3) (fld w 0 5)
    | _ => .nop 7
  | 0x3C => if fld w 0 1 == 0 then .dot4 (fld w 22 3) (fld w 15 7) (fld w 8 7) (fld w 1 7)
    else .dot4s (fld w 22 3) (fld w 15 7) (fld w 8 7) (fld w 1 7)
  | 0x3D => if fld w 0 1 == 0 then .dot8 (fld w 22 3) (fld w 15 7) (fld w 8 7) (fld w 1 7)
    else .dot8s (fld w 22 3) (fld w 15 7) (fld w 8 7) (fld w 1 7)
  | 0x3E => .fscaleE3m5 (fld w 22 3) (fld w 15 7) (fld w 8 7) (fld w 5 3) (fld w 0 5)
  | 0x3F => match (fld w 0 8).toNat with
    | 0 => .cvtF32S32 (fld w 22 3) (fld w 15 7) (fld w 8 7)
    | 2 => .cvtF32U32 (fld w 22 3) (fld w 15 7) (fld w 8 7)
    | 4 => .cvtS32F32 (fld w 22 3) (fld w 15 7) (fld w 8 7)
    | 6 => .cvtU32F32 (fld w 22 3) (fld w 15 7) (fld w 8 7)
    | 8 => .cvtS8F32 (fld w 22 3) (fld w 15 7) (fld w 8 7)
    | 10 => .cvtS4F32 (fld w 22 3) (fld w 15 7) (fld w 8 7)
    | 12 => .cvtE3m5F32 (fld w 22 3) (fld w 15 7) (fld w 8 7)
    | 14 => .cvtF32E3m5 (fld w 22 3) (fld w 15 7) (fld w 8 7)
    | _ => .nop 7
  | _ => .nop 7

/-- The instruction of a word of primaries 0x40–0x57 (06 R141) that has no REASON. -/
noncomputable def buildMem (w : Word) (prim : Nat) : Instr :=
  match prim with
  | 0x40 => .ldB32 (fld w 22 3) (fld w 15 7) (fld w 8 7) (fld w 0 8)
  | 0x41 => .stB32 (fld w 22 3) (fld w 15 7) (fld w 8 7) (fld w 0 8)
  | 0x42 => match (fld w 0 8).toNat with
    | 0 => .ldB8 (fld w 22 3) (fld w 15 7) (fld w 8 7)
    | 2 => .ldS8 (fld w 22 3) (fld w 15 7) (fld w 8 7)
    | 4 => .ldB16 (fld w 22 3) (fld w 15 7) (fld w 8 7)
    | 6 => .ldS16 (fld w 22 3) (fld w 15 7) (fld w 8 7)
    | 8 => .ldB64 (fld w 22 3) (fld w 15 7) (fld w 8 7)
    | 10 => .ldB128 (fld w 22 3) (fld w 15 7) (fld w 8 7)
    | 12 => .ldpB32 (fld w 22 3) (fld w 15 7) (fld w 8 7)
    | 14 => .ldpB64 (fld w 22 3) (fld w 15 7) (fld w 8 7)
    | _ => .nop 7
  | 0x43 => match (fld w 0 8).toNat with
    | 0 => .stB8 (fld w 22 3) (fld w 15 7) (fld w 8 7)
    | 2 => .stB16 (fld w 22 3) (fld w 15 7) (fld w 8 7)
    | 8 => .stB64 (fld w 22 3) (fld w 15 7) (fld w 8 7)
    | 10 => .stB128 (fld w 22 3) (fld w 15 7) (fld w 8 7)
    | _ => .nop 7
  | 0x44 => .lduB32 (fld w 15 6) (fld w 8 6) (fld w 0 8)
  | 0x45 => .stuB32 (fld w 15 6) (fld w 8 6) (fld w 0 8)
  | 0x46 => match (fld w 0 8).toNat with
    | 0 => .lduB64 (fld w 15 6) (fld w 8 6)
    | 2 => .stuB64 (fld w 15 6) (fld w 8 6)
    | _ => .nop 7
  | 0x47 => if fld w 0 1 == 0 then .gatherB32 (fld w 22 3) (fld w 15 7) (fld w 8 6) (fld w 1 7)
    else .scatterB32 (fld w 22 3) (fld w 15 7) (fld w 8 6) (fld w 1 7)
  | 0x48 => if fld w 0 1 == 0 then .cstoreB32 (fld w 22 3) (fld w 15 6) (fld w 8 7)
    else .cstoreB64 (fld w 22 3) (fld w 15 6) (fld w 8 7)
  | 0x49 => match (fld w 1 7).toNat with
    | 0 => .atomAddI32 (fld w 22 3) (fld w 15 7) (fld w 8 7) (fld w 0 1)
    | 1 => .atomAndB32 (fld w 22 3) (fld w 15 7) (fld w 8 7) (fld w 0 1)
    | 2 => .atomOrB32 (fld w 22 3) (fld w 15 7) (fld w 8 7) (fld w 0 1)
    | 3 => .atomXorB32 (fld w 22 3) (fld w 15 7) (fld w 8 7) (fld w 0 1)
    | 4 => .atomMinI32 (fld w 22 3) (fld w 15 7) (fld w 8 7) (fld w 0 1)
    | 5 => .atomMaxI32 (fld w 22 3) (fld w 15 7) (fld w 8 7) (fld w 0 1)
    | 6 => .atomMinuI32 (fld w 22 3) (fld w 15 7) (fld w 8 7) (fld w 0 1)
    | 7 => .atomMaxuI32 (fld w 22 3) (fld w 15 7) (fld w 8 7) (fld w 0 1)
    | 8 => .atomXchgB32 (fld w 22 3) (fld w 15 7) (fld w 8 7) (fld w 0 1)
    | 9 => .atomCasB32 (fld w 22 3) (fld w 15 7) (fld w 8 7) (fld w 0 1)
    | 10 => .atomAddF32 (fld w 22 3) (fld w 15 7) (fld w 8 7) (fld w 0 1)
    | 11 => .atomAddI64 (fld w 22 3) (fld w 15 7) (fld w 8 7) (fld w 0 1)
    | 12 => .atomCasB64 (fld w 22 3) (fld w 15 7) (fld w 8 7) (fld w 0 1)
    | _ => .nop 7
  | 0x4A => match (fld w 1 7).toNat with
    | 0 => .adetFaddF32 (fld w 22 3) (fld w 15 7) (fld w 8 7)
    | 1 => .adetFaddF16 (fld w 22 3) (fld w 15 7) (fld w 8 7)
    | 2 => .adetFaddBf16 (fld w 22 3) (fld w 15 7) (fld w 8 7)
    | 3 => .adetAddI32 (fld w 22 3) (fld w 15 7) (fld w 8 7)
    | 4 => .adetAddI64 (fld w 22 3) (fld w 15 7) (fld w 8 7)
    | 5 => .adetMinI32 (fld w 22 3) (fld w 15 7) (fld w 8 7)
    | 6 => .adetMaxI32 (fld w 22 3) (fld w 15 7) (fld w 8 7)
    | 7 => .adetMinuB64 (fld w 22 3) (fld w 15 7) (fld w 8 7)
    | 8 => .adetMaxuB64 (fld w 22 3) (fld w 15 7) (fld w 8 7)
    | 16 => .adetXchgB32 (fld w 22 3) (fld w 15 7) (fld w 8 7)
    | 17 => .adetCasB32 (fld w 22 3) (fld w 15 7) (fld w 8 7)
    | 18 => .adetAppB32 (fld w 22 3) (fld w 15 7) (fld w 8 7)
    | _ => .nop 7
  | 0x4B => match (fld w 0 8).toNat with
    | 0 => .aflush (fld w 0 1)
    | 1 => .aflush (fld w 0 1)
    | 2 => .fence (fld w 18 2) (fld w 15 3)
    | 4 => .xfence (fld w 18 3) (fld w 15 3) (fld w 8 3)
    | _ => .nop 7
  | 0x4C => if fld w 0 1 == 0 then .cpyIn (fld w 15 5) (fld w 8 5) (fld w 1 6)
    else .cpyOut (fld w 15 5) (fld w 8 5) (fld w 1 6)
  | 0x4D => .bst (fld w 22 3) (fld w 15 7) (fld w 8 6) (fld w 0 8)
  | 0x4E => match (fld w 1 7).toNat with
    | 0 => .movGc (fld w 15 6) (fld w 8 3)
    | 1 => .cwpwait (fld w 15 6) (fld w 8 3)
    | _ => .nop 7
  | 0x4F => match (fld w 1 7).toNat with
    | 0 => .bankcfgCache (fld w 8 6)
    | 1 => .bankcfgPad (fld w 8 6)
    | 2 => .bankcfgFifo (fld w 8 6)
    | _ => .nop 7
  | 0x50 => match (fld w 0 8).toNat with
    | 0 => .fpush (fld w 22 3) (fld w 15 4) (fld w 8 7)
    | 2 => .fpop (fld w 22 3) (fld w 15 7) (fld w 8 4)
    | 4 => .fcount (fld w 15 6) (fld w 8 4)
    | _ => .nop 7
  | 0x51 => match (fld w 1 7).toNat with
    | 0 => .qunbind (fld w 15 3)
    | 1 => .qbindPeer (fld w 15 3) (fld w 8 6)
    | 2 => .qbindGather (fld w 15 3) (fld w 8 6)
    | 3 => .qpush (fld w 22 3) (fld w 15 3) (fld w 8 7)
    | 4 => .qpop (fld w 22 3) (fld w 15 7) (fld w 8 3)
    | _ => .nop 7
  | 0x52 => if fld w 0 1 == 0 then .ldsB32 (fld w 22 3) (fld w 15 7) (fld w 8 5) (fld w 1 7)
    else .stsB32 (fld w 22 3) (fld w 15 7) (fld w 8 5) (fld w 1 7)
  | _ => .nop 7

/-- The instruction of a word of primaries 0x58–0x67 (07 R175) that has no REASON. -/
noncomputable def buildTile (w : Word) (prim : Nat) : Instr :=
  match prim with
  | 0x58 => match (fld w 1 7).toNat with
    | 0 => .tset (fld w 15 5) (fld w 8 6)
    | 1 => .tget (fld w 15 6) (fld w 8 5)
    | 2 => .tclr (fld w 15 5)
    | _ => .nop 7
  | 0x59 => if fld w 0 1 == 0 then .tdescR (fld w 15 6) (fld w 8 5) (fld w 1 6)
    else .tdescW (fld w 15 6) (fld w 8 5) (fld w 1 6)
  | 0x5A => if fld w 0 1 == 0 then .tloadP (fld w 15 5) (fld w 8 5) (fld w 1 6)
    else .tloadR (fld w 15 5) (fld w 8 5) (fld w 1 6)
  | 0x5B => if fld w 0 1 == 0 then .tstore (fld w 15 5) (fld w 8 5) (fld w 1 6)
    else .nop 7
  | 0x5C => match (fld w 1 7).toNat with
    | 0 => .muster (fld w 8 6)
    | 1 => .rdmst (fld w 15 6)
    | _ => .nop 7
  | 0x5D => if fld w 0 1 == 0 then .mmj (fld w 15 4) (fld w 8 7) (fld w 1 5)
    else .nop 7
  | 0x5E => if fld w 0 1 == 0 then .mmc (fld w 15 6) (fld w 8 7) (fld w 1 5)
    else .nop 7
  | 0x5F => match (fld w 1 7).toNat with
    | 0 => .aclr (fld w 15 4)
    | 1 => .amov (fld w 15 4) (fld w 8 4)
    | 2 => .aadd (fld w 15 4) (fld w 8 4)
    | 3 => .ald (fld w 15 4) (fld w 8 5)
    | 4 => .ast (fld w 15 5) (fld w 8 4)
    | _ => .nop 7
  | 0x60 => if fld w 0 1 == 0 then .aget (fld w 22 3) (fld w 15 7) (fld w 8 4) (fld w 1 6)
    else .aset (fld w 22 3) (fld w 15 7) (fld w 8 4) (fld w 1 6)
  | 0x61 => if fld w 0 1 == 0 then .aepi (fld w 15 5) (fld w 8 4) (fld w 1 6)
    else .aepiClr (fld w 15 5) (fld w 8 4) (fld w 1 6)
  | _ => .nop 7

/-- The instruction of a word of primaries 0x68–0x7B (08 R206) that has no REASON. -/
noncomputable def buildGang (w : Word) (prim : Nat) : Instr :=
  match prim with
  | 0x68 => match (fld w 1 7).toNat with
    | 0 => .gwidth (fld w 15 6)
    | 1 => .gslices (fld w 15 6)
    | 2 => .vballot (fld w 15 6) (fld w 8 3)
    | 3 => .vany (fld w 15 3) (fld w 8 3)
    | 4 => .vall (fld w 15 3) (fld w 8 3)
    | _ => .nop 7
  | 0x69 => match (fld w 6 2).toNat with
    | 0 => .shflIdx (fld w 22 3) (fld w 15 7) (fld w 8 7) (fld w 3 3)
    | 1 => .shflUp (fld w 22 3) (fld w 15 7) (fld w 8 7) (fld w 3 3)
    | 2 => .shflDown (fld w 22 3) (fld w 15 7) (fld w 8 7) (fld w 3 3)
    | _ => .shflXor (fld w 22 3) (fld w 15 7) (fld w 8 7) (fld w 3 3)
  | 0x6A => match (fld w 6 2).toNat with
    | 0 => .shflIdxi (fld w 22 3) (fld w 15 7) (fld w 8 7) (fld w 1 5)
    | 1 => .shflUpi (fld w 22 3) (fld w 15 7) (fld w 8 7) (fld w 1 5)
    | 2 => .shflDowni (fld w 22 3) (fld w 15 7) (fld w 8 7) (fld w 1 5)
    | _ => .shflXori (fld w 22 3) (fld w 15 7) (fld w 8 7) (fld w 1 5)
  | 0x6B => match (fld w 1 7).toNat with
    | 0 => .bar
    | 1 => .yield
    | 2 => .pbinit (fld w 15 5) (fld w 8 6)
    | 3 => .pbarrive (fld w 15 5) (fld w 8 6)
    | 4 => .pbwait (fld w 15 5) (fld w 8 6)
    | _ => .nop 7
  | 0x6C => match (fld w 1 7).toNat with
    | 0 => .wid (fld w 22 3) (fld w 15 7)
    | 1 => .widf (fld w 22 3) (fld w 15 7) (fld w 8 3)
    | _ => .nop 7
  | 0x6D => match (fld w 1 7).toNat with
    | 0 => .fetchw (fld w 15 5) (fld w 8 6)
    | 1 => .launch (fld w 15 6) (fld w 8 6)
    | _ => .nop 7
  | 0x6E => match (fld w 1 7).toNat with
    | 0 => .qtokRel (fld w 15 6) (fld w 8 6)
    | 1 => .qtokAcq (fld w 15 6) (fld w 8 6)
    | 2 => .qtokTry (fld w 15 6) (fld w 8 6)
    | _ => .nop 7
  | 0x6F => match (fld w 1 4).toNat with
    | 0 => .wlpush (fld w 22 3) (fld w 15 7) (fld w 8 7)
    | 1 => .wlpop (fld w 22 3) (fld w 15 7) (fld w 8 6) (fld w 5 3)
    | 2 => .wldone (fld w 22 3)
    | _ => .nop 7
  | 0x70 => match (fld w 1 7).toNat with
    | 0 => .jrecTok (fld w 15 6) (fld w 8 6)
    | 1 => .jrecGen (fld w 15 6) (fld w 8 6)
    | 2 => .jrecRoute (fld w 15 6) (fld w 8 6)
    | 3 => .jemit (fld w 8 6)
    | 4 => .jmark (fld w 8 6)
    | 5 => .jtrunc (fld w 8 6)
    | _ => .nop 7
  | 0x71 => .trap (fld w 0 8)
  | 0x72 => .brk (fld w 0 8)
  | 0x73 => match (fld w 1 7).toNat with
    | 0 => .hretRetry
    | 1 => .hretSkip
    | 2 => .hretEnd
    | _ => .nop 7
  | 0x74 => .rdsr (fld w 15 6) (fld w 3 12)
  | 0x75 => .wrsr (fld w 15 6) (fld w 3 12)
  | _ => .nop 7

/-- The REASON of a hint word (03 R73): bits [24:22] are reserved and hold 0b111. -/
def reasonHint (w : Word) : Option Nat :=
  match (fld w 19 3).toNat with
  | 0 => req 1 (guard w == 7) none
  | 1 => req 1 (guard w == 7 && fld w 5 14 == 0) none
  | 2 =>
    req 1 (guard w == 7 && fld w 3 2 == 0 && fld w 16 3 == 0 && (fld w 0 3 == 5 || fld w 5 11 == 0)) <|
      req 4 (decide ((fld w 0 3).toNat < 6)) none
  | 3 => req 1 (guard w == 7 && fld w 5 14 == 0) <| req 4 (fld w 0 2 != 3 && fld w 2 2 != 3) none
  | 4 => req 1 (guard w == 7) none
  | 5 => req 1 (guard w == 7) none
  | _ => req 1 (guard w == 7) (some 4)

/-- The instruction of a hint word that has no REASON. -/
noncomputable def buildHint (w : Word) : Instr :=
  match (fld w 19 3).toNat with
  | 0 => .hintImm (fld w 0 19)
  | 1 => .hintImmtop (fld w 0 5)
  | 2 => .hintRnd (fld w 5 11) (fld w 0 3)
  | 3 => .hintCache (fld w 4 1) (fld w 2 2) (fld w 0 2)
  | 4 => .hintCtl (fld w 10 9) (fld w 0 10)
  | _ => .hintMod (fld w 0 19)

/-- The REASON under which issue of a word raises ILLOP (03 R67–R70, R80, R81), none for an instruction. A dictionary word is
one with bits [31:26] all set (03 R77); whether its halves are well formed is judged at the slot (log entry 11). -/
def wordReason (w : Word) : Option Nat :=
  let prim := (fld w 25 7).toNat
  if prim < 0x28 then reasonInt w prim
  else if prim < 0x40 then reasonFloat w prim
  else if prim < 0x58 then reasonMem w prim
  else if prim < 0x68 then reasonTile w prim
  else if prim < 0x7C then reasonGang w prim
  else if prim = 0x7C then reasonHint w
  else if prim = 0x7D then some 0
  else none

/-- The instruction of a word that has no REASON. -/
noncomputable def buildWord (w : Word) : Instr :=
  let prim := (fld w 25 7).toNat
  if prim < 0x28 then buildInt w prim
  else if prim < 0x40 then buildFloat w prim
  else if prim < 0x58 then buildMem w prim
  else if prim < 0x68 then buildTile w prim
  else if prim < 0x7C then buildGang w prim
  else if prim = 0x7C then buildHint w
  else .dictionarySlot (fld w 16 10) (fld w 0 16)

/-- Decode a word: an instruction, or the REASON under which its issue raises ILLOP (log entry 68). -/
noncomputable def decodeWord (w : Word) : Dec :=
  match wordReason w with
  | some r => .error r
  | none => .ok (buildWord w)

/-- A decoded instruction, or why the bytes hold none. -/
inductive DecodeError where
  /-- Fewer than four bytes. -/
  | tooShort
  /-- The word raises ILLOP with this REASON (03 R81). -/
  | illegal (reason : Nat)
  deriving DecidableEq, Repr

/-- Decode the instruction at the front of a list of bytes (little-endian, 00 R5), with the bytes that follow it. Total:
any bytes give an instruction or a named refusal. -/
noncomputable def decodeBytes : List Byte → Except DecodeError (Instr × List Byte)
  | b0 :: b1 :: b2 :: b3 :: rest =>
    match decodeWord (b3 ++ b2 ++ b1 ++ b0) with
    | .ok i => .ok (i, rest)
    | .error r => .error (.illegal r)
  | _ => .error .tooShort

/-! ### The encoder -/

/-- The word of an instruction, its fields placed as 03 R67 and the instruction's entry lay down; none for an event (log entry 68). -/
def encode : Instr → Option Word
  | .addI32 g d a b => some ((0x1#7) ++ g ++ d ++ a ++ b ++ (0x0#1))
  | .addsI32 g d a b => some ((0x1#7) ++ g ++ d ++ a ++ b ++ (0x1#1))
  | .subI32 g d a b => some ((0x2#7) ++ g ++ d ++ a ++ b ++ (0x0#1))
  | .subsI32 g d a b => some ((0x2#7) ++ g ++ d ++ a ++ b ++ (0x1#1))
  | .mulI32 g d a b => some ((0x3#7) ++ g ++ d ++ a ++ b ++ (0x0#1))
  | .mulhI32 g d a b => some ((0x3#7) ++ g ++ d ++ a ++ b ++ (0x1#1))
  | .mulhuI32 g d a b => some ((0x4#7) ++ g ++ d ++ a ++ b ++ (0x0#1))
  | .minI32 g d a b => some ((0x5#7) ++ g ++ d ++ a ++ b ++ (0x0#1))
  | .minuI32 g d a b => some ((0x5#7) ++ g ++ d ++ a ++ b ++ (0x1#1))
  | .maxI32 g d a b => some ((0x6#7) ++ g ++ d ++ a ++ b ++ (0x0#1))
  | .maxuI32 g d a b => some ((0x6#7) ++ g ++ d ++ a ++ b ++ (0x1#1))
  | .andI32 g d a b => some ((0x7#7) ++ g ++ d ++ a ++ b ++ (0x0#1))
  | .andnI32 g d a b => some ((0x7#7) ++ g ++ d ++ a ++ b ++ (0x1#1))
  | .orI32 g d a b => some ((0x8#7) ++ g ++ d ++ a ++ b ++ (0x0#1))
  | .xorI32 g d a b => some ((0x8#7) ++ g ++ d ++ a ++ b ++ (0x1#1))
  | .shlI32 g d a b => some ((0x9#7) ++ g ++ d ++ a ++ b ++ (0x0#1))
  | .shrI32 g d a b => some ((0x9#7) ++ g ++ d ++ a ++ b ++ (0x1#1))
  | .sraI32 g d a b => some ((0xA#7) ++ g ++ d ++ a ++ b ++ (0x0#1))
  | .rotlI32 g d a b => some ((0xA#7) ++ g ++ d ++ a ++ b ++ (0x1#1))
  | .addI32U d a b => some ((0x9F#10) ++ 0#1 ++ d ++ 0#1 ++ a ++ 0#1 ++ b ++ (0x0#1))
  | .addsI32U d a b => some ((0x9F#10) ++ 0#1 ++ d ++ 0#1 ++ a ++ 0#1 ++ b ++ (0x1#1))
  | .subI32U d a b => some ((0xA7#10) ++ 0#1 ++ d ++ 0#1 ++ a ++ 0#1 ++ b ++ (0x0#1))
  | .subsI32U d a b => some ((0xA7#10) ++ 0#1 ++ d ++ 0#1 ++ a ++ 0#1 ++ b ++ (0x1#1))
  | .mulI32U d a b => some ((0xAF#10) ++ 0#1 ++ d ++ 0#1 ++ a ++ 0#1 ++ b ++ (0x0#1))
  | .mulhI32U d a b => some ((0xAF#10) ++ 0#1 ++ d ++ 0#1 ++ a ++ 0#1 ++ b ++ (0x1#1))
  | .mulhuI32U d a b => some ((0xB7#10) ++ 0#1 ++ d ++ 0#1 ++ a ++ 0#1 ++ b ++ (0x0#1))
  | .minI32U d a b => some ((0xBF#10) ++ 0#1 ++ d ++ 0#1 ++ a ++ 0#1 ++ b ++ (0x0#1))
  | .minuI32U d a b => some ((0xBF#10) ++ 0#1 ++ d ++ 0#1 ++ a ++ 0#1 ++ b ++ (0x1#1))
  | .maxI32U d a b => some ((0xC7#10) ++ 0#1 ++ d ++ 0#1 ++ a ++ 0#1 ++ b ++ (0x0#1))
  | .maxuI32U d a b => some ((0xC7#10) ++ 0#1 ++ d ++ 0#1 ++ a ++ 0#1 ++ b ++ (0x1#1))
  | .andI32U d a b => some ((0xCF#10) ++ 0#1 ++ d ++ 0#1 ++ a ++ 0#1 ++ b ++ (0x0#1))
  | .andnI32U d a b => some ((0xCF#10) ++ 0#1 ++ d ++ 0#1 ++ a ++ 0#1 ++ b ++ (0x1#1))
  | .orI32U d a b => some ((0xD7#10) ++ 0#1 ++ d ++ 0#1 ++ a ++ 0#1 ++ b ++ (0x0#1))
  | .xorI32U d a b => some ((0xD7#10) ++ 0#1 ++ d ++ 0#1 ++ a ++ 0#1 ++ b ++ (0x1#1))
  | .shlI32U d a b => some ((0xDF#10) ++ 0#1 ++ d ++ 0#1 ++ a ++ 0#1 ++ b ++ (0x0#1))
  | .shrI32U d a b => some ((0xDF#10) ++ 0#1 ++ d ++ 0#1 ++ a ++ 0#1 ++ b ++ (0x1#1))
  | .sraI32U d a b => some ((0xE7#10) ++ 0#1 ++ d ++ 0#1 ++ a ++ 0#1 ++ b ++ (0x0#1))
  | .rotlI32U d a b => some ((0xE7#10) ++ 0#1 ++ d ++ 0#1 ++ a ++ 0#1 ++ b ++ (0x1#1))
  | .bfeI32 g d a b => some ((0xB#7) ++ g ++ d ++ a ++ b ++ (0x0#1))
  | .bfesI32 g d a b => some ((0xB#7) ++ g ++ d ++ a ++ b ++ (0x1#1))
  | .bfiI32 g d a b => some ((0xC#7) ++ g ++ d ++ a ++ b ++ (0x0#1))
  | .cmp g p c a b => some ((0xD#7) ++ g ++ p ++ c ++ a ++ b ++ (0x0#1))
  | .cmpa g p c a b => some ((0xD#7) ++ g ++ p ++ c ++ a ++ b ++ (0x1#1))
  | .cmpU p c a b => some ((0xEF#10) ++ p ++ c ++ 0#1 ++ a ++ 0#1 ++ b ++ (0x0#1))
  | .cmpaU p c a b => some ((0xEF#10) ++ p ++ c ++ 0#1 ++ a ++ 0#1 ++ b ++ (0x1#1))
  | .cmpi g p c a i => some ((0xE#7) ++ g ++ p ++ c ++ a ++ i)
  | .movI32 g d a => some ((0xF#7) ++ g ++ d ++ a ++ (0x0#8))
  | .notI32 g d a => some ((0xF#7) ++ g ++ d ++ a ++ (0x2#8))
  | .negI32 g d a => some ((0xF#7) ++ g ++ d ++ a ++ (0x4#8))
  | .absI32 g d a => some ((0xF#7) ++ g ++ d ++ a ++ (0x6#8))
  | .popcI32 g d a => some ((0xF#7) ++ g ++ d ++ a ++ (0x8#8))
  | .clzI32 g d a => some ((0xF#7) ++ g ++ d ++ a ++ (0xA#8))
  | .ctzI32 g d a => some ((0xF#7) ++ g ++ d ++ a ++ (0xC#8))
  | .brevI32 g d a => some ((0xF#7) ++ g ++ d ++ a ++ (0xE#8))
  | .sext8I32 g d a => some ((0xF#7) ++ g ++ d ++ a ++ (0x10#8))
  | .sext16I32 g d a => some ((0xF#7) ++ g ++ d ++ a ++ (0x12#8))
  | .zext8I32 g d a => some ((0xF#7) ++ g ++ d ++ a ++ (0x14#8))
  | .zext16I32 g d a => some ((0xF#7) ++ g ++ d ++ a ++ (0x16#8))
  | .movI32U d a => some ((0x7F#10) ++ 0#1 ++ d ++ 0#1 ++ a ++ (0x1#8))
  | .notI32U d a => some ((0x7F#10) ++ 0#1 ++ d ++ 0#1 ++ a ++ (0x3#8))
  | .negI32U d a => some ((0x7F#10) ++ 0#1 ++ d ++ 0#1 ++ a ++ (0x5#8))
  | .absI32U d a => some ((0x7F#10) ++ 0#1 ++ d ++ 0#1 ++ a ++ (0x7#8))
  | .popcI32U d a => some ((0x7F#10) ++ 0#1 ++ d ++ 0#1 ++ a ++ (0x9#8))
  | .clzI32U d a => some ((0x7F#10) ++ 0#1 ++ d ++ 0#1 ++ a ++ (0xB#8))
  | .ctzI32U d a => some ((0x7F#10) ++ 0#1 ++ d ++ 0#1 ++ a ++ (0xD#8))
  | .brevI32U d a => some ((0x7F#10) ++ 0#1 ++ d ++ 0#1 ++ a ++ (0xF#8))
  | .sext8I32U d a => some ((0x7F#10) ++ 0#1 ++ d ++ 0#1 ++ a ++ (0x11#8))
  | .sext16I32U d a => some ((0x7F#10) ++ 0#1 ++ d ++ 0#1 ++ a ++ (0x13#8))
  | .zext8I32U d a => some ((0x7F#10) ++ 0#1 ++ d ++ 0#1 ++ a ++ (0x15#8))
  | .zext16I32U d a => some ((0x7F#10) ++ 0#1 ++ d ++ 0#1 ++ a ++ (0x17#8))
  | .addi g d a i => some ((0x10#7) ++ g ++ d ++ a ++ i)
  | .movi g d i => some ((0x11#7) ++ g ++ d ++ (0x0#7) ++ i)
  | .moviU d i => some ((0x8F#10) ++ 0#1 ++ d ++ (0x1#7) ++ i)
  | .addiU d a i => some ((0xF7#10) ++ 0#1 ++ d ++ 0#1 ++ a ++ i)
  | .addiI64 d a i => some ((0xFF#10) ++ 0#1 ++ d ++ 0#1 ++ a ++ i)
  | .shli g d a n => some ((0x12#7) ++ g ++ d ++ a ++ (0x0#2) ++ n ++ (0x0#1))
  | .shri g d a n => some ((0x12#7) ++ g ++ d ++ a ++ (0x1#2) ++ n ++ (0x0#1))
  | .srai g d a n => some ((0x12#7) ++ g ++ d ++ a ++ (0x2#2) ++ n ++ (0x0#1))
  | .rotli g d a n => some ((0x12#7) ++ g ++ d ++ a ++ (0x3#2) ++ n ++ (0x0#1))
  | .shliU d a n => some ((0x97#10) ++ 0#1 ++ d ++ 0#1 ++ a ++ (0x0#2) ++ n ++ (0x1#1))
  | .shriU d a n => some ((0x97#10) ++ 0#1 ++ d ++ 0#1 ++ a ++ (0x1#2) ++ n ++ (0x1#1))
  | .sraiU d a n => some ((0x97#10) ++ 0#1 ++ d ++ 0#1 ++ a ++ (0x2#2) ++ n ++ (0x1#1))
  | .rotliU d a n => some ((0x97#10) ++ 0#1 ++ d ++ 0#1 ++ a ++ (0x3#2) ++ n ++ (0x1#1))
  | .pand g d a b => some ((0x20#7) ++ g ++ 0#4 ++ d ++ 0#4 ++ a ++ b ++ (0x0#5))
  | .por g d a b => some ((0x20#7) ++ g ++ 0#4 ++ d ++ 0#4 ++ a ++ b ++ (0x2#5))
  | .pxor g d a b => some ((0x20#7) ++ g ++ 0#4 ++ d ++ 0#4 ++ a ++ b ++ (0x4#5))
  | .pandn g d a b => some ((0x20#7) ++ g ++ 0#4 ++ d ++ 0#4 ++ a ++ b ++ (0x6#5))
  | .br p o => some ((0x10F#10) ++ p ++ o)
  | .jmp o => some ((0x87F#13) ++ o)
  | .brd p t r => some ((0x117#10) ++ p ++ t ++ r)
  | .call d i => some ((0x11F#10) ++ d ++ (0x0#7) ++ i)
  | .jmpi a => some ((0x9380#17) ++ a ++ (0x0#8))
  | .calli d a => some ((0x127#10) ++ d ++ a ++ (0x2#8))
  | .regang => some ((0x49C00004#32))
  | .exit g => some ((0x24#7) ++ g ++ (0x6#22))
  | .nop g => some ((0x24#7) ++ g ++ (0x8#22))
  | .wait l s c t => some ((0x12F#10) ++ l ++ s ++ c ++ t)
  | .lea g d a b => some ((0x26#7) ++ g ++ d ++ 0#1 ++ a ++ b ++ (0x0#1))
  | .leau g d a b => some ((0x26#7) ++ g ++ d ++ 0#1 ++ a ++ b ++ (0x1#1))
  | .movVg g d a => some ((0x27#7) ++ g ++ d ++ 0#1 ++ a ++ (0x0#8))
  | .movPg d a => some ((0x13F#10) ++ 0#4 ++ d ++ 0#1 ++ a ++ (0x2#8))
  | .movGp d a => some ((0x13F#10) ++ 0#1 ++ d ++ 0#4 ++ a ++ (0x4#8))
  | .movVp g d a => some ((0x27#7) ++ g ++ d ++ 0#4 ++ a ++ (0x6#8))
  | .movPv g d a => some ((0x27#7) ++ g ++ 0#4 ++ d ++ a ++ (0x8#8))
  | .laneid g d => some ((0x27#7) ++ g ++ d ++ (0xA#15))
  | .movGv d a l => some ((0x13F#10) ++ 0#1 ++ d ++ a ++ (0x1#2) ++ l ++ (0x0#1))
  | .faddF32 g d a b => some ((0x28#7) ++ g ++ d ++ a ++ b ++ (0x0#1))
  | .fsubF32 g d a b => some ((0x28#7) ++ g ++ d ++ a ++ b ++ (0x1#1))
  | .fmulF32 g d a b => some ((0x29#7) ++ g ++ d ++ a ++ b ++ (0x0#1))
  | .fdivF32 g d a b => some ((0x29#7) ++ g ++ d ++ a ++ b ++ (0x1#1))
  | .fminF32 g d a b => some ((0x2A#7) ++ g ++ d ++ a ++ b ++ (0x0#1))
  | .fmaxF32 g d a b => some ((0x2A#7) ++ g ++ d ++ a ++ b ++ (0x1#1))
  | .ffmaF32 g d a b => some ((0x2B#7) ++ g ++ d ++ a ++ b ++ (0x0#1))
  | .ffmsF32 g d a b => some ((0x2B#7) ++ g ++ d ++ a ++ b ++ (0x1#1))
  | .faddF16x2 g d a b => some ((0x2C#7) ++ g ++ d ++ a ++ b ++ (0x0#1))
  | .fsubF16x2 g d a b => some ((0x2C#7) ++ g ++ d ++ a ++ b ++ (0x1#1))
  | .fmulF16x2 g d a b => some ((0x2D#7) ++ g ++ d ++ a ++ b ++ (0x0#1))
  | .ffmaF16x2 g d a b => some ((0x2D#7) ++ g ++ d ++ a ++ b ++ (0x1#1))
  | .faddBf16x2 g d a b => some ((0x2E#7) ++ g ++ d ++ a ++ b ++ (0x0#1))
  | .fsubBf16x2 g d a b => some ((0x2E#7) ++ g ++ d ++ a ++ b ++ (0x1#1))
  | .fmulBf16x2 g d a b => some ((0x2F#7) ++ g ++ d ++ a ++ b ++ (0x0#1))
  | .ffmaBf16x2 g d a b => some ((0x2F#7) ++ g ++ d ++ a ++ b ++ (0x1#1))
  | .fminF16x2 g d a b => some ((0x30#7) ++ g ++ d ++ a ++ b ++ (0x0#1))
  | .fmaxF16x2 g d a b => some ((0x30#7) ++ g ++ d ++ a ++ b ++ (0x1#1))
  | .fminBf16x2 g d a b => some ((0x31#7) ++ g ++ d ++ a ++ b ++ (0x0#1))
  | .fmaxBf16x2 g d a b => some ((0x31#7) ++ g ++ d ++ a ++ b ++ (0x1#1))
  | .fcmp g p c a b => some ((0x32#7) ++ g ++ p ++ c ++ a ++ b ++ (0x0#1))
  | .fcmpa g p c a b => some ((0x32#7) ++ g ++ p ++ c ++ a ++ b ++ (0x1#1))
  | .fneg g d a t => some ((0x33#7) ++ g ++ d ++ a ++ t ++ (0x0#6))
  | .fabs g d a t => some ((0x33#7) ++ g ++ d ++ a ++ t ++ (0x2#6))
  | .fsqrt g d a t => some ((0x33#7) ++ g ++ d ++ a ++ t ++ (0x4#6))
  | .frsq g d a t => some ((0x33#7) ++ g ++ d ++ a ++ t ++ (0x6#6))
  | .frcp g d a t => some ((0x33#7) ++ g ++ d ++ a ++ t ++ (0x8#6))
  | .fexp2 g d a t => some ((0x33#7) ++ g ++ d ++ a ++ t ++ (0xA#6))
  | .flog2 g d a t => some ((0x33#7) ++ g ++ d ++ a ++ t ++ (0xC#6))
  | .fsinpi g d a t => some ((0x33#7) ++ g ++ d ++ a ++ t ++ (0xE#6))
  | .fcospi g d a t => some ((0x33#7) ++ g ++ d ++ a ++ t ++ (0x10#6))
  | .frint g d a t => some ((0x33#7) ++ g ++ d ++ a ++ t ++ (0x12#6))
  | .fclass g d a t => some ((0x33#7) ++ g ++ d ++ a ++ t ++ (0x14#6))
  | .fcpsgnF32 g d a b => some ((0x34#7) ++ g ++ d ++ a ++ b ++ (0x0#1))
  | .fcpsgnH g d a b => some ((0x34#7) ++ g ++ d ++ a ++ b ++ (0x1#1))
  | .pk16F16 g d a b => some ((0x35#7) ++ g ++ d ++ a ++ b ++ (0x0#1))
  | .pk16Bf16 g d a b => some ((0x35#7) ++ g ++ d ++ a ++ b ++ (0x1#1))
  | .pk8E4m3 g d a s b => some ((0x36#7) ++ g ++ d ++ a ++ s ++ b)
  | .pk8E5m2 g d a s b => some ((0x37#7) ++ g ++ d ++ a ++ s ++ b)
  | .srnd g d a s b => some ((0x38#7) ++ g ++ d ++ a ++ s ++ b)
  | .pk4E2m1 g d a s b => some ((0x39#7) ++ g ++ d ++ a ++ s ++ b)
  | .prng g d s b => some ((0x3A#7) ++ g ++ d ++ (0x0#7) ++ s ++ b)
  | .upk16F16 g d s b => some ((0x3B#7) ++ g ++ d ++ (0x0#7) ++ s ++ b)
  | .upk16Bf16 g d s b => some ((0x3B#7) ++ g ++ d ++ (0x1#7) ++ s ++ b)
  | .upk8E4m3 g d s b => some ((0x3B#7) ++ g ++ d ++ (0x2#7) ++ s ++ b)
  | .upk8E5m2 g d s b => some ((0x3B#7) ++ g ++ d ++ (0x3#7) ++ s ++ b)
  | .upk8I8 g d s b => some ((0x3B#7) ++ g ++ d ++ (0x4#7) ++ s ++ b)
  | .upk4E2m1 g d s b => some ((0x3B#7) ++ g ++ d ++ (0x5#7) ++ s ++ b)
  | .upk4I4 g d s b => some ((0x3B#7) ++ g ++ d ++ (0x6#7) ++ s ++ b)
  | .dot4 g d a b => some ((0x3C#7) ++ g ++ d ++ a ++ b ++ (0x0#1))
  | .dot4s g d a b => some ((0x3C#7) ++ g ++ d ++ a ++ b ++ (0x1#1))
  | .dot8 g d a b => some ((0x3D#7) ++ g ++ d ++ a ++ b ++ (0x0#1))
  | .dot8s g d a b => some ((0x3D#7) ++ g ++ d ++ a ++ b ++ (0x1#1))
  | .fscaleE3m5 g d a s b => some ((0x3E#7) ++ g ++ d ++ a ++ s ++ b)
  | .cvtF32S32 g d a => some ((0x3F#7) ++ g ++ d ++ a ++ (0x0#8))
  | .cvtF32U32 g d a => some ((0x3F#7) ++ g ++ d ++ a ++ (0x2#8))
  | .cvtS32F32 g d a => some ((0x3F#7) ++ g ++ d ++ a ++ (0x4#8))
  | .cvtU32F32 g d a => some ((0x3F#7) ++ g ++ d ++ a ++ (0x6#8))
  | .cvtS8F32 g d a => some ((0x3F#7) ++ g ++ d ++ a ++ (0x8#8))
  | .cvtS4F32 g d a => some ((0x3F#7) ++ g ++ d ++ a ++ (0xA#8))
  | .cvtE3m5F32 g d a => some ((0x3F#7) ++ g ++ d ++ a ++ (0xC#8))
  | .cvtF32E3m5 g d a => some ((0x3F#7) ++ g ++ d ++ a ++ (0xE#8))
  | .ldB32 g d a i => some ((0x40#7) ++ g ++ d ++ a ++ i)
  | .stB32 g d a i => some ((0x41#7) ++ g ++ d ++ a ++ i)
  | .ldB8 g d a => some ((0x42#7) ++ g ++ d ++ a ++ (0x0#8))
  | .ldS8 g d a => some ((0x42#7) ++ g ++ d ++ a ++ (0x2#8))
  | .ldB16 g d a => some ((0x42#7) ++ g ++ d ++ a ++ (0x4#8))
  | .ldS16 g d a => some ((0x42#7) ++ g ++ d ++ a ++ (0x6#8))
  | .ldB64 g d a => some ((0x42#7) ++ g ++ d ++ a ++ (0x8#8))
  | .ldB128 g d a => some ((0x42#7) ++ g ++ d ++ a ++ (0xA#8))
  | .ldpB32 g d a => some ((0x42#7) ++ g ++ d ++ a ++ (0xC#8))
  | .ldpB64 g d a => some ((0x42#7) ++ g ++ d ++ a ++ (0xE#8))
  | .stB8 g d a => some ((0x43#7) ++ g ++ d ++ a ++ (0x0#8))
  | .stB16 g d a => some ((0x43#7) ++ g ++ d ++ a ++ (0x2#8))
  | .stB64 g d a => some ((0x43#7) ++ g ++ d ++ a ++ (0x8#8))
  | .stB128 g d a => some ((0x43#7) ++ g ++ d ++ a ++ (0xA#8))
  | .lduB32 d a i => some ((0x227#10) ++ 0#1 ++ d ++ 0#1 ++ a ++ i)
  | .stuB32 d a i => some ((0x22F#10) ++ 0#1 ++ d ++ 0#1 ++ a ++ i)
  | .lduB64 d a => some ((0x237#10) ++ 0#1 ++ d ++ 0#1 ++ a ++ (0x0#8))
  | .stuB64 d a => some ((0x237#10) ++ 0#1 ++ d ++ 0#1 ++ a ++ (0x2#8))
  | .gatherB32 g d a b => some ((0x47#7) ++ g ++ d ++ 0#1 ++ a ++ b ++ (0x0#1))
  | .scatterB32 g d a b => some ((0x47#7) ++ g ++ d ++ 0#1 ++ a ++ b ++ (0x1#1))
  | .cstoreB32 g d a => some ((0x48#7) ++ g ++ 0#1 ++ d ++ a ++ (0x0#8))
  | .cstoreB64 g d a => some ((0x48#7) ++ g ++ 0#1 ++ d ++ a ++ (0x1#8))
  | .atomAddI32 g d a n => some ((0x49#7) ++ g ++ d ++ a ++ (0x0#7) ++ n)
  | .atomAndB32 g d a n => some ((0x49#7) ++ g ++ d ++ a ++ (0x1#7) ++ n)
  | .atomOrB32 g d a n => some ((0x49#7) ++ g ++ d ++ a ++ (0x2#7) ++ n)
  | .atomXorB32 g d a n => some ((0x49#7) ++ g ++ d ++ a ++ (0x3#7) ++ n)
  | .atomMinI32 g d a n => some ((0x49#7) ++ g ++ d ++ a ++ (0x4#7) ++ n)
  | .atomMaxI32 g d a n => some ((0x49#7) ++ g ++ d ++ a ++ (0x5#7) ++ n)
  | .atomMinuI32 g d a n => some ((0x49#7) ++ g ++ d ++ a ++ (0x6#7) ++ n)
  | .atomMaxuI32 g d a n => some ((0x49#7) ++ g ++ d ++ a ++ (0x7#7) ++ n)
  | .atomXchgB32 g d a n => some ((0x49#7) ++ g ++ d ++ a ++ (0x8#7) ++ n)
  | .atomCasB32 g d a n => some ((0x49#7) ++ g ++ d ++ a ++ (0x9#7) ++ n)
  | .atomAddF32 g d a n => some ((0x49#7) ++ g ++ d ++ a ++ (0xA#7) ++ n)
  | .atomAddI64 g d a n => some ((0x49#7) ++ g ++ d ++ a ++ (0xB#7) ++ n)
  | .atomCasB64 g d a n => some ((0x49#7) ++ g ++ d ++ a ++ (0xC#7) ++ n)
  | .adetFaddF32 g d a => some ((0x4A#7) ++ g ++ d ++ a ++ (0x0#8))
  | .adetFaddF16 g d a => some ((0x4A#7) ++ g ++ d ++ a ++ (0x2#8))
  | .adetFaddBf16 g d a => some ((0x4A#7) ++ g ++ d ++ a ++ (0x4#8))
  | .adetAddI32 g d a => some ((0x4A#7) ++ g ++ d ++ a ++ (0x6#8))
  | .adetAddI64 g d a => some ((0x4A#7) ++ g ++ d ++ a ++ (0x8#8))
  | .adetMinI32 g d a => some ((0x4A#7) ++ g ++ d ++ a ++ (0xA#8))
  | .adetMaxI32 g d a => some ((0x4A#7) ++ g ++ d ++ a ++ (0xC#8))
  | .adetMinuB64 g d a => some ((0x4A#7) ++ g ++ d ++ a ++ (0xE#8))
  | .adetMaxuB64 g d a => some ((0x4A#7) ++ g ++ d ++ a ++ (0x10#8))
  | .adetXchgB32 g d a => some ((0x4A#7) ++ g ++ d ++ a ++ (0x20#8))
  | .adetCasB32 g d a => some ((0x4A#7) ++ g ++ d ++ a ++ (0x22#8))
  | .adetAppB32 g d a => some ((0x4A#7) ++ g ++ d ++ a ++ (0x24#8))
  | .aflush n => some ((0x4BE00000#31) ++ n)
  | .fence k s => some ((0x97C#12) ++ k ++ s ++ (0x2#15))
  | .xfence t f s => some ((0x4BE#11) ++ t ++ f ++ (0x0#4) ++ s ++ (0x4#8))
  | .cpyIn d a b => some ((0x267#10) ++ 0#2 ++ d ++ 0#2 ++ a ++ 0#1 ++ b ++ (0x0#1))
  | .cpyOut d a b => some ((0x267#10) ++ 0#2 ++ d ++ 0#2 ++ a ++ 0#1 ++ b ++ (0x1#1))
  | .bst g d a i => some ((0x4D#7) ++ g ++ d ++ 0#1 ++ a ++ i)
  | .movGc d a => some ((0x277#10) ++ 0#1 ++ d ++ 0#4 ++ a ++ (0x0#8))
  | .cwpwait d a => some ((0x277#10) ++ 0#1 ++ d ++ 0#4 ++ a ++ (0x2#8))
  | .bankcfgCache a => some ((0x13F80#17) ++ 0#1 ++ a ++ (0x0#8))
  | .bankcfgPad a => some ((0x13F80#17) ++ 0#1 ++ a ++ (0x2#8))
  | .bankcfgFifo a => some ((0x13F80#17) ++ 0#1 ++ a ++ (0x4#8))
  | .fpush g k a => some ((0x50#7) ++ g ++ 0#3 ++ k ++ a ++ (0x0#8))
  | .fpop g d k => some ((0x50#7) ++ g ++ d ++ 0#3 ++ k ++ (0x2#8))
  | .fcount d k => some ((0x287#10) ++ 0#1 ++ d ++ 0#3 ++ k ++ (0x4#8))
  | .qunbind d => some ((0x28F#10) ++ 0#4 ++ d ++ (0x0#15))
  | .qbindPeer d a => some ((0x28F#10) ++ 0#4 ++ d ++ 0#1 ++ a ++ (0x2#8))
  | .qbindGather d a => some ((0x28F#10) ++ 0#4 ++ d ++ 0#1 ++ a ++ (0x4#8))
  | .qpush g d a => some ((0x51#7) ++ g ++ 0#4 ++ d ++ a ++ (0x6#8))
  | .qpop g d a => some ((0x51#7) ++ g ++ d ++ 0#4 ++ a ++ (0x8#8))
  | .ldsB32 g d a b => some ((0x52#7) ++ g ++ d ++ 0#2 ++ a ++ b ++ (0x0#1))
  | .stsB32 g d a b => some ((0x52#7) ++ g ++ d ++ 0#2 ++ a ++ b ++ (0x1#1))
  | .tset d a => some ((0x2C7#10) ++ 0#2 ++ d ++ 0#1 ++ a ++ (0x0#8))
  | .tget d a => some ((0x2C7#10) ++ 0#1 ++ d ++ 0#2 ++ a ++ (0x2#8))
  | .tclr d => some ((0x2C7#10) ++ 0#2 ++ d ++ (0x4#15))
  | .tdescR d a b => some ((0x2CF#10) ++ 0#1 ++ d ++ 0#2 ++ a ++ 0#1 ++ b ++ (0x0#1))
  | .tdescW d a b => some ((0x2CF#10) ++ 0#1 ++ d ++ 0#2 ++ a ++ 0#1 ++ b ++ (0x1#1))
  | .tloadP d a b => some ((0x2D7#10) ++ 0#2 ++ d ++ 0#2 ++ a ++ 0#1 ++ b ++ (0x0#1))
  | .tloadR d a b => some ((0x2D7#10) ++ 0#2 ++ d ++ 0#2 ++ a ++ 0#1 ++ b ++ (0x1#1))
  | .tstore d a b => some ((0x2DF#10) ++ 0#2 ++ d ++ 0#2 ++ a ++ 0#1 ++ b ++ (0x0#1))
  | .muster a => some ((0x17380#17) ++ 0#1 ++ a ++ (0x0#8))
  | .rdmst d => some ((0x2E7#10) ++ 0#1 ++ d ++ (0x2#15))
  | .mmj d a b => some ((0x2EF#10) ++ 0#3 ++ d ++ a ++ 0#2 ++ b ++ (0x0#1))
  | .mmc d a b => some ((0x2F7#10) ++ 0#1 ++ d ++ a ++ 0#2 ++ b ++ (0x0#1))
  | .aclr d => some ((0x2FF#10) ++ 0#3 ++ d ++ (0x0#15))
  | .amov d a => some ((0x2FF#10) ++ 0#3 ++ d ++ 0#3 ++ a ++ (0x2#8))
  | .aadd d a => some ((0x2FF#10) ++ 0#3 ++ d ++ 0#3 ++ a ++ (0x4#8))
  | .ald d a => some ((0x2FF#10) ++ 0#3 ++ d ++ 0#2 ++ a ++ (0x6#8))
  | .ast d a => some ((0x2FF#10) ++ 0#2 ++ d ++ 0#3 ++ a ++ (0x8#8))
  | .aget g d a b => some ((0x60#7) ++ g ++ d ++ 0#3 ++ a ++ 0#1 ++ b ++ (0x0#1))
  | .aset g d a b => some ((0x60#7) ++ g ++ d ++ 0#3 ++ a ++ 0#1 ++ b ++ (0x1#1))
  | .aepi d a b => some ((0x30F#10) ++ 0#2 ++ d ++ 0#3 ++ a ++ 0#1 ++ b ++ (0x0#1))
  | .aepiClr d a b => some ((0x30F#10) ++ 0#2 ++ d ++ 0#3 ++ a ++ 0#1 ++ b ++ (0x1#1))
  | .gwidth d => some ((0x347#10) ++ 0#1 ++ d ++ (0x0#15))
  | .gslices d => some ((0x347#10) ++ 0#1 ++ d ++ (0x2#15))
  | .vballot d a => some ((0x347#10) ++ 0#1 ++ d ++ 0#4 ++ a ++ (0x4#8))
  | .vany d a => some ((0x347#10) ++ 0#4 ++ d ++ 0#4 ++ a ++ (0x6#8))
  | .vall d a => some ((0x347#10) ++ 0#4 ++ d ++ 0#4 ++ a ++ (0x8#8))
  | .shflIdx g d a v => some ((0x69#7) ++ g ++ d ++ a ++ (0x0#2) ++ v ++ (0x0#3))
  | .shflUp g d a v => some ((0x69#7) ++ g ++ d ++ a ++ (0x1#2) ++ v ++ (0x0#3))
  | .shflDown g d a v => some ((0x69#7) ++ g ++ d ++ a ++ (0x2#2) ++ v ++ (0x0#3))
  | .shflXor g d a v => some ((0x69#7) ++ g ++ d ++ a ++ (0x3#2) ++ v ++ (0x0#3))
  | .shflIdxi g d a n => some ((0x6A#7) ++ g ++ d ++ a ++ (0x0#2) ++ n ++ (0x0#1))
  | .shflUpi g d a n => some ((0x6A#7) ++ g ++ d ++ a ++ (0x1#2) ++ n ++ (0x0#1))
  | .shflDowni g d a n => some ((0x6A#7) ++ g ++ d ++ a ++ (0x2#2) ++ n ++ (0x0#1))
  | .shflXori g d a n => some ((0x6A#7) ++ g ++ d ++ a ++ (0x3#2) ++ n ++ (0x0#1))
  | .bar => some ((0xD7C00000#32))
  | .yield => some ((0xD7C00002#32))
  | .pbinit d a => some ((0x35F#10) ++ 0#2 ++ d ++ 0#1 ++ a ++ (0x4#8))
  | .pbarrive d a => some ((0x35F#10) ++ 0#2 ++ d ++ 0#1 ++ a ++ (0x6#8))
  | .pbwait d a => some ((0x35F#10) ++ 0#2 ++ d ++ 0#1 ++ a ++ (0x8#8))
  | .wid g d => some ((0x6C#7) ++ g ++ d ++ (0x0#15))
  | .widf g d k => some ((0x6C#7) ++ g ++ d ++ 0#4 ++ k ++ (0x2#8))
  | .fetchw d a => some ((0x36F#10) ++ 0#2 ++ d ++ 0#1 ++ a ++ (0x0#8))
  | .launch d a => some ((0x36F#10) ++ 0#1 ++ d ++ 0#1 ++ a ++ (0x2#8))
  | .qtokRel d a => some ((0x377#10) ++ 0#1 ++ d ++ 0#1 ++ a ++ (0x0#8))
  | .qtokAcq d a => some ((0x377#10) ++ 0#1 ++ d ++ 0#1 ++ a ++ (0x2#8))
  | .qtokTry d a => some ((0x377#10) ++ 0#1 ++ d ++ 0#1 ++ a ++ (0x4#8))
  | .wlpush g d a => some ((0x6F#7) ++ g ++ d ++ a ++ (0x0#8))
  | .wlpop g d a p => some ((0x6F#7) ++ g ++ d ++ 0#1 ++ a ++ p ++ (0x2#5))
  | .wldone g => some ((0x6F#7) ++ g ++ (0x4#22))
  | .jrecTok d a => some ((0x387#10) ++ 0#1 ++ d ++ 0#1 ++ a ++ (0x0#8))
  | .jrecGen d a => some ((0x387#10) ++ 0#1 ++ d ++ 0#1 ++ a ++ (0x2#8))
  | .jrecRoute d a => some ((0x387#10) ++ 0#1 ++ d ++ 0#1 ++ a ++ (0x4#8))
  | .jemit a => some ((0x1C380#17) ++ 0#1 ++ a ++ (0x6#8))
  | .jmark a => some ((0x1C380#17) ++ 0#1 ++ a ++ (0x8#8))
  | .jtrunc a => some ((0x1C380#17) ++ 0#1 ++ a ++ (0xA#8))
  | .trap i => some ((0xE3C000#24) ++ i)
  | .brk i => some ((0xE5C000#24) ++ i)
  | .hretRetry => some ((0xE7C00000#32))
  | .hretSkip => some ((0xE7C00002#32))
  | .hretEnd => some ((0xE7C00004#32))
  | .rdsr d s => some ((0x3A7#10) ++ 0#1 ++ d ++ s ++ (0x0#3))
  | .wrsr d s => some ((0x3AF#10) ++ 0#1 ++ d ++ s ++ (0x0#3))
  | .hintImm i => some ((0x1F38#13) ++ i)
  | .hintImmtop i => some ((0x7CE4000#27) ++ i)
  | .hintRnd s m => some ((0xF9D0#16) ++ s ++ (0x0#2) ++ m)
  | .hintCache b c l => some ((0x7CEC000#27) ++ b ++ c ++ l)
  | .hintCtl t r => some ((0x1F3C#13) ++ t ++ r)
  | .hintMod m => some ((0x1F3D#13) ++ m)
  | .dictionarySlot i k => some ((0x3F#6) ++ i ++ k)
  | _ => none

/-- The host's reading of a table word: bit 0 of `w` is bit 0 of the first and only 32-bit word; the bytes lie in memory
lowest first (00 R5). -/
noncomputable def decodeTableWord (_nbits w : Nat) : Option Instr :=
  match decodeBytes [BitVec.ofNat 8 w, BitVec.ofNat 8 (w / 256), BitVec.ofNat 8 (w / 65536), BitVec.ofNat 8 (w / 16777216)] with
  | .ok (i, _) => some i
  | .error _ => none

end Sys2Proof
end

