-- ==== Sys2Proof/Machine/Notify.lean ====
section
/-!
DEFINITION. What the device tells its hosts: fields of the device window that the hardware itself reads and writes, event
records (16 R364, 20 R419, R420), completion entries (15 R320), command status (16 R358), and the release of a pack's
resources when its task ends (08 R234, 15 R343).
-/

namespace Sys2Proof.Machine

/-! ### Launch records (15 R321, R330) -/

/-- `n` bytes of a record at an offset. -/
def recField (bs : List Byte) (off n : Nat) : Nat := natLE ((bs.drop off).take n)

/-- GROUPS of a launch. -/
def Launch.count (l : Launch) : Nat := recField l.bytes 16 4

/-- The lowest group of a launch neither placed nor granted (15 R330). -/
def Launch.unplaced (l : Launch) : Option Nat :=
  (sortNats (l.returned ++ if l.next < l.count then [l.next] else [])).head?

/-- A record in dispatch with a group to place, a saved one included (15 R324, R326) (log entry 64). -/
def Launch.wantsPlace (l : Launch) : Bool := l.phase == .placing && (l.unplaced.isSome || !l.savedGroups.isEmpty)

/-! ### The device window's own bytes -/

/-- `n` bytes of the window's register bytes at an offset (16 R356). -/
def State.win (s : State) (off n : Nat) : Nat := s.window.readLE off n

/-- Write window register bytes. -/
def State.setWin (s : State) (off n v : Nat) : State := { s with window := s.window.writeLE off n v }

/-- The window offset of queue descriptor `q` (16 R356). -/
def queueAt (q : Nat) : Nat := 0x100000 + 64 * q

/-- RING, CPL, SLOTS, PRIO, ENABLE, CONTEXT, RESERVE, HEAD of a queue descriptor (15 R318). -/
def State.qRing (s : State) (q : Nat) : Nat := s.win (queueAt q) 8
def State.qCpl (s : State) (q : Nat) : Nat := s.win (queueAt q + 8) 8
def State.qSlots (s : State) (q : Nat) : Nat := s.win (queueAt q + 16) 4
def State.qPrio (s : State) (q : Nat) : Nat := s.win (queueAt q + 20) 1
def State.qEnable (s : State) (q : Nat) : Bool := s.win (queueAt q + 21) 1 % 2 == 1
def State.qContext (s : State) (q : Nat) : Nat := s.win (queueAt q + 24) 4
def State.qReserve (s : State) (q : Nat) : Nat := s.win (queueAt q + 32) 4
def State.qHead (s : State) (q : Nat) : Nat := s.win (queueAt q + 40) 4

/-- A power of two from 16 to 65,536 (15 R318, 16 R363). -/
def slotsOk (n : Nat) : Bool := (List.range 13).any fun k => n == 2 ^ (k + 4)

/-- The queue's descriptor is served: enabled, every reserved field zero, addresses aligned, SLOTS in range (15 R318), and both
rings in device memory (log entry 40). -/
def State.queueServed (s : State) (q : Nat) : Bool :=
  let b := queueAt q
  decide (q < 1024) && s.qEnable q && s.win (b + 21) 1 == 1 && s.win (b + 22) 2 == 0 && s.win (b + 28) 4 == 0 &&
    s.win (b + 36) 4 == 0 && s.win (b + 44) 20 == 0 && s.qRing q % 64 == 0 && s.qCpl q % 16 == 0 && slotsOk (s.qSlots q) &&
    decide (s.qPrio q < 8) && inDevice (s.qRing q) (64 * s.qSlots q) && inDevice (s.qCpl q) (16 * s.qSlots q)

/-- The launch tag of 16 R364: QUEUE in [9:0], the ring index in [31:10]. -/
def Tag.word (t : Tag) : Nat := t.queue % 1024 + t.index % 2 ^ 22 * 1024

/-- Write the completion entry of a record: TIME, DETAIL, then STATUS (15 R320); an entry outside device memory is not written (log entry 40). -/
def State.complete (s : State) (t : Tag) (status detail : Nat) : State :=
  let a := s.qCpl t.queue + 16 * (t.index % s.qSlots t.queue)
  if inDevice a 16 then
    ((s.outsideWrite (a + 8) (bytesLE 8 s.now)).outsideWrite (a + 4) (bytesLE 4 detail)).outsideWrite a (bytesLE 4 status)
  else s

/-! ### Events -/

/-- Raise an event: its record joins those not yet delivered (16 R364). -/
def State.raiseEvent (s : State) (ctx : Nat) (bytes : List Byte) : State :=
  { s with events := s.events ++ [{ ctx := ctx, bytes := bytes }] }

/-- The first sixteen bytes of an event record (16 R364). -/
def eventHead (kind split lpack ctx group core : Nat) : List Byte :=
  bytesLE 1 kind ++ bytesLE 1 split ++ bytesLE 2 lpack ++ bytesLE 4 ctx ++ bytesLE 4 group ++ bytesLE 4 core

/-- The handle bound to a physical core, 0 when none is (18 R389, R390). -/
def State.handleAt (s : State) (c : Nat) : Nat :=
  match s.bindings.find? fun b => b.cluster == c / 128 && b.position == c % 128 && !b.retired with
  | some b => b.handle.toNat
  | none => 0

/-- The `sr.tcause` word of a trap (08 R229): `inh` marks a running handler, `ends` a record sent to a host. -/
def causeWord (r : TrapRec) (ends det inh : Bool) : Word :=
  BitVec.ofNat 32 (r.code % 256 + (if r.joint then 256 else 0) + (if ends then 512 else 0) + r.slot % 4 * 1024 +
    (if det then 4096 else 0) + (if inh then 8192 else 0))

/-- A TASKEND or SUSPEND record of a trap (16 R364, KIND 1 and 2). -/
def State.trapEvent (s : State) (kind c : Nat) (k : Pack) (split : Nat) (r : TrapRec) (ends inh : Bool) : State :=
  s.raiseEvent k.ctx (eventHead kind split k.lpack k.ctx k.group (s.handleAt c) ++
    bytesLE 4 (causeWord r ends (s.header k).det inh).toNat ++ bytesLE 4 r.epc.toNat ++ bytesLE 4 r.mask.toNat ++
    bytesLE 4 r.active.toNat ++ bytesLE 16 r.info.toNat ++ bytesLE 4 (r.walk.level % 8 + r.walk.reason % 16 * 8) ++
    bytesLE 4 k.tag.word ++ bytesLE 8 r.walk.entry)

/-- A RESIDENCY record for a failing page (16 R353, R364, KIND 3). -/
def State.residencyEvent (s : State) (ctx queue : Nat) (va : DWord) (w : WalkInfo) : State :=
  s.raiseEvent ctx (eventHead 3 63 0 ctx 0 0 ++ bytesLE 8 va.toNat ++ bytesLE 2 queue ++ bytesLE 6 0 ++ bytesLE 16 0 ++
    bytesLE 4 (w.level % 8 + w.reason % 16 * 8) ++ bytesLE 4 0 ++ bytesLE 8 w.entry)

/-- The first sixteen bytes of a JOURNAL record that no pack's instruction raises (20 R419). -/
def journalHead (ctx : Nat) : List Byte := eventHead 6 63 0 ctx 0 0

/-- A JOURNAL record (20 R419, KIND 6). -/
def State.journalEvent (s : State) (head : List Byte) (ctx reason rkind ord seq pos peer : Nat) (journalled program : DWord) : State :=
  s.raiseEvent ctx (head ++ bytesLE 1 reason ++ bytesLE 1 rkind ++ bytesLE 1 ord ++ bytesLE 1 0 ++
    bytesLE 4 seq ++ bytesLE 4 pos ++ bytesLE 4 peer ++ bytesLE 8 journalled.toNat ++ bytesLE 8 program.toNat ++
    bytesLE 16 0)

/-- A message leaves the module (log entry 73). -/
def State.send (s : State) (m : OutMsg) : State := { s with outbox := s.outbox ++ [m] }

/-- The window offset of a complex's command block (16 R356). -/
def cmdAt (complex : Nat) : Nat := 0x400000 + 0x1000 * complex

/-- `n` bytes of a command at an offset: of the one in progress while STATUS is BUSY, else of the block (16 R358) (log entry 44). -/
def State.cmd (s : State) (complex off n : Nat) : Nat :=
  match s.cmdHeld.get complex with
  | some b => natLE ((b.drop off).take n)
  | none => s.win (cmdAt complex + off) n

/-- A command is in progress (log entry 44). -/
def State.cmdBusy (s : State) (complex : Nat) : Bool := s.cmdStatus.getD complex 0 == 1

/-- A command that goes on: STATUS reads BUSY, and its 64 bytes are those it started with (log entry 44). -/
def State.cmdStart (s : State) (complex : Nat) : State :=
  { s with
    cmdStatus := s.cmdStatus.put complex 1
    cmdHeld := s.cmdHeld.put complex ((List.range 64).map fun o => BitVec.ofNat 8 (s.cmd complex o 1)) }

/-- A command completes: its STATUS is written and a COMMAND event raised (16 R358, R364, KIND 4), one that belongs to no context where the
command names none that is live (16 R357) (log entry 61). -/
def State.cmdDone (s : State) (complex status : Nat) : State :=
  let ctx := s.cmd complex 4 4
  let kind := s.cmd complex 0 1
  let s := { s with cmdStatus := s.cmdStatus.put complex status, cmdHeld := s.cmdHeld.del complex }
  s.raiseEvent (if (s.context ctx).isSome then ctx else 0) (eventHead 4 63 0 ctx 0 0 ++ bytesLE 4 status ++ bytesLE 1 kind ++ bytesLE 11 0 ++ bytesLE 32 0)

/-- The bytes of the command other than those listed, as (offset, length), are all zero (16 R358, 20 R410). -/
def State.cmdClean (s : State) (complex : Nat) (named : List (Nat × Nat)) : Bool :=
  (List.range 64).all fun o =>
    (named.any fun e => decide (e.1 ≤ o) && decide (o < e.1 + e.2)) || s.cmd complex o 1 == 0

/-! ### The end of a task -/

/-- Every core that holds a pack of the launch. -/
def State.coresOf (s : State) (t : Tag) : List Nat :=
  (s.cores.filter fun e => e.2.packs.any fun p => p.2.tag == t).map (·.1)

/-- No operation is counted by LDC, STC, CPC or TLC (04 R114, R116). -/
def Pack.drained (k : Pack) : Bool := k.ops.all fun o => o.cls == .none_

/-- The pack is ENDED: its registers, table entries and holds are released, zeroed; its deterministic entries wait for the group's flush, and
its place on the core for the end of the group (09 R237, 15 R329, R343) (log entry 79). -/
def Pack.finish (k : Pack) : Pack :=
  { k with
    phase := .ended, v := [], g := [], p := [], t := [], acc := [], queues := [], mst := 0, wlhold := 0, splits := [], order := []
    cur := none, ops := [], fetch := none, loop := none }

/-- A pack whose every lane has exited is DRAINING while a counter is nonzero, and else ENDED (09 R237). -/
def Pack.leftLanes (k : Pack) : Pack := if k.drained then k.finish else { k with phase := .draining }

/-- A pack whose task has ended: every lane exits, nothing more issues, deterministic entries are discarded (15 R343), and a
broadcast or stream entry not yet sent is withdrawn; operations already issued complete (04 R114) (log entry 70). -/
def Pack.endTask (k : Pack) : Pack :=
  { k with
    exited := BitVec.allOnes 32, splits := [], order := [], cur := none, det := [], detSeq := [], fetch := none
    ops := k.ops.filter fun o => match o.kind with
      | .bst .. => o.done
      | .stream .. => false
      | _ => true }.leftLanes

/-- End the packs of a launch on one core; their arrivals leave the latch and a bank switch of theirs is abandoned (log entry 70). -/
def Core.endTask (k : Core) (t : Tag) : Core :=
  let mine := fun slot => k.packs.any fun p => p.1 == slot && p.2.tag == t
  { k with
    packs := k.packs.map fun p => if p.2.tag == t && p.2.phase != .ended then (p.1, p.2.endTask) else p
    latch := k.latch.filter fun a => !mine a.slot
    switching := match k.switching with
      | some b => if mine b.slot then none else some b
      | none => none }

/-! ### The pool (15 R316, 20 R412) -/

/-- Records the Trail keeps for a context. -/
def Context.records (c : Context) : Nat := (c.seqs.map fun e => e.2.stream.length).sum

/-- Granules of 4 KiB of the pool that spill areas, save records and page lists hold. -/
def Context.held (c : Context) : Nat := (c.poolUsed.map (·.2)).sum

/-- The pool has room for `n` more records, of which a granule holds 128 (20 R412) (log entry 29). -/
def Context.recordRoom (c : Context) (n : Nat) : Bool := decide (c.held + ceilDiv (c.records + n) 128 ≤ c.poolSize / 4096)

/-- Free granules of the pool (15 R316, 20 R412) (log entry 29). -/
def Context.freeGranules (c : Context) : Nat := c.poolSize / 4096 - c.held - ceilDiv c.records 128

/-- The pool of context `ctx` has room for `n` more records. -/
def State.recordRoom (s : State) (ctx n : Nat) : Bool := (s.context ctx).elim false fun c => c.recordRoom n

/-- Carve `n` contiguous granules of a context's pool: the first of them (15 R316) (log entry 29). -/
def Context.carve (c : Context) (n : Nat) : Option (Nat × Context) :=
  if n = 0 then some (0, c)
  else if c.freeGranules < n then none
  else
    let fits := fun a => decide (a + n ≤ c.poolSize / 4096) && c.poolUsed.all fun u => !overlap a n u.1 u.2
    match (0 :: c.poolUsed.map fun u => u.1 + u.2).find? fits with
    | none => none
    | some a => some (a, { c with poolUsed := c.poolUsed ++ [(a, n)] })

/-- Those that still wait for room in a context's pool, in the order in which they asked (20 R412) (log entry 29). -/
def State.askers (s : State) (c : Context) : List Asker :=
  c.asks.filter fun a => match a with
    | .split core slot split => (s.pack core slot).any fun k => k.ctx == c.num && (k.split split).isSome
    | .left seq => (c.seqs.get seq).any fun q => !q.left.isEmpty

/-- No one else has asked for room in the pool before `a`; none stands for one that asks now (20 R412). -/
def State.poolTurn (s : State) (c : Context) (a : Option Asker) : Bool := (s.askers c).head?.all fun b => some b == a

/-- The pool has room for `n` more records, and where they take a further granule it is the asker's turn (20 R412) (log entry 29). -/
def State.recordTurn (s : State) (ctx : Nat) (a : Option Asker) (n : Nat) : Bool :=
  (s.context ctx).any fun c =>
    c.recordRoom n && (decide (ceilDiv (c.records + n) 128 ≤ ceilDiv c.records 128) || s.poolTurn c a)

/-- `a` asks for room in the pool (20 R412). -/
def State.ask (s : State) (ctx : Nat) (a : Asker) : State :=
  s.modContext ctx fun c => let l := s.askers c; { c with asks := if l.contains a then l else l ++ [a] }

/-- `a` no longer asks. -/
def State.unask (s : State) (ctx : Nat) (a : Asker) : State := s.modContext ctx fun c => { c with asks := c.asks.filter (· != a) }

/-- The splits of a pack that leaves its core ask no more. -/
def Context.forgetAsks (c : Context) (core slot : Nat) : Context :=
  { c with asks := c.asks.filter fun a => match a with
      | .split k n _ => k != core || n != slot
      | .left _ => true }

/-- Carve granules of a pool for a spill area, a save record or a page list, which waits behind those that asked before (20 R412) (log
entry 29). -/
def State.carve (s : State) (ctx n : Nat) : Option (Nat × Context) :=
  (s.context ctx).bind fun c => if n = 0 || s.poolTurn c none then c.carve n else none

/-- Return granules carved from a pool. -/
def Context.giveBack (c : Context) (a : Nat) : Context := { c with poolUsed := c.poolUsed.filter fun u => u.1 != a }

/-- Page lists that are done with return their granules (16 R351). -/
def State.dropLists (s : State) (p : PageList → Bool) : State :=
  (s.pageLists.filter p).foldl (fun s l => s.modContext l.ctx fun c => c.giveBack l.granule)
    { s with pageLists := s.pageLists.filter fun l => !p l }

/-- The spill granules of one pack. -/
def KHeader.spillGranules (h : KHeader) : Nat := ceilDiv h.spill 4096

/-- Return the spill area of a pack that is gone (15 R316) (log entry 29). -/
def Context.freeSpill (c : Context) (spillAt : Nat) : Context := c.giveBack ((spillAt - c.pool) / 4096)

/-- A save record without the groups of a launch whose task has ended: core blocks left with no pack go too. -/
def Save.without (v : Save) (t : Tag) : Save :=
  { v with
    groups := v.groups.filter fun g => g.1 != t
    cores := (v.cores.map fun c => (c.1, { c.2 with packs := c.2.packs.filter fun p => p.2.tag != t })).filter fun c => !c.2.packs.isEmpty }

/-- The packs of a launch that a save record holds. -/
def Save.packsOf (v : Save) (t : Tag) : List Pack := (v.cores.flatMap fun c => c.2.packs.map (·.2)).filter fun k => k.tag == t

/-- Forget the saved groups of a launch: their spill areas return to the pool, and so do the granules of a record that holds no group
any more (log entry 70). -/
def Context.forgetSaved (c : Context) (t : Tag) (spill : Bool) : Context :=
  let c := if spill then (c.saves.flatMap fun v => v.packsOf t).foldl (fun c k => c.freeSpill k.spillAt) c else c
  let vs := c.saves.map fun v => v.without t
  let c := (vs.filter fun v => v.groups.isEmpty).foldl (fun c v => c.giveBack ((v.base - c.pool) / 4096)) c
  { c with saves := vs.filter fun v => !v.groups.isEmpty }

/-- End the task of a launch with a completion status (08 R234, 15 R317, R320): every group ends, its accumulators are
discarded (15 R343), saved groups are forgotten, the leases lapse (16 R353) and the completion entry is written. SIGTOK is
not released (15 R325) (log entry 70). -/
def State.endTask (s : State) (t : Tag) (status detail : Nat) : State :=
  match s.launch t with
  | none => s
  | some l =>
    if l.phase == .closed then s
    else
      let s := (s.coresOf t).foldl (fun s c => s.setCore c ((s.core c).endTask t)) s
      let s := s.modLaunch t fun l =>
        { l with
          phase := .closed, leased := false, savedGroups := [], returned := []
          groups := l.groups.map fun e => (e.1, { e.2 with ended := true, accs := [], victim := none }) }
      (s.modContext l.ctx fun c => c.forgetSaved t (l.hdr.spillGranules != 0)).complete t status detail

end Sys2Proof.Machine
end

