-- ==== Sys2Proof/Machine/Pss.lean ====
section
/-!
DEFINITION. RSASSA-PSS as 18 R385 names it: RSA-3072, SHA-256, MGF1 with SHA-256 and a 32-byte salt (RFC 8017), over opaque keys. The
bytes of a signature stand in that standard's order (00 R5) (log entry 53).
-/

namespace Sys2Proof.Machine

/-- The number that bytes stand for, the first highest, and the `n` bytes of a number. -/
def natBE (bs : List Byte) : Nat := natLE bs.reverse
def bytesBE (n v : Nat) : List Byte := (bytesLE n v).reverse

/-- `b` to the power `e` modulo `n`, for an exponent of `k` bits. -/
def powMod (n : Nat) : (k b e : Nat) → Nat
  | 0, _, _ => 1 % n
  | k + 1, b, e =>
    let h := powMod n k (b * b % n) (e / 2)
    if e % 2 = 1 then b * h % n else h

/-- MGF1: `n` bytes of mask from a seed. -/
def mgf1 (seed : List Byte) (n : Nat) : List Byte := ((List.range (ceilDiv n 32)).flatMap fun k => sha256 (seed ++ bytesBE 4 k)).take n

/-- A data block under its mask; the top bit, beyond the 3,071 bits of the encoding, is clear. -/
def pssMask (h db : List Byte) : List Byte :=
  let x := (db.zip (mgf1 h 351)).map fun p => p.1 ^^^ p.2
  (x.take 1).map (· &&& 0x7F) ++ x.drop 1

/-- The encoded message under a salt. -/
def pssEncode (m salt : List Byte) : List Byte :=
  let h := sha256 (List.replicate 8 0 ++ sha256 m ++ salt)
  pssMask h (List.replicate 318 0 ++ 1 :: salt) ++ h ++ [0xBC]

/-- The signature is good: it opens to the encoding of the message under the salt it carries. -/
def pssGood (modulus exponent : Nat) (m sig : List Byte) : Bool :=
  let em := bytesBE 384 (powMod modulus 3072 (natBE sig) exponent)
  let salt := (pssMask ((em.drop 351).take 32) (em.take 351)).drop 319
  sig.length == 384 && decide (natBE sig < modulus) && em == pssEncode m salt

/-- A signature under a salt. -/
def pssSign (modulus exponent : Nat) (m salt : List Byte) : List Byte :=
  bytesBE 384 (powMod modulus 3072 (natBE (pssEncode m salt)) exponent)

/-- A defect map's last 384 bytes are a good signature by the map key over all before them (18 R385). -/
def mapSigned (b : List Byte) : Bool :=
  let n := b.length - 384
  pssGood Config.mapModulus.toNat Config.mapExponent.toNat (b.take n) (b.drop n)

/-- The signature of an attestation report by the module's identity key (18 R388). -/
def attestSignature (b salt : List Byte) : List Byte :=
  pssSign Config.identityModulus.toNat Config.identityExponent.toNat b salt

end Sys2Proof.Machine
end

