-- ==== Sys2Proof/Machine/Report.lean ====
section
/-!
DEFINITION. How the hardware reports its faults: management datagrams (18 R382–R384), ERROR records with their coalescing (20 R420), the
ECC cause word (20 R421), and the DRAM channels that are lost (20 R424).
-/

namespace Sys2Proof.Machine

/-! ### Management messages (18 R383, R384) -/

/-- The link-local all-nodes address ff02::1 (18 R384). -/
def allNodes : Nat := 0xFF020000000000000000000000000001
/-- The management UDP port (18 R382). -/
def mgmtPort : Nat := 7742

/-- The management port's MAC address: 0x02, then bytes 0–4 of SERIAL, lowest first (18 R382). -/
def mgmtMac : Nat := natBE (0x02 :: (bytesLE 8 Config.serial.toNat).take 5)

/-- The link-local IPv6 address formed from the MAC address by modified EUI-64 (18 R382): fe80::/64, the MAC with its bit 1 of the first byte
inverted and FF-FE in its middle. -/
def mgmtAddress : Nat :=
  let m := bytesBE 6 mgmtMac
  natBE ([0xFE, 0x80, 0, 0, 0, 0, 0, 0] ++ ((m.take 1).map (· ^^^ 0x02) ++ (m.drop 1).take 2) ++ [0xFF, 0xFE] ++ m.drop 3)

/-- The header of a management message (18 R383). -/
def mgmtHeader (type mseq len : Nat) : List Byte :=
  bytesLE 4 0x474D4A48 ++ bytesLE 2 1 ++ bytesLE 1 type ++ bytesLE 1 0 ++ bytesLE 8 Config.serial.toNat ++ bytesLE 4 mseq ++
    bytesLE 4 len ++ bytesLE 8 0

/-- The management controller, where it has power, sends one datagram (18 R382, R383) (log entry 48). -/
def State.datagram (s : State) (dest port type : Nat) (body : List Byte) : State :=
  if !s.mgmt.standby then s
  else
    let s := s.send (.datagram mgmtMac mgmtAddress mgmtPort dest port (mgmtHeader type s.mgmt.mseq body.length ++ body))
    { s with mgmt := { s.mgmt with mseq := s.mgmt.mseq + 1 } }

/-- A message goes to every collector, or to all nodes when there is none (18 R384) (log entry 48). -/
def State.toCollectors (s : State) (type : Nat) (body : List Byte) : State :=
  let cs := if s.mgmt.collectors.isEmpty then [(allNodes, mgmtPort)] else s.mgmt.collectors
  cs.foldl (fun s c => s.datagram c.1 c.2 type body) (if type = 1 then { s with mgmt := { s.mgmt with wait := 0 } } else s)

/-- The split of a pack that an error met: the first of its priority list (log entry 50). -/
def Pack.firstSplit (k : Pack) : Option Split := (k.order.filterMap k.split).head? <|> (k.splits.map (·.2)).head?

/-- The split whose record reports an error of the pack: of a pack that drains, which has none, 63 (20 R420) (log entry 50). -/
def Pack.errorSplit (k : Pack) : Split := k.firstSplit.getD { id := 63, pc := 0, mask := 0, reconv := 0, parent := none }

/-! ### ERROR records (20 R420) -/

/-- Replace `n` bytes of a record. -/
def patchBytes (b : List Byte) (off n v : Nat) : List Byte := b.take off ++ bytesLE n v ++ b.drop (off + n)

/-- The ERROR record of a fault with its ERRSEQ and the work affected: of a pack with no split named, the split that `errorSplit` takes (20
R420) (log entry 50). -/
def State.errorRecord (s : State) (e : ErrorReport) (seq : Nat) (split : Option Nat := none) : List Byte :=
  let handle := if e.cluster < 160 && e.position < 128 then s.handleAt (128 * e.cluster + e.position) else 0
  let head := match e.victim.bind fun v => s.pack v.1 v.2 with
    | some k => eventHead 5 (split.getD k.errorSplit.id) k.lpack k.ctx k.group handle
    | none => eventHead 5 63 0 0 0 handle
  head ++ bytesLE 1 e.cls ++ bytesLE 1 e.severity ++ bytesLE 1 e.field ++ bytesLE 1 e.cluster ++ bytesLE 1 e.position ++
    bytesLE 1 ((if e.replaced then 2 else 0) + (if e.spared then 4 else 0)) ++ bytesLE 2 e.unitNo ++ bytesLE 4 0 ++ bytesLE 4 seq ++
    bytesLE 8 e.addr ++ bytesLE 4 1 ++ bytesLE 4 s.bindGen ++ bytesLE 8 s.now ++ bytesLE 8 0

/-- The open record that an occurrence belongs to: the same place within 1 ms of its first occurrence (20 R420) (log entry 49). -/
def State.openError (s : State) (e : ErrorReport) : Option OpenError :=
  s.errors.find? fun o =>
    o.cls == e.cls && o.field == e.field && o.cluster == e.cluster && o.position == e.position && o.unitNo == e.unitNo &&
      decide (s.now < o.first + 1000000)

/-- The event is the ERROR record of an ERRSEQ. -/
def Event.isError (v : Event) (seq : Nat) : Bool := natLE (v.bytes.take 1) == 5 && natLE ((v.bytes.drop 28).take 4) == seq % 2 ^ 32

/-- One more occurrence of an open record. -/
def State.countError (s : State) (seq : Nat) : State :=
  { s with
    events := mapIf (fun v => v.isError seq) (fun v =>
      { v with bytes := patchBytes v.bytes 40 4 (natLE ((v.bytes.drop 40).take 4) + 1) }) s.events }

/-- Report a fault (20 R420): CORRECTED and LOGGED occurrences coalesce; every other gives a record of its own; one of SEVERITY 3 or 4
also goes out on the management interface (18 R384). Answers its ERRSEQ (log entry 49). -/
def State.reportError (s : State) (e : ErrorReport) (split : Option Nat := none) : State × Nat :=
  match if e.severity ≤ 1 then s.openError e else none with
  | some o => (s.countError o.errSeq, o.errSeq)
  | none =>
    let rec_ := s.errorRecord e s.errSeq split
    let ctx := ((e.victim.bind fun v => s.pack v.1 v.2).map (·.ctx)).getD 0
    let o : OpenError :=
      { cls := e.cls, severity := e.severity, field := e.field, cluster := e.cluster, position := e.position, unitNo := e.unitNo
        first := s.now, errSeq := s.errSeq }
    let t :=
      { s with
        errSeq := s.errSeq + 1, events := s.events ++ [{ ctx := ctx, bytes := rec_, unitAt := some (e.cluster, e.position) }]
        errors := if e.severity ≤ 1 then (s.errors.filter fun p => decide (s.now < p.first + 1000000)) ++ [o] else s.errors }
    (if 3 ≤ e.severity then t.toCollectors 2 rec_ else t, s.errSeq)

/-- A fault with no place. -/
def plainError (cls severity unitNo : Nat) : ErrorReport :=
  { cls := cls, severity := severity, field := 255, cluster := 255, position := 255, unitNo := unitNo, addr := 0, spared := false
    replaced := false, victim := none, whereCode := 0 }

/-! ### Uncorrectable errors of memory (20 R421, R424) -/

/-- The storage that WHERE names has no address: a register file, an accumulator or a split table (20 R421). -/
def addrFree (where_ : Nat) : Bool := where_ == 4 || where_ == 5 || where_ == 6

/-- The ECC cause word (20 R421). -/
def eccWord (addr where_ seq : Nat) : Nat := (if addrFree where_ then 0 else addr) % 2 ^ 64 + where_ % 256 * 2 ^ 64 + seq % 2 ^ 32 * 2 ^ 96

/-- The DRAM channels that are lost and have no spare, as field + 256 · channel: of a field's channels that the map or a retirement takes out, all
but the first, which the field's spare stands in for (20 R424). -/
def State.deadChannels (s : State) : List Nat :=
  let us := ((s.maps.force ++ s.retired).filter fun u => u.kind == 6).map (·.loc)
  us.filter fun l => (us.find? fun m => m % 256 == l % 256) != some l

/-- The bytes lie in a page of a lost channel; which pages those are is a free choice of the module (20 R424) (log entry 69). -/
def State.lostDram (s : State) (pa : Nat) : Bool :=
  let ds := s.deadChannels
  if ds.isEmpty then false else inDevice pa 1 && ds.contains (Config.channelOf (pa / 4096))

/-- The report of an access to a lost channel's page (20 R421, R424). -/
def dramError (pa core slot : Nat) : ErrorReport :=
  let c := Config.channelOf (pa / 4096)
  { plainError 3 2 (c / 256 % 32) with field := c % 256, addr := pa / 64 * 64, victim := some (core, slot), whereCode := 3 }

end Sys2Proof.Machine
end

