-- ==== Sys2Proof/Machine/Walk.lean ====
section
/-!
DEFINITION. Device translation (16 R344–R354): the Sv57 walk, the attribute map, the TLBs and walk cache, the checks of a
page, and the leases of a context (16 R353).
-/

namespace Sys2Proof.Machine

/-- What a translation is for (16 R348). -/
inductive Use where
  | load
  | store
  | atomic
  | fetch
  | leasewalk
  deriving DecidableEq, Repr

/-- The use reads. -/
def Use.reads : Use → Bool
  | .store => false
  | _ => true

/-- The use writes. -/
def Use.writes : Use → Bool
  | .store => true
  | .atomic => true
  | _ => false

/-- Why an address does not translate, or an access is not permitted. -/
inductive XErr where
  | malign
  | addr
  | lease (w : WalkInfo)
  | perm
  /-- The line of a DRAM channel that is lost (20 R424). -/
  | ecc (pa : Nat)
  deriving DecidableEq, Repr

/-- The trap code of an access error (08 R232). -/
def XErr.code : XErr → Nat
  | .malign => 0x13
  | .addr => 0x09
  | .lease _ => 0x0B
  | .perm => 0x0A
  | .ecc _ => 0x0D

/-- The walk part of an access error. -/
def XErr.walk : XErr → WalkInfo
  | .lease w => w
  | _ => {}

/-- Bits [63:57] all equal bit 56 (06 R142). -/
def canonical (va : DWord) : Bool := (va.extractLsb' 56 8 == 0) || (va.extractLsb' 56 8 == 0xFF)

/-- PPN of an entry or of ROOT's low bits (RISC-V Sv57). -/
def ptePpn (e : Nat) : Nat := cut e 10 44

/-- The entry points to a further table: R, W and X are all 0 (16 R348). -/
def ptePointer (e : Nat) : Bool := cut e 1 3 == 0

/-- The reason an entry at level `l` is malformed, 0 for none (16 R348). -/
def malformed (e l : Nat) : Nat :=
  if !bit e 0 then 1
  else if cut e 54 7 != 0 || (bit e 2 && !bit e 1) then 2
  else if ptePointer e then
    if bit e 7 || bit e 6 || bit e 4 || cut e 61 3 != 0 || l == 0 then 3 else 0
  else if 2 ≤ l then 4
  else if l == 1 then if ptePpn e % 512 != 0 || bit e 63 then 5 else 0
  else if bit e 63 && ptePpn e % 16 != 8 then 6 else 0

/-- The page size of a leaf at level `l` (16 R348). -/
def leafSize (e l : Nat) : Nat := if l == 1 then 2 * 2 ^ 20 else if bit e 63 then 65536 else 4096

/-- The physical base of a leaf's page (16 R348). -/
def leafBase (e size : Nat) : Nat := if size == 65536 then ptePpn e / 16 * 16 * 4096 else ptePpn e * 4096

/-- VPN[l] (16 R348). -/
def vpn (va l : Nat) : Nat := cut va (12 + 9 * l) 9

/-- A leaf found by a walk: its level, value, address, and the lines the walk read. -/
structure Leaf where
  level : Nat
  entry : Nat
  at_ : Nat
  lines : List Nat
  deriving DecidableEq, Repr

/-- What a walk from level `l − 1` down reads in memory, the table at `a` (16 R348). A table outside device memory is ADDR (16 R345) (log
entry 19). -/
def State.walkFrom (s : State) (va : Nat) : (l : Nat) → (a : Nat) → (lines : List Nat) → Except XErr Leaf
  | 0, _, _ => .error .addr
  | l + 1, a, lines =>
    let at_ := a + 8 * vpn va l
    if !inDevice at_ 8 then .error .addr
    else
      let e := s.mem.readLE at_ 8
      let bad := malformed e l
      let lines := lines ++ linesOf at_ 8
      if bad != 0 then .error (.lease { level := l, reason := bad, entry := e })
      else if ptePointer e then s.walkFrom va l (ptePpn e * 4096) lines
      else .ok { level := l, entry := e, at_ := at_, lines := lines }

/-- The address of the attribute byte of a physical address, if the context has a map and the address one (16 R347). -/
def attrAt (map pa : Nat) : Option Nat := if map = 0 || !inDevice pa 1 then none else some (map + pa / 65536)

/-- The attribute byte a walk reads: 0 without a map, and 0 where bit 3 is set (16 R347). -/
def State.attrOf (s : State) (map pa : Nat) : Nat :=
  match attrAt map pa with
  | some a => let b := (s.mem.get a).toNat; if bit b 3 then 0 else b
  | none => 0

/-- The attribute bytes of a page of this size at a physical address stand outside device memory: their read is ADDR (16 R345) (log entry
19). -/
def attrOut (map base size : Nat) : Bool := (attrAt map base).any fun a => !inDevice a (if size = 2 * 2 ^ 20 then 32 else 1)

/-- A translation: physical address and attribute byte, with the state after the walk's A and D updates. -/
structure Xlated where
  pa : Nat
  attr : Nat
  s : State
  deriving DecidableEq, Repr

/-- Keep at most `n` entries that satisfy `p`, dropping the last ones (16 R351: replacement changes timing only). -/
def capEntries {α : Type} (p : α → Bool) : Nat → List α → List α
  | _, [] => []
  | n, x :: r =>
    if p x then
      match n with
      | 0 => capEntries p 0 r
      | m + 1 => x :: capEntries p m r
    else x :: capEntries p n r

/-- Fill a TLB entry (16 R351). -/
def State.fillTlb (s : State) (e : TlbEntry) : State :=
  let mine := fun x : TlbEntry => x.core == e.core && x.tile == e.tile
  { s with tlb := capEntries mine (if e.tile then 512 else 128) (e :: s.tlb.filter (· != e)) }

/-- The TLB entry that covers an address (16 R351). -/
def State.tlbHit (s : State) (core : Nat) (tile : Bool) (ctx va : Nat) : Option TlbEntry :=
  s.tlb.find? fun e => e.core == core && e.tile == tile && e.ctx == ctx && decide (e.vbase ≤ va) && decide (va < e.vbase + e.size)

/-! ### Walks (16 R348, R349, R351) -/

/-- Who walks: the walkers of a field, reading through a cluster's L2; the host fields have no cluster (16 R351) (log entry 19). -/
structure Walker where
  field : Nat
  cluster : Option Nat

/-- The walkers of a core's field. -/
def coreWalker (core : Nat) : Walker := { field := fieldOf (clusterOf core), cluster := some (clusterOf core) }

/-- The walkers that serve the distributor (16 R351) (log entry 19). -/
def hostWalker : Walker := { field := 40, cluster := none }

/-- A walker reads a table line or an attribute line: the L2 it reads through marks it, or for the host fields' walkers each L2 that holds it
(16 R352). -/
def State.readTable (s : State) (w : Walker) (at_ : Nat) : State :=
  match w.cluster with
  | some c => s.useL2 c 0 (at_ / 128) true
  | none => s.markTable (at_ / 128)

/-- The key of a pointer entry of level `l`: va[56 : 21 + 9(l − 1)] (16 R351). -/
def walkKey (va l : Nat) : Nat := cut va (21 + 9 * (l - 1)) (36 - 9 * (l - 1))

/-- The walk cache entry that serves level `l` of a walk whose entry stands at `at_`. -/
def State.walkHit (s : State) (w : Walker) (ctx va l at_ : Nat) : Option WalkEntry :=
  s.walkCache.find? fun e =>
    e.field == w.field && e.ctx == ctx && e.level == l && e.key == walkKey va l && e.line == at_ / 64

/-- Fill a walk cache entry: 2,048 for each field (16 R351) (log entry 19). -/
def State.fillWalk (s : State) (e : WalkEntry) : State :=
  { s with walkCache := capEntries (fun x => x.field == e.field) 2048 (e :: s.walkCache) }

/-- The walk from level `l − 1` down, the table at `a`: the walk cache first, then the table line (16 R348, R351). A table outside
device memory is ADDR (16 R345) (log entry 19). -/
def State.walk (s : State) (w : Walker) (ctx va : Nat) : (l : Nat) → (a : Nat) → (lines : List Nat) → State × Except XErr Leaf
  | 0, _, _ => (s, .error .addr)
  | l + 1, a, lines =>
    let at_ := a + 8 * vpn va l
    if !inDevice at_ 8 then (s, .error .addr)
    else
      match s.walkHit w ctx va l at_ with
      | some h => s.walk w ctx va l (ptePpn h.entry * 4096) (lines ++ [h.line])
      | none =>
        let e := s.mem.readLE at_ 8
        let bad := malformed e l
        let s := s.readTable w at_
        if bad != 0 then (s, .error (.lease { level := l, reason := bad, entry := e }))
        else if ptePointer e then
          let f : WalkEntry := { field := w.field, ctx := ctx, level := l, key := walkKey va l, entry := e, line := at_ / 64 }
          (s.fillWalk f).walk w ctx va l (ptePpn e * 4096) (lines ++ linesOf at_ 8)
        else (s, .ok { level := l, entry := e, at_ := at_, lines := lines ++ linesOf at_ 8 })

/-- The level-4 table of a context (16 R346). -/
def Context.table (c : Context) : Nat := cut c.root.toNat 0 44 * 4096

/-- Set A, and D for a write, in a leaf: one atomic write where a bit changes (16 R349). -/
def State.touchLeaf (s : State) (w : Walker) (at_ leaf : Nat) (write : Bool) : State × Nat :=
  let new := leaf ||| 64 ||| (if write then 128 else 0)
  if new == leaf then (s, new)
  else (((s.takeLine w.cluster (at_ / 128)).readTable w at_).physWrite at_ 8 new, new)

/-- Where the sixteen entries of a 64 KiB page differ, in more than A and D, any one of those that map such a page may translate (16
R348) (log entry 19). -/
def State.anyOfSixteen (s : State) (e : TlbEntry) : State × TlbEntry :=
  let es := ((List.range 16).map fun k => e.leafAt / 128 * 128 + 8 * k).filterMap fun a =>
    let v := s.mem.readLE a 8
    if malformed v 0 == 0 && !ptePointer v && bit v 63 then some (a, v) else none
  if e.size != 65536 || es.all fun p => p.2 ||| 192 == e.leaf ||| 192 then (s, e)
  else
    let d := s.drawFree
    let p := es.getD (d.1.toNat % es.length) (e.leafAt, e.leaf)
    (d.2, { e with leafAt := p.1, leaf := p.2, lines := e.lines ++ linesOf p.1 8 })

/-- The TLB entry that translates an address, from the TLB or by a walk (16 R348, R351) (log entry 19). -/
def State.locate (s : State) (core : Nat) (tile : Bool) (c : Context) (va : Nat) : State × Except XErr TlbEntry :=
  match s.tlbHit core tile c.num va with
  | some e => let t := s.anyOfSixteen e; (t.1, .ok t.2)
  | none =>
    match s.walk (coreWalker core) c.num va 5 c.table [] with
    | (s, .error x) => (s, .error x)
    | (s, .ok l) =>
      let size := leafSize l.entry l.level
      let base := leafBase l.entry size
      let e : TlbEntry := { core := core, tile := tile, ctx := c.num, vbase := va / size * size, size := size, leaf := l.entry
                            leafAt := l.at_, lines := l.lines }
      if attrOut c.attrMap base size then (s, .error .addr)
      else
      let t := match attrAt c.attrMap base with
        | some a => (s.readTable (coreWalker core) a, { e with lines := e.lines ++ linesOf a (if size == 2 * 2 ^ 20 then 32 else 1) })
        | none => (s, e)
      let t := t.1.anyOfSixteen t.2
      (t.1, .ok t.2)

/-- Translate and check a page (16 R348, R349, R351, R352): the state after the walk and its A and D update, and the physical address with
the attribute byte and whether the page permits the use. A page that does not permit it is left as it was. `use` is not leasewalk (log
entry 19). -/
def State.reach (s : State) (core : Nat) (tile : Bool) (ctx : Nat) (va : DWord) (use : Use) : State × Except XErr (Nat × Nat × Bool) :=
  if !canonical va then (s, .error .addr)
  else
    match s.context ctx with
    | none => (s, .error .addr)
    | some c =>
      match s.locate core tile c va.toNat with
      | (s, .error x) => (s, .error x)
      | (s, .ok e) =>
        let pa := leafBase e.leaf e.size + va.toNat % e.size
        let good := bit e.leaf 4 && cut e.leaf 61 2 == 0 && (!use.reads || bit e.leaf 1) && (!use.writes || bit e.leaf 2)
        if !good then (s, .ok (pa, s.attrOf c.attrMap pa, false))
        else
          let t := s.touchLeaf (coreWalker core) e.leafAt e.leaf use.writes
          (t.1.fillTlb { e with leaf := t.2 }, .ok (pa, t.1.attrOf c.attrMap pa, true))

/-- A translation with the page's own check (16 R348). -/
def State.translate (s : State) (core : Nat) (tile : Bool) (ctx : Nat) (va : DWord) (use : Use) : Except XErr Xlated :=
  match s.reach core tile ctx va use with
  | (_, .error x) => .error x
  | (t, .ok r) =>
    if !r.2.2 then .error .perm else if t.lostDram r.1 then .error (.ecc r.1) else .ok { pa := r.1, attr := r.2.1, s := t }

/-- A lease walk of one address: the state after it, and its error, or the physical address and the attribute byte; A is set, and with
`write` D too. With `write` the page must also permit writing (15 R324). A page outside the ranges of R345, or for a page that the
distributor itself reads outside device memory, fails as its leaf does (16 R353, R348, R349) (log entries 19, 33). -/
def State.leaseWalkPage (s : State) (c : Context) (va : Nat) (write own : Bool := false) : State × Except WalkInfo (Nat × Nat) :=
  match if canonical (BitVec.ofNat 64 va) then s.walk hostWalker c.num va 5 c.table [] else (s, .error .addr) with
  | (s, .error (.lease w)) => (s, .error w)
  | (s, .error _) => (s, .error { reason := 1 })
  | (s, .ok l) =>
    let bad : WalkInfo := { level := l.level, reason := 7, entry := l.entry }
    if !bit l.entry 4 || cut l.entry 61 2 != 0 || !bit l.entry 1 || (write && !bit l.entry 2) then (s, .error bad)
    else
      let size := leafSize l.entry l.level
      let pa := leafBase l.entry size + va % size
      if attrOut c.attrMap (leafBase l.entry size) size then (s, .error { reason := 1 })
      else
      let s := (s.touchLeaf hostWalker l.at_ l.entry write).1
      let s := (attrAt c.attrMap pa).elim s fun a => s.readTable hostWalker a
      if inDevice pa 1 || (!own && (inAperture pa || inSett pa 1)) then (s, .ok (pa, s.attrOf c.attrMap pa)) else (s, .error bad)

/-- The union of the permissions of the leases of a context that cover the bytes, none when no lease does (06 R144, 16
R353). -/
def State.leasePerms (s : State) (ctx va n : Nat) : Option Nat :=
  let covers := (s.launches.filter fun l => l.ctx == ctx && l.leased).flatMap fun l =>
    l.leases.filter fun e => decide (e.base ≤ va) && decide (va + n ≤ e.base + e.len)
  if covers.isEmpty then none else some (covers.foldl (fun p e => p ||| e.perms) 0)

/-- The physical bytes are of the right kind for the path (16 R345): device memory for every path but broadcast, the Sett status
block for the lane path, the broadcast aperture for `bst` (log entry 62). -/
def openTo (path : Path) (pa n : Nat) : Bool :=
  match path with
  | .broadcast => inAperture pa
  | .lane => inDevice pa n || inSett pa n
  | _ => inDevice pa n

/-- The data-dependent checks of one access, in the order of 06 R144: MALIGN, ADDR, LEASE, PERM, and then ECC (20 R424); with the state after what its walk did,
also where a check fails (16 R349) (log entries 19, 62). -/
def State.tryAccess (s : State) (core : Nat) (tile : Bool) (ctx : Nat) (path : Path) (va : DWord) (size align : Nat)
    (use : Use) : State × Except XErr (Nat × Nat) :=
  if va.toNat % align != 0 then (s, .error .malign)
  else
    let perms := s.leasePerms ctx va.toNat size
    match s.reach core tile ctx va use with
    | (t, .error (.lease w)) =>
      -- an address that no page maps lies outside every broadcast window
      (t, .error (if path == .broadcast then .addr else if perms.isNone then .lease {} else .lease w))
    | (t, .error x) => (t, .error x)
    | (t, .ok (pa, attr, good)) =>
      (t,
        if !openTo path pa size then .error .addr
        else
          match perms with
          | none => .error (.lease {})
          | some p =>
            -- the Sett status block takes loads only (10 R270); LANEONLY shuts the other paths out (16 R347)
            if !good || (use.reads && !bit p 0) || (use.writes && !bit p 1) || (use.writes && inSett pa size) ||
                (path != .lane && bit attr 2) then .error .perm
            else if t.lostDram pa then .error (.ecc pa)
            else .ok (pa, attr))

/-- An access that passes its checks. -/
def State.access (s : State) (core : Nat) (tile : Bool) (ctx : Nat) (path : Path) (va : DWord) (size align : Nat)
    (use : Use) : Except XErr Xlated :=
  match s.tryAccess core tile ctx path va size align use with
  | (t, .ok r) => .ok { pa := r.1, attr := r.2, s := t }
  | (_, .error e) => .error e

/-- The state after an access's walk, whether it passes or not. -/
def State.afterAccess (s : State) (core : Nat) (tile : Bool) (ctx : Nat) (path : Path) (va : DWord) (size align : Nat)
    (use : Use) : State := (s.tryAccess core tile ctx path va size align use).1

/-- The cause word of a memory trap (06 R145). -/
def memWord (va : DWord) (lane elem : Nat) (path : Path) (write partialStore : Bool) (count : Nat) : BitVec 128 :=
  let p := match path with
    | .lane => 0
    | .copy => 1
    | .matrix => 2
    | .gather => 3
    | .collective => 4
    | .broadcast => 5
  BitVec.ofNat 128 (va.toNat + lane % 32 * 2 ^ 64 + elem % 64 * 2 ^ 69 + p * 2 ^ 75 + (if write then 2 ^ 78 else 0) +
    (if partialStore then 2 ^ 79 else 0) + count * 2 ^ 96)

end Sys2Proof.Machine
end

