-- ==== Sys2Proof/Machine/Operands.lean ====
section
/-!
DEFINITION. Operands: the hints of a group and the immediates they widen (03 R73–R75), which hints an instruction accepts
(R93, R122, R143, R176, R207), the register operands an instruction names with the decode-time checks on them (01 R14,
R17, R18, R27), and the fetch of instruction words (03 R71, 16 R348).
-/

namespace Sys2Proof.Machine

/-! ### Hint groups -/

/-- The primary opcode of a word (03 R67). -/
def primary (w : Word) : Nat := (fld w 25 7).toNat

/-- The KIND of a hint word (03 R73). -/
def hintKind (w : Word) : Nat := (fld w 19 3).toNat

/-- The payload of the hint of a kind in a group, if present. -/
def hintOf (hs : List Word) (kind : Nat) : Option Nat :=
  (hs.find? fun h => hintKind h == kind).map fun h => (fld h 0 19).toNat

/-- The immediate of form I before extension: its width and bits (03 R75). -/
def immBits (hs : List Word) (i : BitVec 8) : Nat × Nat :=
  match hintOf hs 1, hintOf hs 0 with
  | some t, some m => (32, t % 32 * 2 ^ 27 + m * 256 + i.toNat)
  | none, some m => (27, m * 256 + i.toNat)
  | _, none => (8, i.toNat)

/-- The immediate of form I, sign-extended (03 R75). -/
def immS (hs : List Word) (i : BitVec 8) : Word :=
  BitVec.ofInt 32 (signedOf (immBits hs i).1 (immBits hs i).2)

/-- The immediate of form I, zero-extended (03 R75). -/
def immZ (hs : List Word) (i : BitVec 8) : Word := BitVec.ofNat 32 (immBits hs i).2

/-- The byte offset of a memory instruction of form F (06 R143). -/
def offF (hs : List Word) : DWord :=
  match hintOf hs 1, hintOf hs 0 with
  | some t, some m => BitVec.ofInt 64 (signedOf 24 (t % 32 * 2 ^ 19 + m))
  | none, some m => BitVec.ofInt 64 (signedOf 19 m)
  | _, none => 0

/-- The byte offset of a memory instruction of form I: R75's immediate sign-extended to 64 bits (06 R143). -/
def offI (hs : List Word) (i : BitVec 8) : DWord := (immS hs i).signExtend 64

/-- The MOD bits of a group, 0 without one. -/
def modBits (hs : List Word) : Nat := (hintOf hs 5).getD 0

/-- The rounding mode of an instruction: the RND hint's, else RM of `sr.fpctl` (01 R32, 03 R73). -/
def Pack.rm (k : Pack) (hs : List Word) : Nat :=
  match hintOf hs 2 with
  | some p => p % 8
  | none => (k.fpctl.extractLsb' 0 3).toNat

/-- What hints an instruction accepts: the immediate pair, CACHE, CTL, the MOD bits, RND modes 0–4, RND mode 5. -/
structure Accepts where
  imm : Bool := false
  cache : Bool := false
  ctl : Bool := false
  mods : Option Nat := none
  rnd : Bool := false
  rnd5 : Bool := false
  deriving DecidableEq, Repr

/-- The hints the instruction of a word accepts (04 R93, 05 R122, 06 R143, 07 R176, 08 R207) (log entry 63). -/
def accepts (w : Word) : Accepts :=
  let fn := (fld w 1 7).toNat
  match primary w with
  | 0x0E | 0x10 | 0x11 | 0x1E | 0x1F | 0x23 => { imm := true }
  | 0x22 => { ctl := true }
  | 0x26 => { mods := some 3 }
  | 0x28 | 0x29 | 0x2B | 0x2C | 0x2D | 0x2E | 0x2F | 0x36 | 0x39 | 0x3D | 0x3E | 0x3F => { rnd := true }
  | 0x33 => { rnd := decide (2 ≤ fn % 32) && decide (fn % 32 ≤ 9) }
  | 0x35 | 0x37 => { rnd := true, mods := some 1 }
  | 0x3C => { rnd := true, mods := some 3 }
  | 0x38 | 0x3A => { rnd5 := true }
  | 0x40 | 0x41 | 0x42 | 0x43 | 0x44 | 0x45 | 0x46 | 0x4D => { imm := true, cache := true }
  | 0x47 => { cache := true }
  | 0x71 | 0x72 => { imm := true }
  | _ => {}

/-- No two hints of one kind (03 R74). -/
def kindsOnce : List Word → Bool
  | [] => true
  | h :: r => (r.all fun x => hintKind x != hintKind h) && kindsOnce r

/-- Reason 1 of a group: a MOD bit that the instruction accepting MOD does not define (05 R122). -/
def modBad (hs : List Word) (w : Word) : Bool :=
  match (accepts w).mods, hintOf hs 5 with
  | some m, some b => b > m
  | _, _ => false

/-- Reason 5 of a group of hints before the instruction word `w` (03 R74, 05 R122). -/
def groupBad (hs : List Word) (w : Word) : Bool :=
  let a := accepts w
  let takes := fun h => match hintKind h with
    | 0 => a.imm
    | 1 => a.imm && (hintOf hs 0).isSome
    | 2 => a.rnd || a.rnd5
    | 3 => a.cache
    | 4 => a.ctl
    | 5 => a.mods.isSome
    | _ => true
  let mode5 := match hintOf hs 2 with
    | some p => if p % 8 == 5 then !a.rnd5 else decide (p % 8 < 5) && a.rnd5
    | none => a.rnd5
  !kindsOnce hs || !hs.all takes || mode5

/-- The lesser of two reasons (log entry 11). -/
def minReason : Option Nat → Option Nat → Option Nat
  | some a, some b => some (min a b)
  | some a, none => some a
  | none, r => r

/-- What ends a run of hint words. -/
inductive GroupEnd where
  /-- The full word that ends the group. -/
  | full (w : Word)
  /-- A dictionary word or the end of the code section: REASON 5 (03 R74). -/
  | broken
  /-- A word that cannot be fetched ahead: judged when it issues (20 R422). -/
  | unknown
  deriving DecidableEq, Repr

/-- The REASON of an ILLOP of a group, none if the group stands (03 R74, R80) (log entry 11). -/
def groupReason (hs : List Word) (e : GroupEnd) : Option Nat :=
  let own := (hs.map wordReason).foldl minReason none
  match e with
  | .full w =>
    minReason own (minReason (wordReason w) (minReason (if modBad hs w then some 1 else none)
      (if groupBad hs w then some 5 else none)))
  | .broken => minReason own (some 5)
  | .unknown => minReason own (if kindsOnce hs then none else some 5)

/-! ### Fetch -/

/-- IMAGE of a launch (15 R321). -/
def Launch.image (l : Launch) : DWord := BitVec.ofNat 64 (natLE ((l.bytes.drop 8).take 8))

/-- The address of the kernel header of a pack's launch. -/
def State.imageOf (s : State) (k : Pack) : DWord :=
  match s.launch k.tag with
  | some l => l.image
  | none => 0

/-- What stands at a byte offset of the code section. -/
inductive Fetched where
  | word (w : Word) (s : State)
  | outside
  | fault (e : XErr) (va : DWord) (s : State)

/-- Fetch the full word at byte offset `off` of the code section (03 R71, 16 R348, R351): the word that stands in memory now, also where
software has written the code of a placed kernel (03 R79) (log entries 19, 75). -/
def State.fetchAt (s : State) (core : Nat) (k : Pack) (off : Nat) : Fetched :=
  let h := s.header k
  if h.codeSize ≤ off then .outside
  else
    let va := s.imageOf k + BitVec.ofNat 64 (h.codeOff + off)
    match s.translate core false k.ctx va .fetch with
    | .ok x => if inDevice x.pa 4 then .word (BitVec.ofNat 32 (x.s.mem.readLE x.pa 4)) x.s else .fault .addr va x.s
    | .error e => .fault e va (s.reach core false k.ctx va .fetch).1

/-- The unit of code at an instruction address (03 R71). -/
inductive CodeUnit where
  /-- A full or hint word. -/
  | full (w : Word)
  /-- A dictionary word, entered at slot 1 or 2 as `sr.tcause`.SLOT numbers them. -/
  | slot (w : Word) (n : Nat)
  /-- No instruction stands here (REASON 7); the word reported. -/
  | none_ (w : Word)
  | fault (e : XErr) (va : DWord)
  deriving DecidableEq, Repr

/-- The word is a dictionary word (03 R77). -/
def isDict (w : Word) : Bool := fld w 26 6 == 0x3F

/-- The unit of code at an address, with the state after its fetch (03 R71). -/
def State.unitAt (s : State) (core : Nat) (k : Pack) (a : Word) : CodeUnit × State :=
  let a := a.toNat
  match s.fetchAt core k (2 * (a - a % 2)) with
  | .outside => (.none_ 0, s)
  | .fault e va s => (.fault e va, s)
  | .word w s =>
    if a % 2 = 0 then (if isDict w then .slot w 1 else .full w, s)
    else if isDict w && fld w 0 16 != 0 then (.slot w 2, s)
    else (.none_ w, s)

/-- The run of hint words from an address, up to `fuel` words, and what ends it. Words fetched ahead raise nothing. -/
def State.hintRun (s : State) (core : Nat) (k : Pack) : (fuel : Nat) → Word → List Word × GroupEnd
  | 0, _ => ([], .unknown)
  | n + 1, a =>
    match (s.unitAt core k a).1 with
    | .full w =>
      if primary w == 0x7C then
        let r := s.hintRun core k n (a + 2)
        (w :: r.1, r.2)
      else ([], .full w)
    | .fault _ _ => ([], .unknown)
    | _ => ([], .broken)

/-! ### Register operands and their decode-time checks -/

/-- The register classes that have allocations, alignment or window checks. -/
inductive RegClass where
  | v
  | g
  | a
  | t
  deriving DecidableEq, Repr

/-- A register operand: the FIELD of 08 R232 it stands in (0 D, 1 A, 2 B, 3 implied), its class, its first register, how
many registers it takes, and whether the instruction reads it. -/
structure Operand where
  field : Nat
  cls : RegClass
  idx : Nat
  cnt : Nat := 1
  read : Bool := true
  deriving DecidableEq, Repr

/-- Operands by field and class, read or written. -/
def rdV (field : Nat) (r : VReg) (n : Nat := 1) : Operand := { field := field, cls := .v, idx := r.toNat, cnt := n }
def wrV (field : Nat) (r : VReg) (n : Nat := 1) : Operand := { field := field, cls := .v, idx := r.toNat, cnt := n, read := false }
def rdG (field : Nat) (r : GReg) (n : Nat := 1) : Operand := { field := field, cls := .g, idx := r.toNat, cnt := n }
def wrG (field : Nat) (r : GReg) (n : Nat := 1) : Operand := { field := field, cls := .g, idx := r.toNat, cnt := n, read := false }
def opA (field : Nat) (r : AReg) : Operand := { field := field, cls := .a, idx := r.toNat }
def opT (field : Nat) (r : TReg) (n : Nat := 1) : Operand := { field := field, cls := .t, idx := r.toNat, cnt := n }

/-- ALIGN: a pair or group out of alignment (01 R18, 07 R176). -/
def Operand.misaligned (o : Operand) : Bool := o.idx % o.cnt != 0

/-- REGRANGE: a register beyond the pack's allocation (01 R17). -/
def Operand.outOfRange (o : Operand) (k : Pack) : Bool :=
  match o.cls with
  | .v => decide (o.idx < 120) && decide (k.nv < o.idx + o.cnt)
  | .g => decide (k.ng < o.idx + o.cnt)
  | .a => decide (k.na < o.idx + o.cnt)
  | .t => false

/-- EWMISS: a read of an ephemeral register with no write in the window (01 R27). -/
def Operand.missing (o : Operand) (sp : Split) : Bool :=
  o.cls == .v && o.read && decide (120 ≤ o.idx) &&
    (List.range o.cnt).any fun j => (sp.winReg (o.idx + j - 120)).isNone

/-- The lowest FIELD among operands that fail a check. -/
def lowestField (f : Operand → Bool) (os : List Operand) : Option Nat :=
  ((os.filter f).map (·.field)).foldl (fun r x => minReason r (some x)) none

/-- The decode-time check that fails with the lowest cause code, and its FIELD: ALIGN, REGRANGE, EWMISS (01 R14). -/
def decodeCheck (k : Pack) (sp : Split) (os : List Operand) : Option (Nat × Nat) :=
  match lowestField (·.misaligned) os with
  | some f => some (0x02, f)
  | none =>
    match lowestField (fun o => o.outOfRange k) os with
    | some f => some (0x03, f)
    | none =>
      match lowestField (fun o => o.missing sp) os with
      | some f => some (0x05, f)
      | none => none

/-- The registers an outstanding operation is still to write, as (class, first, count). -/
def OpKind.dest : OpKind → Option (RegClass × Nat × Nat)
  | .load d n _ => some (.v, d, (n + 3) / 4)
  | .loadU d n => some (.g, d, (n + 3) / 4)
  | .atomic fn (some d) => some (.v, d, if fn = 11 || fn = 12 then 2 else 1)
  | .poll d n => some (.v, d, (n + 3) / 4)
  | .loadS d => some (.v, d, 1)
  | _ => none

/-- An operand meets a destination still to be written by an earlier operation of the split's own lineage (06 R146) (log entry 14). -/
def Pack.hazard (k : Pack) (live : Mask) (os : List Operand) : Bool :=
  k.ops.any fun p =>
    !p.done && (p.lineage &&& live) != 0 &&
      match p.kind.dest with
      | some (c, r, n) => os.any fun o => o.cls == c && overlap o.idx o.cnt r n
      | none => false

end Sys2Proof.Machine
end

