-- ==== Sys2Proof/Machine/Ops.lean ====
section
/-!
DEFINITION. Issuing: the context of the instruction in progress, the decode-time checks before any lane executes (01 R14),
retiring an instruction (01 R26, 03 R72, 04 R108), writing results, taking an exception as one operation (08 R233, R234) and
returning from one beside it (08 R235).
-/

namespace Sys2Proof.Machine

/-- The instruction in progress: the state with no focus, the focus, the issuing pack and split, and its live lanes. -/
structure Iss where
  s : State
  f : Focus
  k : Pack
  sp : Split
  live : Mask

/-- The next address in sequence after the unit at `a` (03 R72). -/
def nextAddr (u : CodeUnit) (a : Word) : Word :=
  match u with
  | .slot w 1 => if fld w 0 16 == 0 then a + 2 else a + 1
  | .slot _ _ => a + 1
  | _ => a + 2

/-- The dictionary of a pack's kernel on its core (03 R79). -/
def State.dict (s : State) (core : Nat) (k : Pack) : Option Dict :=
  (s.core core).dicts.find? fun d => d.ctx == k.ctx && d.image == s.imageOf k

/-- The instruction in progress, if one is. -/
def State.issuer (s : State) : Option Iss :=
  s.focus.bind fun f => (s.pack f.core f.slot).bind fun k => (k.split f.split).map fun sp =>
    { s := { s with focus := none }, f := f, k := k, sp := sp, live := k.live sp }

/-- The state with the pack and split replaced. -/
def Iss.put (x : Iss) (k : Pack) (sp : Split) : State := x.s.setPack x.f.core x.f.slot (k.setSplit sp)

/-- The address of the instruction: of the first hint of its group where it has hints (03 R76). -/
def Iss.at_ (x : Iss) : Word := if x.sp.hints.isEmpty then x.f.addr else x.sp.hintAt

/-- A split stalled at an instruction, as the issuer of it, when an event carries it out (09 R239). -/
def State.stalled (s : State) (core slot split : Nat) : Option Iss :=
  match s.pack core slot with
  | none => none
  | some k =>
    match k.split split with
    | none => none
    | some sp =>
      if sp.stall.isNone || sp.spill.isSome || sp.pending.isSome then none
      else
        let u := (s.unitAt core k sp.pc).1
        let f : Focus := { core := core, slot := slot, split := split, addr := sp.pc, word := 0, next := nextAddr u sp.pc }
        let f := match sp.slot, u with
          | some e, _ => { f with word := e.word, dslot := e.slot, dindex := e.index }
          | none, .full w => { f with word := w }
          | none, _ => f
        some { s := { s with focus := none }, f := f, k := k, sp := sp, live := k.live sp }

/-! ### Exceptions -/

/-- A trap of the issuing split (08 R229, R230). -/
def Iss.trap (x : Iss) (act : Mask) (code info : Nat) (joint : Bool := false) (walk : WalkInfo := {}) : TrapRec :=
  { code := code, info := BitVec.ofNat 128 info, joint := joint, slot := x.f.dslot, epc := x.at_, mask := x.live,
    active := act, walk := walk }

/-- INH of a split's `sr.tcause` (08 R229). -/
def Split.inh (sp : Split) : Bool := sp.trap.cause.getLsbD 13

/-- The kernel header names no handler (03 R88). -/
def KHeader.noHandler (h : KHeader) : Bool := h.handler == 0xFFFFFFFF

/-- The trap ends the task: a cause marked ends, a trap while INH is 1, or one other than BRK and SYSCALL with no handler
(08 R232, R234) (log entry 13). -/
def trapEnds (h : KHeader) (inh : Bool) (r : TrapRec) : Bool :=
  r.code == 0x0B || r.code == 0x0D || (r.code == 0x08 && r.info.extractLsb' 0 8 == 0x1D) || inh ||
    (h.noHandler && r.code != 0x0E && r.code != 0x0F)

/-- Write a trap record to the split's registers; a handler about to run sets INH (08 R229, R230, R233 step 3). -/
def Split.record (sp : Split) (det : Bool) (r : TrapRec) (inh : Bool := true) : Split :=
  { sp with
    trap :=
      { sp.trap with
        cause := causeWord r false det inh, epc := r.epc, mask := r.mask, active := r.active
        info0 := r.info.extractLsb' 0 32, info1 := r.info.extractLsb' 32 32
        info2 := r.info.extractLsb' 64 32, info3 := r.info.extractLsb' 96 32 } }

/-- The split without an instruction half issued. -/
def Split.clean (sp : Split) : Split := { sp with hints := [], slot := none, stall := none, pending := none }

/-- Enter the handler (08 R233): the record is written, the window saved, and the split starts at HANDLER with an empty
window and its mask unchanged. -/
def Split.enter (sp : Split) (h : KHeader) (r : TrapRec) : Split :=
  { (sp.clean.record h.det r) with status := .ready, saved := sp.win, win := [], pc := BitVec.ofNat 32 h.handler }

/-- Suspend at a BRK or SYSCALL with no handler (08 R234): as at entry, but no handler runs, INH stays 0 (17 R370), and the split waits
for a host complex. Its window is put aside as for a handler, so that its image shows an empty one (log entry 13). -/
def Split.suspend (sp : Split) (h : KHeader) (r : TrapRec) : Split :=
  { (sp.clean.record h.det r false) with status := .ready, saved := sp.win, win := [], pc := r.epc, suspended := true }

/-- The pack has issued (09 R237). -/
def Pack.started (k : Pack) : Pack := { k with phase := if k.phase == .placed then .running else k.phase }

/-- Take an exception (08 R233, R234): the task ends, or the split is suspended and a host signalled, or its handler
starts (log entry 12). -/
def State.takeTrap (s : State) (core slot : Nat) (k : Pack) (sp : Split) (r : TrapRec) : State :=
  let h := s.header k
  if trapEnds h sp.inh r then (s.trapEvent 1 core k sp.id r true sp.inh).endTask k.tag 2 k.group
  else if h.noHandler then
    (s.setPack core slot (k.started.setSplit (sp.suspend h r))).trapEvent 2 core k sp.id r false false
  else s.setPack core slot (k.started.setSplit (sp.enter h r))

/-- An earlier operation of the split is still outstanding (log entry 12). -/
def Pack.busyFor (k : Pack) (live : Mask) : Bool := k.ops.any fun p => !p.done && (p.lineage &&& live) != 0

/-- Some operation with one of these ids is still to be performed. -/
def Pack.openOps (k : Pack) (ids : List Nat) : Bool := k.ops.any fun o => !o.done && ids.contains o.id

/-- Raise an exception at the instruction in progress: it is taken at once, or by TRAP_ENTRY once the split's earlier
operations are complete (08 R233) (log entry 12). -/
def Iss.raiseRec (x : Iss) (r : TrapRec) : Out :=
  if x.k.busyFor x.live then
    .next (x.put x.k.started { x.sp.clean with pending := some r, pc := r.epc })
  else .next (x.s.takeTrap x.f.core x.f.slot x.k x.sp r)

/-- Raise what an access failed with, `word` the cause word of 06 R145. An access to a lost DRAM channel gives its ERROR record, and ECC with
the same ERRSEQ (20 R421, R424). -/
def Iss.accessFault (x : Iss) (act : Mask) (e : XErr) (word : BitVec 128) : Out :=
  match e with
  | .ecc pa =>
    let r := x.s.reportError (dramError pa x.f.core x.f.slot) (some x.sp.id)
    ({ x with s := r.1 } : Iss).raiseRec (x.trap act 0x0D (eccWord (pa / 64 * 64) 3 r.2))
  | e => x.raiseRec (x.trap act e.code word.toNat false e.walk)

/-- Raise an exception with a cause word. -/
def Iss.raise (x : Iss) (act : Mask) (code info : Nat) : Out := x.raiseRec (x.trap act code info)

/-- The cause word of an ILLOP (03 R81). -/
def illopWord (w : Word) (reason slot dindex : Nat) : Nat :=
  w.toNat + reason * 2 ^ 32 + slot % 4 * 2 ^ 36 + dindex % 1024 * 2 ^ 38

/-- The cause word of a HANDLE (07 R202). -/
def handleWord (reason : Nat) (tile : Nat := 0) (index : Nat := 0) (remote : Bool := false) (pack : Nat := 0) (rank : Nat := 0)
    (lane : Nat := 0) (value : Nat := 0) : Nat :=
  reason % 256 + tile % 32 * 2 ^ 8 + index % 256 * 2 ^ 13 + (if remote then 2 ^ 21 else 0) + pack % 65536 * 2 ^ 22 +
    rank % 128 * 2 ^ 38 + lane % 32 * 2 ^ 45 + value % 2 ^ 32 * 2 ^ 64

/-- The primary, FN and M of a word name a vector instruction in whose form some field is reserved (03 R69). -/
def vectorReserved (w : Word) : Bool :=
  let fn := (fld w 1 7).toNat
  match (fld w 25 7).toNat with
  | 0x20 => true
  | 0x24 => fn == 3 || fn == 4
  | 0x27 => fn == 0 || fn == 3 || fn == 4 || fn == 5
  | 0x3A => true
  | 0x48 => true
  | 0x4A => true
  | 0x51 => fn == 3 || fn == 4
  | 0x69 => true
  | 0x6A => true
  | 0x6C => true
  | 0x6F => true
  | _ => false

/-- The lanes that `sr.tactive` shows for an ILLOP at a word: the active ones of a vector instruction's guard, every live one of any other
(08 R230) and of a word that names no instruction (log entry 88). -/
def Iss.wordActive (x : Iss) (w : Word) : Mask :=
  if isDict w then x.live
  else
    match wordReason w with
    | some 0 => x.live
    | some 1 => if vectorReserved w then x.k.active x.sp (guard w) else x.live
    | _ => x.k.active x.sp (guard w)

/-- Raise ILLOP at the instruction in progress, with these lanes active: the word reported is the one at the reported address (03 R81) (log
entry 11). -/
def Iss.illopWith (x : Iss) (act : Mask) (reason : Nat) : Out :=
  x.raise act 0x01 (illopWord (x.sp.hints.headD x.f.word) reason x.f.dslot x.f.dindex)

/-- Raise ILLOP at the instruction in progress; at an address with no instruction every live lane counts as active (log entry 88). -/
def Iss.illop (x : Iss) (reason : Nat) : Out := x.illopWith (if reason = 7 then x.live else x.wordActive x.f.word) reason

/-- The lanes that an ILLOP of a hint group shows as active: those of the instruction that ends it, if one does (08 R230). -/
def Iss.groupActive (x : Iss) (u : GroupEnd) : Mask :=
  match u with
  | .full w => x.wordActive w
  | _ => x.live

/-! ### Retiring -/

/-- Every result in the window grows older by one instruction; one that was issued more than eight ago leaves (01 R26). -/
def ageWindow (w : List WinReg) : List WinReg :=
  (w.map fun e => { e with age := e.age + 1 }).filter fun e => decide (e.age ≤ 8)

/-- The split's reconvergence address stands at `pc` (04 R108, 09 R237, R242). -/
def Split.stopsAt (sp : Split) (pc : Word) : Bool := pc == sp.reconv && sp.reconv != 0xFFFFFFFF

/-- The split goes on at `pc`, where it stops if that is its reconvergence address (04 R108). -/
def Split.goto (sp : Split) (pc : Word) (clock : Nat) : Split :=
  if sp.stopsAt pc then { sp with pc := pc, status := .stoppedReconv, stamp := clock } else { sp with pc := pc }

/-- The split after its instruction has issued: the window grows older, its hints are spent, and it goes on at `pc`. -/
def Split.retire (sp : Split) (pc : Word) (clock : Nat) : Split :=
  { sp.clean with win := ageWindow sp.win }.goto pc clock

/-- Retire the instruction in progress with the pack and split it leaves, going on at `pc`. -/
def Iss.retireTo (x : Iss) (k : Pack) (sp : Split) (pc : Word) : State :=
  let s := x.put k.started (sp.retire pc x.s.clock)
  { s.setCore x.f.core { s.core x.f.core with lastPack := x.f.slot } with clock := s.clock + 1 }

/-- Retire to the next address in sequence (03 R72). -/
def Iss.retire (x : Iss) (k : Pack) (sp : Split) : State := x.retireTo k sp x.f.next

/-- Retire, answering a next state. -/
def Iss.done (x : Iss) (k : Pack) (sp : Split) : Out := .next (x.retire k sp)

/-- The instruction stalls without effect and is recorded as what the split is stalled at (09 R239) (log entry 14). -/
def Iss.stallAt (x : Iss) (st : Stall) : Out := .next (x.put x.k.started { x.sp with stall := some st })

/-- The group becomes committed: it has issued an instruction of 15 R334 (log entry 43). -/
def Iss.commit (x : Iss) : Iss := { x with s := x.s.modGroup x.k.tag x.k.group fun g => { g with committed := true } }

/-! ### Issue -/

/-- The REASON of the group the instruction ends, none if it stands (03 R74). -/
def Iss.groupTrap (x : Iss) : Option Nat :=
  if x.sp.hints.isEmpty && !(accepts x.f.word).rnd5 then none else groupReason x.sp.hints (.full x.f.word)

/-- Issue an instruction: its group and decode-time checks are made whatever its guard (01 R14), then it waits for the
results it names (06 R146), then it runs with the active lanes of its guard (01 R12). -/
def issue (s : State) (mnemonic : String) (g : PReg) (os : List Operand) (run : Iss → Mask → Out) : Out :=
  match s.issuer with
  | none => .refused (.noIssuer mnemonic)
  | some x =>
    match x.groupTrap with
    | some r => x.illop r
    | none =>
      match decodeCheck x.k x.sp os with
      | some (code, field) => x.raise (x.k.active x.sp g) code (x.f.word.toNat + field * 2 ^ 32)
      | none => if x.k.hazard x.live os then .next x.s else run x (x.k.active x.sp g)

/-- Issue a uniform instruction: it acts for the split as a whole (01 R13). -/
def issueU (s : State) (mnemonic : String) (os : List Operand) (run : Iss → Out) : Out :=
  issue s mnemonic 7 os fun x _ => run x

/-! ### Results -/

/-- Write a vector-class destination in the active lanes: a `v` register keeps its other lanes (01 R12), an ephemeral
register is replaced (01 R27). -/
def writeV (k : Pack) (sp : Split) (d : VReg) (act : Mask) (f : Nat → Word) : Pack × Split :=
  if d.toNat < 120 then (k.setLanes d.toNat act f, sp) else (k, sp.setWin (d.toNat - 120) act f)

/-- Retire with a vector result. -/
def Iss.doneV (x : Iss) (d : VReg) (act : Mask) (f : Nat → Word) : Out :=
  let r := writeV x.k x.sp d act f
  x.done r.1 r.2

/-- Retire with a vector pair result, the even register low (01 R18). -/
def Iss.doneV64 (x : Iss) (d : VReg) (act : Mask) (f : Nat → DWord) : Out :=
  let r := writeV x.k x.sp d act fun i => (f i).extractLsb' 0 32
  let r := writeV r.1 r.2 (d + 1) act fun i => (f i).extractLsb' 32 32
  x.done r.1 r.2

/-- Retire with a uniform result. -/
def Iss.doneG (x : Iss) (d : GReg) (v : Word) : Out := x.done (x.k.setG d.toNat v) x.sp

/-- Retire with predicate bits for the lanes of `m`. -/
def Iss.doneP (x : Iss) (d : PReg) (m f : Mask) : Out := x.done (x.k.setP d m f) x.sp

/-- Lane `i` of a vector-class source. -/
def Iss.v (x : Iss) (r : VReg) (i : Nat) : Word := x.k.readV x.sp r.toNat i

/-- A uniform source. -/
def Iss.g (x : Iss) (r : GReg) : Word := x.k.readG r.toNat

/-! ### Returning from an exception (08 R235) -/

/-- The split resumes with its window restored and INH clear, at `pc`. -/
def Split.leave (sp : Split) (pc : Word) (clock : Nat) : Split :=
  { sp.clean with
    trap := { sp.trap with cause := sp.trap.cause &&& ~~~(1#32 <<< 13) }, win := sp.saved, saved := [], suspended := false
    }.goto pc clock

/-- The address after the unit that stands at `a`, for `hret.skip` (08 R235); past an address that cannot be fetched it is `a` + 2 (log
entry 88). -/
def State.skipFrom (s : State) (core : Nat) (k : Pack) (a : Word) : Word :=
  match (s.unitAt core k a).1 with
  | .full w =>
    if primary w == 0x7C then
      let r := s.hintRun core k ((s.header k).codeSize / 4 + 1) a
      let n := BitVec.ofNat 32 (2 * r.1.length)
      match r.2 with
      | .full _ => a + n + 2
      | _ => a + n
    else a + 2
  | .slot w 1 =>
    let low := fld w 0 16
    let count := (s.dict core k).elim 0 (·.count)
    if low != 0 && fld w 10 6 == 0x3F && decide ((fld w 16 10).toNat < count) && decide ((fld w 0 10).toNat < count) then
      a + 1
    else a + 2
  | .slot _ _ => a + 1
  | .none_ _ => if a.getLsbD 0 then a + 1 else a + 2
  | .fault _ _ => a + 2

end Sys2Proof.Machine
end

