-- ==== Sys2Proof/Machine/Splits.lean ====
section
/-!
DEFINITION. Splits over the life of a pack (spec 09): identifiers, the priority list, split-table entries, spill records,
division, removal at exit, resumption at reconvergence and the re-gang merge.
-/

namespace Sys2Proof.Machine

/-! ### The priority list (09 R240) -/

/-- The lowest ID that no live split of the pack holds (09 R238). -/
def Pack.freshId (k : Pack) : Nat := freshFrom (k.splits.map (·.1)) 64

/-- The split stands among the demoted ones. -/
def Pack.isDemoted (k : Pack) (i : Nat) : Bool :=
  match k.split i with
  | some sp => sp.demoted
  | none => false

/-- Put an ID at the end of the non-demoted part. -/
def Pack.placeNonDemoted (k : Pack) (order : List Nat) (i : Nat) : List Nat :=
  order.takeWhile (fun j => !k.isDemoted j) ++ i :: order.dropWhile (fun j => !k.isDemoted j)

/-- Replace the first of `olds` in the list by `news`, and drop the other `olds`. -/
def replaceFirst (order olds news : List Nat) : List Nat :=
  (order.takeWhile fun j => !olds.contains j) ++ news ++ ((order.dropWhile fun j => !olds.contains j).filter fun j => !olds.contains j)

/-- The place of a split that absorbs `olds`: that of the first of them, or the end of the non-demoted part when that place
lies among the demoted. The splits still in the table decide which part is which. -/
def Pack.absorbOrder (k : Pack) (olds : List Nat) (i : Nat) : List Nat :=
  match k.order.find? olds.contains with
  | some j =>
    if k.isDemoted j then k.placeNonDemoted (k.order.filter fun n => !olds.contains n) i
    else replaceFirst k.order olds [i]
  | none => k.placeNonDemoted k.order i

/-- Move a split to the end of the list, demoted (09 R240); it is current no more (09 R252). -/
def Pack.demote (k : Pack) (i : Nat) : Pack :=
  { k.modSplit i (fun sp => { sp with demoted := true }) with order := (k.order.filter (· != i)) ++ [i], cur := k.cur.filter (· != i) }

/-- A split's demotion ends: it moves to the end of the non-demoted part (09 R240). -/
def Pack.promote (k : Pack) (i : Nat) : Pack :=
  if k.isDemoted i then
    { k.modSplit i (fun sp => { sp with demoted := false }) with order := k.placeNonDemoted (k.order.filter (· != i)) i }
  else k

/-! ### Entries and spill records (04 R109, 09 R243–R246) -/

/-- The code of a split's state (09 R239). -/
def SplitStatus.code : SplitStatus → Nat
  | .ready => 0
  | .waiting => 1
  | .stoppedReconv => 2
  | .stoppedRegang => 3
  | .barrier => 4

/-- The ephemeral image of a window (01 R36). -/
def windowImage (w : List WinReg) : List Byte :=
  let reg := fun k => w.find? fun e => e.reg == k
  ((List.range 8).flatMap fun k => (List.range 32).flatMap fun i =>
    bytesLE 4 (match reg k with
      | some e => (Words.get e.vals i).toNat
      | none => 0)) ++
    ((List.range 8).map fun k => BitVec.ofNat 8 (match reg k with
      | some e => e.age
      | none => 0)) ++ List.replicate 56 0

/-- The trap registers of a split record, 48 bytes (09 R245). -/
def TrapRegs.image (t : TrapRegs) : List Byte :=
  [t.cause, t.epc, t.mask, t.active, t.info0, t.info1, t.info2, t.info3, t.scratch0, t.scratch1, t.scratch2,
    t.scratch3].flatMap fun w => bytesLE 4 w.toNat

/-- The window as its image shows it: a split held at a barrier has issued its `bar` or `aflush` (01 R36), which ages the window when the
split goes on. -/
def Split.winImage (sp : Split) : List Byte := windowImage (if sp.status == .barrier then ageWindow sp.win else sp.win)

/-- A split's spill record of 1,152 bytes (09 R245). -/
def Split.image (sp : Split) (order : List Nat) : List Byte :=
  bytesLE 4 sp.pc.toNat ++ bytesLE 4 sp.mask.toNat ++ bytesLE 4 sp.reconv.toNat ++
    bytesLE 1 sp.id ++ bytesLE 1 (sp.parent.getD 63) ++ bytesLE 1 sp.status.code ++
    bytesLE 1 ((order.idxOf? sp.id).getD 0 + (if sp.demoted then 64 else 0)) ++ sp.trap.image ++ sp.winImage

/-- The words of 32 lanes from an image. -/
def laneWords (b : List Byte) : Words :=
  (List.range 32).foldl (fun w i => Words.set w i (BitVec.ofNat 32 (recField b (4 * i) 4))) []

/-- The window of an ephemeral image; none where an age or a reserved byte is at fault (01 R36, R37). -/
def parseWindow (b : List Byte) : Option (List WinReg) :=
  let age := fun k => recField b (1024 + k) 1
  if ((List.range 8).any fun k => decide (8 < age k)) || recField b 1032 56 != 0 then none
  else
    some ((List.range 8).filterMap fun k =>
      if age k = 0 then none else some { reg := k, age := age k, vals := laneWords (b.drop (128 * k)) })

/-- The state of a code (09 R239). -/
def SplitStatus.ofCode : Nat → Option SplitStatus
  | 0 => some .ready
  | 1 => some .waiting
  | 2 => some .stoppedReconv
  | 3 => some .stoppedRegang
  | 4 => some .barrier
  | _ => none

/-- Trap registers from a split record (09 R245). -/
def TrapRegs.ofImage (b : List Byte) : TrapRegs :=
  let w := fun j => BitVec.ofNat 32 (recField b (4 * j) 4)
  { cause := w 0, epc := w 1, mask := w 2, active := w 3, info0 := w 4, info1 := w 5, info2 := w 6, info3 := w 7
    scratch0 := w 8, scratch1 := w 9, scratch2 := w 10, scratch3 := w 11 }

/-- What a split record holds, with its ORDER; none where R246 finds a fault. What no record holds is that of `sp` (09 R245, R246, 01 R37)
(log entry 36). -/
def Split.ofImage (sp : Split) (b : List Byte) : Option (Split × Nat) :=
  let u := recField b
  match SplitStatus.ofCode (u 14 1), parseWindow (b.drop 64) with
  | some st, some w =>
    if u 12 1 != sp.id || 64 ≤ u 13 1 || 128 ≤ u 15 1 || 62 < u 15 1 % 64 || 2 ^ 14 ≤ u 16 4 then none
    else
      let win := if st == .barrier then w.map fun e => { e with age := e.age - 1 } else w
      some ({ sp with
        pc := BitVec.ofNat 32 (u 0 4), mask := BitVec.ofNat 32 (u 4 4), reconv := BitVec.ofNat 32 (u 8 4)
        parent := if u 13 1 = 63 then none else some (u 13 1), status := st, demoted := bit (u 15 1) 6
        trap := TrapRegs.ofImage (b.drop 16), win := win, hints := [], slot := none, stall := none, ahead := none }, u 15 1 % 64)
  | _, _ => none

/-- The split as its record in a pack block has it: as it was where the bytes are those written, else what the bytes say (15 R341, 01 R37)
(log entry 36). -/
def Split.reread (sp : Split) (written now : List Byte) : Option (Split × Nat) :=
  if now == written then some (sp, recField written 15 1 % 64) else sp.ofImage now

/-- Split-table entries a pack holds. -/
def Pack.entries (k : Pack) : Nat := (k.splits.filter fun e => e.2.spill.isNone).length

/-- Entries a pack can still take: its guaranteed four and those not guaranteed to another resident pack (04 R109, 09 R243). -/
def Core.reachable (c : Core) (slot : Nat) (mine : Nat) : Nat :=
  let others := (c.packs.filter fun p => p.1 != slot && p.2.phase != .ended).map fun p => max 4 p.2.entries
  Config.splitEntries - others.sum - mine

/-- Spill records of the pack not in use, lowest first. -/
def State.freeRecords (s : State) (k : Pack) : List Nat :=
  (List.range ((s.header k).spill / 1152)).filter fun r => !k.splits.any fun e => e.2.spill == some r

/-- The victims of a spill, in the order of 09 R243. -/
def Pack.victims (k : Pack) (issuing : Nat) : List Nat :=
  let of := fun p => (k.splits.filter fun e => e.1 != issuing && e.2.spill.isNone && p e.2).map (·.2)
  let stopped := sortBy (·.stamp) (of fun sp =>
    sp.status == .stoppedReconv || sp.status == .stoppedRegang || sp.status == .barrier)
  let waiting := sortBy (·.stamp) (of fun sp => sp.status == .waiting)
  let demoted := (k.order.reverse.filterMap k.split).filter fun sp =>
    sp.id != issuing && sp.spill.isNone && sp.status == .ready && sp.demoted
  (stopped ++ waiting ++ demoted).map (·.id)

/-- Write a split to a spill record (09 R245): its PC is that of the group it stands in. A split never stays between a hint and its
instruction, but keeps the group it is stalled at (03 R76). -/
def spillTo (s : State) (k : Pack) (i r : Nat) : State × Pack :=
  match k.split i with
  | none => (s, k)
  | some sp =>
    let img := ({ sp with pc := if sp.hints.isEmpty then sp.pc else sp.hintAt } : Split).image k.order
    let sp := if sp.hints.isEmpty || sp.stall.isSome then sp else { sp with pc := sp.hintAt, hints := [] }
    (s.outsideWrite (k.spillAt + 1152 * r) img, k.setSplit { sp with spill := some r, spillImage := img })

/-- Spill a list of splits to a list of records. -/
def spillAll (s : State) (k : Pack) : List (Nat × Nat) → State × Pack
  | [] => (s, k)
  | (i, r) :: rest =>
    let t := spillTo s k i r
    spillAll t.1 t.2 rest

/-- Obtain `need` entries for the issuing split: the number of records wanting when they cannot be had (SPLITOVF), else
the state and pack after spilling, and how many of the new splits are created in spill records (04 R109, 09 R243). -/
def State.takeEntries (s : State) (core slot : Nat) (k : Pack) (issuing need : Nat) : Except Nat (State × Pack × Nat) :=
  let a := (s.core core).reachable slot k.entries
  if need ≤ a then .ok (s, k, 0)
  else
    let lack := need - a
    let free := s.freeRecords k
    if free.length < lack then .error lack
    else
      let vs := (k.victims issuing).take lack
      let t := spillAll s k (vs.zip free)
      .ok (t.1, t.2, lack - vs.length)

/-- SPLITOVF's cause word: the records needed, and SPILL (08 R232). -/
def splitovfWord (needed spill : Nat) : Nat := needed + spill * 2 ^ 32

/-! ### Division (04 R107, R112, 06 R152) -/

/-- A child of `p` with its own mask and address, inheriting window, trap registers, INH and demotion (04 R107, 08 R233). -/
def childOf (p : Split) (id : Nat) (mask : Mask) (pc join : Word) (parent : Option Nat) (clock : Nat) : Split :=
  { p with id := id, mask := mask, reconv := join, parent := parent, status := .ready, stamp := clock, spill := none
           spillImage := [] }.goto pc clock

/-- Add children to a pack, the last `spilled` of them directly in spill records. -/
def addKids (s : State) (k : Pack) : List Split → (spilled : Nat) → State × Pack
  | [], _ => (s, k)
  | c :: rest, n =>
    let k := k.setSplit c
    let t := if rest.length < n then spillTo s k c.id ((s.freeRecords k).headD 0) else (s, k)
    addKids t.1 t.2 rest n

/-- Children with fresh IDs, in order. -/
def makeKids (k : Pack) (p : Split) (join : Word) (clock : Nat) : List (Mask × Word) → List Split
  | [] => []
  | (m, pc) :: rest =>
    let c := childOf p k.freshId m pc join (some p.id) clock
    c :: makeKids (k.setSplit c) p join clock rest

/-- Divide a split, whose instruction has retired into `p`: the parent waits, the children take its place in the list. `edit` is what
the instruction does to each child. -/
def divide (s : State) (core slot : Nat) (k : Pack) (p : Split) (join : Word) (spilled : Nat) (kids : List (Mask × Word))
    (edit : Split → Split := id) : State :=
  let cs := (makeKids k p join s.clock kids).map edit
  let order := replaceFirst k.order [p.id] (cs.map (·.id))
  let t := addKids s { k with order := order, cur := cs.head?.map (·.id) } cs spilled
  let k := t.2.setSplit { p with status := .waiting, stamp := s.clock, pc := join }
  { t.1.setPack core slot k with clock := s.clock + 1 }

/-! ### Exit (04 R114) -/

/-- Lanes exit: they leave every split's mask, and a split left with no lane is removed. -/
def Pack.exitLanes (k : Pack) (m : Mask) : Pack :=
  let splits := (k.splits.map fun e => (e.1, { e.2 with mask := e.2.mask &&& ~~~m })).filter fun e =>
    (e.2.mask &&& presentMask k.slices) != 0
  { k with exited := k.exited ||| m, splits := splits, order := k.order.filter fun i => splits.any fun e => e.1 == i }

/-! ### Reconvergence and re-gang (04 R108, R113) -/

/-- The children of a split. -/
def Pack.kids (k : Pack) (i : Option Nat) : List Split := (k.splits.map (·.2)).filter fun c => c.parent == i

/-- The union of the live lanes of some splits. -/
def Pack.lanesIn (k : Pack) (l : List Split) : Mask := l.foldl (fun m c => m ||| k.live c) 0

/-- Pointwise greatest of two tables of numbers. -/
def maxTable (a b : Table Nat) : Table Nat := b.foldl (fun t e => t.put e.1 (max (t.getD e.1 0) e.2)) a

/-- What a split has seen and must still wait for, joined with that of the splits it absorbs (11 R279). -/
def Split.join (p : Split) (l : List Split) : Split :=
  l.foldl (fun p c =>
    { p with
      seen := maxTable p.seen c.seen, gateAll := p.gateAll ++ c.gateAll.filter fun g => !p.gateAll.contains g
      gateSt := p.gateSt ++ c.gateSt.filter fun g => !p.gateSt.contains g, lastTime := max p.lastTime c.lastTime }) p

/-- Splits of these lanes merge: an operation that one of them issued is an earlier one for the merged split, whichever of its lanes go on
(11 R279). -/
def Pack.joinOps (k : Pack) (m : Mask) : Pack :=
  { k with ops := mapIf (fun o => (o.lineage &&& m) != 0) (fun o => { o with lineage := o.lineage ||| m }) k.ops }

/-- The parent `i` can resume: it waits, and every live lane of its mask is in a child stopped at its reconvergence address. -/
def Pack.resumable (k : Pack) (i : Nat) : Bool :=
  match k.split i with
  | none => false
  | some p =>
    let stopped := (k.kids (some i)).filter fun c => c.status == .stoppedReconv
    p.status == .waiting && k.live p != 0 && (k.live p &&& ~~~(k.lanesIn stopped)) == 0

/-- The parent resumes at the reconvergence address with the lanes of its stopped children, an empty window, and the place of
the first of them; their entries and records are freed (04 R108, 09 R240). -/
def Pack.resumeParent (k : Pack) (i clock : Nat) : Pack :=
  match k.split i with
  | none => k
  | some p =>
    let cs := (k.kids (some i)).filter fun c => c.status == .stoppedReconv
    let ids := cs.map (·.id)
    let order := k.absorbOrder ids i
    let p := { p.join cs with mask := k.lanesIn cs, status := .ready, win := [], demoted := false }.goto p.pc clock
    ({ k with splits := k.splits.filter fun e => !ids.contains e.1, order := order }.setSplit p).joinOps p.mask

/-- The family of a split stopped at a `regang` is stopped whole (04 R113): every live lane of the parent's mask stands in a split stopped
at a `regang`, at whatever depth below the parent, or at the parent's reconvergence address (log entry 77). -/
def Pack.familyStopped (k : Pack) (sp : Split) : Bool :=
  let all := k.splits.map (·.2)
  let family := match sp.parent with
    | some p => (k.split p).elim 0 k.live
    | none => presentMask k.slices &&& ~~~k.exited
  let stopped := all.filter fun c => c.status == .stoppedRegang || (c.status == .stoppedReconv && c.pc == sp.reconv)
  sp.status == .stoppedRegang && (family &&& ~~~(k.lanesIn stopped)) == 0

/-- Merge the splits stopped at one `regang` into the first of them in the list; when they hold every live lane of the parent
the merged split takes its place (04 R113, 08 R233). -/
def Pack.mergeRegang (k : Pack) (group : List Split) (parent : Option Nat) (clock : Nat) : Pack :=
  let ids := group.map (·.id)
  match (k.order.filter ids.contains).head?.bind k.split with
  | none => k
  | some first =>
    let m := { first.join group with
      mask := k.lanesIn group, status := .ready, win := [], demoted := false
      spill := if group.any (·.spill.isNone) then none else first.spill }
    let order := k.absorbOrder ids first.id
    let drop := fun k : Pack => { k with splits := k.splits.filter fun e => !ids.contains e.1 || e.1 == first.id, order := order }
    match parent.bind k.split with
    | some p =>
      if (k.live p &&& ~~~m.mask) == 0 then
        let m := { m with id := p.id, parent := p.parent, reconv := p.reconv, trap := p.trap, saved := p.saved }.goto m.pc clock
        let k := drop k
        { k with
          splits := Table.put (k.splits.filter fun e => e.1 != first.id) p.id m
          order := replaceFirst k.order [first.id] [p.id] }.joinOps m.mask
      else ((drop k).setSplit (m.goto m.pc clock)).joinOps m.mask
    | none => ((drop k).setSplit (m.goto m.pc clock)).joinOps m.mask

/-- Release a family: the splits stopped at a `regang`, grouped by address in list order, merge and go on (04 R113). -/
def Pack.releaseRegang (k : Pack) (sp : Split) (clock : Nat) : Pack :=
  let members := (k.order.filterMap k.split).filter fun c => c.status == .stoppedRegang && c.parent == sp.parent
  let pcs := members.foldl (fun (l : List Word) c => if l.contains c.pc then l else l ++ [c.pc]) []
  pcs.foldl (fun k pc => k.mergeRegang (members.filter fun c => c.pc == pc) sp.parent clock) k

/-! ### Choosing what issues (09 R241, R252) -/

/-- The slices a mask touches. -/
def slicesOf (m : Mask) : List Nat := (List.range 8).filter fun j => (m >>> (4 * j)) &&& 0xF != 0

/-- The instruction the split is stalled at is one of the switch points of 09 R252 (log entry 71). -/
def Stall.switchPoint : Stall → Bool
  | .wait .. => false
  | .bankcfg => false
  | .jrec .. => false
  | _ => true

/-- READY, resident and not stalled: its next word can issue. -/
def Split.canIssue (sp : Split) : Bool :=
  sp.status == .ready && !sp.suspended && sp.pending.isNone && sp.stall.isNone && sp.spill.isNone && sp.await.isNone

/-- The split stands inside a hint group or a dictionary pair, which is never divided (03 R76, 15 R336). -/
def Split.midUnit (sp : Split) : Bool := !sp.hints.isEmpty || sp.slot.isSome || sp.pc.getLsbD 0

end Sys2Proof.Machine
end

