-- ==== Sys2Proof/Machine/Control.lean ====
section
/-!
DEFINITION. Branches, calls, re-gang, no-operation and `wait` (04 R106–R117).
-/

namespace Sys2Proof.Machine

/-- Sign-extend an offset of `n` bits to an address difference. -/
def offsetOf (n x : Nat) : Word := BitVec.ofInt 32 (signedOf n x)

/-- A taken backward branch over at most 256 words is captured in the loop buffer (09 R257). -/
def Pack.capture (k : Pack) (at_ target : Word) : Pack :=
  if target.toNat ≤ at_.toNat && at_.toNat / 2 - target.toNat / 2 < 256 then { k with loop := some (target, at_) } else k

/-- Retire with a branch to `target`. -/
def Iss.branch (x : Iss) (target : Word) : Out := .next (x.retireTo (x.k.capture x.f.addr target) x.sp target)

/-- Every live lane of the split holds the predicate (04 R106). -/
def Iss.all (x : Iss) (p : PReg) : Bool := (x.live &&& ~~~(x.k.pred p)) == 0

/-- BR: the whole split goes one way (R106). -/
def execBr (p : PReg) (o : BitVec 19) (s : State) : Out :=
  issueU s "BR" [] fun x => if x.all p then x.branch (x.f.addr + offsetOf 19 o.toNat) else x.done x.k x.sp

/-- JMP: BR with P = 7 (R106). -/
def execJmp (o : BitVec 19) (s : State) : Out :=
  issueU s "JMP" [] fun x => x.branch (x.f.addr + offsetOf 19 o.toNat)

/-- The split after the instruction that divides it, as its children inherit it. -/
def Iss.parent (x : Iss) : Split := { x.sp.clean with win := ageWindow x.sp.win }

/-- The state in which the pack of the instruction in progress was the last given a port (09 R241). -/
def Iss.served (x : Iss) (s : State) : State := s.setCore x.f.core { s.core x.f.core with lastPack := x.f.slot }

/-- The address violates R71 as a place to stop at: no instruction can stand there. -/
def Iss.noUnit (x : Iss) (a : Word) : Bool :=
  match (x.s.unitAt x.f.core x.k a).1 with
  | .none_ _ => true
  | _ => false

/-- TOFF of form D, widened by a CTL hint (03 R75). -/
def brdTarget (hs : List Word) (t : BitVec 10) : Word :=
  match hintOf hs 4 with
  | some c => offsetOf 19 (c / 1024 % 512 * 1024 + t.toNat)
  | none => offsetOf 10 t.toNat

/-- ROFF of form D, widened by a CTL hint (03 R75). -/
def brdJoin (hs : List Word) (r : BitVec 9) : Nat :=
  match hintOf hs 4 with
  | some c => c % 1024 * 512 + r.toNat
  | none => r.toNat

/-- BRD (R107, R109). -/
def execBrd (p : PReg) (t : BitVec 10) (r : BitVec 9) (s : State) : Out :=
  issueU s "BRD" [] fun x =>
    let target := x.f.addr + brdTarget x.sp.hints t
    let roff := brdJoin x.sp.hints r
    let join := x.f.addr + BitVec.ofNat 32 roff
    if roff = 0 || x.noUnit join then x.illop (if x.f.dslot = 0 then 7 else 6)
    else
      let taken := x.live &&& x.k.pred p
      let rest := x.live &&& ~~~(x.k.pred p)
      if rest = 0 then x.branch target
      else if taken = 0 then x.done x.k x.sp
      else
        match x.s.takeEntries x.f.core x.f.slot x.k x.sp.id 2 with
        | .error n => x.raise x.live 0x06 (splitovfWord n (x.s.header x.k).spill)
        | .ok (s, k, spilled) =>
          .next (divide (x.served s) x.f.core x.f.slot ((k.started).capture x.f.addr target) x.parent join spilled
            [(taken, target), (rest, x.f.next)])

/-- CALL (R110): the link goes to the live lanes. -/
def execCall (d : VReg) (i : BitVec 8) (s : State) : Out :=
  issueU s "CALL" [wrV 0 d] fun x =>
    let r := writeV x.k x.sp d x.live fun _ => x.f.next
    .next (x.retireTo r.1 r.2 (x.f.addr + immS x.sp.hints i))

/-- JMPI, also written `ret` (R111). -/
def execJmpi (a : VReg) (s : State) : Out :=
  issueU s "JMPI" [rdV 1 a] fun x =>
    let t := x.v a (lowLane x.live)
    let others := (lanesOf x.live).filter fun i => x.v a i != t
    match others with
    | [] => .next (x.retireTo x.k x.sp t)
    | i :: r => x.raise x.live 0x09 (memWord ((x.v a i).setWidth 64) i 0 .lane false false r.length).toNat

/-- A call table entry: target, N, M, A (03 R88). -/
structure CallEntry where
  target : Word
  n : Nat
  m : Nat
  acc : Nat

/-- Bytes of the image as the core reads them from a virtual address up, with the state after the walks (16 R345, R348). -/
def State.imageBytes (s : State) (core : Nat) (k : Pack) (va : DWord) : Nat → State × Except (XErr × DWord) (List Byte)
  | 0 => (s, .ok [])
  | n + 1 =>
    match s.reach core false k.ctx va .load with
    | (t, .error e) => (t, .error (e, va))
    | (t, .ok (pa, _, good)) =>
      if !good then (t, .error (.perm, va))
      else if !inDevice pa 1 then (t, .error (.addr, va))
      else if t.lostDram pa then (t, .error (.ecc pa, va))
      else
        let r := t.imageBytes core k (va + 1) n
        (r.1, r.2.map fun b => t.mem.get pa :: b)

/-- Read the entries of the kernel's call table with these indices (03 R88, 04 R112). -/
def State.callEntries (s : State) (core : Nat) (k : Pack) : List Nat → State × Except (XErr × DWord) (List CallEntry)
  | [] => (s, .ok [])
  | x :: xs =>
    match s.imageBytes core k (s.imageOf k + BitVec.ofNat 64 ((s.header k).callOff + 8 * x)) 8 with
    | (t, .error e) => (t, .error e)
    | (t, .ok b) =>
      let e : CallEntry := { target := BitVec.ofNat 32 (natLE (b.take 4)), n := (b.getD 4 0).toNat, m := (b.getD 5 0).toNat
                             acc := (b.getD 6 0).toNat }
      let r := t.callEntries core k xs
      (r.1, r.2.map fun es => e :: es)

/-- The entry fits the pack's allocation (04 R112). -/
def CallEntry.fits (e : CallEntry) (k : Pack) : Bool := decide (e.n ≤ k.nv) && decide (e.m ≤ k.ng) && decide (e.acc ≤ k.na)

/-- REGBUDGET's cause word: the index and the target (08 R232). -/
def regbudgetWord (x : Nat) (e : CallEntry) : Nat := x + e.target.toNat * 2 ^ 32

/-- The child of one group of a `calli` that divides: it goes to its function, with the link in its window where the link
is ephemeral, or stays at the `calli` with a REGBUDGET to take, its link unchanged (R112). -/
def Iss.calliChild (x : Iss) (d : VReg) (groups : List (Mask × Nat × CallEntry)) (c : Split) : Split :=
  match groups.find? fun g => g.1 == c.mask with
  | none => c
  | some (m, n, e) =>
    if !e.fits x.k then
      { c with
        pc := x.at_, status := .ready
        pending := some { x.trap m 0x04 (regbudgetWord n e) with mask := m } }
    else if d.toNat < 120 then c
    else { c with win := { reg := d.toNat - 120, age := 1, vals := (lanesOf m).foldl (fun v i => Words.set v i x.f.next) [] } ::
                    c.win.filter fun e => e.reg != d.toNat - 120 }

/-- CALLI (R112). An entry of the call table that cannot be translated or read raises the translation's cause for the split (log entry
76). -/
def execCalli (d a : VReg) (s : State) : Out :=
  issueU s "CALLI" [wrV 0 d, rdV 1 a] fun x =>
    let h := x.s.header x.k
    let lanes := lanesOf x.live
    match lanes.find? fun i => decide (h.callCount ≤ (x.v a i).toNat) with
    | some i => x.raise x.live 0x08 (handleWord 0x1B (lane := i) (value := (x.v a i).toNat))
    | none =>
      let xs := sortNats (lanes.map fun i => (x.v a i).toNat)
      match x.s.callEntries x.f.core x.k xs with
      | (t, .error (e, va)) => ({ x with s := t } : Iss).accessFault x.live e (memWord va 0 0 .lane false false 0)
      | (t, .ok es) =>
        let x := { x with s := t }
        match xs, es with
        | [n], [e] =>
          if e.fits x.k then
            let r := writeV x.k x.sp d x.live fun _ => x.f.next
            .next (x.retireTo r.1 r.2 e.target)
          else x.raise x.live 0x04 (regbudgetWord n e)
        | _, _ =>
          match x.s.takeEntries x.f.core x.f.slot x.k x.sp.id xs.length with
          | .error n => x.raise x.live 0x06 (splitovfWord n h.spill)
          | .ok (s, k, spilled) =>
            let groups := (xs.zip es).map fun p => (x.live &&& maskWhere fun i => (x.v a i).toNat == p.1, p.1, p.2)
            let linked := groups.foldl (fun m g => if g.2.2.fits x.k then m ||| g.1 else m) 0
            let k := if d.toNat < 120 then k.setLanes d.toNat linked fun _ => x.f.next else k
            .next (divide (x.served s) x.f.core x.f.slot k.started x.parent x.f.next spilled
              (groups.map fun p => (p.1, p.2.2.target)) (x.calliChild d groups))

/-- REGANG (R113): a root split that is the pack's only split passes with an empty window; another stops. -/
def execRegang (s : State) : Out :=
  issueU s "REGANG" [] fun x =>
    if x.sp.parent.isNone && x.k.splits.length == 1 then x.done x.k { x.sp with win := [] }
    else
      let sp := { x.sp.clean with win := [], pc := x.f.next, status := .stoppedRegang, stamp := x.s.clock }
      .next (x.served { x.put x.k.started sp with clock := x.s.clock + 1 })

/-- NOP (R115): one issue slot and one place in the window. -/
def execNop (g : PReg) (s : State) : Out := issue s "NOP" g [] fun x _ => x.done x.k x.sp

/-- The four counters are within the bounds of a `wait` (R117). -/
def Pack.within (k : Pack) (ld st cp tl : Nat) : Bool :=
  decide (k.counter .ld ≤ ld) && decide (k.counter .st ≤ st) && decide (k.counter .cp ≤ cp) && decide (k.counter .tl ≤ tl)

/-- WAIT (R117): continues at once when the counters are within its bounds, else stalls until WAIT_SATISFIED. -/
def execWait (l s c : BitVec 6) (t : BitVec 4) (st : State) : Out :=
  issueU st "WAIT" [] fun x =>
    if x.k.within l.toNat s.toNat c.toNat t.toNat then x.done x.k x.sp
    else x.stallAt (.wait l.toNat s.toNat c.toNat t.toNat)

end Sys2Proof.Machine
end

