-- ==== Sys2Proof/Machine/Schedule.lean ====
section
/-!
DEFINITION. The order of packs and splits on a core that does not depend on what a stalled instruction waits for: the rotation of normal
mode (09 R241), the cyclic order of deterministic mode (09 R253), and the turn of a deterministic core's current split (09 R252).
-/

namespace Sys2Proof.Machine

/-- The core runs packs of deterministic kernels (09 R251). -/
def State.detCore (s : State) (c : Nat) : Bool := (s.core c).packs.any fun p => (s.header p.2).det

/-- The key by which a deterministic core's packs follow one another: group, logical pack, and among packs of two launches that agree in both
the slot (09 R253) (log entry 71). -/
def packKey (p : Nat × Pack) : Nat := (p.2.group * 2 ^ 16 + p.2.lpack) * 16 + p.1

/-- The resident packs of a core in ascending order of (group, pack), started after the key `from_`, cyclically (09 R253). -/
def Core.cyclic (c : Core) (from_ : Nat) : List (Nat × Pack) :=
  let l := sortBy packKey c.packs
  (l.filter fun p => decide (from_ < packKey p)) ++ l.filter fun p => decide (packKey p ≤ from_)

/-- The packs of a core in rotation, starting after a slot (09 R241). -/
def Core.rotation (c : Core) (last : Nat) : List (Nat × Pack) :=
  c.packs.filter (fun p => decide (last < p.1)) ++ c.packs.filter fun p => decide (p.1 ≤ last)

/-- The split goes on being current: it has not stopped, and does not block at a switch point (09 R252). -/
def Split.keepsTurn (sp : Split) : Bool := sp.status == .ready && !sp.stall.elim false Stall.switchPoint

/-- The pack with no current split where that split has ended its turn (09 R252). -/
def Pack.settleTurn (k : Pack) : Pack :=
  { k with cur := k.cur.filter fun i => (k.split i).elim false Split.keepsTurn }

/-- Every turn that has ended is given up (09 R252). -/
def State.giveUpTurns (s : State) : State :=
  { s with cores := s.cores.map fun e => (e.1, { e.2 with packs := e.2.packs.map fun p => (p.1, p.2.settleTurn) }) }

end Sys2Proof.Machine
end

