-- ==== Sys2Proof/Machine/SplitEvents.lean ====
section
/-!
DEFINITION. What the hardware does to splits of its own accord: trap entry, resumption at reconvergence, re-gang release,
refill, and the end of a `wait`.
-/

namespace Sys2Proof.Machine

/-- An event that acts on a split of a resident pack. -/
def onSplit (mn : String) (s : State) (core slot split : Nat) (f : Pack → Split → Option State) : Out :=
  match s.pack core slot with
  | none => .refused (.notEnabled mn)
  | some k =>
    match (k.split split).bind (f k) with
    | none => .refused (.notEnabled mn)
    | some t => .next t

/-- An event that carries out what a split is stalled at (log entry 42). -/
def onStall (mn : String) (s : State) (core slot split : Nat) (f : Iss → Stall → Option Out) : Out :=
  match s.stalled core slot split with
  | none => .refused (.notEnabled mn)
  | some x =>
    match x.sp.stall.bind (f x) with
    | none => .refused (.notEnabled mn)
    | some o => o

/-- TRAP_ENTRY (08 R233): a raised trap is taken once the split's earlier operations are complete (log entry 12). -/
def execTrapEntry (core slot split : Nat) (s : State) : Out :=
  onSplit "TRAP_ENTRY" s core slot split fun k sp =>
    match sp.pending with
    | some r => if k.busyFor (k.live sp) || sp.spill.isSome then none else some (s.takeTrap core slot k sp r)
    | none => none

/-- RECONVERGENCE_RESUME (04 R108): the split is the waiting parent, resident (09 R244). -/
def execReconvergenceResume (core slot split : Nat) (s : State) : Out :=
  onSplit "RECONVERGENCE_RESUME" s core slot split fun k sp =>
    if k.resumable split && sp.spill.isNone then
      some { s.setPack core slot (k.resumeParent split s.clock) with clock := s.clock + 1 }
    else none

/-- REGANG_RELEASE (04 R113): the split is any stopped at the `regang`. -/
def execRegangRelease (core slot split : Nat) (s : State) : Out :=
  onSplit "REGANG_RELEASE" s core slot split fun k sp =>
    if k.familyStopped sp then some { s.setPack core slot (k.releaseRegang sp s.clock) with clock := s.clock + 1 } else none

/-- The spilled READY split standing first in the priority list is refilled first (09 R244). -/
def Pack.refillTurn (k : Pack) (sp : Split) : Bool :=
  match sp.status with
  | .ready => (k.order.find? fun i => (k.split i).elim false fun c => c.status == .ready && c.spill.isSome) == some sp.id
  | .waiting => k.resumable sp.id
  | _ => false

/-- Splits of the core's other packs that wait for a refill as this one does, with the key by which two that ask at once are served: the
lowest lane, then the slot (04 R118, 09 R258). -/
def State.refillRivals (s : State) (core slot : Nat) : List (Nat × Nat) :=
  (s.core core).packs.flatMap fun p =>
    if p.1 == slot then []
    else
      (p.2.splits.filter fun e =>
        e.2.spill.isSome && p.2.refillTurn e.2 && decide (0 < (s.core core).reachable p.1 p.2.entries)).map fun e =>
          (lowLane (p.2.live e.2) * 16 + p.1, p.2.entries)

/-- One entry remains for the pack, and a split of another pack that comes before it in the order of R258 would take it. -/
def State.outranked (s : State) (core slot : Nat) (k : Pack) (sp : Split) : Bool :=
  (s.core core).reachable slot k.entries == 1 &&
    (s.refillRivals core slot).any fun r => decide (4 ≤ r.2) && decide (r.1 < lowLane (k.live sp) * 16 + slot)

/-- SPLIT_REFILL (09 R244, R246): the split takes an entry, writing a victim to the record it empties where no entry is free; of splits of two
packs after one last entry the lower lane and then the lower slot is served (R258). A record that software has altered raises HANDLE 0x1D
(R246, R258) (log entry 36). -/
def execSplitRefill (core slot split : Nat) (s : State) : Out :=
  onSplit "SPLIT_REFILL" s core slot split fun k sp =>
    match sp.spill with
    | none => none
    | some r =>
      if !k.refillTurn sp || s.outranked core slot k sp then none
      else if s.mem.readList (k.spillAt + 1152 * r) 1152 != sp.spillImage then
        some (s.takeTrap core slot k sp
          { code := 0x08, info := BitVec.ofNat 128 (handleWord 0x1D), joint := false, slot := 0, epc := sp.pc, mask := k.live sp,
            active := k.live sp })
      else
        let k := k.setSplit { sp with spill := none, spillImage := [] }
        if 0 < (s.core core).reachable slot (k.entries - 1) then some (s.setPack core slot k)
        else
          match k.victims split with
          | [] => none
          | v :: _ =>
            let t := spillTo s k v r
            some (t.1.setPack core slot t.2)

/-- WAIT_SATISFIED (04 R117): the counters have come within the bounds. -/
def execWaitSatisfied (core slot split : Nat) (s : State) : Out :=
  onStall "WAIT_SATISFIED" s core slot split fun x st =>
    match st with
    | .wait ld stn cp tl => if x.k.within ld stn cp tl then some (x.done x.k x.sp) else none
    | _ => none

end Sys2Proof.Machine
end

