-- ==== Sys2Proof/Machine/Mem.lean ====
section
/-!
DEFINITION. Shared memory operations (06 R141–R147, 11 R275–R287): the issue of an access with its checks, ordering gates and
outstanding counter; device and scratchpad bytes as lanes and engines read and write them; what an operation's completion
leaves behind.
-/

namespace Sys2Proof.Machine

/-! ### Ordering at issue -/

/-- The operation is a load, which LOAD_COMPLETION performs. -/
def OpKind.loads : OpKind → Bool
  | .load .. => true
  | .loadU .. => true
  | .poll .. => true
  | .loadS _ => true
  | _ => false

/-- A lane-path access of the split must wait for a fence (06 R162): any access behind `gateAll`, a writing one behind
`gateSt` (log entry 17). -/
def Pack.gated (k : Pack) (sp : Split) (writes : Bool) : Bool := k.openOps sp.gateAll || (writes && k.openOps sp.gateSt)

/-- A memory instruction waits while an access to a sequentially consistent page is outstanding (06 R147) (log entry 17). -/
def Pack.scBusy (k : Pack) : Bool := k.ops.any fun o => o.sc && !o.done

/-- The counter of a class cannot rise (04 R116). -/
def Pack.full (k : Pack) (c : OpClass) : Bool := decide (1023 ≤ k.counter c)

/-- The outstanding operations that are earlier ones for a split of these lanes (11 R278, R279). -/
def Pack.earlier (k : Pack) (lanes : Mask) : List Nat :=
  (k.ops.filter fun p => !p.done && (p.lineage &&& lanes) != 0).map (·.id)

/-- The pack with a new outstanding operation. -/
def Pack.addOp (k : Pack) (o : PendOp) : Pack :=
  { k with ops := k.ops ++ [{ o with id := k.nextOp, after := k.earlier o.lineage }], nextOp := k.nextOp + 1 }

/-- Drop the operations that have left their counter: done, with no earlier operation of their class still to be done (04
R116). -/
def retireOps : List PendOp → (blocked : List OpClass) → List PendOp
  | [], _ => []
  | o :: r, b => if b.contains o.cls || !o.done then o :: retireOps r (o.cls :: b) else retireOps r b

/-- The pack with an operation that no active lane takes part in: it is done at once, and leaves its counter in its turn (04 R116, 06
R141). -/
def Pack.addIdle (k : Pack) (o : PendOp) : Pack :=
  let k := k.addOp { o with done := true }
  { k with ops := retireOps k.ops [] }

/-- Replace an operation and let done ones leave. -/
def Pack.setOp (k : Pack) (o : PendOp) : Pack := { k with ops := retireOps (mapIf (fun p => p.id == o.id) (fun _ => o) k.ops) [] }

/-! ### Issue -/

/-- One lane's request: the lane, its virtual address, and what it carries. -/
structure Req where
  lane : Nat
  va : DWord
  data : Nat := 0
  aux : Nat := 0
  deriving DecidableEq, Repr

/-- Check and translate requests in order; what their walks did stays, also where a check fails (06 R144, 16 R349). -/
def State.checkAll (s : State) (core : Nat) (ctx : Nat) (path : Path) (size align : Nat) (use : Use) :
    List Req → State × List (Req × Except XErr (Nat × Nat))
  | [] => (s, [])
  | r :: rest =>
    match s.access core false ctx path r.va size align use with
    | .ok x =>
      let t := x.s.checkAll core ctx path size align use rest
      (t.1, (r, .ok (x.pa, x.attr)) :: t.2)
    | .error e =>
      let t := (s.afterAccess core false ctx path r.va size align use).checkAll core ctx path size align use rest
      (t.1, (r, .error e) :: t.2)

/-- The requests that failed, with their errors. -/
def failures (l : List (Req × Except XErr (Nat × Nat))) : List (Req × XErr) :=
  l.filterMap fun p => match p.2 with
    | .error e => some (p.1, e)
    | .ok _ => none

/-- The lane parts of requests that passed. -/
def laneAccs (l : List (Req × Except XErr (Nat × Nat))) : List LaneAcc :=
  l.filterMap fun p => match p.2 with
    | .ok (pa, attr) => some { lane := p.1.lane, pa := pa, data := p.1.data, aux := p.1.aux, attr := attr }
    | .error _ => none

/-- Raise the trap of a memory instruction whose lanes failed: the first failing check of the lowest failing lane, with the
number of other failing lanes (06 R144, R145). -/
def Iss.memTrap (x : Iss) (act : Mask) (path : Path) (write : Bool) (elem : Nat) (partialStore : Bool)
    (fs : List (Req × XErr)) : Out :=
  match fs with
  | [] => .next x.s
  | (r, e) :: rest =>
    x.accessFault act e (memWord r.va r.lane elem path write partialStore rest.length)

/-- An access of a memory instruction: how it is counted, checked and ordered. -/
structure Acc where
  cls : OpClass
  path : Path := .lane
  use : Use
  size : Nat
  align : Nat
  kind : OpKind

/-- The instruction waits before issuing: its counter is full, a fence or a sequentially consistent access is ahead (04 R116,
06 R147, R162) (log entry 14). -/
def Iss.mustWait (x : Iss) (a : Acc) : Bool :=
  x.k.full a.cls || x.k.scBusy || (a.path == .lane && x.k.gated x.sp a.use.writes)

/-- The outstanding operation an access leaves. -/
def Iss.pend (x : Iss) (a : Acc) (lanes : List LaneAcc) : PendOp :=
  { id := 0, cls := a.cls, path := a.path, lineage := x.live, split := x.sp.id, kind := a.kind, lanes := lanes
    sc := a.path == .lane && lanes.any fun l => bit l.attr 0, pol := (hintOf x.sp.hints 3).getD 0, stamp := x.s.clock }

/-- A payload of a pack's broadcast stores is in flight (11 R289). -/
def State.payloadOf (s : State) (k : Pack) : Bool :=
  s.inflight.any fun b => b.tag == k.tag && b.group == k.group && b.lpack == k.lpack

/-- An earlier memory instruction of the pack is still to be performed, on whatever path: a sequentially consistent access waits (06 R147, 11
R284). -/
def Iss.unperformed (x : Iss) : Bool := x.k.ops.any (!·.done) || x.s.payloadOf x.k

/-- Issue a memory access for the active lanes: a wait where ordering or its counter asks for one; a trap where a lane fails; otherwise an
outstanding operation, which with no active lane is done at once (R141). `hold` makes the split wait for the operation (06 R152) (log
entries 15, 43). -/
def Iss.access (x : Iss) (act : Mask) (a : Acc) (reqs : List Req) (hold : Bool := false) : Out :=
  let issued := if a.use.writes then x.commit else x
  if x.mustWait a then .next x.s
  else if reqs.isEmpty then issued.done (x.k.addIdle (x.pend a [])) x.sp
  else
    let t := x.s.checkAll x.f.core x.k.ctx a.path a.size a.align a.use reqs
    match failures t.2 with
    | [] =>
      let op := x.pend a (laneAccs t.2)
      if op.sc && x.unperformed then .next x.s
      else
        let x := { x with s := t.1 }
        let x := if a.use.writes then x.commit else x
        x.done (x.k.addOp op) (if hold then { x.sp with await := some x.k.nextOp } else x.sp)
    | fs => ({ x with s := t.1 } : Iss).memTrap act a.path a.use.writes 0 false fs

/-- Issue an access that touches the scratchpad only; addresses are core scratchpad bytes already checked (06 R164). -/
def Iss.scratch (x : Iss) (cls : OpClass) (kind : OpKind) (writes : Bool) (lanes : List LaneAcc) : Out :=
  let op : PendOp := { id := 0, cls := cls, path := .lane, lineage := x.live, split := x.sp.id, kind := kind, lanes := lanes
                       stamp := x.s.clock }
  if x.k.full cls || x.k.scBusy || x.k.gated x.sp writes then .next x.s
  else if lanes.isEmpty then x.done (x.k.addIdle op) x.sp
  else x.done (x.k.addOp op) x.sp

/-! ### Bytes of device memory -/

/-- A device write through a granule whose attribute byte was met with ARMED = 1 first bumps WVER and clears ARMED (16 R354). -/
def State.disturb (s : State) (ctx pa attr : Nat) : State :=
  if !bit attr 1 then s
  else
    match (s.context ctx).bind fun c => attrAt c.attrMap pa with
    | none => s
    | some a =>
      let b := (s.mem.get a).toNat
      s.outsideWrite a (bytesLE 1 ((b / 16 + 1) % 16 * 16 + b % 16 - (if bit b 1 then 2 else 0)))

/-- A core writes the low `n` bytes of `v` at the point of coherence (16 R352, R354). -/
def State.devWrite (s : State) (core ctx pa n v attr : Nat) (pol : Nat := 0) : State :=
  ((s.disturb ctx pa attr).cacheWrite core pol (pa / 128)).physWrite pa n v

/-- The writer of a pack's engine writes on a path. -/
def Pack.writer (k : Pack) (path : Path) (core : Nat) : Writer :=
  { path := path, tag := k.tag, group := k.group, core := core, lpack := k.lpack }

/-- An engine path writes bytes for a pack under a CACHE hint; they are not lane-visible yet (11 R285) (log entry 16). -/
def State.engineWrite (s : State) (path : Path) (k : Pack) (core pa attr : Nat) (bs : List Byte) (pol : Nat := 0) : State :=
  let s := (lines128 pa bs.length).foldl (fun s l => (s.cacheWrite core pol l).dropL1 (clusterOf core) l) s
  (s.disturb k.ctx pa attr).physWriteList pa bs (some (k.writer path core))

/-- The writes of one byte from write `c` on, in coherence order. -/
def State.writesFrom (s : State) (pa c : Nat) : List StaleByte := s.stale.filter fun b => b.pa == pa && decide (c ≤ b.serial)

/-- The byte has an engine write from write `c` on that is not lane-visible. -/
def State.hiddenFrom (s : State) (pa c : Nat) : Bool := (s.writesFrom pa c).any (·.writer.isSome)

/-- The writes that a lane-path read of `n` bytes may miss with all that follow them, newest first: an engine write not yet lane-visible hides
what it and the writes before it replaced, nothing is missed that the split has read, and no write of which the read finds one byte is missed at
another (06 R148, R174, 11 R276, R285) (log entry 16). -/
def State.cuts (s : State) (seen : Table Nat) (pa n : Nat) : List Nat :=
  let cs := ((s.stale.filter fun b => decide (pa ≤ b.pa) && decide (b.pa < pa + n)).map (·.serial)).eraseDups.reverse
  cs.filter fun c =>
    let hid := (List.range n).filter fun j => s.hiddenFrom (pa + j) c
    let later := s.stale.filter fun b => decide (pa ≤ b.pa) && decide (b.pa < pa + n) && decide (c ≤ b.serial)
    let missed := (later.filter fun b => hid.contains (b.pa - pa)).map (·.serial)
    !hid.isEmpty && (hid.all fun j => decide (seen.getD (pa + j) 0 < c)) &&
      later.all fun b => hid.contains (b.pa - pa) || !missed.contains b.serial

/-- A byte as a lane-path read finds it that misses write `c` and what follows: the present one where nothing hides it. -/
def State.laneByte (s : State) (c : Option Nat) (pa : Nat) : Byte :=
  match (c.filter (s.hiddenFrom pa)).bind fun n => (s.writesFrom pa n).head? with
  | some b => b.old
  | none => if inSett pa 1 then s.settByte (pa - settBase) else s.mem.get pa

/-- The last write of a byte that such a read has read, 0 for none. -/
def State.lastRead (s : State) (c : Option Nat) (pa : Nat) : Nat :=
  let bound := c.filter (s.hiddenFrom pa)
  ((s.stale.filter fun b => b.pa == pa && bound.all fun n => decide (b.serial < n)).getLast?.map (·.serial)).getD 0

/-- What a split has seen after such a read of `n` bytes. -/
def State.seeBytes (s : State) (c : Option Nat) (seen : Table Nat) (pa n : Nat) : Table Nat :=
  (List.range n).foldl (fun t j =>
    let m := s.lastRead c (pa + j)
    if t.getD (pa + j) 0 < m then t.put (pa + j) m else t) seen

/-- A lane-path read of `n` bytes, and what the split has then seen: the present bytes for age 0, else those that one of the writes it may
miss, `age` counted from the newest, replaced. All bytes stand at one point of coherence order (06 R148) (log entry 16). -/
def State.laneRead (s : State) (seen : Table Nat) (age pa n : Nat) : Nat × Table Nat :=
  let c := ((s.cuts seen pa n).take age).getLast?
  (readFn (s.laneByte c) pa n, s.seeBytes c seen pa n)

/-- The split has read, or written, the bytes as they now stand (11 R276). -/
def State.seeOwn (s : State) (seen : Table Nat) (pa n : Nat) : Table Nat := s.seeBytes none seen pa n

/-! ### The scratchpad (06 R164, 10 R259) -/

/-- The bank of a scratchpad unit of 4 KiB (10 R259). -/
def bankOfUnit (u : Nat) : Nat := u / 16

/-- Fields of a handle (01 R20). -/
def hBase (h : Word) : Nat := cut h.toNat 0 8
def hLen (h : Word) : Nat := cut h.toNat 8 8
def hKind (h : Word) : Nat := cut h.toNat 16 4
def hPlanes (h : Word) : Nat := cut h.toNat 20 5

/-- A handle passes the check of 01 R21 for the kinds an instruction accepts. -/
def Core.handleOk (c : Core) (h : Word) (kinds : List Nat) : Bool :=
  kinds.contains (hKind h) && decide (1 ≤ hKind h) && decide (hKind h ≤ 3) && decide (hBase h + hLen h ≤ 255) &&
    (if hKind h == 2 then decide (2 ≤ hPlanes h) && decide (hPlanes h ≤ 20) else hPlanes h == 0) && cut h.toNat 25 7 == 0 &&
    (List.range (hLen h + 1)).all fun j => c.bank (bankOfUnit (hBase h + j)) == .pad

/-- The first scratchpad byte of a region. -/
def hByte (h : Word) : Nat := hBase h * 4096

/-- The bytes of a region. -/
def hBytes (h : Word) : Nat := (hLen h + 1) * 4096

/-! ### Completion -/

/-- Where an operation's lane parts lie: none for kinds that are not lane accesses; else scratchpad or not, and the size. -/
def OpKind.space : OpKind → Option (Bool × Nat)
  | .load _ n _ => some (false, n)
  | .loadU _ n => some (false, n)
  | .store n => some (false, n)
  | .atomic fn _ => some (false, if fn = 11 || fn = 12 then 8 else 4)
  | .poll _ n => some (false, n)
  | .loadS _ => some (true, 4)
  | .storeS => some (true, 4)
  | .stream .. => some (false, 4)
  | _ => none

/-- An earlier lane-path access of the issuing split to overlapping bytes is still to be performed (06 R146, 11 R278). -/
def Pack.blockedBy (k : Pack) (o : PendOp) (l : LaneAcc) : Bool :=
  match o.kind.space with
  | none => false
  | some (sc, n) =>
    o.path == .lane && k.ops.any fun p =>
      !p.done && p.path == .lane && o.after.contains p.id &&
        match p.kind.space with
        | some (sc', m) => sc == sc' && p.lanes.any fun q => !q.done && overlap q.pa m l.pa n
        | none => false

/-- The lane may be performed beside the operation's others on the same bytes: those of a load read one value together (06
R148); those of a store or atomic go in ascending order (06 R148, R151). -/
def PendOp.laneOrder (o : PendOp) (lanes : Mask) (l : LaneAcc) : Bool :=
  match o.kind.space with
  | none => true
  | some (_, n) =>
    o.lanes.all fun q =>
      (!o.kind.loads && (decide (l.lane ≤ q.lane) || q.done)) || lanes.getLsbD q.lane || !overlap q.pa n l.pa n

/-- The lanes of an operation that an event may perform now (log entry 15). -/
def PendOp.picked (o : PendOp) (lanes : Mask) : List LaneAcc := o.lanes.filter fun l => lanes.getLsbD l.lane && !l.done

/-- The scratchpad bytes an operation still has to read or write, as (first, count). -/
def PendOp.padSpans (o : PendOp) : List (Nat × Nat) :=
  match o.kind with
  | .copy _ _ _ base n _ _ => [(base, n)]
  | .tload _ _ base _ _ _ _ size _ => [(base, size)]
  | .tstore base n _ => [(base, n)]
  | .acc fn _ _ base => if fn = 3 || fn = 4 then [(base, 4096)] else []
  | .tile spans .. => spans
  | _ =>
    match o.kind.space with
    | some (true, n) => (o.lanes.filter (!·.done)).map fun l => (l.pa, n)
    | _ => []

/-- On a deterministic core, accesses to the same scratchpad bytes take effect in the order they issued, whatever split, pack or unit makes them,
so that what is read depends on the program alone (09 R254) (log entry 91). -/
def State.detHeld (s : State) (core : Nat) (o : PendOp) : Bool :=
  s.detCore core && (s.core core).packs.any fun p => p.2.ops.any fun q =>
    !q.done && decide (q.stamp < o.stamp) && q.padSpans.any fun a => o.padSpans.any fun b => overlap a.1 a.2 b.1 b.2

/-- The event may perform these lanes: there is one, none is held behind an earlier access, and lanes on the same bytes go in
order (log entry 15). -/
def Pack.mayPerform (k : Pack) (o : PendOp) (lanes : Mask) : Bool :=
  !o.done && !(o.picked lanes).isEmpty && (o.picked lanes).all fun l => !k.blockedBy o l && o.laneOrder lanes l

/-- Mark the lanes performed; the operation is done when all are. -/
def PendOp.perform (o : PendOp) (f : LaneAcc → LaneAcc) (lanes : Mask) : PendOp :=
  let ls := o.lanes.map fun l => if lanes.getLsbD l.lane && !l.done then { f l with done := true } else l
  { o with lanes := ls, done := ls.all (·.done) }

/-- Write a loaded value of `n` bytes to lane `i` of the registers from `d`; an exited lane discards it (04 R114). -/
def Pack.putLoaded (k : Pack) (d i n v : Nat) (sext : Bool) : Pack :=
  if k.exited.getLsbD i then k
  else
    let v := if sext then wrap 32 (signedOf (8 * n) v) else v
    (List.range ((n + 3) / 4)).foldl (fun k j => k.setV (d + j) i (BitVec.ofNat 32 (v / 2 ^ (32 * j)))) k

/-- The event names an operation that is not outstanding, or is of another kind (log entry 15). -/
def withOp (mn : String) (s : State) (core slot op : Nat) (f : Pack → PendOp → Option State) : Out :=
  match s.pack core slot with
  | none => .refused (.notEnabled mn)
  | some k =>
    match (k.ops.find? fun o => o.id == op).bind (f k) with
    | none => .refused (.notEnabled mn)
    | some t => .next t

/-- An operation is performed on behalf of the splits it is an earlier one for, but for waiting parents (11 R276, R279). -/
def PendOp.actsFor (o : PendOp) (sp : Split) : Bool := sp.status != .waiting && (sp.mask &&& o.lineage) != 0

end Sys2Proof.Machine
end

