-- ==== Sys2Proof/Machine/Alu.lean ====
section
/-!
DEFINITION. Integer arithmetic on 32-bit values: the results of 04 R96–R101, each written once for the vector and the uniform
instruction.
-/

namespace Sys2Proof.Machine

/-- Clamp to the signed 32-bit range (04 R96). -/
def sat32 (x : Int) : Word :=
  if x < -(2 ^ 31) then 0x80000000 else if 2 ^ 31 - 1 < x then 0x7FFFFFFF else BitVec.ofInt 32 x

/-- The shift amount b[7:0] (04 R96). -/
def shAmt (b : Word) : Nat := b.toNat % 256

namespace Alu

/-- `adds`: signed saturating add. -/
def adds (a b : Word) : Word := sat32 (a.toInt + b.toInt)
/-- `subs`: signed saturating subtract. -/
def subs (a b : Word) : Word := sat32 (a.toInt - b.toInt)
/-- `mulh`: bits [63:32] of the signed product. -/
def mulh (a b : Word) : Word := BitVec.ofInt 32 (a.toInt * b.toInt / 2 ^ 32)
/-- `mulhu`: bits [63:32] of the unsigned product. -/
def mulhu (a b : Word) : Word := BitVec.ofNat 32 (a.toNat * b.toNat / 2 ^ 32)
/-- `min`. -/
def mins (a b : Word) : Word := if a.toInt ≤ b.toInt then a else b
/-- `minu`. -/
def minu (a b : Word) : Word := if a.toNat ≤ b.toNat then a else b
/-- `max`. -/
def maxs (a b : Word) : Word := if b.toInt ≤ a.toInt then a else b
/-- `maxu`. -/
def maxu (a b : Word) : Word := if b.toNat ≤ a.toNat then a else b
/-- `andn`. -/
def andn (a b : Word) : Word := a &&& ~~~b
/-- `shl`. -/
def shl (a b : Word) : Word := if 32 ≤ shAmt b then 0 else a <<< shAmt b
/-- `shr`. -/
def shr (a b : Word) : Word := if 32 ≤ shAmt b then 0 else a >>> shAmt b
/-- `sra`. -/
def sra (a b : Word) : Word := a.sshiftRight (min (shAmt b) 31)
/-- `rotl`. -/
def rotl (a b : Word) : Word := a.rotateLeft (b.toNat % 32)

/-- The field length of R97: never past bit 31. -/
def bfLen (b : Word) : Nat := min (cut b.toNat 8 6) (32 - b.toNat % 32)
/-- The field mask of R97. -/
def bfMask (b : Word) : Word := BitVec.ofNat 32 ((2 ^ bfLen b - 1) * 2 ^ (b.toNat % 32))
/-- `bfe`: the field, zero-extended (04 R97). -/
def bfe (a b : Word) : Word := (a &&& bfMask b) >>> (b.toNat % 32)
/-- `bfes`: the field, sign-extended (04 R97). -/
def bfes (a b : Word) : Word := if bfLen b = 0 then 0 else BitVec.ofInt 32 (signedOf (bfLen b) (bfe a b).toNat)
/-- `bfi`: the field inserted into `d` (04 R97). -/
def bfi (d a b : Word) : Word := (d &&& ~~~bfMask b) ||| ((a <<< (b.toNat % 32)) &&& bfMask b)

/-- `abs`; −2^31 yields itself (04 R98). -/
def abs (a : Word) : Word := if a.toInt < 0 then -a else a
/-- `sext8`. -/
def sext8 (a : Word) : Word := (a.extractLsb' 0 8).signExtend 32
/-- `sext16`. -/
def sext16 (a : Word) : Word := (a.extractLsb' 0 16).signExtend 32

/-- A condition code on two words (04 R101). -/
def cond (cc : BitVec 4) (a b : Word) : Bool :=
  match cc.toNat with
  | 0 => a == b
  | 1 => a != b
  | 2 => decide (a.toInt < b.toInt)
  | 3 => decide (a.toInt ≤ b.toInt)
  | 4 => decide (b.toInt < a.toInt)
  | 5 => decide (b.toInt ≤ a.toInt)
  | 6 => decide (a.toNat < b.toNat)
  | 7 => decide (a.toNat ≤ b.toNat)
  | 8 => decide (b.toNat < a.toNat)
  | 9 => decide (b.toNat ≤ a.toNat)
  | _ => (a &&& b) != 0

end Alu

/-- A vector instruction of two sources (04 R95). -/
def vec3 (mn : String) (f : Word → Word → Word) (g : PReg) (d a b : VReg) (s : State) : Out :=
  issue s mn g [wrV 0 d, rdV 1 a, rdV 2 b] fun x act => x.doneV d act fun i => f (x.v a i) (x.v b i)

/-- A uniform instruction of two sources (04 R95). -/
def uni3 (mn : String) (f : Word → Word → Word) (d a b : GReg) (s : State) : Out :=
  issueU s mn [wrG 0 d, rdG 1 a, rdG 2 b] fun x => x.doneG d (f (x.g a) (x.g b))

/-- A vector instruction of one source. -/
def vec2 (mn : String) (f : Word → Word) (g : PReg) (d a : VReg) (s : State) : Out :=
  issue s mn g [wrV 0 d, rdV 1 a] fun x act => x.doneV d act fun i => f (x.v a i)

/-- A uniform instruction of one source. -/
def uni2 (mn : String) (f : Word → Word) (d a : GReg) (s : State) : Out :=
  issueU s mn [wrG 0 d, rdG 1 a] fun x => x.doneG d (f (x.g a))

end Sys2Proof.Machine
end

