-- ==== Sys2Proof/Machine/FloatFormat.lean ====
section
/-!
DEFINITION. Number formats and rounding (02 R38–R54): values as exact dyadic numbers, the decoding of every format, the one
rounding function of the five directions, stochastic rounding, and conversion between formats and to integers.
-/

namespace Sys2Proof.Machine

/-- A floating value: NaN (signalling or quiet), infinity, or (−1)^neg × m × 2^e exactly. -/
inductive Fp where
  | nan (sig : Bool)
  | inf (neg : Bool)
  | fin (neg : Bool) (m : Nat) (e : Int)
  deriving DecidableEq, Repr

/-- A floating format (02 R41, R42): exponent and fraction widths, bias, whether it has a sign and infinities, the largest
finite magnitude's bits, and the default NaN's bits (none for FP4). -/
structure Fmt where
  ew : Nat
  mw : Nat
  bias : Nat
  signed : Bool := true
  inf : Bool
  max : Nat
  nan : Option Nat
  deriving DecidableEq, Repr

def Fmt.f32 : Fmt := { ew := 8, mw := 23, bias := 127, inf := true, max := 0x7F7FFFFF, nan := some 0x7FC00000 }
def Fmt.f16 : Fmt := { ew := 5, mw := 10, bias := 15, inf := true, max := 0x7BFF, nan := some 0x7E00 }
def Fmt.bf16 : Fmt := { ew := 8, mw := 7, bias := 127, inf := true, max := 0x7F7F, nan := some 0x7FC0 }
def Fmt.e4m3 : Fmt := { ew := 4, mw := 3, bias := 7, inf := false, max := 0x7E, nan := some 0x7F }
def Fmt.e5m2 : Fmt := { ew := 5, mw := 2, bias := 15, inf := true, max := 0x7B, nan := some 0x7E }
def Fmt.e2m1 : Fmt := { ew := 2, mw := 1, bias := 1, inf := false, max := 0x7, nan := none }
def Fmt.e3m5 : Fmt := { ew := 3, mw := 5, bias := 3, signed := false, inf := false, max := 0xFE, nan := some 0xFF }

/-- The sign bit's weight, 0 for an unsigned format. -/
def Fmt.signBit (f : Fmt) : Nat := if f.signed then 2 ^ (f.ew + f.mw) else 0

/-- The smallest exponent of a normal value (02 R41). -/
def Fmt.emin (f : Fmt) : Int := 1 - f.bias

/-- Decode a value (02 R41–R43): above `max` stand the infinity, where there is one, and the NaNs; a NaN whose top fraction
bit is 0 is signalling in the formats with infinities. -/
def Fmt.decode (f : Fmt) (x : Nat) : Fp :=
  let mag := x % 2 ^ (f.ew + f.mw)
  let neg := f.signed && bit x (f.ew + f.mw)
  if f.max < mag then
    if f.inf && mag == f.max + 1 then .inf neg else .nan (f.inf && !bit mag (f.mw - 1))
  else
    let e := mag / 2 ^ f.mw
    let m := mag % 2 ^ f.mw
    if e = 0 then .fin neg m (f.emin - f.mw) else .fin neg (2 ^ f.mw + m) ((e : Int) - f.bias - f.mw)

/-- The flags NV, DZ, OF, UF, NX as bits of a number (01 R33). -/
def fNV : Nat := 1
def fDZ : Nat := 2
def fOF : Nat := 4
def fUF : Nat := 8
def fNX : Nat := 16

/-- A result: its bits, and the flags raised. -/
structure FRes where
  bits : Nat
  flags : Nat
  deriving DecidableEq, Repr

/-- Whether a magnitude with quotient `n` and remainder `r` below 2^`sh` rounds up in direction `rm` (02 R52). -/
def roundsUp (rm : Nat) (neg : Bool) (n r sh : Nat) : Bool :=
  r != 0 && match rm with
    | 0 => decide (2 ^ sh < 2 * r) || (2 * r == 2 ^ sh && n % 2 == 1)
    | 1 => false
    | 2 => neg
    | 3 => !neg
    | _ => decide (2 ^ sh ≤ 2 * r)

/-- m × 2^e as a count of units 2^qe: the truncated count, the remainder and its width in bits. -/
def quant (m : Nat) (e qe : Int) : Nat × Nat × Nat :=
  if qe ≤ e then (m * 2 ^ (e - qe).toNat, 0, 0)
  else
    let sh := (qe - e).toNat
    (m / 2 ^ sh, m % 2 ^ sh, sh)

/-- Round m × 2^e to a count of units 2^qe. -/
def roundQ (rm : Nat) (neg : Bool) (m : Nat) (e qe : Int) : Nat :=
  let q := quant m e qe
  if roundsUp rm neg q.1 q.2.1 q.2.2 then q.1 + 1 else q.1

/-- The unit in the last place for m × 2^e, with the exponent unbounded below. -/
def Fmt.ulpFree (f : Fmt) (m : Nat) (e : Int) : Int := m.log2 + e - f.mw

/-- The unit in the last place for m × 2^e, bounded by the subnormals' (02 R41). -/
def Fmt.ulp (f : Fmt) (m : Nat) (e : Int) : Int := Max.max (f.ulpFree m e) (f.emin - f.mw)

/-- The magnitude bits of `n` units of 2^qe, unbounded above. -/
def Fmt.code (f : Fmt) (n : Nat) (qe : Int) : Nat :=
  if n < 2 ^ f.mw then n
  else (qe - (f.emin - f.mw)).toNat * 2 ^ f.mw + n

/-- Tiny after rounding with an unbounded exponent (02 R52). -/
def Fmt.tiny (f : Fmt) (rm : Nat) (neg : Bool) (m : Nat) (e : Int) : Bool :=
  let u := f.ulpFree m e
  let n := roundQ rm neg m e u
  decide ((n.log2 : Int) + u < f.emin)

/-- The overflow result's magnitude (02 R52): the infinity, or the largest finite value. -/
def Fmt.overflow (f : Fmt) (rm : Nat) (neg sat : Bool) : Nat :=
  if !f.inf || sat || rm == 1 || (rm == 2 && !neg) || (rm == 3 && neg) then f.max else f.max + 1

/-- Put a sign on a magnitude. -/
def Fmt.sign (f : Fmt) (neg : Bool) (mag : Nat) : Nat := if neg then mag + f.signBit else mag

/-- Round (−1)^neg × m × 2^e into a format (02 R52). -/
def Fmt.round (f : Fmt) (rm : Nat) (neg : Bool) (m : Nat) (e : Int) (sat : Bool := false) : FRes :=
  if m = 0 then { bits := f.sign neg 0, flags := 0 }
  else
    let qe := f.ulp m e
    let inexact := (quant m e qe).2.1 != 0
    let c := f.code (roundQ rm neg m e qe) qe
    if f.max < c then { bits := f.sign neg (f.overflow rm neg sat), flags := fOF + fNX }
    else
      { bits := f.sign neg c, flags := if inexact then fNX + (if f.tiny rm neg m e then fUF else 0) else 0 }

/-- Stochastic rounding with the random word `w` (02 R54). -/
def Fmt.stochastic (f : Fmt) (neg : Bool) (m : Nat) (e : Int) (w : Nat) : FRes :=
  if m = 0 then { bits := f.sign neg 0, flags := 0 }
  else
    let qe := f.ulp m e
    let q := quant m e qe
    if q.2.1 = 0 then
      let c := f.code q.1 qe
      if f.max < c then { bits := f.sign neg f.max, flags := fOF + fNX } else { bits := f.sign neg c, flags := 0 }
    else
      -- (x − lo) / (hi − lo): of the signed neighbours, the lower one is the larger magnitude when x is negative
      let num := if neg then 2 ^ q.2.2 - q.2.1 else q.2.1
      let frac := 2 ^ 32 * num / 2 ^ q.2.2
      let up := if w < frac then !neg else neg
      let c := f.code (if up then q.1 + 1 else q.1) qe
      let tiny := decide ((m.log2 : Int) + e < f.emin)
      let base := fNX + (if tiny then fUF else 0)
      if f.max < c then { bits := f.sign neg f.max, flags := base + fOF } else { bits := f.sign neg c, flags := base }

/-- The default NaN (02 R40); FP4 has none and takes +0. -/
def Fmt.nanBits (f : Fmt) : Nat := f.nan.getD 0

/-- NV for a signalling NaN. -/
def nvIf (c : Bool) : Nat := if c then fNV else 0

/-- Convert a value into a floating format (02 R53). -/
def Fmt.convert (f : Fmt) (rm : Nat) (sat : Bool) (x : Fp) : FRes :=
  match x with
  | .nan sig => { bits := f.nanBits, flags := nvIf (sig || f.nan.isNone) }
  | .inf neg =>
    if !f.signed then { bits := if neg then 0 else f.max, flags := fNV }
    else if f.inf && !sat then { bits := f.sign neg (f.max + 1), flags := 0 }
    else { bits := f.sign neg f.max, flags := fNV }
  | .fin neg m e =>
    if !f.signed && neg then { bits := 0, flags := nvIf (m != 0) } else f.round rm neg m e sat

/-- Convert a value into an integer of the range [lo, hi] (02 R53): rounded, then clamped. -/
def toInteger (rm : Nat) (lo hi : Int) (x : Fp) : Int × Nat :=
  match x with
  | .nan _ => (0, fNV)
  | .inf neg => (if neg then lo else hi, fNV)
  | .fin neg m e =>
    let n := roundQ rm neg m e 0
    let v : Int := if neg then -(n : Int) else n
    if v < lo then (lo, fNV) else if hi < v then (hi, fNV)
    else (v, if (quant m e 0).2.1 != 0 then fNX else 0)

/-- An exact integer as a value. -/
def ofInteger (x : Int) : Fp := .fin (decide (x < 0)) x.natAbs 0

/-- FP32 read from a word. -/
def f32Of (w : Word) : Fp := Fmt.f32.decode w.toNat

/-- Element `e` of a packed 16-bit pair (02 R44). -/
def half (w : Word) (e : Nat) : Nat := cut w.toNat (16 * e) 16

end Sys2Proof.Machine
end

