-- ==== Sys2Proof/Machine/FloatArith.lean ====
section
/-!
DEFINITION. Floating arithmetic on exact values, rounded once (02 R39, R40, R64): add, multiply, fused multiply-add, divide,
square root and their special cases (05 R124–R131), minimum, maximum, comparison and class.
-/

namespace Sys2Proof.Machine

/-- An exact value as a signed count of units 2^e. -/
def signedMant (neg : Bool) (m : Nat) : Int := if neg then -(m : Int) else m

/-- The exact sum of two finite values. -/
def exactAdd (n1 : Bool) (m1 : Nat) (e1 : Int) (n2 : Bool) (m2 : Nat) (e2 : Int) : Int × Int :=
  let e := min e1 e2
  (signedMant n1 (m1 * 2 ^ (e1 - e).toNat) + signedMant n2 (m2 * 2 ^ (e2 - e).toNat), e)

/-- Round a signed exact value; an exact zero takes the sign given. -/
def Fmt.roundInt (f : Fmt) (rm : Nat) (x e : Int) (zeroNeg : Bool) : FRes :=
  if x = 0 then { bits := f.sign zeroNeg 0, flags := 0 } else f.round rm (decide (x < 0)) x.natAbs e

/-- A NaN result with its flags. -/
def Fmt.nanRes (f : Fmt) (nv : Bool) : FRes := { bits := f.nanBits, flags := nvIf nv }

/-- An infinity. -/
def Fmt.infRes (f : Fmt) (neg : Bool) (flags : Nat := 0) : FRes := { bits := f.sign neg (f.max + 1), flags := flags }

/-- A zero. -/
def Fmt.zeroRes (f : Fmt) (neg : Bool) : FRes := { bits := f.sign neg 0, flags := 0 }

/-- The value is a signalling NaN. -/
def Fp.sig : Fp → Bool
  | .nan s => s
  | _ => false

/-- The value is a NaN. -/
def Fp.isNan : Fp → Bool
  | .nan _ => true
  | _ => false

/-- The sign, false for a NaN. -/
def Fp.neg : Fp → Bool
  | .nan _ => false
  | .inf n => n
  | .fin n _ _ => n

/-- The value with its sign inverted. -/
def Fp.flip : Fp → Fp
  | .nan s => .nan s
  | .inf n => .inf (!n)
  | .fin n m e => .fin (!n) m e

/-- The value is ±0. -/
def Fp.isZero : Fp → Bool
  | .fin _ 0 _ => true
  | _ => false

/-- The sign of an exactly zero sum (02 R40): that of two zeros of one sign, else + but − toward −∞. -/
def zeroSign (rm : Nat) (a b : Bool) : Bool := if a == b then a else rm == 2

/-- a + b (05 R124). -/
def Fmt.add (f : Fmt) (rm : Nat) (a b : Fp) : FRes :=
  if a.isNan || b.isNan then f.nanRes (a.sig || b.sig)
  else
    match a, b with
    | .inf n, .inf k => if n == k then f.infRes n else f.nanRes true
    | .inf n, _ => f.infRes n
    | _, .inf k => f.infRes k
    | .fin n m e, .fin k q g =>
      let x := exactAdd n m e k q g
      f.roundInt rm x.1 x.2 (if m = 0 && q = 0 then zeroSign rm n k else rm == 2)
    | _, _ => f.nanRes false

/-- a × b (05 R124). -/
def Fmt.mul (f : Fmt) (rm : Nat) (a b : Fp) : FRes :=
  if a.isNan || b.isNan then f.nanRes (a.sig || b.sig)
  else
    match a, b with
    | .inf n, x => if x.isZero then f.nanRes true else f.infRes (n != x.neg)
    | x, .inf k => if x.isZero then f.nanRes true else f.infRes (k != x.neg)
    | .fin n m e, .fin k q g => f.round rm (n != k) (m * q) (e + g)
    | _, _ => f.nanRes false

/-- a × b + c, rounded once (05 R126). NV from 0 × ∞ even beside a quiet NaN. -/
def Fmt.fma (f : Fmt) (rm : Nat) (a b c : Fp) : FRes :=
  let isInf := fun x : Fp => match x with
    | .inf _ => true
    | _ => false
  let bad := (isInf a && b.isZero) || (isInf b && a.isZero)
  if a.isNan || b.isNan || c.isNan || bad then f.nanRes (a.sig || b.sig || c.sig || bad)
  else
    let s := a.neg != b.neg
    if isInf a || isInf b then
      match c with
      | .inf k => if k == s then f.infRes s else f.nanRes true
      | _ => f.infRes s
    else
      match a, b, c with
      | .fin _ m e, .fin _ q g, .fin k r h =>
        let x := exactAdd s (m * q) (e + g) k r h
        f.roundInt rm x.1 x.2 (if m * q = 0 && r = 0 then zeroSign rm s k else rm == 2)
      | _, _, .inf k => f.infRes k
      | _, _, _ => f.nanRes false

/-- A quotient m / q as an odd-or-exact dyadic: 96 extra bits and a sticky bit below them. -/
def quotient (m q : Nat) : Nat × Int :=
  let x := m * 2 ^ 96
  (2 * (x / q) + (if x % q = 0 then 0 else 1), -97)

/-- a / b (05 R124). -/
def Fmt.div (f : Fmt) (rm : Nat) (a b : Fp) : FRes :=
  if a.isNan || b.isNan then f.nanRes (a.sig || b.sig)
  else
    let s := a.neg != b.neg
    match a, b with
    | .inf _, .inf _ => f.nanRes true
    | .inf _, _ => f.infRes s
    | _, .inf _ => f.zeroRes s
    | .fin _ m e, .fin _ q g =>
      if q = 0 then if m = 0 then f.nanRes true else f.infRes s fDZ
      else
        let x := quotient m q
        f.round rm s x.1 (x.2 + e - g)
    | _, _ => f.nanRes false

/-- The integer square root by its bits, from bit `n` − 1 down. -/
def isqrtFrom (m : Nat) : Nat → Nat → Nat
  | 0, r => r
  | n + 1, r => if (r + 2 ^ n) * (r + 2 ^ n) ≤ m then isqrtFrom m n (r + 2 ^ n) else isqrtFrom m n r

/-- The integer square root. -/
def isqrt (m : Nat) : Nat := isqrtFrom m (m.log2 / 2 + 1) 0

/-- √(m × 2^e) as a dyadic with a sticky bit. -/
def sqrtDyadic (m : Nat) (e : Int) : Nat × Int :=
  let odd := e % 2 != 0
  let m := (if odd then 2 * m else m) * 2 ^ 128
  let e := (if odd then e - 1 else e) - 128
  let r := isqrt m
  (2 * r + (if r * r = m then 0 else 1), e / 2 - 1)

/-- 1 / √(m × 2^e) as a dyadic with a sticky bit. -/
def rsqrtDyadic (m : Nat) (e : Int) : Nat × Int :=
  let odd := e % 2 != 0
  let m := if odd then 2 * m else m
  let e := if odd then e - 1 else e
  let r := isqrt (2 ^ 192 / m)
  (2 * r + (if r * r * m = 2 ^ 192 then 0 else 1), -96 - e / 2 - 1)

/-- √a (05 R130). -/
def Fmt.sqrt (f : Fmt) (rm : Nat) (a : Fp) : FRes :=
  match a with
  | .nan s => f.nanRes s
  | .inf n => if n then f.nanRes true else f.infRes false
  | .fin n m e =>
    if m = 0 then f.zeroRes n
    else if n then f.nanRes true
    else
      let x := sqrtDyadic m e
      f.round rm false x.1 x.2

/-- 1 / √a (05 R130). -/
def Fmt.rsq (f : Fmt) (rm : Nat) (a : Fp) : FRes :=
  match a with
  | .nan s => f.nanRes s
  | .inf n => if n then f.nanRes true else f.zeroRes false
  | .fin n m e =>
    if m = 0 then f.infRes n fDZ
    else if n then f.nanRes true
    else
      let x := rsqrtDyadic m e
      f.round rm false x.1 x.2

/-- 1 / a (05 R130). -/
def Fmt.rcp (f : Fmt) (rm : Nat) (a : Fp) : FRes :=
  match a with
  | .nan s => f.nanRes s
  | .inf n => f.zeroRes n
  | .fin n m e =>
    if m = 0 then f.infRes n fDZ
    else
      let x := quotient 1 m
      f.round rm n x.1 (x.2 - e)

/-- a rounded to an integral value, raising no NX (05 R130). -/
def Fmt.rint (f : Fmt) (rm : Nat) (a : Fp) : FRes :=
  match a with
  | .nan s => f.nanRes s
  | .inf n => f.infRes n
  | .fin n m e => if 0 ≤ e then f.round 0 n m e else f.round 0 n (roundQ rm n m e 0) 0

/-- The order of two values that are not NaN: −1, 0 or 1. −0 equals +0 (05 R128). -/
def Fp.compare (a b : Fp) : Int :=
  match a, b with
  | .inf n, .inf k => if n == k then 0 else if n then -1 else 1
  | .inf n, _ => if n then -1 else 1
  | _, .inf k => if k then 1 else -1
  | .fin n m e, .fin k q g => (exactAdd n m e (!k) q g).1.sign
  | _, _ => 0

/-- Minimum or maximum of two elements, returned bit for bit (05 R125). -/
def Fmt.minmax (f : Fmt) (isMin : Bool) (x y : Nat) : FRes :=
  let a := f.decode x
  let b := f.decode y
  let nv := nvIf (a.sig || b.sig)
  if a.isNan && b.isNan then { bits := f.nanBits, flags := nv }
  else if a.isNan then { bits := y, flags := nv }
  else if b.isNan then { bits := x, flags := nv }
  else if a.isZero && b.isZero then
    { bits := f.sign (if isMin then a.neg || b.neg else a.neg && b.neg) 0, flags := nv }
  else
    let c := a.compare b
    { bits := if (if isMin then decide (c ≤ 0) else decide (0 ≤ c)) then x else y, flags := nv }

/-- An FP32 comparison: its outcome and whether it raises NV (05 R128). -/
def fcond (cc : Nat) (a b : Fp) : Bool × Bool :=
  let un := a.isNan || b.isNan
  let c := a.compare b
  let signals := cc == 2 || cc == 3 || cc == 4 || cc == 5 || cc == 8
  let nv := a.sig || b.sig || (un && signals)
  let r := match cc with
    | 0 | 8 => !un && c == 0
    | 1 => un || c != 0
    | 2 | 9 => !un && decide (c < 0)
    | 3 | 10 => !un && decide (c ≤ 0)
    | 4 => !un && decide (0 < c)
    | 5 => !un && decide (0 ≤ c)
    | 6 => un
    | _ => !un
  (r, nv)

/-- The class mask of an element (05 R131). -/
def Fmt.classMask (f : Fmt) (x : Nat) : Nat :=
  let normal := decide (2 ^ f.mw ≤ x % 2 ^ (f.ew + f.mw))
  match f.decode x with
  | .nan s => if s then 256 else 512
  | .inf n => if n then 1 else 128
  | .fin n m _ =>
    if m = 0 then if n then 8 else 16
    else if normal then if n then 2 else 64
    else if n then 4 else 32

end Sys2Proof.Machine
end

