-- ==== Sys2Proof/Machine/Flags.lean ====
section
/-!
DEFINITION. Floating-point status (01 R32–R35): the flags of an instruction's results ORed into `sr.fpstat`, and the FPX trap
of a collection window (02 R65, R66).
-/

namespace Sys2Proof.Machine

/-- What a lane of a floating instruction computes: its word, and the flags of each element result by element selector. -/
structure LaneRes where
  word : Word
  flags : List (Nat × Nat)
  deriving DecidableEq, Repr

/-- The trap enables of a pack as flag bits (01 R32). -/
def Pack.te (k : Pack) : Nat := (k.fpctl.extractLsb' 8 5).toNat

/-- The number of flags in a set of the five. -/
def flagCount (f : Nat) : Nat := ((List.range 5).filter fun i => bit f i).length

/-- Every element result of an instruction, as (lane, selector, flags). -/
def elements (rs : List (Nat × LaneRes)) : List (Nat × Nat × Nat) :=
  rs.flatMap fun r => r.2.flags.map fun p => (r.1, p.1, p.2)

/-- The flags raised anywhere in the window. -/
def raisedFlags (es : List (Nat × Nat × Nat)) : Nat := es.foldl (fun f e => f ||| e.2.2) 0

/-- The FPX cause word of a vector instruction (02 R66): the culprit is the first element in (lane, selector) order with a
trapped flag, and every other exceptional result counts once for each trapped flag. -/
def fpxWord (k : Pack) (es : List (Nat × Nat × Nat)) : Nat :=
  let raised := raisedFlags es
  let trapped := raised &&& k.te
  let bad := es.filter fun e => (e.2.2 &&& trapped) != 0
  let c := bad.headD (0, 0, 0)
  let count := (bad.tail.map fun e => flagCount (e.2.2 &&& trapped)).sum
  raised + trapped * 2 ^ 5 + c.1 * 2 ^ 10 + c.2.1 * 2 ^ 15 + k.group * 2 ^ 32 + k.lpack * 2 ^ 64 +
    min count (2 ^ 32 - 1) * 2 ^ 96

/-- Finish a floating instruction: FPX when a raised flag is enabled, and then nothing else changes (02 R65); otherwise the
flags are ORed into `sr.fpstat` (01 R34) and the results are written. -/
def Iss.fpFinish (x : Iss) (act : Mask) (rs : List (Nat × LaneRes)) (write : Pack → Split → Pack × Split) : Out :=
  let es := elements rs
  let raised := raisedFlags es
  if (raised &&& x.k.te) != 0 then x.raise act 0x0C (fpxWord x.k es)
  else
    let r := write (x.k.orFlags (BitVec.ofNat 32 raised)) x.sp
    x.done r.1 r.2

/-- The result word of lane `i`. -/
def resultAt (rs : List (Nat × LaneRes)) (i : Nat) : Word :=
  match rs.find? fun r => r.1 == i with
  | some r => r.2.word
  | none => 0

/-- Issue a floating instruction that writes a vector-class destination. -/
def fpIssue (s : State) (mn : String) (g : PReg) (d : VReg) (os : List Operand) (f : Iss → Nat → LaneRes) : Out :=
  issue s mn g os fun x act =>
    let rs := (lanesOf act).map fun i => (i, f x i)
    x.fpFinish act rs fun k sp => writeV k sp d act (resultAt rs)

/-- A 32-bit result. -/
def res32 (r : FRes) : LaneRes := { word := BitVec.ofNat 32 r.bits, flags := [(0, r.flags)] }

/-- A packed pair of 16-bit results (02 R44). -/
def res16 (r0 r1 : FRes) : LaneRes :=
  { word := BitVec.ofNat 32 (r0.bits + r1.bits * 65536), flags := [(0, r0.flags), (1, r1.flags)] }

end Sys2Proof.Machine
end

