-- ==== Sys2Proof/Machine/Philox.lean ====
section
/-!
DEFINITION. The Philox4x32-10 generator and its counters (02 R55–R57), and the work identifiers of lanes (09 R256).
-/

namespace Sys2Proof.Machine

/-- The key and counter of a Philox round. -/
structure PhiloxState where
  k0 : Nat
  k1 : Nat
  c0 : Nat
  c1 : Nat
  c2 : Nat
  c3 : Nat
  deriving DecidableEq, Repr

/-- One round (02 R55). -/
def PhiloxState.round (p : PhiloxState) : PhiloxState :=
  let a := 0xD2511F53 * p.c0
  let b := 0xCD9E8D57 * p.c2
  { k0 := (p.k0 + 0x9E3779B9) % 2 ^ 32, k1 := (p.k1 + 0xBB67AE85) % 2 ^ 32
    c0 := (b / 2 ^ 32) ^^^ p.c1 ^^^ p.k0, c1 := b % 2 ^ 32
    c2 := (a / 2 ^ 32) ^^^ p.c3 ^^^ p.k1, c3 := a % 2 ^ 32 }

/-- `n` rounds. -/
def PhiloxState.rounds (p : PhiloxState) : Nat → PhiloxState
  | 0 => p
  | n + 1 => p.round.rounds n

/-- Word `w` of one call (02 R55). -/
def philox (k0 k1 c0 c1 c2 c3 w : Nat) : Nat :=
  let p := ({ k0 := k0, k1 := k1, c0 := c0, c1 := c1, c2 := c2, c3 := c3 } : PhiloxState).rounds 10
  match w with
  | 0 => p.c0
  | 1 => p.c1
  | 2 => p.c2
  | _ => p.c3

/-- The work identifier of lane `i` (09 R256). -/
def Pack.widOf (k : Pack) (i : Nat) : DWord := k.wid ||| BitVec.ofNat 64 (k.lpack * 32 + i)

/-- The generator word of element `e` for a work identifier, site and call count under a context's key (02 R56, R57). -/
def State.generator (s : State) (k : Pack) (wid : DWord) (site e calls : Nat) : Nat :=
  let key := match s.context k.ctx with
    | some c => (c.key0.toNat, c.key1.toNat)
    | none => (0, 0)
  philox key.1 key.2 (wid.toNat % 2 ^ 32) (wid.toNat / 2 ^ 32) (site % 2048 * 2 ^ 21 + e / 4 % 2 ^ 21) calls (e % 4)

end Sys2Proof.Machine
end

