-- ==== Sys2Proof/Machine/Narrow.lean ====
section
/-!
DEFINITION. Packing and unpacking, block scales, narrow dot products, conversions and stochastic rounding (05 R132–R139).
-/

namespace Sys2Proof.Machine

/-- The MOD bit `n` of the group. -/
def Iss.modBit (x : Iss) (n : Nat) : Bool := bit (modBits x.sp.hints) n

/-- `pk16`: two FP32 sources into one pair, saturating with MOD[0] (R132). -/
def pk16 (mn : String) (t : Fmt) (g : PReg) (d a b : VReg) (s : State) : Out :=
  fpIssue s mn g d [wrV 0 d, rdV 1 a, rdV 2 b] fun x i =>
    let c := fun r => t.convert (x.k.rm x.sp.hints) (x.modBit 0) (f32Of (x.v r i))
    res16 (c a) (c b)

/-- PK16_F16 (R132). -/
def execPk16F16 (g : PReg) (d a b : VReg) (s : State) : Out := pk16 "PK16_F16" Fmt.f16 g d a b s

/-- PK16_BF16 (R132). -/
def execPk16Bf16 (g : PReg) (d a b : VReg) (s : State) : Out := pk16 "PK16_BF16" Fmt.bf16 g d a b s

/-- The base register of form N, `v0`–`v31` (03 R67). -/
def baseReg (b : BitVec 5) : VReg := b.setWidth 7

/-- Replace element `e` of width `w` bits. -/
def putElement (x : Word) (w e v : Nat) : Word :=
  let m : Word := BitVec.ofNat 32 ((2 ^ w - 1) * 2 ^ (w * e))
  (x &&& ~~~m) ||| BitVec.ofNat 32 (v % 2 ^ w * 2 ^ (w * e))

/-- A narrow pack instruction: element `e` of the base value replaced by the conversion of a (R133). -/
def packNarrow (mn : String) (t : Fmt) (w : Nat) (sat : Iss → Bool) (g : PReg) (d a : VReg) (e : BitVec 3) (b : BitVec 5)
    (s : State) : Out :=
  fpIssue s mn g d [wrV 0 d, rdV 1 a, rdV 2 (baseReg b)] fun x i =>
    let r := t.convert (x.k.rm x.sp.hints) (sat x) (f32Of (x.v a i))
    { word := putElement (x.v (baseReg b) i) w e.toNat r.bits, flags := [(e.toNat, r.flags)] }

/-- PK8_E4M3 (R133). -/
def execPk8E4m3 (g : PReg) (d a : VReg) (e : BitVec 3) (b : BitVec 5) (s : State) : Out :=
  packNarrow "PK8_E4M3" Fmt.e4m3 8 (fun _ => true) g d a e b s

/-- PK8_E5M2 (R133): saturating only with MOD[0]. -/
def execPk8E5m2 (g : PReg) (d a : VReg) (e : BitVec 3) (b : BitVec 5) (s : State) : Out :=
  packNarrow "PK8_E5M2" Fmt.e5m2 8 (fun x => x.modBit 0) g d a e b s

/-- PK4_E2M1 (R133). -/
def execPk4E2m1 (g : PReg) (d a : VReg) (e : BitVec 3) (b : BitVec 5) (s : State) : Out :=
  packNarrow "PK4_E2M1" Fmt.e2m1 4 (fun _ => true) g d a e b s

/-- The format of a stochastic conversion (R138). -/
def srndFmt (e : BitVec 3) : Fmt :=
  match e.toNat with
  | 0 => Fmt.bf16
  | 1 => Fmt.f16
  | 2 => Fmt.e4m3
  | 3 => Fmt.e5m2
  | _ => Fmt.e2m1

/-- The site index of the group's RND hint (03 R73). -/
def Iss.site (x : Iss) : Nat := (hintOf x.sp.hints 2).getD 0 / 32 % 2048

/-- The FP32 bits of an exactly representable value. -/
def exact32 (x : Fp) : Nat := (Fmt.f32.convert 0 false x).bits

/-- The stochastic conversion of an FP32 value with its specials, as FP32 (R138). -/
def srndValue (t : Fmt) (x : Fp) (w : Nat) : FRes :=
  match x with
  | .nan sig => { bits := Fmt.f32.nanBits, flags := nvIf sig }
  | .inf n => if t.inf then Fmt.f32.infRes n else { bits := exact32 (t.decode (t.sign n t.max)), flags := fNV }
  | .fin n m e =>
    let r := t.stochastic n m e w
    { bits := exact32 (t.decode r.bits), flags := r.flags }

/-- SRND (R138). -/
def execSrnd (g : PReg) (d a : VReg) (e : BitVec 3) (b : BitVec 5) (s : State) : Out :=
  fpIssue s "SRND" g d [wrV 0 d, rdV 1 a, rdV 2 (baseReg b)] fun x i =>
    res32 (srndValue (srndFmt e) (f32Of (x.v a i))
      (x.s.generator x.k (x.k.widOf i) x.site 0 (x.v (baseReg b) i).toNat))

/-- PRNG (R139). -/
def execPrng (g : PReg) (d : VReg) (e : BitVec 3) (b : BitVec 5) (s : State) : Out :=
  issue s "PRNG" g [wrV 0 d, rdV 2 (baseReg b)] fun x act =>
    x.doneV d act fun i =>
      BitVec.ofNat 32 (x.s.generator x.k (x.k.widOf i) x.site e.toNat (x.v (baseReg b) i).toNat)

/-- An unpack instruction: the exact FP32 value of element `e` of width `w` (R134). -/
def unpack (mn : String) (w : Nat) (value : Nat → Fp) (g : PReg) (d : VReg) (e : BitVec 3) (b : BitVec 5) (s : State) : Out :=
  fpIssue s mn g d [wrV 0 d, rdV 2 (baseReg b)] fun x i =>
    res32 (Fmt.f32.convert 0 false (value (cut (x.v (baseReg b) i).toNat (w * e.toNat) w)))

/-- UPK16_F16 (R134). -/
def execUpk16F16 (g : PReg) (d : VReg) (e : BitVec 3) (b : BitVec 5) (s : State) : Out :=
  unpack "UPK16_F16" 16 Fmt.f16.decode g d e b s

/-- UPK16_BF16 (R134). -/
def execUpk16Bf16 (g : PReg) (d : VReg) (e : BitVec 3) (b : BitVec 5) (s : State) : Out :=
  unpack "UPK16_BF16" 16 Fmt.bf16.decode g d e b s

/-- UPK8_E4M3 (R134). -/
def execUpk8E4m3 (g : PReg) (d : VReg) (e : BitVec 3) (b : BitVec 5) (s : State) : Out :=
  unpack "UPK8_E4M3" 8 Fmt.e4m3.decode g d e b s

/-- UPK8_E5M2 (R134). -/
def execUpk8E5m2 (g : PReg) (d : VReg) (e : BitVec 3) (b : BitVec 5) (s : State) : Out :=
  unpack "UPK8_E5M2" 8 Fmt.e5m2.decode g d e b s

/-- UPK8_I8 (R134). -/
def execUpk8I8 (g : PReg) (d : VReg) (e : BitVec 3) (b : BitVec 5) (s : State) : Out :=
  unpack "UPK8_I8" 8 (fun v => ofInteger (signedOf 8 v)) g d e b s

/-- UPK4_E2M1 (R134). -/
def execUpk4E2m1 (g : PReg) (d : VReg) (e : BitVec 3) (b : BitVec 5) (s : State) : Out :=
  unpack "UPK4_E2M1" 4 Fmt.e2m1.decode g d e b s

/-- UPK4_I4 (R134). -/
def execUpk4I4 (g : PReg) (d : VReg) (e : BitVec 3) (b : BitVec 5) (s : State) : Out :=
  unpack "UPK4_I4" 4 (fun v => ofInteger (signedOf 4 v)) g d e b s

/-- A dot product's scales: 1 and 1, or the two E3M5 bytes of v[D + 1] (R136). -/
def dotScales (scaled : Bool) (w : Word) : Fp × Fp :=
  if scaled then (Fmt.e3m5.decode (cut w.toNat 0 8), Fmt.e3m5.decode (cut w.toNat 8 8)) else (.fin false 1 0, .fin false 1 0)

/-- An operand's elements as a scale leaves them: a zero scale makes every element +0 (02 R46, 05 R136). -/
def scaleElements (sc : Fp) (es : List Fp) : List Fp := if sc.isZero then es.map fun _ => .fin false 0 0 else es

/-- Multiply two values exactly: a NaN for 0 × ∞ or a NaN operand, with whether it raises NV. -/
def exactMul (a b : Fp) : Fp × Bool :=
  if a.isNan || b.isNan then (.nan false, a.sig || b.sig)
  else
    match a, b with
    | .inf n, x => if x.isZero then (.nan false, true) else (.inf (n != x.neg), false)
    | x, .inf n => if x.isZero then (.nan false, true) else (.inf (n != x.neg), false)
    | .fin n m e, .fin k q h => (.fin (n != k) (m * q) (e + h), false)
    | _, _ => (.nan false, false)

/-- The exact sum of products and addend, rounded once to FP32 (02 R61, 05 R136). A NaN scale counts as 1 for NV and then
gives the default NaN (log entry 25). -/
def dotValue (rm : Nat) (sa sb : Fp) (as bs : List Fp) (c : Fp) : FRes :=
  let one : Fp := .fin false 1 0
  let ta := if sa.isNan then one else sa
  let tb := if sb.isNan then one else sb
  let scale := (exactMul ta tb).1
  let ps := (List.zip (scaleElements ta as) (scaleElements tb bs)).map fun p => exactMul p.1 p.2
  let terms := ps.map fun p => (exactMul p.1 scale).1
  let all := c :: terms
  let pos := all.any (· == .inf false)
  let neg := all.any (· == .inf true)
  let nv := c.sig || ps.any (·.2) || (pos && neg)
  if sa.isNan || sb.isNan || all.any Fp.isNan || (pos && neg) then Fmt.f32.nanRes nv
  else if pos || neg then Fmt.f32.infRes neg (nvIf nv)
  else
    let fin := fun x : Fp => match x with
      | .fin n m e => (n, m, e)
      | _ => (false, 0, 0)
    let e := (all.map fun x => (fin x).2.2).foldl min 0
    let sum := (all.map fun x => signedMant (fin x).1 ((fin x).2.1 * 2 ^ ((fin x).2.2 - e).toNat)).sum
    -- the exact sum of the products is +0 when it is zero, so only −0 + (−0) could stay −0, and it does not arise
    let prodSum := (terms.map fun x => signedMant (fin x).1 ((fin x).2.1 * 2 ^ ((fin x).2.2 - e).toNat)).sum
    Fmt.f32.roundInt rm sum e (if prodSum = 0 && c.isZero then zeroSign rm false c.neg else rm == 2)

/-- A dot product instruction with `n` elements of width `w` (R136). -/
def dot (mn : String) (scaled : Bool) (n w : Nat) (fa fb : Iss → Fmt) (g : PReg) (d a b : VReg) (s : State) : Out :=
  fpIssue s mn g d [rdV 0 d (if scaled then 2 else 1), rdV 1 a, rdV 2 b] fun x i =>
    let es := fun (t : Fmt) (r : VReg) => (List.range n).map fun j => t.decode (cut (x.v r i).toNat (w * j) w)
    let sc := dotScales scaled (x.v (d + 1) i)
    res32 (dotValue (x.k.rm x.sp.hints) sc.1 sc.2 (es (fa x) a) (es (fb x) b) (f32Of (x.v d i)))

/-- The FP8 format a MOD bit selects (R122). -/
def fp8Of (n : Nat) (x : Iss) : Fmt := if x.modBit n then Fmt.e5m2 else Fmt.e4m3

/-- DOT4 (R136). -/
def execDot4 (g : PReg) (d a b : VReg) (s : State) : Out := dot "DOT4" false 4 8 (fp8Of 0) (fp8Of 1) g d a b s

/-- DOT4S (R136). -/
def execDot4s (g : PReg) (d a b : VReg) (s : State) : Out := dot "DOT4S" true 4 8 (fp8Of 0) (fp8Of 1) g d a b s

/-- DOT8 (R136). -/
def execDot8 (g : PReg) (d a b : VReg) (s : State) : Out :=
  dot "DOT8" false 8 4 (fun _ => Fmt.e2m1) (fun _ => Fmt.e2m1) g d a b s

/-- DOT8S (R136). -/
def execDot8s (g : PReg) (d a b : VReg) (s : State) : Out :=
  dot "DOT8S" true 8 4 (fun _ => Fmt.e2m1) (fun _ => Fmt.e2m1) g d a b s

/-- FSCALE_E3M5 (R135): a × the scale of byte `e`. -/
def execFscaleE3m5 (g : PReg) (d a : VReg) (e : BitVec 3) (b : BitVec 5) (s : State) : Out :=
  fpIssue s "FSCALE_E3M5" g d [wrV 0 d, rdV 1 a, rdV 2 (baseReg b)] fun x i =>
    res32 (Fmt.f32.mul (x.k.rm x.sp.hints) (f32Of (x.v a i))
      (Fmt.e3m5.decode (cut (x.v (baseReg b) i).toNat (8 * e.toNat) 8)))

/-- A conversion instruction (R137). -/
def cvt (mn : String) (f : Nat → Word → FRes) (g : PReg) (d a : VReg) (s : State) : Out :=
  fpIssue s mn g d [wrV 0 d, rdV 1 a] fun x i => res32 (f (x.k.rm x.sp.hints) (x.v a i))

/-- A conversion of FP32 to an integer of a range, its low 32 bits (02 R53). -/
def cvtInt (lo hi : Int) (rm : Nat) (w : Word) : FRes :=
  let r := toInteger rm lo hi (f32Of w)
  { bits := wrap 32 r.1, flags := r.2 }

/-- CVT_F32_S32 (R137). -/
def execCvtF32S32 (g : PReg) (d a : VReg) (s : State) : Out :=
  cvt "CVT_F32_S32" (fun rm w => Fmt.f32.convert rm false (ofInteger w.toInt)) g d a s

/-- CVT_F32_U32 (R137). -/
def execCvtF32U32 (g : PReg) (d a : VReg) (s : State) : Out :=
  cvt "CVT_F32_U32" (fun rm w => Fmt.f32.convert rm false (ofInteger w.toNat)) g d a s

/-- CVT_S32_F32 (R137). -/
def execCvtS32F32 (g : PReg) (d a : VReg) (s : State) : Out := cvt "CVT_S32_F32" (cvtInt (-2 ^ 31) (2 ^ 31 - 1)) g d a s

/-- CVT_U32_F32 (R137). -/
def execCvtU32F32 (g : PReg) (d a : VReg) (s : State) : Out := cvt "CVT_U32_F32" (cvtInt 0 (2 ^ 32 - 1)) g d a s

/-- CVT_S8_F32 (R137). -/
def execCvtS8F32 (g : PReg) (d a : VReg) (s : State) : Out := cvt "CVT_S8_F32" (cvtInt (-128) 127) g d a s

/-- CVT_S4_F32 (R137). -/
def execCvtS4F32 (g : PReg) (d a : VReg) (s : State) : Out := cvt "CVT_S4_F32" (cvtInt (-8) 7) g d a s

/-- CVT_E3M5_F32 (R137, R53). -/
def execCvtE3m5F32 (g : PReg) (d a : VReg) (s : State) : Out :=
  cvt "CVT_E3M5_F32" (fun rm w => Fmt.e3m5.convert rm true (f32Of w)) g d a s

/-- CVT_F32_E3M5 (R137). -/
def execCvtF32E3m5 (g : PReg) (d a : VReg) (s : State) : Out :=
  cvt "CVT_F32_E3M5" (fun _ w => Fmt.f32.convert 0 false (Fmt.e3m5.decode (cut w.toNat 0 8))) g d a s

end Sys2Proof.Machine
end

