-- ==== Sys2Proof/Machine/Tsr.lean ====
section
/-!
DEFINITION. Tensor shape-and-stride records (07 R179–R183): their layout and checks, the bytes of a tile in traversal order with
the check of every page, and the order of tile operations on a core (07 R177).
-/

namespace Sys2Proof.Machine

/-- A record as read (R179). -/
structure Tsr where
  base : Nat
  str1 : Nat
  str2 : Nat
  scBase : Nat
  bnBase : Nat
  ext0 : Nat
  ext1 : Nat
  ext2 : Nat
  scStr : Nat
  fmt : Nat
  smode : Nat
  flags : Nat
  rest : Nat
  deriving DecidableEq, Repr

/-- Read the record at a scratchpad byte (R179). -/
def tsrAt (m : Bytes) (a : Nat) : Tsr :=
  let r := fun o n => m.readLE (a + o) n
  { base := r 0 8, str1 := r 8 8, str2 := r 16 8, scBase := r 24 8, bnBase := r 32 8, ext0 := r 40 4, ext1 := r 44 4,
    ext2 := r 48 4, scStr := r 52 4, fmt := r 56 1, smode := r 57 1, flags := r 58 2, rest := r 60 4 }

/-- The bits of an element of a format code, 0 for a code outside 1–8 (01 R30). -/
def fmtBits (f : Nat) : Nat :=
  match f with
  | 1 => 4
  | 2 => 8
  | 3 => 8
  | 4 => 16
  | 5 => 16
  | 6 => 8
  | 7 => 4
  | 8 => 32
  | _ => 0

/-- The bytes of a row (R180). -/
def Tsr.rowBytes (t : Tsr) : Nat := t.ext0 * fmtBits t.fmt / 8

/-- NBLK0 (R180). -/
def Tsr.blocks (t : Tsr) : Nat := ceilDiv t.ext0 8

/-- What a record is used for (R181, R182). -/
inductive TsrUse where
  /-- `tdesc`, checked in the general form. -/
  | general (write : Bool)
  /-- `cpy` and `tstore`, which move elements only. -/
  | elements (write : Bool)
  | load
  deriving DecidableEq, Repr

/-- The use writes memory. -/
def TsrUse.writes : TsrUse → Bool
  | .general w => w
  | .elements w => w
  | .load => false

/-- The conditions of R181 of a record, by code. -/
def Tsr.faults (t : Tsr) (use : TsrUse) (high : Bool) (shape : Bool) : List (Nat × Bool) :=
  [(0x01, t.flags % 2 == 0),
   (0x02, t.flags / 2 != 0 || t.rest != 0 || t.str1 / 2 ^ 48 != 0 || t.str2 / 2 ^ 48 != 0),
   (0x03, fmtBits t.fmt == 0),
   (0x04, decide (2 < t.smode) || (t.smode != 0 && t.fmt == 8) || (t.smode == 0 && t.fmt == 1) ||
      (match use with
        | .elements _ => t.smode != 0
        | _ => false)),
   (0x05, t.ext0 == 0 || t.ext1 == 0 || t.ext2 == 0 || decide (2 ^ 20 < t.ext0) || decide (2 ^ 16 < t.ext1) ||
      decide (2 ^ 16 < t.ext2) || (fmtBits t.fmt == 4 && t.ext0 % 2 == 1)),
   (0x06, t.base % max 1 (fmtBits t.fmt / 8) != 0 || (t.smode == 2 && t.bnBase % 2 == 1)),
   (0x07, use.writes && ((decide (1 < t.ext1) && decide (t.str1 < t.rowBytes)) ||
      (decide (1 < t.ext2) && decide (t.str2 < t.ext1 * t.str1)))),
   (0x08, decide (1 ≤ t.smode) && decide (t.scStr < t.blocks)),
   (0x09, high),
   (0x0A, shape)]

/-- The lowest code of R181 that applies, 0 for a valid record. -/
def Tsr.code (t : Tsr) (use : TsrUse) (high : Bool) (shape : Bool) : Nat :=
  (((t.faults use high shape).find? (·.2)).map (·.1)).getD 0

/-- The runs of a tile's elements in traversal order, as (address, bytes) (R180). -/
def Tsr.elementRuns (t : Tsr) : List (Nat × Nat) :=
  (List.range t.ext2).flatMap fun d => (List.range t.ext1).map fun i => (t.base + d * t.str2 + i * t.str1, t.rowBytes)

/-- The runs of a tile's block scales and band scales in traversal order (R180). -/
def Tsr.scaleRuns (t : Tsr) : List (Nat × Nat) :=
  (if 1 ≤ t.smode then
    (List.range t.ext2).flatMap fun d => (List.range t.ext1).map fun i => (t.scBase + (d * t.ext1 + i) * t.scStr, t.blocks)
   else []) ++
  (if t.smode = 2 then [(t.bnBase, 2 * t.ext2 * ceilDiv t.ext1 64)] else [])

/-- A run cut at 4 KiB boundaries. -/
def cutPages : (fuel : Nat) → Nat → Nat → List (Nat × Nat)
  | 0, _, _ => []
  | f + 1, va, n =>
    if n = 0 then []
    else
      let m := min n (4096 - va % 4096)
      (va, m) :: cutPages f (va + m) (n - m)

/-- The pieces of runs within single pages. -/
def pagePieces (rs : List (Nat × Nat)) : List (Nat × Nat) := rs.flatMap fun r => cutPages (r.2 / 4096 + 2) r.1 r.2

/-- Check every byte of a tile in traversal order: the physical runs, or the first failing byte (R183). -/
def State.checkRuns (s : State) (core ctx : Nat) (path : Path) (use : Use) :
    List (Nat × Nat) → Except (XErr × DWord) (State × Runs)
  | [] => .ok (s, [])
  | r :: rest =>
    let va := BitVec.ofNat 64 r.1
    match s.access core true ctx path va 1 1 use with
    | .error e => .error (e, va)
    | .ok x =>
      match x.s.checkRuns core ctx path use rest with
      | .error e => .error e
      | .ok t => .ok (t.1, (x.pa, r.2, x.attr) :: t.2)

/-- The state after the walks of such a check, up to and with the first byte that fails (16 R349). -/
def State.afterRuns (s : State) (core ctx : Nat) (path : Path) (use : Use) : List (Nat × Nat) → State
  | [] => s
  | r :: rest =>
    let va := BitVec.ofNat 64 r.1
    match s.access core true ctx path va 1 1 use with
    | .error _ => s.afterAccess core true ctx path va 1 1 use
    | .ok x => x.s.afterRuns core ctx path use rest

/-- The pages that translate some pieces, each once, with the table lines they were built from (16 R351). -/
def State.tilePages (s : State) (core ctx : Nat) (rs : List (Nat × Nat)) : List (Nat × List Nat) :=
  match s.context ctx with
  | none => []
  | some c => (rs.filterMap fun r => match (s.locate core true c r.1).2 with
      | .ok e => some (e.vbase, e.lines)
      | .error _ => none).eraseDups

/-- The translator's page list of a tile of more than 512 pages: it takes granules of the context's pool and writes them; none while there
is no room (16 R351, 20 R412) (log entry 29). -/
def State.listPages (s : State) (core slot op ctx : Nat) (rs : List (Nat × Nat)) : Option State :=
  let ps := s.tilePages core ctx rs
  if ps.length ≤ 512 then some s
  else
    (s.carve ctx (ceilDiv ps.length 512)).map fun a =>
      let b := s.freeBytes (8 * ps.length)
      let l : PageList := { core := core, slot := slot, op := op, ctx := ctx, granule := a.1, pages := ps }
      { (b.2.setContext a.2).unitWrite (clusterOf core) (a.2.pool + 4096 * a.1) b.1 with pageLists := s.pageLists ++ [l] }

/-- The page list of an operation that is done returns its granules (16 R351). -/
def State.unlist (s : State) (core slot op : Nat) : State := s.dropLists fun l => l.core == core && l.slot == slot && l.op == op

/-- The bytes of runs, in order. -/
def State.runBytes (s : State) (rs : Runs) : List Byte := rs.flatMap fun r => s.mem.readList r.1 r.2.1

/-- The part of some runs from byte `lo` up to byte `hi`. -/
def sliceRuns : Runs → (lo hi : Nat) → Runs
  | [], _, _ => []
  | (pa, n, at_) :: r, lo, hi =>
    let a := min lo n
    let b := min hi n
    (if a < b then [(pa + a, b - a, at_)] else []) ++ sliceRuns r (lo - n) (hi - n)

/-- Write bytes over runs on an engine path (11 R285). -/
def State.writeRuns (s : State) (path : Path) (k : Pack) (core : Nat) : Runs → List Byte → State
  | [], _ => s
  | (pa, n, at_) :: r, bs => (s.engineWrite path k core pa at_ (bs.take n)).writeRuns path k core r (bs.drop n)

/-! ### Uses by an instruction -/

/-- A tile register fails R21 for the kinds an instruction accepts. -/
def Iss.badHandle (x : Iss) (t : Nat) (kinds : List Nat) : Bool := !(x.s.core x.f.core).handleOk (x.k.readT t) kinds

/-- Raise HANDLE (07 R202). -/
def Iss.handle (x : Iss) (reason : Nat) (tile : Nat := 0) (index : Nat := 0) : Out :=
  x.raise x.live 0x08 (handleWord reason tile index)

/-- The record that tile register `t` and index word `w` name, with its code of R181: `bits` are the index word's fields. An index beyond
the region names no record of it, so only code 0x09 is judged there (log entry 80). -/
def Iss.record (x : Iss) (t : Nat) (w : Word) (bits : Nat) (use : TsrUse) (shape : Tsr → Bool) : Tsr × Nat :=
  let h := x.k.readT t
  let i := w.toNat % 256
  let r := tsrAt (x.s.core x.f.core).sram (hByte h + 64 * i)
  if (hLen h + 1) * 64 ≤ i then (r, 0x09) else (r, r.code use (w.toNat / 2 ^ bits != 0) (shape r))

/-- Raise the page failure of a tile's check (R183, 06 R145). -/
def Iss.tileFault (x : Iss) (path : Path) (write : Bool) (e : XErr) (va : DWord) : Out :=
  x.accessFault x.live e (memWord va 0 0 path write false 0)

/-! ### The order of tile operations (R177) -/

/-- The scratchpad bytes an operation touches, as (first, count). -/
def OpKind.spans : OpKind → List (Nat × Nat)
  | .tload _ _ base _ _ _ _ size _ => [(base, size)]
  | .tstore base n _ => [(base, n)]
  | .acc fn _ _ base => if fn = 3 || fn = 4 then [(base, 4096)] else []
  | .tile spans .. => spans
  | _ => []

/-- The granules an operation touches. -/
def OpKind.grans : OpKind → List Nat
  | .acc fn d a _ => if fn = 1 then [d, a] else if fn = 4 then [a] else [d]
  | .tile _ grans .. => grans
  | _ => []

/-- A tile operation of the core, issued before `stamp`, touches one of these bytes or the pack's granules. -/
def Core.tileBusy (c : Core) (slot : Nat) (spans : List (Nat × Nat)) (grans : List Nat) (stamp : Nat) : Bool :=
  c.packs.any fun p => p.2.ops.any fun o =>
    !o.done && o.cls == .tl && decide (o.stamp < stamp) &&
      ((o.kind.spans.any fun a => spans.any fun b => overlap a.1 a.2 b.1 b.2) ||
        (p.1 == slot && o.kind.grans.any grans.contains))

/-- A scratchpad store of the split is still to be performed (R177). -/
def Iss.storing (x : Iss) : Bool :=
  x.k.ops.any fun o => !o.done && o.kind == .storeS && (o.lineage &&& x.live) != 0

/-- An earlier tile operation of the core still to take effect touches the record that tile register `t` and index word `w` name (R177). -/
def Iss.recordBusy (x : Iss) (t : Nat) (w : Word) : Bool :=
  (x.s.core x.f.core).tileBusy x.f.slot [(hByte (x.k.readT t) + 64 * (w.toNat % 256), 64)] [] x.s.clock

/-- A tile operation waits to issue: the counter is full, a sequentially consistent access or a scratchpad store is ahead. -/
def Iss.tileWait (x : Iss) : Bool := x.k.full .tl || x.k.scBusy || x.storing

/-- The outstanding operation a tile or copy instruction leaves. -/
def Iss.engineOp (x : Iss) (cls : OpClass) (path : Path) (kind : OpKind) : PendOp :=
  { id := 0, cls := cls, path := path, lineage := x.live, split := x.sp.id, kind := kind, stamp := x.s.clock }

end Sys2Proof.Machine
end

