-- ==== Sys2Proof/Machine/Copy.lean ====
section
/-!
DEFINITION. Copies and their write pointers (06 R165–R168).
-/

namespace Sys2Proof.Machine

/-- The bytes of a tile's elements. -/
def Tsr.elementBytes (t : Tsr) : Nat := t.rowBytes * t.ext1 * t.ext2

/-- Issue a copy (R165): handles, record, region size, then every byte (07 R183); one whose page list finds no room in the pool waits (16
R351) (log entry 29). -/
def copyIssue (mn : String) (into : Bool) (d a : TReg) (b : GReg) (s : State) : Out :=
  issueU s mn [opT 0 d, opT 1 a, rdG 2 b] fun x =>
    let c := x.s.core x.f.core
    if x.badHandle d.toNat [1] then x.handle 0x10 d.toNat
    else if x.badHandle a.toNat [3] then x.handle 0x10 a.toNat
    else if 128 ≤ c.copyQ.length || x.k.full .cp || x.k.scBusy || x.storing || x.recordBusy a.toNat (x.g b) then .next x.s
    else
      let w := x.g b
      let r := x.record a.toNat w 11 (.elements !into) fun _ => false
      let h := x.k.readT d.toNat
      if r.2 != 0 then x.handle r.2 a.toNat (w.toNat % 256)
      else if hBytes h < r.1.elementBytes then x.handle 0x12 d.toNat
      else
        let use : Use := if into then .load else .store
        match x.s.checkRuns x.f.core x.k.ctx .copy use (pagePieces r.1.elementRuns) with
        | .error e =>
          ({ x with s := x.s.afterRuns x.f.core x.k.ctx .copy use (pagePieces r.1.elementRuns) } : Iss).tileFault .copy (!into) e.1 e.2
        | .ok t =>
          let ch := cut w.toNat 8 3
          let seq := c.copySeq.getD ch 0
          let op := x.engineOp .cp .copy (.copy ch seq into (hByte h) r.1.elementBytes 0 t.2)
          match t.1.listPages x.f.core x.f.slot x.k.nextOp x.k.ctx (pagePieces r.1.elementRuns) with
          | none => .next x.s
          | some s =>
            let c := s.core x.f.core
            let s := s.setCore x.f.core
              { c with copySeq := c.copySeq.put ch ((seq + 1) % 2048), copyQ := c.copyQ ++ [(ch, x.f.slot, x.k.nextOp)] }
            let x := { x with s := s }
            (if into then x else x.commit).done (x.k.addOp op) x.sp

/-- CPY_IN (R165). -/
def execCpyIn (d a : TReg) (b : GReg) (s : State) : Out := copyIssue "CPY_IN" true d a b s
/-- CPY_OUT (R165). -/
def execCpyOut (d a : TReg) (b : GReg) (s : State) : Out := copyIssue "CPY_OUT" false d a b s

/-- MOV_GC (R168); a sequentially consistent access ahead holds it (R147). -/
def execMovGc (d : GReg) (a : QReg) (s : State) : Out :=
  issueU s "MOV_GC" [wrG 0 d] fun x =>
    if x.k.scBusy then .next x.s else x.doneG d (Words.get (x.s.core x.f.core).cwp a.toNat)

/-- The pointer has reached a target: the difference modulo 2^32 lies below 2^31 (R168), however far apart the two are (log entry 90). -/
def reached (value target : Word) : Bool := !(value - target).msb

/-- CWPWAIT (R168); a sequentially consistent access ahead holds it (R147). -/
def execCwpwait (d : GReg) (a : QReg) (s : State) : Out :=
  issueU s "CWPWAIT" [rdG 0 d] fun x =>
    if x.k.scBusy then .next x.s
    else if reached (Words.get (x.s.core x.f.core).cwp a.toNat) (x.g d) then x.done x.k x.sp
    else x.stallAt (.cwpwait d.toNat a.toNat)

/-- CWPWAIT_PASS (R168). -/
def execCwpwaitPass (core slot split : Nat) (s : State) : Out :=
  onStall "CWPWAIT_PASS" s core slot split fun x st =>
    match st with
    | .cwpwait d a =>
      if !x.k.scBusy && reached (Words.get (x.s.core core).cwp a) (x.k.readG d) then some (x.done x.k x.sp) else none
    | _ => none

/-- Move bytes `lo` to `hi` − 1 of a copy (R166): it reads each byte, through the L2, as it writes it (log entry 22). -/
def State.moveBytes (s : State) (core : Nat) (k : Pack) (into : Bool) (base lo hi : Nat) (runs : Runs) : State :=
  let part := sliceRuns runs lo hi
  if into then
    let t := s.useRuns core 0 part
    let c := t.core core
    t.setCore core { c with sram := c.sram.writeList (base + lo) (s.runBytes part) }
  else s.writeRuns .copy k core part ((s.core core).sram.readList (base + lo) (hi - lo))

/-- COPY_COMPLETION (R166, R167): the channel's current copy has written its bytes below `upto`; with the last one it
completes (log entry 22). -/
def execCopyCompletion (core channel upto : Nat) (s : State) : Out :=
  match (s.core core).copyQ.find? fun e => e.1 == channel with
  | none => .refused (.notEnabled "COPY_COMPLETION")
  | some e =>
    withOp "COPY_COMPLETION" s core e.2.1 e.2.2 fun k o =>
      match o.kind with
      | .copy ch seq into base n lo runs =>
        if upto < lo || n < upto || s.detHeld core o then none
        else
          let s := s.moveBytes core k into base lo upto runs
          let c := s.core core
          let c := { c with
            cwp := Words.set c.cwp ch (BitVec.ofNat 32 (seq * 2 ^ 21 + upto))
            copyQ := if upto = n then c.copyQ.filter (· != e) else c.copyQ }
          let o := { o with kind := .copy ch seq into base n upto runs, done := upto == n }
          let s := (s.setCore core c).modPack core e.2.1 fun k => k.setOp o
          some (if upto = n then s.unlist core e.2.1 e.2.2 else s)
      | _ => none

end Sys2Proof.Machine
end

