-- ==== Sys2Proof/Machine/Tile.lean ====
section
/-!
DEFINITION. Tile registers, `tdesc`, tile loads and stores (07 R178–R188), alignment (02 R46–R51) and the completion of tile
operations (07 R177).
-/

namespace Sys2Proof.Machine

/-- TSET (R178). -/
def execTset (d : TReg) (a : GReg) (s : State) : Out :=
  issueU s "TSET" [opT 0 d, rdG 1 a] fun x => x.done { x.k with t := x.k.t.set d.toNat (x.g a) } x.sp
/-- TGET (R178). -/
def execTget (d : GReg) (a : TReg) (s : State) : Out :=
  issueU s "TGET" [wrG 0 d, opT 1 a] fun x => x.doneG d (x.k.readT a.toNat)
/-- TCLR (R178). -/
def execTclr (d : TReg) (s : State) : Out :=
  issueU s "TCLR" [opT 0 d] fun x => x.done { x.k with t := x.k.t.set d.toNat 0 } x.sp

/-- The code `tdesc` reports for a page failure (R182). -/
def tdescCode : XErr → Nat
  | .lease _ => 0x22
  | .perm => 0x23
  | _ => 0x21

/-- The state as a check sees it that accesses no memory: no DRAM channel is lost (20 R424). -/
def State.soundDram (s : State) : State := { s with maps := { s.maps with force := [] }, retired := [] }

/-- `tdesc` (R182): only the handle traps, and nothing changes but gd. -/
def tdesc (mn : String) (write : Bool) (d : GReg) (a : TReg) (b : GReg) (s : State) : Out :=
  issueU s mn [wrG 0 d, opT 1 a, rdG 2 b] fun x =>
    if x.badHandle a.toNat [3] then x.handle 0x10 a.toNat
    else if x.storing || x.recordBusy a.toNat (x.g b) then .next x.s
    else
      let r := x.record a.toNat (x.g b) 8 (.general write) fun _ => false
      let code :=
        if r.2 != 0 then r.2
        else
          match x.s.soundDram.checkRuns x.f.core x.k.ctx .matrix (if write then .store else .load)
              (pagePieces (r.1.elementRuns ++ r.1.scaleRuns)) with
          | .ok _ => 0
          | .error e => tdescCode e.1
      x.doneG d (BitVec.ofNat 32 code)

/-- TDESC_R (R182). -/
def execTdescR (d : GReg) (a : TReg) (b : GReg) (s : State) : Out := tdesc "TDESC_R" false d a b s
/-- TDESC_W (R182). -/
def execTdescW (d : GReg) (a : TReg) (b : GReg) (s : State) : Out := tdesc "TDESC_W" true d a b s

/-! ### Layouts in scratchpad (R184–R186) -/

/-- RP, and NB, of a tile header's ROWS and K (R184). -/
def padRows (rows : Nat) : Nat := roundUp rows 32
def padBlocks (k : Nat) : Nat := 8 * ceilDiv k 64

/-- The offsets of a layout's second and third areas and its size: planes, metadata and bands of a planed operand; elements,
scales and bands of a parallel one (R185, R186). -/
structure Layout where
  second : Nat
  third : Nat
  size : Nat
  deriving DecidableEq, Repr

def layoutOf (planed : Bool) (planes fmt rows k : Nat) : Layout :=
  let rp := padRows rows
  let nb := padBlocks k
  let second := if planed then 128 + rp / 32 * nb * planes * 32 else 128 + rp * nb * fmtBits fmt
  let third := if planed then second + rp * nb * 4 else second + rp * nb
  { second := second, third := third, size := third + 2 * ceilDiv rp 64 }

/-- The least plane count of a source format (02 R49). -/
def minPlanes (f : Nat) : Nat :=
  match f with
  | 1 => 5
  | 2 => 5
  | 3 => 4
  | 4 => 9
  | 5 => 12
  | 6 => 8
  | 7 => 4
  | _ => 0

/-! ### Alignment (02 R46, R48) -/

/-- The floating format of a code, none for the integers (01 R30). -/
def fmtOf (f : Nat) : Option Fmt :=
  match f with
  | 1 => some .e2m1
  | 2 => some .e4m3
  | 3 => some .e5m2
  | 4 => some .bf16
  | 5 => some .f16
  | 8 => some .f32
  | _ => none

/-- Element `k` of packed bytes, read through `get` (02 R44, 07 R180). -/
def elementAt (get : Nat → Nat) (f k : Nat) : Nat :=
  match fmtBits f with
  | 4 => get (k / 2) / 16 ^ (k % 2) % 16
  | 16 => get (2 * k) + 256 * get (2 * k + 1)
  | 32 => get (4 * k) + 256 * get (4 * k + 1) + 65536 * get (4 * k + 2) + 16777216 * get (4 * k + 3)
  | _ => get k

/-- An aligned block: a NaN block, or the unit's exponent, eight integers, and whether a nonzero bit was discarded. -/
structure Aligned where
  nan : Bool
  u : Int
  q : List Int
  nx : Bool
  deriving DecidableEq, Repr

/-- The exponent of a value's leading bit, none for zero. -/
def Fp.top : Fp → Option Int
  | .fin _ m e => if m = 0 then none else some ((m.log2 : Int) + e)
  | _ => none

/-- Align (02 R48) for `w` bits; the elements of the integer formats are themselves. -/
def alignBlock (w f : Nat) (xs : List Nat) : Aligned :=
  match fmtOf f with
  | none => { nan := false, u := 0, q := xs.map fun x => signedOf (fmtBits f) x, nx := false }
  | some t =>
    let vs := xs.map t.decode
    if vs.any fun v => match v with
      | .fin .. => false
      | _ => true
    then { nan := true, u := 0, q := xs.map fun _ => 0, nx := false }
    else
      match vs.filterMap Fp.top with
      | [] => { nan := false, u := 0, q := xs.map fun _ => 0, nx := false }
      | a :: r =>
        let u := (r.foldl max a) - ((w : Int) - 2)
        let one := fun v => match v with
          | .fin neg m e => (signedMant neg (roundQ 0 neg m e u), (quant m e u).2.1 != 0)
          | _ => (0, false)
        let qs := vs.map one
        { nan := false, u := u, q := qs.map (·.1), nx := qs.any (·.2) }

/-- How R46 resolves a block before its elements count: NaN, zero, or as they stand. -/
inductive Resolved where
  | nanBlock
  | zero
  | value
  deriving DecidableEq, Repr

/-- Resolve a block by its scales: the block scale's byte under modes 1 and 2, the band scale under mode 2 (02 R46). -/
def resolve (mode scale band : Nat) : Resolved :=
  let bandVal := Fmt.bf16.decode band
  let bandBad := mode == 2 && (match bandVal with
    | .fin .. => false
    | _ => true)
  if (mode != 0 && scale == 0xFF) || bandBad then .nanBlock
  else if (mode != 0 && scale == 0) || (mode == 2 && bandVal.isZero) then .zero
  else .value

/-! ### Tile load (R187) -/

/-- A list of numbers as bytes. -/
def asBytes (l : List Nat) : List Byte := l.map fun n => BitVec.ofNat 8 n

/-- The tile as read from memory: elements, block scales and band scales in traversal order. -/
structure TileSrc where
  bytes : Nat → Nat
  fmt : Nat
  smode : Nat
  k : Nat
  rows : Nat

/-- The bytes of one row. -/
def TileSrc.row (t : TileSrc) : Nat := t.k * fmtBits t.fmt / 8

/-- Element (i, k), +0 in padding (02 R47). -/
def TileSrc.element (t : TileSrc) (i k : Nat) : Nat :=
  if t.rows ≤ i || t.k ≤ k then 0 else elementAt (fun o => t.bytes (i * t.row + o)) t.fmt k

/-- The block scale of (i, j): 0x60 where there are none, 0 in padding (R185, 02 R47). -/
def TileSrc.scale (t : TileSrc) (i j : Nat) : Nat :=
  let nblk := ceilDiv t.k 8
  if t.rows ≤ i || nblk ≤ j then 0 else if t.smode = 0 then 0x60 else t.bytes (t.rows * t.row + i * nblk + j)

/-- The band scale of band `b`: 1.0 where there are none, +0 in padding. -/
def TileSrc.band (t : TileSrc) (b : Nat) : Nat :=
  let at_ := t.rows * t.row + t.rows * ceilDiv t.k 8 + 2 * b
  if t.smode < 2 then 0x3F80 else if t.rows ≤ 64 * b then 0 else t.bytes at_ + 256 * t.bytes (at_ + 1)

/-- The header's 64 bytes (R184). -/
def tileHeader (fmt planes smode rows k : Nat) : List Byte :=
  asBytes [fmt, planes, smode, 0] ++ bytesLE 2 rows ++ bytesLE 2 0 ++ bytesLE 4 k ++ List.replicate 52 0

/-- A block as the loader writes it: padding and zero blocks with u 0 and q 0, a NaN block with u 0x8000 (R187). -/
def TileSrc.aligned (t : TileSrc) (planes i j : Nat) : Aligned :=
  let none_ : Aligned := { nan := false, u := 0, q := List.replicate 8 0, nx := false }
  if t.rows ≤ i || ceilDiv t.k 8 ≤ j then none_
  else
    match resolve t.smode (t.scale i j) (t.band (i / 64)) with
    | .nanBlock => { none_ with nan := true }
    | .zero => none_
    | .value =>
      let a := alignBlock planes t.fmt ((List.range 8).map fun c => t.element i (8 * j + c))
      if a.nan then { none_ with nan := true } else a

/-- Byte `n` of a planed layout's planes area: bit (r mod 8) of byte 4k + r div 8 of a plane is a bit of q (R185). -/
def planeByte (q : Nat → Nat → Nat → Int) (nb planes n : Nat) : Nat :=
  let blk := n / 32
  let plane := blk % planes
  let j := blk / planes % nb
  let grp := blk / planes / nb
  let c := n % 32 / 4
  ((List.range 8).map fun r => if bit (wrap planes (q (32 * grp + 8 * (n % 4) + r) j c)) plane then 2 ^ r else 0).sum

/-- The bytes from offset 128 of a planed layout (R185) (log entry 21). -/
def planedBytes (t : TileSrc) (planes : Nat) : List Byte :=
  let rp := padRows t.rows
  let nb := padBlocks t.k
  let l := layoutOf true planes t.fmt t.rows t.k
  let q := fun i j c => (t.aligned planes i j).q.getD c 0
  let meta_ := (List.range rp).flatMap fun i => (List.range nb).flatMap fun j =>
    let a := t.aligned planes i j
    bytesLE 2 (if a.nan then 0x8000 else wrap 16 a.u) ++ asBytes [t.scale i j, 0]
  asBytes ((List.range (l.second - 128)).map (planeByte q nb planes)) ++ meta_ ++
    (List.range (ceilDiv rp 64)).flatMap fun b => bytesLE 2 (t.band b)

/-- The bytes from offset 128 of a parallel layout (R186) (log entry 21). -/
def parallelBytes (t : TileSrc) : List Byte :=
  let rp := padRows t.rows
  let nb := padBlocks t.k
  let z := fmtBits t.fmt
  let elems := (List.range rp).flatMap fun i =>
    (List.range (nb * z)).map fun o => if i < t.rows && o < t.row then t.bytes (i * t.row + o) else 0
  let scales := (List.range rp).flatMap fun i => (List.range nb).map fun j => t.scale i j
  asBytes elems ++ asBytes scales ++ (List.range (ceilDiv rp 64)).flatMap fun b => bytesLE 2 (t.band b)

/-- Alignment of some block of a planed load discarded a nonzero bit (02 R51). -/
def loadNx (t : TileSrc) (planes : Nat) : Bool :=
  (List.range t.rows).any fun i => (List.range (ceilDiv t.k 8)).any fun j => (t.aligned planes i j).nx

/-- `tload` at issue (R187); a tile whose page list finds no room in the pool waits (16 R351) (log entry 29). -/
def tload (mn : String) (planed : Bool) (d a : TReg) (b : GReg) (s : State) : Out :=
  issueU s mn [opT 0 d, opT 1 a, rdG 2 b] fun x =>
    let h := x.k.readT d.toNat
    let planes := if planed then hPlanes h else 0
    if x.badHandle d.toNat [if planed then 2 else 1] then x.handle 0x10 d.toNat
    else if x.badHandle a.toNat [3] then x.handle 0x10 a.toNat
    else if x.tileWait || x.recordBusy a.toNat (x.g b) then .next x.s
    else
      let r := x.record a.toNat (x.g b) 8 .load fun r =>
        r.ext2 != 1 || decide (2048 < r.ext1) || r.fmt == 8 || (planed && decide (planes < minPlanes r.fmt))
      let size := (layoutOf planed planes r.1.fmt r.1.ext1 r.1.ext0).size
      if r.2 != 0 then x.handle r.2 a.toNat ((x.g b).toNat % 256)
      else if hBytes h < size then x.handle 0x12 d.toNat
      else
        match x.s.checkRuns x.f.core x.k.ctx .matrix .load (pagePieces (r.1.elementRuns ++ r.1.scaleRuns)) with
        | .error e =>
          let t := x.s.afterRuns x.f.core x.k.ctx .matrix .load (pagePieces (r.1.elementRuns ++ r.1.scaleRuns))
          ({ x with s := t } : Iss).tileFault .matrix false e.1 e.2
        | .ok t =>
          let kind : OpKind := .tload planed planes (hByte h) r.1.fmt r.1.smode r.1.ext0 r.1.ext1 size t.2
          match t.1.listPages x.f.core x.f.slot x.k.nextOp x.k.ctx (pagePieces (r.1.elementRuns ++ r.1.scaleRuns)) with
          | none => .next x.s
          | some s => ({ x with s := s } : Iss).done (x.k.addOp (x.engineOp .tl .matrix kind)) x.sp

/-- TLOAD_P (R187). -/
def execTloadP (d a : TReg) (b : GReg) (s : State) : Out := tload "TLOAD_P" true d a b s
/-- TLOAD_R (R187). -/
def execTloadR (d a : TReg) (b : GReg) (s : State) : Out := tload "TLOAD_R" false d a b s

/-- TSTORE (R188) (log entry 29). -/
def execTstore (d a : TReg) (b : GReg) (s : State) : Out :=
  issueU s "TSTORE" [opT 0 d, opT 1 a, rdG 2 b] fun x =>
    let h := x.k.readT d.toNat
    if x.badHandle d.toNat [1] then x.handle 0x10 d.toNat
    else if x.badHandle a.toNat [3] then x.handle 0x10 a.toNat
    else if x.tileWait || x.recordBusy a.toNat (x.g b) then .next x.s
    else
      let r := x.record a.toNat (x.g b) 8 (.elements true) fun _ => false
      if r.2 != 0 then x.handle r.2 a.toNat ((x.g b).toNat % 256)
      else if hBytes h < r.1.elementBytes then x.handle 0x12 d.toNat
      else
        match x.s.checkRuns x.f.core x.k.ctx .matrix .store (pagePieces r.1.elementRuns) with
        | .error e =>
          let t := x.s.afterRuns x.f.core x.k.ctx .matrix .store (pagePieces r.1.elementRuns)
          ({ x with s := t } : Iss).tileFault .matrix true e.1 e.2
        | .ok t =>
          let kind : OpKind := .tstore (hByte h) r.1.elementBytes t.2
          match t.1.listPages x.f.core x.f.slot x.k.nextOp x.k.ctx (pagePieces r.1.elementRuns) with
          | none => .next x.s
          | some s => ({ x with s := s } : Iss).commit.done (x.k.addOp (x.engineOp .tl .matrix kind)) x.sp

/-! ### Completion (R177) -/

/-- A tile load's effect (R187): it reads through the L2; the padding after the header is zero in a planed layout (14 R311) (log entry
21). -/
def State.finishTload (s : State) (core : Nat) (planed : Bool) (planes base fmt smode k rows : Nat) (runs : Runs) : State :=
  let bs := s.runBytes runs
  let t : TileSrc := { bytes := fun n => (bs.getD n 0).toNat, fmt := fmt, smode := smode, k := k, rows := rows }
  let s := s.useRuns core 0 runs
  let gap := if planed then (List.replicate 64 0, s) else s.freeBytes 64
  let out := tileHeader fmt (if planed then planes else 0) smode rows k ++ gap.1 ++
    (if planed then planedBytes t planes else parallelBytes t)
  let c := gap.2.core core
  gap.2.setCore core { c with sram := c.sram.writeList base out }

/-- The flags a tile load leaves in its pack (02 R51). -/
def tloadFlags (s : State) (planed : Bool) (planes fmt smode k rows : Nat) (runs : Runs) : Nat :=
  let bs := s.runBytes runs
  let t : TileSrc := { bytes := fun n => (bs.getD n 0).toNat, fmt := fmt, smode := smode, k := k, rows := rows }
  if planed && loadNx t planes then fNX else 0

/-- Every element of a granule. -/
def elements1024 : List (Nat × Nat) := (List.range 32).flatMap fun i => (List.range 32).map fun j => (i, j)

/-- Replace granule `d` by a function of its elements. -/
def Pack.setGranule (k : Pack) (d : Nat) (f : Nat → Nat → Word) : Pack :=
  elements1024.foldl (fun k e => k.setAcc d e.1 e.2 (f e.1 e.2)) k

/-- A granule operation's effect on the pack (R198): clear, copy, or load from the region. -/
def Pack.finishAcc (k : Pack) (sram : Bytes) (fn d a base : Nat) : Pack :=
  match fn with
  | 0 => k.setGranule d fun _ _ => 0
  | 1 => k.setGranule d fun i j => k.readAcc a i j
  | 3 => k.setGranule d fun i j => BitVec.ofNat 32 (sram.readLE (base + 128 * i + 4 * j) 4)
  | _ => k

/-- The bytes of a granule (01 R36). -/
def Pack.granuleBytes (k : Pack) (a : Nat) : List Byte := elements1024.flatMap fun e => bytesLE 4 (k.readAcc a e.1 e.2).toNat

/-- The operations outstanding of the joint or cooperative set `joint`, with their cores and slots (R193, R197). -/
def State.jointOps (s : State) (joint : Nat) : List (Nat × Nat × PendOp) :=
  s.cores.flatMap fun c => c.2.packs.flatMap fun p =>
    (p.2.ops.filter fun o => !o.done && match o.kind with
      | .tile _ _ _ _ _ j => j == joint
      | _ => false).map fun o => (c.1, p.1, o)

/-- An operation whose results are known leaves them: scratchpad bytes, accumulator words and flags (R193, R197, R200). -/
def State.endTile (s : State) (core slot : Nat) (o : PendOp) : State :=
  match o.kind with
  | .tile _ _ bytes words flags _ =>
    let c := s.core core
    let s := s.setCore core { c with sram := bytes.foldl (fun m b => Bytes.writeList m b.1 b.2) c.sram }
    s.modPack core slot fun k =>
      (({ k with acc := words.foldl (fun (m : Words) (w : Nat × Word) => m.set w.1 w.2) k.acc } : Pack).orFlags flags).setOp
        { o with done := true }
  | _ => s

/-- TILE_OP_COMPLETION (R177): in the core's order of issue among operations that touch the same bytes or granules. A `tstore` writes all its
bytes at its completion (R188) (log entry 81); the parts of a joint or cooperative set complete at once (R193, R197). -/
def execTileOpCompletion (core slot op : Nat) (s : State) : Out :=
  withOp "TILE_OP_COMPLETION" s core slot op fun k o =>
    if o.done || (s.core core).tileBusy slot o.kind.spans o.kind.grans o.stamp || s.detHeld core o then none
    else
      let o' := { o with done := true }
      let c := s.core core
      match o.kind with
      | .tload planed planes base fmt smode ext0 ext1 _ runs =>
        let k := (k.orFlags (BitVec.ofNat 32 (tloadFlags s planed planes fmt smode ext0 ext1 runs))).setOp o'
        some (((s.finishTload core planed planes base fmt smode ext0 ext1 runs).setPack core slot k).unlist core slot op)
      | .tstore base n runs =>
        let s := s.writeRuns .matrix k core runs (c.sram.readList base n)
        some ((s.modPack core slot fun k => k.setOp o').unlist core slot op)
      | .acc fn d a base =>
        let s := if fn = 4 then s.setCore core { c with sram := c.sram.writeList base (k.granuleBytes a) } else s
        some (s.setPack core slot ((k.finishAcc c.sram fn d a base).setOp o'))
      | .tile _ _ _ _ _ 0 => some (s.endTile core slot o)
      | .tile _ _ _ _ _ joint =>
        let parts := s.jointOps joint
        if parts.any fun p => (s.core p.1).tileBusy p.2.1 p.2.2.kind.spans p.2.2.kind.grans p.2.2.stamp then none
        else some (parts.foldl (fun s p => s.endTile p.1 p.2.1 p.2.2) s)
      | _ => none

end Sys2Proof.Machine
end

