-- ==== Sys2Proof/Machine/Acc.lean ====
section
/-!
DEFINITION. Accumulator operations and the epilogue (07 R198–R201), and the FPX record of matrix results (02 R66).
-/

namespace Sys2Proof.Machine

/-- A result element of a matrix instruction: its pack, its position, its flags (02 R66). -/
structure Hit where
  group : Nat
  lpack : Nat
  row : Nat
  col : Nat
  flags : Nat
  deriving DecidableEq, Repr

/-- The key by which a culprit is chosen: logical group, logical pack, then position (02 R66). -/
def Hit.key (h : Hit) : Nat := (h.group * 2 ^ 16 + h.lpack) * 2 ^ 24 + h.row * 1024 + h.col

/-- The flags raised by some results. -/
def hitFlags (hs : List Hit) : Nat := hs.foldl (fun f h => f ||| h.flags) 0

/-- The FPX cause word of matrix results under the enables `te`, none where no result raised an enabled flag (02 R65, R66). `nx` holds the
flags that alignment raised in the window: they are among RAISED and TRAPPED, and raise no FPX of their own (02 R51). -/
def matrixFpx (te : Nat) (hs : List Hit) (nx : Nat := 0) : Option Nat :=
  let raised := hitFlags hs ||| nx
  let trapped := raised &&& te
  if hitFlags hs &&& te = 0 then none
  else
    match sortBy Hit.key (hs.filter fun h => (h.flags &&& trapped) != 0) with
    | [] => none
    | c :: rest =>
      let count := (rest.map fun h => flagCount (h.flags &&& trapped)).sum
      some (raised + trapped * 2 ^ 5 + 2 ^ 18 + c.col % 1024 * 2 ^ 19 + c.group % 2 ^ 32 * 2 ^ 32 + c.lpack % 65536 * 2 ^ 64 +
        c.row % 2048 * 2 ^ 80 + min count (2 ^ 32 - 1) * 2 ^ 96)

/-- A granule operation outstanding under TLC. -/
def accIssue (mn : String) (os : List Operand) (tile : Option Nat) (fn d a : Nat) (s : State) : Out :=
  issueU s mn os fun x =>
    match tile with
    | some t =>
      if x.badHandle t [1] then x.handle 0x10 t
      else if x.tileWait then .next x.s
      else x.done (x.k.addOp (x.engineOp .tl .matrix (.acc fn d a (hByte (x.k.readT t))))) x.sp
    | none =>
      if x.tileWait then .next x.s else x.done (x.k.addOp (x.engineOp .tl .matrix (.acc fn d a 0))) x.sp

/-- ACLR (R198). -/
def execAclr (d : AReg) (s : State) : Out := accIssue "ACLR" [opA 0 d] none 0 d.toNat 0 s
/-- AMOV (R198). -/
def execAmov (d a : AReg) (s : State) : Out := accIssue "AMOV" [opA 0 d, opA 1 a] none 1 d.toNat a.toNat s
/-- ALD (R198). -/
def execAld (d : AReg) (a : TReg) (s : State) : Out := accIssue "ALD" [opA 0 d, opT 1 a] (some a.toNat) 3 d.toNat 0 s
/-- AST (R198). -/
def execAst (d : TReg) (a : AReg) (s : State) : Out := accIssue "AST" [opT 0 d, opA 1 a] (some d.toNat) 4 0 a.toNat s

/-- Granule words by element key. -/
def granuleWords (d : Nat) (f : Nat → Nat → Word) : Words := elements1024.map fun e => (accKey d e.1 e.2, f e.1 e.2)

/-- AADD (R198): earlier tile operations on its granules complete first; FPX by 02 R65. -/
def execAadd (d a : AReg) (s : State) : Out :=
  issueU s "AADD" [opA 0 d, opA 1 a] fun x =>
    let grans := [d.toNat, a.toNat]
    if x.tileWait || (x.s.core x.f.core).tileBusy x.f.slot [] grans x.s.clock then .next x.s
    else
      let sum := fun i j => Fmt.f32.add 0 (f32Of (x.k.readAcc d.toNat i j)) (f32Of (x.k.readAcc a.toNat i j))
      let hits := elements1024.map fun e =>
        ({ group := x.k.group, lpack := x.k.lpack, row := e.1, col := e.2, flags := (sum e.1 e.2).flags } : Hit)
      match matrixFpx x.k.te hits with
      | some w => x.raise x.live 0x0C w
      | none =>
        let words := granuleWords d.toNat fun i j => BitVec.ofNat 32 (sum i j).bits
        x.done (x.k.addOp (x.engineOp .tl .matrix (.tile [] grans [] words (BitVec.ofNat 32 (hitFlags hits))))) x.sp

/-- A tile operation of the pack on a granule is outstanding (R199). -/
def Pack.accBusy (k : Pack) (a : Nat) : Bool := k.ops.any fun o => !o.done && o.cls == .tl && o.kind.grans.contains a

/-- AGET (R199). A false guard still makes its window write, which reads zero (01 R27). -/
def execAget (g : PReg) (d : VReg) (a : AReg) (b : GReg) (s : State) : Out :=
  issue s "AGET" g [wrV 0 d, opA 1 a, rdG 2 b] fun x act =>
    let row := (x.g b).toNat
    if act = 0 then x.doneV d 0 fun _ => 0
    else if 32 ≤ row then x.raise act 0x08 (handleWord 0x1A)
    else if x.k.accBusy a.toNat then .next x.s
    else x.doneV d act fun j => x.k.readAcc a.toNat row j

/-- ASET (R199). -/
def execAset (g : PReg) (d : VReg) (a : AReg) (b : GReg) (s : State) : Out :=
  issue s "ASET" g [rdV 0 d, opA 1 a, rdG 2 b] fun x act =>
    let row := (x.g b).toNat
    if act = 0 then x.done x.k x.sp
    else if 32 ≤ row then x.raise act 0x08 (handleWord 0x1A)
    else if x.k.accBusy a.toNat then .next x.s
    else x.done ((lanesOf act).foldl (fun k j => k.setAcc a.toNat row j (x.v d j)) x.k) x.sp

/-! ### Format words (01 R30, R31) -/

/-- The fields of a format word. -/
def fwA (w : Word) : Nat := cut w.toNat 0 4
def fwB (w : Word) : Nat := cut w.toNat 4 4
def fwPlanes (w : Word) : Nat := cut w.toNat 8 5
def fwAScale (w : Word) : Nat := cut w.toNat 13 2
def fwBScale (w : Word) : Nat := cut w.toNat 15 2
def fwOvw (w : Word) : Bool := bit w.toNat 17
def fwOut (w : Word) : Nat := cut w.toNat 18 4
def fwRnd (w : Word) : Nat := cut w.toNat 22 3

/-- The lowest condition of validity that a format word fails, numbered as CHECK of R192; 0 for a valid word (01 R31). -/
def fwCheck (w : Word) : Nat :=
  let src := fun f => decide (1 ≤ f) && decide (f ≤ 7)
  let p := fwPlanes w
  let conds : List (Nat × Bool) :=
    [(1, !(src (fwA w) && src (fwB w))),
     (2, !(decide (1 ≤ fwOut w) && decide (fwOut w ≤ 8))),
     (3, !(decide (2 ≤ p) && decide (p ≤ 20)) || decide (p < minPlanes (fwA w))),
     (4, (fwA w == 1 && fwAScale w == 0) || (fwB w == 1 && fwBScale w == 0)),
     (5, decide (6 ≤ fwRnd w)),
     (6, cut w.toNat 25 7 != 0),
     (7, fwAScale w == 3 || fwBScale w == 3)]
  ((conds.find? (·.2)).map (·.1)).getD 0

/-- FMTDIV's cause word for an invalid word (R192). -/
def fmtInvalid (w : Word) : Nat := w.toNat + 2 ^ 64 + fwCheck w * 2 ^ 65

/-! ### The epilogue (R200, R201) -/

/-- A product of values with its NV condition: 0 × ∞, or a signalling NaN. -/
def mulExact (a b : Fp) : Fp × Bool :=
  match a, b with
  | .nan s, y => (.nan false, s || y.sig)
  | x, .nan s => (.nan false, s || x.sig)
  | .inf n, y => if y.isZero then (.nan false, true) else (.inf (n != y.neg), false)
  | x, .inf n => if x.isZero then (.nan false, true) else (.inf (n != x.neg), false)
  | .fin n m e, .fin n' m' e' => (.fin (n != n') (m * m') (e + e'), false)

/-- A sum of values with its NV condition: ∞ − ∞, or a signalling NaN; a zero's sign follows 02 R40 (log entry 25). -/
def addExact (rm : Nat) (a b : Fp) : Fp × Bool :=
  match a, b with
  | .nan s, y => (.nan false, s || y.sig)
  | x, .nan s => (.nan false, s || x.sig)
  | .inf n, .inf n' => if n == n' then (.inf n, false) else (.nan false, true)
  | .inf n, _ => (.inf n, false)
  | _, .inf n => (.inf n, false)
  | .fin n m e, .fin n' m' e' =>
    let t := exactAdd n m e n' m' e'
    if t.1 = 0 then (.fin (zeroSign rm n n') 0 e, false) else (.fin (decide (t.1 < 0)) t.1.natAbs t.2, false)

/-- The value is above zero. -/
def Fp.positive : Fp → Bool
  | .nan _ => false
  | .inf n => !n
  | .fin n m _ => !n && m != 0

/-- The activation of R201. -/
def activate (act : Nat) (v : Fp) : Fp :=
  let relu := if v.isNan then v else if v.positive then v else .fin false 0 0
  match act with
  | 1 => relu
  | 2 =>
    match relu with
    | .inf _ => .fin false 6 0
    | .fin _ m e => if (exactAdd false m e true 6 0).1 > 0 then .fin false 6 0 else relu
    | v => v
  | _ => v

/-- Round a value into an output format: its bits and flags (R201, 02 R53, R54). `rnd` 5 draws the word `w`. -/
def roundOut (ofmt rnd w : Nat) (v : Fp) : FRes :=
  match fmtOf ofmt with
  | some t =>
    let sat := ofmt == 1 || ofmt == 2
    match rnd, v with
    | 5, .fin neg m e => t.stochastic neg m e w
    | _, v => t.convert (if rnd = 5 then 0 else rnd) sat v
  | none =>
    let n := fmtBits ofmt
    let lo : Int := -(2 ^ (n - 1) : Nat)
    let r : Int × Nat :=
      match rnd, v with
      | 5, .fin neg m e => stochasticInt neg m e w lo (2 ^ (n - 1) - 1)
      | _, v => toInteger (if rnd = 5 then 0 else rnd) lo (2 ^ (n - 1) - 1) v
    { bits := wrap n r.1, flags := r.2 }
where
  /-- Stochastic rounding to an integer, then the clamp (02 R53, R54). -/
  stochasticInt (neg : Bool) (m : Nat) (e : Int) (w : Nat) (lo hi : Int) : Int × Nat :=
    let q := quant m e 0
    let num := if neg then 2 ^ q.2.2 - q.2.1 else q.2.1
    let up := if w < 2 ^ 32 * num / 2 ^ q.2.2 then !neg else neg
    let n := if q.2.1 = 0 then q.1 else if up then q.1 + 1 else q.1
    let v := signedMant neg n
    if v < lo then (lo, fNV) else if hi < v then (hi, fNV) else (v, if q.2.1 = 0 then 0 else fNX)

/-- The parameters of an epilogue, g[B] to g[B+7] (R200). -/
structure Epi where
  fmt : Word
  p1 : Nat
  p2 : Nat
  call : Nat
  p4 : Nat
  doff : Nat
  p6 : Nat
  p7 : Nat
  deriving DecidableEq, Repr

def Iss.epi (x : Iss) (b : Nat) : Epi :=
  let r := fun j => (x.k.readG (b + j)).toNat
  { fmt := x.k.readG b, p1 := r 1, p2 := r 2, call := r 3, p4 := r 4, doff := r 5, p6 := r 6, p7 := r 7 }

def Epi.act (e : Epi) : Nat := cut e.p1 0 2
def Epi.bias (e : Epi) : Bool := bit e.p1 4
def Epi.band (e : Epi) : Bool := bit e.p1 5
def Epi.biasTile (e : Epi) : Nat := cut e.p4 0 5
def Epi.biasOff (e : Epi) : Nat := 128 * cut e.p4 8 8
/-- The bytes of the output (R200). -/
def Epi.outBytes (e : Epi) : Nat := 1024 * fmtBits (fwOut e.fmt) / 8

/-- Reserved bits, ACT 3 or an unaligned DOFF (R200). -/
def Epi.bad (e : Epi) : Bool :=
  e.act == 3 || cut e.p1 2 2 != 0 || e.p1 / 64 != 0 || e.p2 / 2 ^ 27 != 0 || cut e.p4 5 3 != 0 || e.p4 / 65536 != 0 ||
    e.doff % 128 != 0 || cut e.p6 11 5 != 0 || e.p6 / 2 ^ 26 != 0 || e.p7 != 0

/-- One element of the epilogue (R201): without a bias, +0 is added. -/
def epiElement (e : Epi) (acc : Word) (bias : Nat) (w : Nat) : FRes :=
  let p := if e.band then mulExact (Fmt.bf16.decode (cut e.p2 0 16)) (f32Of acc) else (f32Of acc, (f32Of acc).sig)
  let q := addExact (fwRnd e.fmt) p.1 (if e.bias then Fmt.f32.decode bias else .fin false 0 0)
  let v := activate e.act q.1
  let r := roundOut (fwOut e.fmt) (fwRnd e.fmt) w (match v with
    | .nan _ => .nan false
    | v => v)
  { r with flags := r.flags ||| nvIf (p.2 || q.2) }

/-- Pack elements of `w` bits into bytes, the first in the lowest bits (02 R44). -/
def packBits (w : Nat) (xs : List Nat) : List Byte :=
  bytesLE (xs.length * w / 8) (xs.foldr (fun x acc => x + 2 ^ w * acc) 0)

/-- The epilogue at issue (R200): a bias tile may be of KIND 1 to 3, and a fault of the words that name no tile reports the output tile D (log entry
94). -/
def epilogue (mn : String) (clr : Bool) (d : TReg) (a : AReg) (b : GReg) (s : State) : Out :=
  issueU s mn [opT 0 d, opA 1 a, rdG 2 b 8] fun x =>
    let c := x.s.core x.f.core
    let e := x.epi b.toNat
    let h := x.k.readT d.toNat
    let bh := x.k.readT e.biasTile
    let out := (hByte h + e.doff, e.outBytes)
    let bias := hByte bh + e.biasOff
    let spans := out :: if e.bias then [(bias, 128)] else []
    if fwCheck e.fmt != 0 then x.raise x.live 0x07 (fmtInvalid e.fmt)
    else if x.badHandle d.toNat [1] then x.handle 0x10 d.toNat
    else if e.bad || decide (hBytes h < e.doff + e.outBytes) then x.handle 0x1A d.toNat
    else if e.bias && x.badHandle e.biasTile [1, 2, 3] then x.handle 0x10 e.biasTile
    else if e.bias && decide (hBytes bh < e.biasOff + 128) then x.handle 0x1A e.biasTile
    else if x.tileWait || c.tileBusy x.f.slot spans [a.toNat] x.s.clock then .next x.s
    else
      let row0 := cut e.p6 0 11
      let col0 := cut e.p6 16 10
      let word := fun i j =>
        if fwRnd e.fmt = 5 then
          x.s.generator x.k (x.k.widOf 0) (cut e.p2 16 11) ((row0 + i) * 1024 + (col0 + j)) e.call
        else 0
      let one := fun i j => epiElement e (x.k.readAcc a.toNat i j) (c.sram.readLE (bias + 4 * j) 4) (word i j)
      let rs := elements1024.map fun p => (p.1, p.2, one p.1 p.2)
      let hits := rs.map fun r => ({ group := x.k.group, lpack := x.k.lpack, row := row0 + r.1, col := col0 + r.2.1, flags := r.2.2.flags } : Hit)
      match matrixFpx x.k.te hits with
      | some w => x.raise x.live 0x0C w
      | none =>
        let bytes := packBits (fmtBits (fwOut e.fmt)) (rs.map fun r => r.2.2.bits)
        let words := if clr then granuleWords a.toNat fun _ _ => 0 else []
        let kind : OpKind := .tile spans [a.toNat] [(out.1, bytes)] words (BitVec.ofNat 32 (hitFlags hits))
        x.done (x.k.addOp (x.engineOp .tl .matrix kind)) x.sp

/-- AEPI (R200). -/
def execAepi (d : TReg) (a : AReg) (b : GReg) (s : State) : Out := epilogue "AEPI" false d a b s
/-- AEPI_CLR (R200). -/
def execAepiClr (d : TReg) (a : AReg) (b : GReg) (s : State) : Out := epilogue "AEPI_CLR" true d a b s

end Sys2Proof.Machine
end

