-- ==== Sys2Proof/Machine/Memory.lean ====
section
/-!
DEFINITION. Loads and stores (06 R148–R156): lane, uniform, polling, gather, scatter and compress forms, and the completion of
loads and stores.
-/

namespace Sys2Proof.Machine

/-! ### Lane loads and stores (R148) -/

/-- The requests of the active lanes at the addresses of the pair `a` plus an offset. -/
def Iss.laneReqs (x : Iss) (act : Mask) (a : VReg) (off : DWord) (data aux : Nat → Nat) : List Req :=
  (lanesOf act).map fun i => { lane := i, va := x.k.readV64 x.sp a.toNat i + off, data := data i, aux := aux i }

/-- Lane `i` of `n` registers from `r`, as one number, the first register least significant. -/
def Iss.laneData (x : Iss) (r n i : Nat) : Nat :=
  (List.range n).foldr (fun j acc => (x.k.readV x.sp (r + j) i).toNat + 2 ^ 32 * acc) 0

/-- A lane load of `size` bytes. -/
def laneLoad (mn : String) (size : Nat) (sext : Bool) (off : List Word → DWord) (g : PReg) (d a : VReg) (s : State) : Out :=
  issue s mn g [wrV 0 d ((size + 3) / 4), rdV 1 a 2] fun x act =>
    x.access act { cls := .ld, use := .load, size := size, align := size, kind := .load d.toNat size sext }
      (x.laneReqs act a (off x.sp.hints) (fun _ => 0) fun _ => 0)

/-- A lane store of `size` bytes. -/
def laneStore (mn : String) (size : Nat) (off : List Word → DWord) (g : PReg) (d a : VReg) (s : State) : Out :=
  issue s mn g [rdV 0 d ((size + 3) / 4), rdV 1 a 2] fun x act =>
    x.access act { cls := .st, use := .store, size := size, align := size, kind := .store size }
      (x.laneReqs act a (off x.sp.hints) (x.laneData d.toNat ((size + 3) / 4)) fun _ => 0)

/-- A polling load of `size` bytes: the value its destination held goes with each lane (R153). -/
def pollLoad (mn : String) (size : Nat) (g : PReg) (d a : VReg) (s : State) : Out :=
  issue s mn g [wrV 0 d (size / 4), rdV 1 a 2] fun x act =>
    x.access act { cls := .ld, use := .load, size := size, align := size, kind := .poll d.toNat size }
      (x.laneReqs act a (offF x.sp.hints) (fun _ => 0) (x.laneData d.toNat (size / 4))) true

/-- LD_B32 (R148). -/
def execLdB32 (g : PReg) (d a : VReg) (i : BitVec 8) (s : State) : Out := laneLoad "LD_B32" 4 false (offI · i) g d a s
/-- ST_B32 (R148). -/
def execStB32 (g : PReg) (d a : VReg) (i : BitVec 8) (s : State) : Out := laneStore "ST_B32" 4 (offI · i) g d a s
/-- LD_B8 (R148). -/
def execLdB8 (g : PReg) (d a : VReg) (s : State) : Out := laneLoad "LD_B8" 1 false offF g d a s
/-- LD_S8 (R148). -/
def execLdS8 (g : PReg) (d a : VReg) (s : State) : Out := laneLoad "LD_S8" 1 true offF g d a s
/-- LD_B16 (R148). -/
def execLdB16 (g : PReg) (d a : VReg) (s : State) : Out := laneLoad "LD_B16" 2 false offF g d a s
/-- LD_S16 (R148). -/
def execLdS16 (g : PReg) (d a : VReg) (s : State) : Out := laneLoad "LD_S16" 2 true offF g d a s
/-- LD_B64 (R148). -/
def execLdB64 (g : PReg) (d a : VReg) (s : State) : Out := laneLoad "LD_B64" 8 false offF g d a s
/-- LD_B128 (R148). -/
def execLdB128 (g : PReg) (d a : VReg) (s : State) : Out := laneLoad "LD_B128" 16 false offF g d a s
/-- LDP_B32 (R153). -/
def execLdpB32 (g : PReg) (d a : VReg) (s : State) : Out := pollLoad "LDP_B32" 4 g d a s
/-- LDP_B64 (R153). -/
def execLdpB64 (g : PReg) (d a : VReg) (s : State) : Out := pollLoad "LDP_B64" 8 g d a s
/-- ST_B8 (R148). -/
def execStB8 (g : PReg) (d a : VReg) (s : State) : Out := laneStore "ST_B8" 1 offF g d a s
/-- ST_B16 (R148). -/
def execStB16 (g : PReg) (d a : VReg) (s : State) : Out := laneStore "ST_B16" 2 offF g d a s
/-- ST_B64 (R148). -/
def execStB64 (g : PReg) (d a : VReg) (s : State) : Out := laneStore "ST_B64" 8 offF g d a s
/-- ST_B128 (R148). -/
def execStB128 (g : PReg) (d a : VReg) (s : State) : Out := laneStore "ST_B128" 16 offF g d a s

/-! ### Uniform loads and stores (R149) -/

/-- The one request of a uniform access at the pair `a` plus an offset. -/
def Iss.uniReq (x : Iss) (a : GReg) (off : DWord) (data : Nat) : List Req :=
  [{ lane := 0, va := x.k.readG64 a.toNat + off, data := data }]

/-- A uniform load of `size` bytes. -/
def uniLoad (mn : String) (size : Nat) (off : List Word → DWord) (d a : GReg) (s : State) : Out :=
  issueU s mn [wrG 0 d (size / 4), rdG 1 a 2] fun x =>
    x.access x.live { cls := .ld, use := .load, size := size, align := size, kind := .loadU d.toNat size }
      (x.uniReq a (off x.sp.hints) 0)

/-- A uniform store of `size` bytes. -/
def uniStore (mn : String) (size : Nat) (off : List Word → DWord) (d a : GReg) (s : State) : Out :=
  issueU s mn [rdG 0 d (size / 4), rdG 1 a 2] fun x =>
    x.access x.live { cls := .st, use := .store, size := size, align := size, kind := .store size }
      (x.uniReq a (off x.sp.hints) (x.k.readG64 d.toNat).toNat)

/-- LDU_B32 (R149). -/
def execLduB32 (d a : GReg) (i : BitVec 8) (s : State) : Out := uniLoad "LDU_B32" 4 (offI · i) d a s
/-- STU_B32 (R149). -/
def execStuB32 (d a : GReg) (i : BitVec 8) (s : State) : Out := uniStore "STU_B32" 4 (offI · i) d a s
/-- LDU_B64 (R149). -/
def execLduB64 (d a : GReg) (s : State) : Out := uniLoad "LDU_B64" 8 offF d a s
/-- STU_B64 (R149). -/
def execStuB64 (d a : GReg) (s : State) : Out := uniStore "STU_B64" 8 offF d a s

/-! ### Gather and scatter (R154) -/

/-- The address of a lane's word: base plus 4 times an unsigned index. -/
def gatherAddr (base : DWord) (index : Word) : DWord := base + index.setWidth 64 * 4

/-- The requests of a gather or scatter. -/
def Iss.gatherReqs (x : Iss) (act : Mask) (base : DWord) (b : VReg) (data : Nat → Nat) : List Req :=
  (lanesOf act).map fun i => { lane := i, va := gatherAddr base (x.v b i), data := data i }

/-- GATHER_B32 (R154). -/
def execGatherB32 (g : PReg) (d : VReg) (a : GReg) (b : VReg) (s : State) : Out :=
  issue s "GATHER_B32" g [wrV 0 d, rdG 1 a 2, rdV 2 b] fun x act =>
    x.access act { cls := .ld, path := .gather, use := .load, size := 4, align := 4, kind := .load d.toNat 4 false }
      (x.gatherReqs act (x.k.readG64 a.toNat) b fun _ => 0)

/-- SCATTER_B32 (R154). -/
def execScatterB32 (g : PReg) (d : VReg) (a : GReg) (b : VReg) (s : State) : Out :=
  issue s "SCATTER_B32" g [rdV 0 d, rdG 1 a 2, rdV 2 b] fun x act =>
    x.access act { cls := .st, path := .gather, use := .store, size := 4, align := 4, kind := .store 4 }
      (x.gatherReqs act (x.k.readG64 a.toNat) b fun i => (x.v d i).toNat)

/-! ### Compress-store (R155, R156) -/

/-- The elements of a compress-store: the active lanes in ascending order at consecutive addresses. -/
def Iss.elemReqs (x : Iss) (act : Mask) (base : DWord) (size : Nat) (a : VReg) : List Req :=
  (lanesOf act).zipIdx.map fun p =>
    { lane := p.1, va := base + BitVec.ofNat 64 (p.2 * size), data := x.laneData a.toNat (size / 4) p.1 }

/-- The mask of the requests' lanes. -/
def reqLanes (l : List Req) : Mask := maskOf (l.map (·.lane))

/-- A compress-store of `size`-byte elements: where element k fails, the elements before it are stored, the address moves past
them, their guard bits clear, and the trap is raised with ELEM k (R156). -/
def compressStore (mn : String) (size : Nat) (g : PReg) (d : GReg) (a : VReg) (s : State) : Out :=
  issue s mn g [rdG 0 d 2, rdV 1 a (size / 4)] fun x act =>
    let acc : Acc := { cls := .st, use := .store, size := size, align := size, kind := .store size }
    let base := x.k.readG64 d.toNat
    let reqs := x.elemReqs act base size a
    if x.mustWait acc then .next x.s
    else if reqs.isEmpty then x.commit.done (x.k.addIdle (x.pend acc [])) x.sp
    else
      let check := x.s.checkAll x.f.core x.k.ctx .lane size size .store
      let t := check reqs
      let good := t.2.takeWhile fun p => match p.2 with
        | .ok _ => true
        | .error _ => false
      let n := good.length
      let op := x.pend acc (laneAccs good)
      if op.sc && x.unperformed then .next x.s
      else
        let k := if n = 0 then x.k else x.k.addOp op
        let k := k.setG64 d.toNat (base + BitVec.ofNat 64 (n * size))
        match failures t.2 with
        | [] => ({ x with s := t.1 } : Iss).commit.done k x.sp
        | fs =>
          let k := if n = 0 then x.k else k.setP g (reqLanes (reqs.take n)) 0
          let x := { x with s := t.1, k := k }
          (if 0 < n then x.commit else x).memTrap act .lane true n (decide (0 < n)) fs

/-- CSTORE_B32 (R155). -/
def execCstoreB32 (g : PReg) (d : GReg) (a : VReg) (s : State) : Out := compressStore "CSTORE_B32" 4 g d a s
/-- CSTORE_B64 (R155). -/
def execCstoreB64 (g : PReg) (d : GReg) (a : VReg) (s : State) : Out := compressStore "CSTORE_B64" 8 g d a s

/-! ### Failing lanes (R152, R153) -/

/-- The lanes of an operation that failed. -/
def PendOp.failing (o : PendOp) : Mask := maskOf ((o.lanes.filter fun l => l.aux != 0).map (·.lane))

/-- In deterministic mode a READY split that yields its turn waits until its pack is next current (09 R252, R253). -/
def State.yieldTurn (s : State) (core slot split : Nat) : State :=
  if s.detCore core then
    s.modPack core slot fun k =>
      k.modSplit split fun sp => if sp.status == .ready then { sp with stall := some .yielded } else sp
  else s

/-- Divide off and demote the lanes that failed a `cas` or `ldp` (R152, 09 R240): when every one of its active lanes fails, or no entry
can be had, the split is demoted whole; otherwise the lanes that stay are no longer demoted. The new split takes an entry of its own. -/
def State.vote (s : State) (core slot : Nat) (k : Pack) (sp : Split) (act fail : Mask) (polls : Bool) : State :=
  let sp := { sp with await := none }
  let k := k.setSplit sp
  let fail := fail &&& k.live sp
  if fail = 0 then s.setPack core slot (k.promote sp.id)
  else if (act &&& k.live sp &&& ~~~fail) = 0 then
    let s := s.setPack core slot (k.demote sp.id)
    if polls then s.yieldTurn core slot sp.id else s
  else
    match s.takeEntries core slot k sp.id 1 with
    | .error _ => s.setPack core slot (k.demote sp.id)
    | .ok (s, k, spilled) =>
      let c := { sp with id := k.freshId, mask := fail, demoted := true, stamp := s.clock, spill := none, spillImage := [] }
      let k := (k.modSplit sp.id fun sp => { sp with mask := sp.mask &&& ~~~fail }).promote sp.id
      let t := addKids s { k with order := k.order ++ [c.id] } [c] spilled
      { t.1.setPack core slot t.2 with clock := s.clock + 1 }

/-- An operation that a split awaits is done: its failing lanes are dealt with. -/
def State.settle (s : State) (core slot : Nat) (o : PendOp) : State :=
  if !o.done then s
  else
    match s.pack core slot with
    | none => s
    | some k =>
      match (k.splits.map (·.2)).find? fun sp => sp.await == some o.id with
      | none => s
      | some sp =>
        s.vote core slot k sp (maskOf (o.lanes.map (·.lane))) o.failing (match o.kind with
          | .poll .. => true
          | _ => false)

/-! ### Completion (R146) -/

/-- Read one lane's part of a load: the value, and what the split has then seen. -/
def State.loadPart (s : State) (core : Nat) (o : PendOp) (seen : Table Nat) (age : Nat) (l : LaneAcc) : Nat × Table Nat :=
  match o.kind.space with
  | some (true, n) => ((s.core core).sram.readLE l.pa n, seen)
  | some (false, n) => if o.path == .lane then s.laneRead seen age l.pa n else (s.physRead l.pa n, s.seeOwn seen l.pa n)
  | none => (0, seen)

/-- Write one lane's loaded value. -/
def Pack.bindLoad (k : Pack) (o : PendOp) (l : LaneAcc) (v : Nat) : Pack :=
  match o.kind with
  | .load d n sext => k.putLoaded d l.lane n v sext
  | .poll d n => k.putLoaded d l.lane n v false
  | .loadS d => k.putLoaded d l.lane 4 v false
  | .loadU d n => if n = 8 then k.setG64 d (BitVec.ofNat 64 v) else k.setG d (BitVec.ofNat 32 v)
  | _ => k

/-- Perform a load for some lanes: the pack with the values, the split's seen table, and the operation. A polling lane fails
when the value is the one its destination held (R153). -/
def State.performLoads (s : State) (core : Nat) (o : PendOp) (age : Nat) :
    List LaneAcc → Pack → Table Nat → PendOp → Pack × Table Nat × PendOp
  | [], k, seen, p => (k, seen, p)
  | l :: r, k, seen, p =>
    let v := s.loadPart core o seen age l
    let mark := fun (l : LaneAcc) => match o.kind with
      | .poll .. => { l with aux := if v.1 = l.aux then 1 else 0 }
      | _ => l
    s.performLoads core o age r (k.bindLoad o l v.1) v.2 (p.perform mark (1#32 <<< l.lane))

/-- Record what the splits on whose behalf an operation is performed have seen (11 R276). -/
def Pack.sees (k : Pack) (o : PendOp) (seen : Table Nat) : Pack :=
  { k with splits := k.splits.map fun e => if o.actsFor e.2 then (e.1, { e.2 with seen := maxTable e.2.seen seen }) else e }

/-- What the splits on whose behalf an operation is performed have seen. -/
def Pack.seenBy (k : Pack) (o : PendOp) : Table Nat :=
  ((k.splits.map (·.2)).filter fun sp => o.actsFor sp).foldl (fun t sp => maxTable t sp.seen) []

/-- The cache directories after a load of these lanes. -/
def State.cacheLoads (s : State) (core : Nat) (o : PendOp) (ls : List LaneAcc) : State :=
  match o.kind.space with
  | some (false, _) =>
    ls.foldl (fun s l =>
      if !inDevice l.pa 1 then s
      else if o.path == .lane then s.cacheLoad core o.pol (l.pa / 128)
      else s.useL2 (clusterOf core) (cut o.pol 2 2) (l.pa / 128)) s
  | _ => s

/-- LOAD_COMPLETION (R146): the values of some lanes are bound and written. `age` chooses among the values 11 R285 allows. -/
def execLoadCompletion (core slot op : Nat) (lanes : Mask) (age : Nat) (s : State) : Out :=
  withOp "LOAD_COMPLETION" s core slot op fun k o =>
    if o.kind.loads && k.mayPerform o lanes && !s.detHeld core o then
      let ls := o.picked lanes
      let t := s.performLoads core o age ls k (k.seenBy o) o
      let s := s.cacheLoads core o ls
      some ((s.setPack core slot ((t.1.setOp t.2.2).sees o t.2.1)).settle core slot t.2.2)
    else none

/-- Apply one lane's part of a store. -/
def State.storePart (s : State) (core : Nat) (k : Pack) (o : PendOp) (l : LaneAcc) : State :=
  match o.kind.space with
  | some (true, n) => s.setCore core { s.core core with sram := (s.core core).sram.writeLE l.pa n l.data }
  | some (false, n) =>
    if o.path == .lane then s.devWrite core k.ctx l.pa n l.data l.attr o.pol
    else s.engineWrite o.path k core l.pa l.attr (bytesLE n l.data) o.pol
  | none => s

/-- The split sees its own store. -/
def State.storeSeen (s : State) (o : PendOp) (seen : Table Nat) (l : LaneAcc) : Table Nat :=
  match o.kind.space with
  | some (false, n) => if o.path == .lane then s.seeOwn seen l.pa n else seen
  | _ => seen

/-- STORE_COMPLETION (R146): the stores of some lanes are performed, the highest lane on the same bytes last (R148); a
deterministic atomic's contributions stand accepted (R160). -/
def execStoreCompletion (core slot op : Nat) (lanes : Mask) (s : State) : Out :=
  withOp "STORE_COMPLETION" s core slot op fun k o =>
    let isStore := match o.kind with
      | .store _ => true
      | .storeS => true
      | .adet => true
      | _ => false
    if isStore && k.mayPerform o lanes && !s.detHeld core o then
      let ls := o.picked lanes
      let seen := ls.foldl (fun t l => s.storeSeen o t l) (k.seenBy o)
      let s := ls.foldl (fun s l => s.storePart core k o l) s
      some (s.modPack core slot fun k => (k.setOp (o.perform id lanes)).sees o seen)
    else none

end Sys2Proof.Machine
end

