-- ==== Sys2Proof/Machine/Atomics.lean ====
section
/-!
DEFINITION. Atomics (06 R150–R152): the new value at the address, the issue of each form, and their completion at the point of
coherence.
-/

namespace Sys2Proof.Machine

/-- The bytes an atomic accesses (R150). -/
def atomSize (fn : Nat) : Nat := if fn = 11 || fn = 12 then 8 else 4

/-- The registers that D names: the operand, or a compare value and a new one (R150). -/
def atomRegs (fn : Nat) : Nat := if fn = 12 then 4 else if fn = 9 || fn = 11 then 2 else 1

/-- The value an atomic leaves where `m` stood, for operand `b` (for `cas` the compare value) and new value `n` (R150). -/
def atomNew (fn m b n : Nat) : Nat :=
  match fn with
  | 0 => (m + b) % 2 ^ 32
  | 1 => m &&& b
  | 2 => m ||| b
  | 3 => m ^^^ b
  | 4 => if signedOf 32 b < signedOf 32 m then b else m
  | 5 => if signedOf 32 m < signedOf 32 b then b else m
  | 6 => min m b
  | 7 => max m b
  | 8 => b
  | 10 => (Fmt.f32.add 0 (Fmt.f32.decode m) (Fmt.f32.decode b)).bits
  | 11 => (m + b) % 2 ^ 64
  | _ => if m = b then n else m

/-- The function compares, and so can fail. -/
def atomCompares (fn : Nat) : Bool := fn == 9 || fn == 12

/-- Issue an atomic: with `nr` nothing is written and STC counts it in place of LDC (R141, R150). A `cas` holds its split until
its lanes are known (R152). -/
def atomIssue (mn : String) (fn : Nat) (g : PReg) (d a : VReg) (nr : BitVec 1) (s : State) : Out :=
  let w := atomSize fn / 4
  issue s mn g [rdV 0 d (atomRegs fn), rdV 1 a 2] fun x act =>
    x.access act
      { cls := if nr = 1 then .st else .ld, use := .atomic, size := atomSize fn, align := atomSize fn
        kind := .atomic fn (if nr = 1 then none else some d.toNat) }
      (x.laneReqs act a 0 (x.laneData d.toNat w) (if atomCompares fn then x.laneData (d.toNat + w) w else fun _ => 0))
      (atomCompares fn)

/-- ATOM_ADD_I32 (R150). -/
def execAtomAddI32 (g : PReg) (d a : VReg) (n : BitVec 1) (s : State) : Out := atomIssue "ATOM_ADD_I32" 0 g d a n s
/-- ATOM_AND_B32 (R150). -/
def execAtomAndB32 (g : PReg) (d a : VReg) (n : BitVec 1) (s : State) : Out := atomIssue "ATOM_AND_B32" 1 g d a n s
/-- ATOM_OR_B32 (R150). -/
def execAtomOrB32 (g : PReg) (d a : VReg) (n : BitVec 1) (s : State) : Out := atomIssue "ATOM_OR_B32" 2 g d a n s
/-- ATOM_XOR_B32 (R150). -/
def execAtomXorB32 (g : PReg) (d a : VReg) (n : BitVec 1) (s : State) : Out := atomIssue "ATOM_XOR_B32" 3 g d a n s
/-- ATOM_MIN_I32 (R150). -/
def execAtomMinI32 (g : PReg) (d a : VReg) (n : BitVec 1) (s : State) : Out := atomIssue "ATOM_MIN_I32" 4 g d a n s
/-- ATOM_MAX_I32 (R150). -/
def execAtomMaxI32 (g : PReg) (d a : VReg) (n : BitVec 1) (s : State) : Out := atomIssue "ATOM_MAX_I32" 5 g d a n s
/-- ATOM_MINU_I32 (R150). -/
def execAtomMinuI32 (g : PReg) (d a : VReg) (n : BitVec 1) (s : State) : Out := atomIssue "ATOM_MINU_I32" 6 g d a n s
/-- ATOM_MAXU_I32 (R150). -/
def execAtomMaxuI32 (g : PReg) (d a : VReg) (n : BitVec 1) (s : State) : Out := atomIssue "ATOM_MAXU_I32" 7 g d a n s
/-- ATOM_XCHG_B32 (R150). -/
def execAtomXchgB32 (g : PReg) (d a : VReg) (n : BitVec 1) (s : State) : Out := atomIssue "ATOM_XCHG_B32" 8 g d a n s
/-- ATOM_CAS_B32 (R150). -/
def execAtomCasB32 (g : PReg) (d a : VReg) (n : BitVec 1) (s : State) : Out := atomIssue "ATOM_CAS_B32" 9 g d a n s
/-- ATOM_ADD_F32 (R150). -/
def execAtomAddF32 (g : PReg) (d a : VReg) (n : BitVec 1) (s : State) : Out := atomIssue "ATOM_ADD_F32" 10 g d a n s
/-- ATOM_ADD_I64 (R150). -/
def execAtomAddI64 (g : PReg) (d a : VReg) (n : BitVec 1) (s : State) : Out := atomIssue "ATOM_ADD_I64" 11 g d a n s
/-- ATOM_CAS_B64 (R150). -/
def execAtomCasB64 (g : PReg) (d a : VReg) (n : BitVec 1) (s : State) : Out := atomIssue "ATOM_CAS_B64" 12 g d a n s

/-! ### Completion (R151) -/

/-- Perform an atomic for some lanes in ascending order: each reads what the one before left, writes, and gets the old value. A
lane of `cas` fails when the compare value differs. -/
def State.performAtomics (s : State) (core fn : Nat) (dst : Option Nat) (o : PendOp) :
    List LaneAcc → Pack → PendOp → State × Pack × PendOp
  | [], k, p => (s, k, p)
  | l :: r, k, p =>
    let n := atomSize fn
    let m := s.mem.readLE l.pa n
    let s := s.devWrite core k.ctx l.pa n (atomNew fn m l.data l.aux) l.attr
    let k := match dst with
      | some d => k.putLoaded d l.lane n m false
      | none => k
    let mark := fun (l : LaneAcc) => { l with aux := if atomCompares fn && m != l.data then 1 else 0 }
    s.performAtomics core fn dst o r k (p.perform mark (1#32 <<< l.lane))

/-- ATOMIC_COMPLETION (R151). -/
def execAtomicCompletion (core slot op : Nat) (lanes : Mask) (s : State) : Out :=
  withOp "ATOMIC_COMPLETION" s core slot op fun k o =>
    match o.kind with
    | .atomic fn dst =>
      if k.mayPerform o lanes then
        let ls := o.picked lanes
        let seen := ls.foldl (fun t l => s.storeSeen o t l) (k.seenBy o)
        let t := s.performAtomics core fn dst o ls k o
        some ((t.1.setPack core slot ((t.2.1.setOp t.2.2).sees o seen)).settle core slot t.2.2)
      else none
    | _ => none

end Sys2Proof.Machine
end

