-- ==== Sys2Proof/Machine/Adet.lean ====
section
/-!
DEFINITION. Deterministic atomics (06 R157–R161, 02 R62, R63): contributions to a group's accumulators, entries in the core's
buffer, the arrival at `aflush`, and the flush.
-/

namespace Sys2Proof.Machine

/-- The bytes of a deterministic atomic's access (R157). -/
def adetSize (fn : Nat) : Nat :=
  match fn with
  | 1 => 2
  | 2 => 2
  | 4 => 8
  | 7 => 8
  | 8 => 8
  | 18 => 8
  | _ => 4

/-- The registers that D names (R157). -/
def adetRegs (fn : Nat) : Nat := if fn = 4 || fn = 7 || fn = 8 || fn = 17 then 2 else 1

/-- The function is commutative: it contributes to an accumulator (R157). -/
def adetCommutes (fn : Nat) : Bool := decide (fn < 9)

/-- The format of a floating contribution (R157). -/
def adetFmt (fn : Nat) : Fmt := if fn = 1 then .f16 else if fn = 2 then .bf16 else .f32

/-- The bits of an operand that a contribution takes. -/
def adetOperand (fn v : Nat) : Nat := v % 2 ^ (8 * adetSize fn)

/-! ### Accumulators (02 R62) -/

/-- Add a floating contribution: FIELD and EXT together are the sum in units of 2^−149. -/
def Accum.addFloat (a : Accum) (x : Fp) : Accum :=
  match x with
  | .nan sig => { a with nan := true, snan := a.snan || sig, allNegZero := false, contrib := true }
  | .inf neg => { a with posInf := a.posInf || !neg, negInf := a.negInf || neg, allNegZero := false, contrib := true }
  | .fin neg m e =>
    { a with
      sum := a.sum + BitVec.ofInt 384 (signedMant neg (m * 2 ^ (e + 149).toNat)), contrib := true
      allNegZero := a.allNegZero && neg && m == 0 }

/-- Add an integer contribution: a sum, or an extreme of the contributions so far (R157). -/
def Accum.addInt (a : Accum) (v : Nat) : Accum :=
  let old := a.sum.toNat
  let new := match a.fn with
    | 3 => (old + v) % 2 ^ 32
    | 4 => (old + v) % 2 ^ 64
    | 5 => if a.contrib && signedOf 32 old ≤ signedOf 32 v then old else v
    | 6 => if a.contrib && signedOf 32 v ≤ signedOf 32 old then old else v
    | 7 => if a.contrib then min old v else v
    | _ => if a.contrib then max old v else v
  { a with sum := BitVec.ofNat 384 new, contrib := true }

/-- Add a contribution. -/
def Accum.add (a : Accum) (v : Nat) : Accum := if a.fn < 3 then a.addFloat ((adetFmt a.fn).decode v) else a.addInt v

/-- The word an accumulator leaves at its destination, and its flags (02 R63). -/
def Accum.result (a : Accum) : FRes :=
  if 3 ≤ a.fn then { bits := a.sum.toNat, flags := 0 }
  else
    let f := adetFmt a.fn
    let v := a.sum.toInt
    if a.nan || (a.posInf && a.negInf) then f.nanRes (a.snan || (a.posInf && a.negInf))
    else if a.posInf || a.negInf then f.infRes a.negInf
    else if v < -(2 ^ 319 : Nat) || (2 ^ 319 : Nat) ≤ v then f.infRes (decide (v < 0)) (fOF + fNX)
    else if v = 0 then f.zeroRes (a.contrib && a.allNegZero)
    else f.round 0 (decide (v < 0)) v.natAbs (-149)

/-- A contribution's bytes overlap those of an accumulator without having its address and function (R158). -/
def Accum.clash (a : Accum) (fn pa : Nat) : Bool :=
  overlap a.dest (adetSize a.fn) pa (adetSize fn) && !(a.dest == pa && a.fn == fn)

/-- Add a contribution to the accumulator of its destination, made at the set and way given where there is none. -/
def contribute (accs : List Accum) (fn : Nat) (l : LaneAcc) (va : DWord) (at_ : Nat × Nat) : List Accum :=
  if accs.any fun a => a.dest == l.pa then mapIf (fun a => a.dest == l.pa) (·.add l.data) accs
  else accs ++ [({ dest := l.pa, va := va, fn := fn, set := at_.1, way := at_.2 } : Accum).add l.data]

/-- Add contributions to a group's accumulators, each new one taking a way of the cluster's L2 (R158, 10 R263). -/
def State.contributeAll (s : State) (k : Pack) (fn : Nat) : List (LaneAcc × DWord) → State
  | [] => s
  | p :: rest =>
    let g := s.group k.tag k.group
    let t := if g.any fun g => g.accs.any fun a => a.dest == p.1.pa then (s, 0, 0) else s.pinWay (g.elim 0 (·.cluster)) p.1.pa
    (t.1.modGroup k.tag k.group fun g => { g with accs := contribute g.accs fn p.1 p.2 t.2 }).contributeAll k fn rest

/-- The destinations among `pas` that have no accumulator yet, each once. -/
def newDests (accs : List Accum) (pas : List Nat) : Nat :=
  ((sortNats pas).filter fun p => !accs.any fun a => a.dest == p).length

/-! ### Issue (R158–R160) -/

/-- DETOVF's cause word (08 R232). -/
def detovfWord (kind n : Nat) : Nat := kind + n * 2 ^ 32

/-- The count of earlier entries a lane has placed since the last flush. -/
def Pack.seqOf (k : Pack) (lane : Nat) : Nat := k.detSeq.getD lane 0

/-- Place one entry in the core's buffer for the pack (R159). -/
def Pack.addEntry (k : Pack) (fn : Nat) (l : LaneAcc) (va : DWord) : Pack :=
  { k with
    det := k.det ++ [{ addr := l.pa, va := va, fn := fn, lane := l.lane, seq := k.seqOf l.lane, operand := l.data, compare := l.aux }]
    detSeq := k.detSeq.put l.lane (k.seqOf l.lane + 1) }

/-- Issue a deterministic atomic. Its contributions are accepted here; STC counts it until STORE_COMPLETION (R160). -/
def adetIssue (mn : String) (fn : Nat) (g : PReg) (d a : VReg) (s : State) : Out :=
  issue s mn g [rdV 0 d (adetRegs fn), rdV 1 a 2] fun x act =>
    let use : Use := if fn = 17 || fn = 18 then .atomic else .store
    let acc : Acc := { cls := .st, use := use, size := adetSize fn, align := adetSize fn, kind := .adet }
    let data := fun i => if fn = 17 then x.laneData (d.toNat + 1) 1 i else adetOperand fn (x.laneData d.toNat (adetRegs fn) i)
    let reqs := x.laneReqs act a 0 data (if fn = 17 then x.laneData d.toNat 1 else fun _ => 0)
    if x.mustWait acc then .next x.s
    else if reqs.isEmpty then x.commit.done (x.k.addIdle (x.pend acc [])) x.sp
    else
      let t := x.s.checkAll x.f.core x.k.ctx .lane acc.size acc.align use reqs
      match failures t.2 with
      | f :: fs => ({ x with s := t.1 } : Iss).memTrap act .lane true 0 false (f :: fs)
      | [] =>
        let ls := laneAccs t.2
        let op := x.pend acc ls
        let vas := reqs.map (·.va)
        if op.sc && x.unperformed then .next x.s
        else if adetCommutes fn then
          let accs := (x.s.group x.k.tag x.k.group).elim [] (·.accs)
          let bad := (reqs.zip ls).filter fun p => accs.any fun a => a.clash fn p.2.pa
          let n := newDests accs (ls.map (·.pa))
          match bad with
          | p :: rest => ({ x with s := t.1 } : Iss).raise act 0x09 (memWord p.1.va p.1.lane 0 .lane true false rest.length).toNat
          | [] =>
            if 4096 < accs.length + n then ({ x with s := t.1 } : Iss).raise act 0x11 (detovfWord 0 n)
            else
              ({ x with s := t.1.contributeAll x.k fn (ls.zip vas) } : Iss).commit.done (x.k.addOp op) x.sp
        else if 64 < x.k.det.length + ls.length then ({ x with s := t.1 } : Iss).raise act 0x11 (detovfWord 1 ls.length)
        else
          let k := (ls.zip vas).foldl (fun k p => k.addEntry fn p.1 p.2) x.k
          ({ x with s := t.1 } : Iss).commit.done (k.addOp op) x.sp

/-- ADET_FADD_F32 (R157). -/
def execAdetFaddF32 (g : PReg) (d a : VReg) (s : State) : Out := adetIssue "ADET_FADD_F32" 0 g d a s
/-- ADET_FADD_F16 (R157). -/
def execAdetFaddF16 (g : PReg) (d a : VReg) (s : State) : Out := adetIssue "ADET_FADD_F16" 1 g d a s
/-- ADET_FADD_BF16 (R157). -/
def execAdetFaddBf16 (g : PReg) (d a : VReg) (s : State) : Out := adetIssue "ADET_FADD_BF16" 2 g d a s
/-- ADET_ADD_I32 (R157). -/
def execAdetAddI32 (g : PReg) (d a : VReg) (s : State) : Out := adetIssue "ADET_ADD_I32" 3 g d a s
/-- ADET_ADD_I64 (R157). -/
def execAdetAddI64 (g : PReg) (d a : VReg) (s : State) : Out := adetIssue "ADET_ADD_I64" 4 g d a s
/-- ADET_MIN_I32 (R157). -/
def execAdetMinI32 (g : PReg) (d a : VReg) (s : State) : Out := adetIssue "ADET_MIN_I32" 5 g d a s
/-- ADET_MAX_I32 (R157). -/
def execAdetMaxI32 (g : PReg) (d a : VReg) (s : State) : Out := adetIssue "ADET_MAX_I32" 6 g d a s
/-- ADET_MINU_B64 (R157). -/
def execAdetMinuB64 (g : PReg) (d a : VReg) (s : State) : Out := adetIssue "ADET_MINU_B64" 7 g d a s
/-- ADET_MAXU_B64 (R157). -/
def execAdetMaxuB64 (g : PReg) (d a : VReg) (s : State) : Out := adetIssue "ADET_MAXU_B64" 8 g d a s
/-- ADET_XCHG_B32 (R157). -/
def execAdetXchgB32 (g : PReg) (d a : VReg) (s : State) : Out := adetIssue "ADET_XCHG_B32" 16 g d a s
/-- ADET_CAS_B32 (R157). -/
def execAdetCasB32 (g : PReg) (d a : VReg) (s : State) : Out := adetIssue "ADET_CAS_B32" 17 g d a s
/-- ADET_APP_B32 (R157). -/
def execAdetAppB32 (g : PReg) (d a : VReg) (s : State) : Out := adetIssue "ADET_APP_B32" 18 g d a s

/-! ### The flush (R161) -/

/-- A split stops at the group barrier, whose address `hintAt` keeps until it is released (R210, R211, R161). -/
def Iss.arrive (x : Iss) (flush : Bool) : Split :=
  { x.sp.clean with
    hintAt := x.at_, pc := x.f.next, status := .barrier, stamp := x.s.clock, atFlush := flush }

/-- AFLUSH (R161): the split stops; an arrival with M = 0 asks for the flush's flags. -/
def execAflush (n : BitVec 1) (s : State) : Out :=
  issueU s "AFLUSH" [] fun x =>
    let x := x.commit
    let k := { x.k.started with wantFlags := x.k.wantFlags || n == 0 }
    let s := { x.put k (x.arrive true) with clock := x.s.clock + 1 }
    .next (s.setCore x.f.core { s.core x.f.core with lastPack := x.f.slot })

/-- The packs of a group with the core and slot of each, in logical order. -/
def State.groupPacks (s : State) (g : Group) : List (Nat × Nat × Pack) :=
  g.packs.filterMap fun p => (s.pack p.1 p.2).map fun k => (p.1, p.2, k)

/-- The lanes of a pack that have not exited. -/
def Pack.remaining (k : Pack) : Mask := presentMask k.slices &&& ~~~k.exited

/-- The lanes of a pack stopped at the barrier, at `aflush` or at `bar`. -/
def Pack.atBarrier (k : Pack) (flush : Bool) : Mask :=
  k.lanesIn ((k.splits.map (·.2)).filter fun sp => sp.status == .barrier && sp.atFlush == flush)

/-- Every lane of the group that has not exited is stopped at the same kind of barrier, and some lane is (R210). -/
def State.barrierFull (s : State) (g : Group) (flush : Bool) : Bool :=
  let ks := s.groupPacks g
  ks.any (fun p => p.2.2.remaining != 0) && ks.all fun p => (p.2.2.remaining &&& ~~~(p.2.2.atBarrier flush)) == 0

/-- A split stopped at the barrier goes on at its next address (R210); its window grows older by the instruction. -/
def Split.released (sp : Split) (clock : Nat) : Split :=
  { sp with status := .ready, atFlush := false, win := ageWindow sp.win }.goto sp.pc clock

/-- Release the splits of a pack stopped at the barrier (R210): it joins them, so their reads of the flags wait for what each of them had
issued (01 R35). -/
def Pack.releaseBarrier (k : Pack) (clock : Nat) : Pack :=
  let open_ := (k.ops.filter fun o => !o.done).map (·.id)
  { k with
    splits := k.splits.map fun e => if e.2.status == .barrier then (e.1, { e.2.released clock with flagOps := open_ }) else e }

/-- Release every pack of a group. -/
def State.releaseGroup (s : State) (g : Group) (f : Pack → Pack) : State :=
  let s := g.packs.foldl (fun s p => s.modPack p.1 p.2 fun k => f (k.releaseBarrier s.clock)) s
  { s with clock := s.clock + 1 }

/-- The operation writes device memory. -/
def OpKind.stores : OpKind → Bool
  | .store _ => true
  | .atomic _ _ => true
  | .copy _ _ into _ _ _ _ => !into
  | .tstore _ _ _ => true
  | .bst _ _ _ _ => true
  | _ => false

/-- A drained entry with the core it came from and its order (R161): logical pack, lane, issue order within the lane. -/
structure Drained where
  core : Nat
  ctx : Nat
  key : Nat
  e : DetEntry
  deriving DecidableEq, Repr

/-- A group's order-sensitive entries in the order of R161 step 1. -/
def State.drained (s : State) (g : Group) : List Drained :=
  sortBy (·.key) ((s.groupPacks g).flatMap fun p =>
    p.2.2.det.map fun e =>
      { core := p.1, ctx := p.2.2.ctx, key := (p.2.2.lpack * 32 + e.lane) * 2 ^ 32 + e.seq, e := e })

/-- The attribute byte in force for a physical address (16 R347). -/
def State.attrNow (s : State) (ctx pa : Nat) : Nat := s.attrOf ((s.context ctx).elim 0 (·.attrMap)) pa

/-- Apply one entry as an atomic at its address; an appended item that fails a lane store's checks is lost (R159, R161). -/
def State.applyEntry (s : State) (d : Drained) : State :=
  let m := s.mem.readLE d.e.addr 4
  let put := fun s pa v => State.devWrite s d.core d.ctx pa 4 v (s.attrNow d.ctx pa)
  match d.e.fn with
  | 16 => put s d.e.addr d.e.operand
  | 17 => put s d.e.addr (if m = d.e.compare then d.e.operand else m)
  | _ =>
    let s :=
      if m < s.mem.readLE (d.e.addr + 4) 4 then
        match s.access d.core false d.ctx .lane (d.e.va + BitVec.ofNat 64 (8 + 4 * m)) 4 4 .store with
        | .ok x => put x.s x.pa d.e.operand
        | .error _ => s.afterAccess d.core false d.ctx .lane (d.e.va + BitVec.ofNat 64 (8 + 4 * m)) 4 4 .store
      else s
    put s d.e.addr (m + 1)

/-- Write one accumulator's result (R161 step 2). -/
def State.writeAccum (s : State) (core ctx : Nat) (a : Accum) : State :=
  s.devWrite core ctx a.dest (adetSize a.fn) a.result.bits (s.attrNow ctx a.dest)

/-- The flush's effect on memory and the group's packs, with the flags of its roundings (R161 steps 1–4). -/
def State.flushGroup (s : State) (t : Tag) (g : Group) (flags : Bool) : State :=
  let core := (g.packs.head?.map (·.1)).getD 0
  let ctx := ((s.launch t).map (·.ctx)).getD 0
  let s := (s.drained g).foldl State.applyEntry s
  let s := g.accs.foldl (fun s a => s.writeAccum core ctx a) s
  let raised := g.accs.foldl (fun f a => f ||| a.result.flags) 0
  let s := s.modGroup t g.x fun g => { g with accs := [] }
  g.packs.foldl (fun s p => s.modPack p.1 p.2 fun k =>
    let k := if flags && k.wantFlags then k.orFlags (BitVec.ofNat 32 raised) else k
    { k with det := [], detSeq := [], wantFlags := false }) s

/-- AFLUSH_FLUSH (R161): every lane has arrived, every lane-path access issued before is performed (R210), and so is every write of another
path, its broadcast payloads in flight included (11 R288) (log entry 27). -/
def execAflushFlush (queue index group : Nat) (s : State) : Out :=
  let t : Tag := { queue := queue, index := index }
  match s.group t group with
  | none => .refused (.notEnabled "AFLUSH_FLUSH")
  | some g =>
    let quiet := (s.groupPacks g).all fun p => p.2.2.ops.all fun o => o.done || (o.path != .lane && !o.kind.stores)
    if s.barrierFull g true && quiet && !s.inflight.any fun b => b.tag == t && b.group == group then
      .next ((s.flushGroup t g true).releaseGroup g id)
    else .refused (.notEnabled "AFLUSH_FLUSH")

end Sys2Proof.Machine
end

