-- ==== Sys2Proof/Machine/Banks.lean ====
section
/-!
DEFINITION. The core's banks (06 R164, R170, R171; 10 R259–R261): bank modes and their switch, FIFO banks, and lane access to the
scratchpad.
-/

namespace Sys2Proof.Machine

/-! ### Modes -/

/-- Set one bank's mode where it differs: its bytes are zeroed, a FIFO bank enters empty, and a bank that leaves cache mode takes
its L1 lines with it (R170, 10 R261). -/
def Core.setBank (c : Core) (b : Nat) (m : BankMode) : Core :=
  if c.bank b == m then c
  else
    { c with
      banks := if m == .cache then c.banks.del b else c.banks.put b m
      sram := c.sram.clear (65536 * b) (65536 * (b + 1))
      fifos := c.fifos.del b
      l1 := c.l1.filter fun e => e.way != b }

/-- The banks a mask names. -/
def banksOf (w : Word) : List Nat := (List.range 16).filter fun b => w.getLsbD b

/-- The bytes lie in one of these banks. -/
def inBanks (bs : List Nat) (a n : Nat) : Bool := bs.any fun b => overlap a n (65536 * b) 65536

/-- An operation in flight touches one of these banks: a copy or tile operation in their scratchpad bytes, or a lane access
there or through an L1 way (R170 step 1) (log entry 26). -/
def Core.touching (c : Core) (bs : List Nat) : Bool :=
  let cached := bs.any fun b => c.bank b == .cache
  c.packs.any fun p => p.2.ops.any fun o =>
    !o.done && match o.kind with
      | .copy _ _ _ base n _ _ => inBanks bs base n
      | .loadS _ => o.lanes.any fun l => !l.done && inBanks bs l.pa 4
      | .storeS => o.lanes.any fun l => !l.done && inBanks bs l.pa 4
      | k => (k.spans.any fun r => inBanks bs r.1 r.2) || (cached && o.path == .lane)

/-- The banks of a switch whose mode changes (log entry 26). -/
def Core.changing (c : Core) (w : BankSwitch) : List Nat := (banksOf w.banks).filter fun b => c.bank b != w.mode

/-- BANKCFG (R170): the instruction stalls while its switch proceeds. -/
def bankcfg (mn : String) (m : BankMode) (a : GReg) (s : State) : Out :=
  issueU s mn [rdG 1 a] fun x =>
    let w := x.g a
    let c := x.s.core x.f.core
    if w.toNat / 2 ^ 16 != 0 then x.handle 0x1C
    else if c.packs.any fun p => p.2.tag != x.k.tag then
      x.raise x.live 0x0A (memWord 0 0 0 .lane true false 0).toNat
    else if c.switching.isSome then .next x.s
    else
      let s := x.s.setCore x.f.core { c with switching := some { slot := x.f.slot, split := x.sp.id, banks := w, mode := m } }
      ({ x with s := s } : Iss).stallAt .bankcfg

/-- BANKCFG_CACHE (R170). -/
def execBankcfgCache (a : GReg) (s : State) : Out := bankcfg "BANKCFG_CACHE" .cache a s
/-- BANKCFG_PAD (R170). -/
def execBankcfgPad (a : GReg) (s : State) : Out := bankcfg "BANKCFG_PAD" .pad a s
/-- BANKCFG_FIFO (R170). -/
def execBankcfgFifo (a : GReg) (s : State) : Out := bankcfg "BANKCFG_FIFO" .fifo a s

/-- The split is blocked at an `fpush` or `fpop` of one of these banks. -/
def Split.blockedOn (sp : Split) (bs : List Nat) : Bool :=
  match sp.stall with
  | some (.fpush _ k _) => bs.contains k
  | some (.fpop _ _ k) => bs.contains k
  | _ => false

/-- The active lanes of the instruction a split is stalled at: those of its guard, or its live lanes (08 R230). -/
def Pack.stallLanes (k : Pack) (sp : Split) : Mask :=
  match sp.stall with
  | some (.fpush g _ _) => k.active sp g
  | some (.fpop g _ _) => k.active sp g
  | some (.qpush g _ _) => k.active sp g
  | some (.qpop g _ _) => k.active sp g
  | some (.wlpush g _ _) => k.active sp g
  | some (.wlpop g _ _ _) => k.active sp g
  | _ => k.live sp

/-- Raise HANDLE at a split stalled at an instruction, for an event that ends the stall so: at once, or after its refill where it is
spilled. -/
def State.handleAtStall (s : State) (core slot split : Nat) (joint : Bool) (info : Nat) : State :=
  match s.stalled core slot split with
  | some x =>
    match x.raiseRec (x.trap (x.k.stallLanes x.sp) 0x08 info joint) with
    | .next t => t
    | _ => s
  | none =>
    s.modPack core slot fun k => k.modSplit split fun sp =>
      if sp.stall.isNone || sp.spill.isNone then sp
      else
        { sp.clean with
          pc := if sp.hints.isEmpty then sp.pc else sp.hintAt
          pending := some { code := 0x08, info := BitVec.ofNat 128 info, joint := joint, slot := sp.slot.elim 0 (·.slot)
                            epc := if sp.hints.isEmpty then sp.pc else sp.hintAt, mask := k.live sp, active := k.stallLanes sp } }

/-- Every split of the core blocked at one of these FIFO banks raises HANDLE 0x1C (R170 step 2). -/
def State.cutFifos (s : State) (core : Nat) (bs : List Nat) : State :=
  (s.core core).packs.foldl (fun s p =>
    (p.2.splits.filter fun e => e.2.blockedOn bs).foldl (fun s e => s.handleAtStall core p.1 e.1 false (handleWord 0x1C)) s) s

/-- Promises to broadcast payloads at banks of a core that have left FIFO mode or changed hands lapse (10 R268). -/
def State.voidPromises (s : State) (core : Nat) : State :=
  let gone := fun e : Nat × Nat => e.1 == core && ((s.core core).fifo e.2).promised == 0
  { s with inflight := s.inflight.map fun p => { p with promised := p.promised.filter fun e => !gone e } }

/-- The split that asked for a bank switch is spilled: it retires after its refill. -/
def State.switcherSpilled (s : State) (core : Nat) (w : BankSwitch) : Bool :=
  ((s.pack core w.slot).bind fun k => k.split w.split).elim false fun sp => sp.stall == some .bankcfg && sp.spill.isSome

/-- BANK_SWITCH_COMPLETION (R170): nothing in flight touches the named banks; blocked FIFO operations are cut off, changed banks
are zeroed and enter their mode, the context of the `bankcfg`, alone on the core, owns them (R343), and it retires (log entry 26). -/
def execBankSwitchCompletion (core : Nat) (s : State) : Out :=
  let c := s.core core
  match c.switching with
  | none => .refused (.notEnabled "BANK_SWITCH_COMPLETION")
  | some w =>
    if c.touching (banksOf w.banks) || s.switcherSpilled core w then .refused (.notEnabled "BANK_SWITCH_COMPLETION")
    else
      let bs := c.changing w
      let s := s.cutFifos core bs
      let c := bs.foldl (fun c b => c.setBank b w.mode) { s.core core with switching := none, owner := (s.pack core w.slot).map (·.ctx) }
      let s := (s.setCore core c).voidPromises core
      match s.stalled core w.slot w.split with
      | some x => if x.sp.stall == some .bankcfg then x.done x.k x.sp else .next s
      | none => .next s

/-! ### FIFO banks (R171) -/

/-- Entries and promises together fill the bank (log entry 18). -/
def Fifo.full (f : Fifo) : Bool := decide (512 ≤ f.entries.length + f.promised)

/-- The words of the lanes of a mask. -/
def wordsOf (m : Mask) (f : Nat → Word) : Words := (lanesOf m).foldl (fun w i => Words.set w i (f i)) []

/-- Replace a FIFO bank's state. -/
def Core.setFifo (c : Core) (b : Nat) (f : Fifo) : Core := { c with fifos := c.fifos.put b f }

/-- Append an entry (R171). -/
def Fifo.push (f : Fifo) (w : Words) : Fifo := { f with entries := f.entries ++ [w] }

/-- `fpush` where the bank has room and no sequentially consistent access is ahead (R147). -/
def Iss.fpush (x : Iss) (act : Mask) (b a : Nat) : Option Out :=
  let c := x.s.core x.f.core
  let f := c.fifo b
  if f.full || x.k.scBusy then none
  else
    let s := x.s.setCore x.f.core (c.setFifo b (f.push (wordsOf act fun i => x.k.readV x.sp a i)))
    some (({ x with s := s } : Iss).done x.k x.sp)

/-- `fpop` where the bank holds an entry and no sequentially consistent access is ahead (R147). -/
def Iss.fpop (x : Iss) (act : Mask) (d b : Nat) : Option Out :=
  let c := x.s.core x.f.core
  let f := c.fifo b
  match if x.k.scBusy then [] else f.entries with
  | [] => none
  | e :: rest =>
    let s := x.s.setCore x.f.core (c.setFifo b { f with entries := rest, head := (f.head + 1) % 512 })
    some (({ x with s := s } : Iss).done (x.k.setLanes d act fun i => Words.get e i) x.sp)

/-- FPUSH (R171) (log entry 18). -/
def execFpush (g : PReg) (k : Bank) (a : VReg) (s : State) : Out :=
  issue s "FPUSH" g [rdV 1 a] fun x act =>
    if x.k.scBusy then .next x.s
    else if act = 0 then x.done x.k x.sp
    else if (x.s.core x.f.core).bank k.toNat != .fifo then x.raise act 0x08 (handleWord 0x1C)
    else (x.fpush act k.toNat a.toNat).getD (x.stallAt (.fpush g k.toNat a.toNat))

/-- FPOP (R171) (log entry 18). -/
def execFpop (g : PReg) (d : VReg) (k : Bank) (s : State) : Out :=
  issue s "FPOP" g [wrV 0 d] fun x act =>
    if x.k.scBusy then .next x.s
    else if act = 0 then x.done x.k x.sp
    else if (x.s.core x.f.core).bank k.toNat != .fifo then x.raise act 0x08 (handleWord 0x1C)
    else (x.fpop act d.toNat k.toNat).getD (x.stallAt (.fpop g d.toNat k.toNat))

/-- FCOUNT (R171); a sequentially consistent access ahead holds it (R147). -/
def execFcount (d : GReg) (k : Bank) (s : State) : Out :=
  issueU s "FCOUNT" [wrG 0 d] fun x =>
    let c := x.s.core x.f.core
    if x.k.scBusy then .next x.s
    else if c.bank k.toNat != .fifo then x.handle 0x1C
    else x.doneG d (BitVec.ofNat 32 (c.fifo k.toNat).entries.length)

/-- FIFO_UNBLOCK (R171): room or an entry has come. -/
def execFifoUnblock (core slot split : Nat) (s : State) : Out :=
  onStall "FIFO_UNBLOCK" s core slot split fun x st =>
    match st with
    | .fpush g b a => x.fpush (x.k.active x.sp g) b a
    | .fpop g d b => x.fpop (x.k.active x.sp g) d b
    | _ => none

/-! ### Lane access to the scratchpad (R164) -/

/-- The first lane whose offset fails a check, with its code: MALIGN, then ADDR. -/
def padFault (len : Nat) (off : Nat) : Option Nat :=
  if off % 4 != 0 then some 0x13 else if len ≤ off then some 0x09 else none

/-- Issue a scratchpad access: the handle, then each lane's offset. -/
def padAccess (mn : String) (writes : Bool) (g : PReg) (d : VReg) (a : TReg) (b : VReg) (s : State) : Out :=
  issue s mn g [if writes then rdV 0 d else wrV 0 d, opT 1 a, rdV 2 b] fun x act =>
    if act = 0 then x.scratch (if writes then .st else .ld) (if writes then .storeS else .loadS d.toNat) writes []
    else if x.badHandle a.toNat [1, 2, 3] then x.raise act 0x08 (handleWord 0x10 a.toNat)
    else
      let h := x.k.readT a.toNat
      let bad := (lanesOf act).filterMap fun i => (padFault (hBytes h) (x.v b i).toNat).map fun c => (i, c)
      match bad with
      | (i, c) :: rest => x.raise act c (memWord ((x.v b i).setWidth 64) i 0 .lane writes false rest.length).toNat
      | [] =>
        x.scratch (if writes then .st else .ld) (if writes then .storeS else .loadS d.toNat) writes
          ((lanesOf act).map fun i =>
            { lane := i, pa := hByte h + (x.v b i).toNat, data := if writes then (x.v d i).toNat else 0 })

/-- LDS_B32 (R164). -/
def execLdsB32 (g : PReg) (d : VReg) (a : TReg) (b : VReg) (s : State) : Out := padAccess "LDS_B32" false g d a b s
/-- STS_B32 (R164). -/
def execStsB32 (g : PReg) (d : VReg) (a : TReg) (b : VReg) (s : State) : Out := padAccess "STS_B32" true g d a b s

end Sys2Proof.Machine
end

