-- ==== Sys2Proof/Machine/Circuits.lean ====
section
/-!
DEFINITION. Optical ports, circuit planes and reservations (19 R402–R407): which turns a plane carries, the chunks that this module sends, and
the resume markers.
-/

namespace Sys2Proof.Machine

/-! ### Ports and planes (R402, R404, R405) -/

/-- Optical ports: 48, six to each I/O laser module (19 R399). -/
def portCount : Nat := 48

/-- Optical port `k`. -/
def State.port (s : State) (k : Nat) : Port := s.ports.getD k {}

/-- Change port `k`. -/
def State.modPort (s : State) (k : Nat) (f : Port → Port) : State := { s with ports := s.ports.put k (f (s.port k)) }

/-- Plane `j`. -/
def State.plane (s : State) (j : Nat) : Plane := s.planes.getD j {}

/-- Replace plane `j`. -/
def State.setPlane (s : State) (j : Nat) (p : Plane) : State := { s with planes := s.planes.put j p }

/-- The plane of a port (R402). -/
def planeOf (k : Nat) : Nat := k / 12

/-- The ports of a plane. -/
def portsOf (j : Nat) : List Nat := (List.range 12).map fun k => 12 * j + k

/-- A plane has an UP port to a peer. -/
def State.planeUp (s : State) (j peer : Nat) : Bool := (portsOf j).any fun k => (s.port k).state == .up && (s.port k).peer == peer

/-- A plane is live for a peer (R404). -/
def State.planeLive (s : State) (j peer : Nat) : Bool := (s.plane j).state == .active && s.planeUp j peer

/-- The planes of a mask, in ascending order. -/
def planesOf (m : Nat) : List Nat := (List.range 4).filter fun j => bit m j

/-- The plane whose turn a chunk takes (R404). -/
def Resv.turn (r : Resv) (chunk : Nat) : Nat :=
  let ps := planesOf r.planes
  ps.getD (chunk % ps.length) 0

/-- The parts of an optical chunk of 65,536 bytes: the plane's UP ports to the peer in ascending order, each with the bytes it carries, equal but
for one byte more at the lowest (R404). A port that is not UP has no share, and those that are carry it (R401). -/
def State.chunkShares (s : State) (j peer : Nat) : List (Nat × Nat) :=
  let ps := (portsOf j).filter fun k => (s.port k).state == .up && (s.port k).peer == peer
  ps.zipIdx.map fun p => (p.1, 65536 / ps.length + if p.2 < 65536 % ps.length then 1 else 0)

/-! ### The sender's turns (R404, R406, R407) -/

/-- The reservation carries chunks now: it is neither dormant nor released (15 R342). -/
def Resv.awake (r : Resv) : Bool := !r.released && r.dormant.isNone

/-- The planes of a reservation that are not live. -/
def State.darkPlanes (s : State) (r : Resv) : List Nat := (planesOf r.planes).filter fun j => !s.planeLive j r.peer

/-- A reservation after a change of ports, planes or its own state. As sender: the turns of a plane that is not live go to Ethernet, and a plane
that is live again takes its turns back while the reservation is awake. As receiver: the peer's chunks of a plane without an UP port come by
Ethernet until a marker (R407) (log entry 54). -/
def State.settleResv (s : State) (r : Resv) : Resv :=
  let dark := s.darkPlanes r
  let down := (planesOf r.planes).filter fun j => !s.planeUp j r.peer && !r.diverted.contains j
  { r with
    away := dark ++ r.away.filter fun j => !dark.contains j && !r.awake
    diverted := r.diverted ++ down }

/-- The resume markers that go out for a reservation: one for each plane that takes its turns back (R407). -/
def State.markers (s : State) (n : Nat) (r : Resv) : List OutMsg :=
  if r.awake then (r.away.filter fun j => !(s.darkPlanes r).contains j).map fun j => OutMsg.marker n j else []

/-- Every reservation follows a change of ports or planes: a marker goes out after the last chunk diverted from a plane that is live again, and
only then does the plane carry its turns (R406, R407). -/
def State.resumeTurns (s : State) : State :=
  { s with
    outbox := s.outbox ++ s.resvs.flatMap fun e => s.markers e.1 e.2
    resvs := s.resvs.map fun e => (e.1, s.settleResv e.2) }

/-- The messages of a chunk's parts: each with its byte offset, in ascending port order (R404). -/
def partMsgs (n chunk : Nat) : (off : Nat) → List (Nat × Nat) → List OutMsg
  | _, [] => []
  | off, (port, size) :: rest => .chunk n chunk (some port) off size :: partMsgs n chunk (off + size) rest

/-- The module sends a reservation's next chunk: by the plane of its turn, divided among its ports, or on Ethernet while the plane's turns go
there (R401, R404, R406, R407); none where the reservation has none to send (log entry 93). -/
def State.sendChunk (s : State) (n : Nat) : Option State :=
  match s.resvs.get n with
  | none => none
  | some r =>
    let c := r.next
    let j := r.turn c
    if !r.awake || r.len < 65536 * (c + 1) then none
    else
      let eth := r.away.contains j || !s.planeLive j r.peer
      let msgs := if eth then [.chunk n c none 0 65536] else partMsgs n c 0 (s.chunkShares j r.peer)
      some { s with outbox := s.outbox ++ msgs, resvs := s.resvs.put n { r with next := c + 1, flying := r.flying ++ [(c, eth)] } }

/-- Count the chunks that are now contiguous: the new count, and those still ahead of it. -/
def countChunks : (fuel : Nat) → Nat → List Nat → Nat × List Nat
  | 0, n, a => (n, a)
  | fuel + 1, n, a => if a.contains n then countChunks fuel (n + 1) (a.filter (· != n)) else (n, a)

/-- A chunk in flight has arrived at the peer; the last completed chunk is the last of those that have all arrived (R404). -/
def State.landChunk (s : State) (n chunk : Nat) : Option State :=
  match s.resvs.get n with
  | none => none
  | some r =>
    if !r.flying.any (·.1 == chunk) then none
    else
      let c := countChunks (r.landed.length + 1) r.completed (chunk :: r.landed)
      some { s with
        resvs := s.resvs.put n { r with flying := r.flying.filter fun f => f.1 != chunk, completed := c.1, landed := c.2 } }

/-- No chunk that a plane carries is in flight (R405). -/
def State.planeIdle (s : State) (j : Nat) : Bool := s.resvs.all fun e => e.2.flying.all fun f => f.2 || e.2.turn f.1 != j

/-- A chunk of the context's collectives is in flight to its receiving module (11 R280). -/
def State.chunksOut (s : State) (ctx : Nat) : Bool := s.resvs.any fun e => e.2.ctx == ctx && !e.2.flying.isEmpty

/-- The collective resumes after the last completed chunk (15 R342, R408). -/
def Resv.restart (r : Resv) : Resv := { r with dormant := none, released := false, next := r.completed, flying := [], landed := [] }

end Sys2Proof.Machine
end

