-- ==== Sys2Proof/Machine/Time.lean ====
section
/-!
DEFINITION. Global time (18 R377–R379): the root's counter, each region's difference from it and the correction it is slewing,
reads, and the step register.
-/

namespace Sys2Proof.Machine

/-- Regions of 18 R374: clusters 0–159, the quarters of the host fields 160–167. -/
def regions : Nat := 168

/-- What a rate of 200 ppm moves in `ns`, in units of 2^−16 ns (log entry 23). -/
def slewOf (ns : Nat) : Nat := ns * 65536 / 5000

/-- Move a value toward zero by at most `n`. -/
def towardZero (x : Int) (n : Nat) : Int := if x < 0 then min 0 (x + n) else max 0 (x - n)

/-- Keep a table of numbers without zeros. -/
def putInt (t : Table Int) (k : Nat) (x : Int) : Table Int := if x = 0 then t.del k else t.put k x

/-- A region slews: its difference from the root falls by what its correction loses (R377) (log entry 23). -/
def State.slewRegion (s : State) (ns : Nat) (r : Nat) : State :=
  let c := s.corr.getD r 0
  let c' := towardZero c (slewOf ns)
  { s with corr := putInt s.corr r c', dev := putInt s.dev r (s.dev.getD r 0 - (c - c')) }

/-- A queue with a record in dispatch and a group of it to place waits `ns` longer (15 R326) (log entry 64). -/
def State.ageQueues (s : State) (ns : Nat) : State :=
  let qs := sortNats ((s.launches.filter Launch.wantsPlace).map fun l => l.tag.queue)
  { s with waits := qs.foldl (fun t q => let w := (t.get q).getD (0, 0); t.put q (w.1 + ns, w.2)) s.waits }

/-- Time passes (R377, R379): the root's counter runs, less what a backward step takes, every region slews, queues wait longer, and so does
the management controller, whose clock is its own (R382) (log entries 23, 66). -/
def State.elapse (s : State) (ns : Nat) : State :=
  let d := min s.slew (slewOf ns)
  let s := s.ageQueues ns
  let s := (s.corr.map (·.1)).foldl (fun s r => s.slewRegion ns r) s
  { s with
    gtime := s.gtime + ns * 65536 - d, slew := s.slew - d, mgmt := { s.mgmt with wait := s.mgmt.wait + ns } }

/-- The counter of a region, in ns (R377). -/
def State.regionTime (s : State) (r : Nat) : Nat := (((s.gtime : Int) + s.dev.getD r 0) / 65536).toNat

/-- Global time as a split of a core reads it: never below its last read (R378). -/
def State.timeFor (s : State) (core : Nat) (sp : Split) : Nat := max sp.lastTime (s.regionTime (clusterOf core))

/-- The spread in ps of the regions' differences from the root, as they stand and as the corrections not yet applied will leave them
(R378). -/
def State.spreadPs (s : State) : Nat :=
  let ds := s.dev.map (·.2) ++ s.corr.map fun c => s.dev.getD c.1 0 - c.2
  ceilDiv ((ds.foldl max 0 - ds.foldl min 0).toNat * 1000) 65536

/-- The skew bound in ps: the spread, and what an exchange leaves unknown (R378). -/
def State.skewPs (s : State) : Nat := s.spreadPs + s.skew

/-- The router position, (column, row), of a region: a cluster, or a quarter of a host field (10 R264). -/
def regionAt (r : Nat) : Nat × Nat :=
  let f := if r < 160 then r / 4 else 0
  let node := if 164 ≤ r then 23 else if 160 ≤ r then 18 else if f < 18 then f else if f < 22 then f + 1 else f + 2
  (2 * (node % 6) + r % 2, 2 * (node / 6) + r / 2 % 2)

/-- The seam link between a field and its neighbour to the right or below that crosses at one of the two routers (10 R264, R273): its seam and its
row or column, as R385 names them. -/
def linkNo (n : Nat) (right : Bool) (k : Nat) : Nat :=
  if right then n % 6 + 256 * (2 * (n / 6) + k) else 5 + n / 6 + 256 * (2 * (n % 6) + k)

/-- Two regions are neighbours on the mesh. -/
def meshNear (a b : Nat) : Bool :=
  let p := regionAt a
  let q := regionAt b
  (p.1 - q.1) + (q.1 - p.1) + (p.2 - q.2) + (q.2 - p.2) == 1

/-- The link between two neighbours carries: within a field, or over a seam link that training has not disabled (18 R380). -/
def State.linkUp (s : State) (a b : Nat) : Bool :=
  let p := regionAt a
  let q := regionAt b
  let x := min p.1 q.1
  let y := min p.2 q.2
  (p.1 / 2 == q.1 / 2 && p.2 / 2 == q.2 / 2) || !s.deadLinks.contains (linkNo (x / 2 + 6 * (y / 2)) (p.2 == q.2) (if p.2 == q.2 then y % 2 else x % 2))

/-- The time root's region: the West host field's where it is in the fabric, else the East's (R377). -/
def State.timeRoot (s : State) : Nat := if s.hosts % 2 == 1 then 160 else 164

/-- A region takes this parent in the tree rooted at the time root: a neighbour on the mesh, the one it has, or where it has none yet the root or a
region that has its own (R377) (log entry 23). -/
def State.takesParent (s : State) (region parent : Nat) : Bool :=
  meshNear region parent && s.linkUp region parent &&
    (match s.parents.get region with
      | some p => p == parent
      | none => parent == s.timeRoot || (s.parents.get parent).isSome)

/-- The region's field is in the fabric. -/
def State.regionIn (s : State) (r : Nat) : Bool :=
  if r < 160 then s.fieldMap.contains (r / 4) else if r < 164 then s.hosts % 2 == 1 else decide (r < regions) && 2 ≤ s.hosts

/-- Four timestamps that an exchange of a child with its parent can have given: each clock's own run forward to now, and neither message
arrived before it was sent, at the difference that the two counters have, in ns and to one ns (R377) (log entry 23). -/
def State.timestamps (s : State) (child parent t1 t2 t3 t4 : Nat) : Bool :=
  let d : Int := (s.regionTime child : Int) - s.regionTime parent
  decide (t1 ≤ t4) && decide (t2 ≤ t3) && decide (t4 ≤ s.regionTime parent) && decide (t3 ≤ s.regionTime child) &&
    decide (d ≤ (t2 : Int) - t1 + 1) && decide (-d ≤ (t4 : Int) - t3 + 1)

/-- TIME_EXCHANGE (R377): every 4,096 ns a region other than the root takes the offset it measured against its parent in the tree, as the correction to slew: `link` is the region + 256 · its parent. The bound's asymmetry is a free value, and the whole stays within `sr.skew` (R378) (log entries 3, 23). -/
def execTimeExchange (link t1 t2 t3 t4 : Nat) (s : State) : Out :=
  let region := link % 256
  let parent := link / 256
  if s.phase < 4 || region == s.timeRoot || !s.regionIn region || !s.regionIn parent || !s.takesParent region parent ||
      s.now < s.exchanged.getD region 0 + 4096 || !s.timestamps region parent t1 t2 t3 t4 then .refused (.notEnabled "TIME_EXCHANGE")
  else
    let off : Int := (((t2 : Int) - t1) - ((t4 : Int) - t3)) * 65536 / 2
    let a := s.drawFree
    let t : State := { a.2 with
      corr := putInt s.corr region off, exchanged := s.exchanged.put region s.now, parents := s.parents.put region parent, skew := a.1.toNat % 2 ^ 31 }
    if t.spreadPs < 2 ^ 31 then .next t else .refused (.notEnabled "TIME_EXCHANGE")

/-- The semaphore is held by the complex (16 R359, R360). -/
def State.guarded (s : State) (complex sem : Nat) : Bool :=
  let m := s.sems.getD sem {}
  m.held && m.owner == complex

/-- Write STEP (R379): forward at once, backward as a slew; what an earlier step had left is replaced (log entry 23). -/
def State.writeStep (s : State) (v : DWord) : State :=
  let s := { s with step := v, slew := 0 }
  if v.msb then { s with slew := (-v).toNat * 65536 } else { s with gtime := s.gtime + v.toNat * 65536 }

/-- TIME_STEP_WRITE (R379): ignored unless the complex holds semaphore 42. -/
def execTimeStepWrite (complex : Nat) (value : DWord) (s : State) : Out :=
  if s.guarded complex 42 then .next (s.writeStep value) else .next s

end Sys2Proof.Machine
end

