-- ==== Sys2Proof/Machine/Errors.lean ====
section
/-!
DEFINITION. The module's status (18 R381, R383), ECC task ends (20 R421), retired units (20 R424), the failure of a core with the rebinding of its handle (18 R390, 20 R423) and of the chip (20 R417).
-/

namespace Sys2Proof.Machine

/-! ### The module's status (18 R381, R383) -/

/-- IDSTAT (18 R381). -/
def State.idstat (s : State) : Nat :=
  s.phase % 8 + (if s.sheltered then 8 else 0) + (if s.replShown then 16 else 0) + (if s.mapCopy then 32 else 0) +
    s.fieldMap.length * 256 + s.hosts % 4 * 65536

/-- The available logical cores (18 R381). -/
def State.coreCount (s : State) : Nat := (s.bindings.filter fun b => !b.retired).length

/-- The format fault of a defect map by KIND: an entry's location is not of its kind's layout (18 R385). -/
def DefectUnit.ok (u : DefectUnit) : Bool :=
  let l := u.loc
  match u.kind with
  | 1 => decide (cut l 0 8 < 40) && decide (l < 2 ^ 17)
  | 2 => decide (cut l 0 8 < 40) && decide (l < 2 ^ 14)
  | 3 => decide (cut l 0 8 < 42) && decide (l < 2 ^ 13)
  | 4 => decide (cut l 5 6 < 42) && decide (cut l 11 8 < 162) && decide (l < 2 ^ 20)
  | 5 => decide (cut l 0 4 < 11) && cut l 4 4 == 0 && decide (cut l 8 8 < 14) && decide (l < 2 ^ 22)
  | 6 => decide (cut l 0 8 < 40) && decide (l < 2 ^ 13)
  | _ => false

/-- The units a defect map names; none where its format is bad (18 R385). -/
def mapUnits (b : List Byte) : Option (List DefectUnit) :=
  let n := natLE ((b.drop 6).take 2)
  if natLE (b.take 4) != 0x50444D46 || natLE ((b.drop 4).take 2) != 1 || decide (16384 < n) || b.length != 16 + 8 * n + 384 then none
  else
    let us := (List.range n).map fun k =>
      let e := natLE ((b.drop (16 + 8 * k)).take 8)
      ({ kind := e % 256, loc := e / 256 } : DefectUnit)
    if us.all DefectUnit.ok then some us else none

/-- Why a map does not pass, as MAPSTAT gives it: 4 bad format, 5 serial mismatch, 3 bad signature; 2 where it passes (18 R386,
R387) (log entry 53). -/
def mapVerdict (b : List Byte) : Nat :=
  if (mapUnits b).isNone then 4
  else if natLE ((b.drop 8).take 8) != Config.serial.toNat then 5
  else if !mapSigned b then 3
  else 2

/-- The copy that passes: the first, else the second (18 R386) (log entry 8). -/
def Maps.passing (m : Maps) : Option (List Byte) :=
  if mapVerdict m.copy1 = 2 then some m.copy1 else if mapVerdict m.copy2 = 2 then some m.copy2 else none

/-- The attestation state: 1 SIGNED, 2 MAPUNSIGNED (18 R386, R387, R388). -/
def State.attestState (s : State) : Nat := if s.maps.passing.isSome then 1 else 2

/-- A STATUS body (18 R383) (log entry 48). -/
def State.statusBody (s : State) : List Byte :=
  let map := (s.fieldMap.map fun f => 2 ^ f).sum + s.hosts % 4 * 2 ^ 40
  let temp := (s.islands.map fun i => i.2.temp).foldl max 0
  let from4 := fun n => if s.phase < 4 then 0 else n
  bytesLE 4 s.idstat ++ bytesLE 4 s.coreCount ++ bytesLE 4 (from4 s.bindGen) ++ bytesLE 1 temp ++ bytesLE 3 0 ++ bytesLE 8 map ++
    bytesLE 8 (from4 s.now) ++ bytesLE 4 (from4 s.attestState) ++ bytesLE 28 0

/-- A STATUS goes out on each change of PHASE, SHELTERED, REPLREQ, FIELDS or HOSTS (18 R384). -/
def State.announce (s old : State) : State :=
  if s.phase != old.phase || s.sheltered != old.sheltered || s.replShown != old.replShown || s.fieldMap.length != old.fieldMap.length ||
      s.hosts != old.hosts then s.toCollectors 1 s.statusBody
  else s

/-- Bring-up writes the Sett status block: GEN rises before and after it (10 R270). -/
def State.settWrite (s : State) : State := { s with settGen := s.settGen + 2 }

/-- The Sett status block changes at run time; what comes about before bring-up's last write is written by that (10 R270) (log entry 52). -/
def State.settChange (s : State) : State := if s.phase < 5 then s else s.settWrite

/-- Replacement is requested; it stays so until the next bring-up (18 R381, 20 R424). -/
def State.requestReplacement (s : State) : State :=
  if s.replReq then s else ({ s with replReq := true } : State).settChange.announce s

/-! ### Chip failure (20 R417) -/

/-- The module becomes fail-silent: the optical ports go to GATED, and a CLASS 13 record is reported (20 R417) (log entry 51). -/
def State.chipFail (s : State) (cause : Nat) : State :=
  if s.failSilent then s
  else
    let s := (List.range portCount).foldl (fun s k => s.modPort k fun p => { p with state := .gated }) s
    (({ s with failSilent := true } : State).reportError (plainError 13 4 cause)).1

/-- CHIP_FAILURE (20 R417) (log entry 51). -/
def execChipFailure (cause : Nat) (s : State) : Out := .next (s.chipFail cause)

/-! ### Uncorrectable errors (20 R421) -/

/-- An ECC trap of a split: the task ends (08 R232) (log entries 50, 69). -/
def ecc (k : Pack) (sp : Split) (addr where_ seq : Nat) : TrapRec :=
  { code := 0x0D, info := BitVec.ofNat 128 (eccWord addr where_ seq), joint := false, slot := 0, epc := sp.pc, mask := k.live sp
    active := k.live sp }

/-- The joint or cooperative set that a pack's engine runs: the number of its oldest part (07 R204). -/
def Pack.jointNow (k : Pack) : Option Nat :=
  k.ops.findSome? fun o => match o.kind with
    | .tile _ _ _ _ _ j => if o.done || j = 0 then none else some j
    | _ => none

/-- An operand of a joint is lost: ECC is raised at every pack of it, and the task ends (07 R204) (log entry 50). -/
def State.eccJoint (s : State) (e : ErrorReport) (joint seq where_ : Nat) : State :=
  let parts := s.jointOps joint
  let hit := parts.filterMap fun p => (s.pack p.1 p.2.1).map fun k => (p.1, k, (k.split p.2.2.split).getD k.errorSplit)
  let s := hit.foldl (fun s h => s.trapEvent 1 h.1 h.2.1 h.2.2.id { ecc h.2.1 h.2.2 e.addr where_ seq with joint := true } true h.2.2.inh) s
  hit.foldl (fun s h => s.endTask h.2.1.tag 2 h.2.1.group) s

/-- A pack meets an uncorrectable error: an ERROR record of SEVERITY 2, and the task ends by ECC with the same ERRSEQ (20 R421); during a joint
every pack of it takes the trap (07 R204) (log entry 50). -/
def State.eccEnd (s : State) (e : ErrorReport) (core slot where_ : Nat) : State :=
  match (s.pack core slot).filter fun k => k.phase != .ended with
  | none => (s.reportError e).1
  | some k =>
    let sp := k.errorSplit
    let r := s.reportError e (some sp.id)
    match if e.joint then k.jointNow else none with
    | some j => r.1.eccJoint e j r.2 where_
    | none => r.1.takeTrap core slot k sp (ecc k sp e.addr where_ r.2)

/-! ### Units that are retired (20 R424) -/

/-- The unit that a record of SEVERITY 3 retires, located as a defect map locates it: an L2 way, a DRAM channel, a walker, or a seam lane by
its link (20 R424, 18 R385) (log entry 50). -/
def ErrorReport.lost (e : ErrorReport) : Option DefectUnit :=
  if e.severity != 3 then none
  else
    match e.cls with
    | 2 => some { kind := 2, loc := e.field + 256 * (e.cluster % 4) + 1024 * (e.unitNo % 16) }
    | 3 => some { kind := 6, loc := e.field + 256 * (e.unitNo % 32) }
    | 9 => some { kind := 3, loc := e.field + 256 * (e.unitNo % 32) }
    | 10 => some { kind := 5, loc := e.unitNo }
    | _ => none

/-- The spares of a kind (20 R424). -/
def sparesOfKind (kind : Nat) : Nat :=
  match kind with
  | 1 => 8
  | 3 => 2
  | 5 => 2
  | 6 => 1
  | _ => 0

/-- Two units draw on the same spares: those of the cluster, of the field, or of the link; an L2 way has none (20 R424). -/
def DefectUnit.shares (u v : DefectUnit) : Bool :=
  u.kind == v.kind && (if u.kind = 5 then u.loc % 65536 == v.loc % 65536 else if u.kind = 1 then u.loc % 1024 == v.loc % 1024 else cut u.loc 0 8 == cut v.loc 0 8)

/-- No spare stands in for a unit that is lost: the map in force and the units retired have used them up (20 R424). -/
def State.spareless (s : State) (u : DefectUnit) : Bool :=
  decide (sparesOfKind u.kind ≤ ((s.maps.force ++ s.retired).filter (DefectUnit.shares u)).length)

/-- A unit is retired; what an L2 way kept leaves it (20 R424). -/
def State.retire (s : State) (u : DefectUnit) : State :=
  let s := { s with retired := s.retired ++ [u] }
  if u.kind != 2 then s
  else
    let c := 4 * cut u.loc 0 8 + cut u.loc 8 2
    ((s.l2.getD c []).filter fun x => x.way == cut u.loc 10 4).foldl (fun s x => s.leaveL2 c x.line) s

/-- The report as the machine gives it: no address where the storage has none, SPARED where a spare stands in for the unit, and REPLREQ where
none is left (20 R420, R421, R424). -/
def State.completed (s : State) (e : ErrorReport) : ErrorReport :=
  let e := { e with addr := if e.severity = 2 && addrFree e.whereCode then 0 else e.addr }
  match ErrorReport.lost e with
  | none => e
  | some u => { e with spared := !s.spareless u, replaced := s.spareless u }

/-- HARDWARE_ERROR (20 R420, R421, R424), with one of the codes of WHERE where a task ends: the fault is recorded; SEVERITY 2 ends the task of the pack it met; SEVERITY 3 retires the unit, and
one with no spare left requests replacement; CLASS 13 or SEVERITY 4 is a chip failure (log entries 50, 69). -/
def execHardwareError (e : ErrorReport) (s : State) : Out :=
  if e.cls = 0 || 14 < e.cls || 4 < e.severity || (e.severity = 2 && (e.whereCode = 0 || 7 < e.whereCode)) then .refused (.notEnabled "HARDWARE_ERROR")
  else if e.cls = 13 then .next (s.chipFail e.unitNo)
  else
    let e := s.completed e
    let s := if e.replaced then s.requestReplacement else s
    let s := (ErrorReport.lost e).elim s s.retire
    match e.severity, e.victim with
    | 2, some v => .next (s.eccEnd e v.1 v.2 e.whereCode)
    | 4, _ => .next ((s.reportError e).1.chipFail e.cls)
    | _, _ => .next (s.reportError e).1

/-! ### Failure of a core (18 R390, 20 R423) -/

/-- The CLASS 1 report of a physical core (log entry 50). -/
def coreError (core severity : Nat) (spared replaced : Bool) (victim : Option (Nat × Nat)) : ErrorReport :=
  { cls := 1, severity := severity, field := fieldOf (core / 128), cluster := core / 128, position := core % 128, unitNo := 0, addr := 0
    spared := spared, replaced := replaced, victim := victim, whereCode := 0 }

/-- One pack of a failing core: its ERROR record, and a TASKEND with CAUSE ECC. The spec names no storage for a core: WHERE is a free one of its
codes, and ADDR a free value (20 R421) (log entry 50). -/
def State.failPack (s : State) (core slot : Nat) (k : Pack) : State :=
  let sp := k.errorSplit
  let r := s.reportError (coreError core 2 false false (some (core, slot))) (some sp.id)
  let d := r.1.drawFree
  let a := d.2.drawFree
  a.2.trapEvent 1 core k sp.id (ecc k sp a.1.toNat (d.1.toNat % 7 + 1) r.2) true sp.inh

/-- The tasks of the packs on a core that have not ended end (20 R423). -/
def State.failPacks (s : State) (core : Nat) : State :=
  let ps := (s.core core).packs.filter fun p => p.2.phase != .ended
  let s := ps.foldl (fun s p => s.failPack core p.1 p.2) s
  ps.foldl (fun s p => s.endTask p.2.tag 2 p.2.group) s

/-- The bound handle of a core moves to a spare position of its cluster, or is retired (18 R390); a spare that fails is lost (log entry 50). -/
def State.rebind (s : State) (core : Nat) : State :=
  let c := core / 128
  let p := core % 128
  let here := fun b : Binding => b.cluster == c && b.position == p && !b.retired
  let spares := (s.spares.getD c []).filter (· != p)
  let s := { s with spares := s.spares.put c spares }
  if !s.bindings.any here then (s.reportError (coreError core 3 false false none)).1
  else
    match spares with
    | q :: rest =>
      let r := s.reportError (coreError core 3 true false none)
      { r.1 with
        bindings := mapIf here (fun b => { b with position := q }) s.bindings
        spares := s.spares.put c rest, bindGen := s.bindGen + 1 }
    | [] =>
      let s := s.requestReplacement
      let r := s.reportError (coreError core 3 false true none)
      { r.1 with bindings := mapIf here (fun b => { b with retired := true }) s.bindings }

/-- CORE_FAILURE (20 R423): the core's tasks end, and its handle is rebound or retired (log entry 3). -/
def execCoreFailure (core : Nat) (s : State) : Out :=
  if Config.clusters * Config.positions ≤ core || (s.core core).failed then .refused (.notEnabled "CORE_FAILURE")
  else
    let s := s.failPacks core
    .next ((s.setCore core { s.core core with failed := true }).rebind core)

end Sys2Proof.Machine
end

