-- ==== Sys2Proof/Machine/Gang.lean ====
section
/-!
DEFINITION. The split as a whole (08 R208, R209), work identifiers (R215), system registers (R227–R230), `trap`, `brk` and `hret`
(R231, R235).
-/

namespace Sys2Proof.Machine

/-! ### Width queries and votes (R208) -/

/-- GWIDTH. -/
def execGwidth (d : GReg) (s : State) : Out :=
  issueU s "GWIDTH" [wrG 0 d] fun x => x.doneG d (BitVec.ofNat 32 (popcount x.live))
/-- GSLICES. -/
def execGslices (d : GReg) (s : State) : Out :=
  issueU s "GSLICES" [wrG 0 d] fun x => x.doneG d (BitVec.ofNat 32 (slicesOf x.live).length)
/-- VBALLOT. -/
def execVballot (d : GReg) (a : PReg) (s : State) : Out :=
  issueU s "VBALLOT" [wrG 0 d] fun x => x.doneG d (x.k.pred a &&& x.live)
/-- VANY. -/
def execVany (d a : PReg) (s : State) : Out :=
  issueU s "VANY" [] fun x => x.doneP d x.live (if x.k.pred a &&& x.live = 0 then 0 else BitVec.allOnes 32)
/-- VALL. -/
def execVall (d a : PReg) (s : State) : Out :=
  issueU s "VALL" [] fun x => x.doneP d x.live (if x.live &&& ~~~(x.k.pred a) = 0 then BitVec.allOnes 32 else 0)

/-! ### Shuffles (R209) -/

/-- The modes. -/
inductive Shfl where
  | idx
  | up
  | down
  | xor
  deriving DecidableEq, Repr

/-- The source lane j of lane i under selector `b`, none outside 0–31. -/
def Shfl.source (m : Shfl) (i : Nat) (b : Word) : Option Nat :=
  let n := b.toNat
  let j : Option Nat := match m with
    | .idx => some n
    | .up => if n ≤ i then some (i - n) else none
    | .down => some (i + n)
    | .xor => some (i ^^^ n)
  j.filter fun j => decide (j < 32)

/-- The source of lane i where it lies in the split. -/
def Iss.shflFrom (x : Iss) (m : Shfl) (i : Nat) (b : Word) : Option Nat := (m.source i b).filter fun j => x.live.getLsbD j

/-- A shuffle: the lane's own value and validity 0 where the source lies outside the split. -/
def Iss.shuffle (x : Iss) (act : Mask) (m : Shfl) (d a : VReg) (v : PReg) (sel : Nat → Word) : Out :=
  let r := writeV x.k x.sp d act fun i => x.v a ((x.shflFrom m i (sel i)).getD i)
  x.done (r.1.setP v act (maskWhere fun i => (x.shflFrom m i (sel i)).isSome)) r.2

/-- A shuffle whose selector is the destination's value before the write. -/
def shfl (mn : String) (m : Shfl) (g : PReg) (d a : VReg) (v : PReg) (s : State) : Out :=
  issue s mn g [rdV 0 d, rdV 1 a] fun x act => x.shuffle act m d a v (x.v d)

/-- A shuffle by an immediate. -/
def shfli (mn : String) (m : Shfl) (g : PReg) (d a : VReg) (n : BitVec 5) (s : State) : Out :=
  issue s mn g [wrV 0 d, rdV 1 a] fun x act => x.shuffle act m d a 7 fun _ => n.setWidth 32

/-- SHFL_IDX. -/
def execShflIdx (g : PReg) (d a : VReg) (v : PReg) (s : State) : Out := shfl "SHFL_IDX" .idx g d a v s
/-- SHFL_UP. -/
def execShflUp (g : PReg) (d a : VReg) (v : PReg) (s : State) : Out := shfl "SHFL_UP" .up g d a v s
/-- SHFL_DOWN. -/
def execShflDown (g : PReg) (d a : VReg) (v : PReg) (s : State) : Out := shfl "SHFL_DOWN" .down g d a v s
/-- SHFL_XOR. -/
def execShflXor (g : PReg) (d a : VReg) (v : PReg) (s : State) : Out := shfl "SHFL_XOR" .xor g d a v s
/-- SHFL_IDXI. -/
def execShflIdxi (g : PReg) (d a : VReg) (n : BitVec 5) (s : State) : Out := shfli "SHFL_IDXI" .idx g d a n s
/-- SHFL_UPI. -/
def execShflUpi (g : PReg) (d a : VReg) (n : BitVec 5) (s : State) : Out := shfli "SHFL_UPI" .up g d a n s
/-- SHFL_DOWNI. -/
def execShflDowni (g : PReg) (d a : VReg) (n : BitVec 5) (s : State) : Out := shfli "SHFL_DOWNI" .down g d a n s
/-- SHFL_XORI. -/
def execShflXori (g : PReg) (d a : VReg) (n : BitVec 5) (s : State) : Out := shfli "SHFL_XORI" .xor g d a n s

/-! ### Work identifiers (R215, 09 R256) -/

/-- WID. -/
def execWid (g : PReg) (d : VReg) (s : State) : Out :=
  issue s "WID" g [wrV 0 d 2] fun x act => x.doneV64 d act x.k.widOf

/-- Field `n` of a work identifier under WIDTHS; a field of width 0 reads as zero. -/
def widField (widths : List Nat) (w : DWord) (n : Nat) : DWord :=
  BitVec.ofNat 64 (cut w.toNat (widths.take n).sum (widths.getD n 0))

/-- WIDF. -/
def execWidf (g : PReg) (d : VReg) (k : BitVec 3) (s : State) : Out :=
  issue s "WIDF" g [wrV 0 d 2] fun x act =>
    let ws := (x.s.header x.k).widths
    x.doneV64 d act fun i => widField ws (x.k.widOf i) k.toNat

/-! ### System registers (R227–R230) -/

/-- `sr.pack` (R228) (log entry 63). -/
def Pack.srPack (k : Pack) (slot : Nat) : Word :=
  BitVec.ofNat 32 (slot % 16 + k.lpack % 65536 * 2 ^ 8 + k.role % 8 * 2 ^ 24 + (k.slices - 1) % 8 * 2 ^ 27)

/-- A field of the context, 0 without one. -/
def Iss.ctxWord (x : Iss) (f : Context → Word) : Word := (x.s.context x.k.ctx).elim 0 f

/-- A read of a system register: its value and the split afterwards; none for an SRN outside R227. -/
def Iss.readSr (x : Iss) (n : Nat) : Option (Word × Split) :=
  let t := x.sp.trap
  let time := x.s.timeFor x.f.core x.sp
  let same := fun w => some (w, x.sp)
  match n with
  | 0x000 => same x.k.fpctl
  | 0x001 => same x.k.fpstat
  | 0x010 => same (x.ctxWord (·.key0))
  | 0x011 => same (x.ctxWord (·.key1))
  | 0x020 => same (x.k.srPack x.f.slot)
  | 0x021 => same (BitVec.ofNat 32 x.k.group)
  | 0x022 => same (BitVec.ofNat 32 (x.s.handleAt x.f.core))
  | 0x023 => same (BitVec.ofNat 32 x.k.wlhold)
  | 0x030 => some (BitVec.ofNat 32 time, { x.sp with lastTime := time, gtHigh := BitVec.ofNat 32 (time / 2 ^ 32) })
  | 0x031 => same x.sp.gtHigh
  | 0x032 => same (BitVec.ofNat 32 (min x.s.skewPs (2 ^ 32 - 1)))
  | 0x040 => same t.cause
  | 0x041 => same t.epc
  | 0x042 => same t.mask
  | 0x043 => same t.active
  | 0x044 => same t.info0
  | 0x045 => same t.info1
  | 0x046 => same t.info2
  | 0x047 => same t.info3
  | 0x048 => same t.scratch0
  | 0x049 => same t.scratch1
  | 0x04A => same t.scratch2
  | 0x04B => same t.scratch3
  | _ => none

/-- `sr.fpctl` after a write: RM of 5–7 leaves the field, reserved bits read as zero (01 R32, 00 R9). -/
def writeFpctl (old w : Word) : Word :=
  let rm := if 5 ≤ cut w.toNat 0 3 then cut old.toNat 0 3 else cut w.toNat 0 3
  BitVec.ofNat 32 (rm + cut w.toNat 8 5 * 256)

/-- A write of a system register: the pack and split afterwards; writes to RO registers are ignored (R227). -/
def Iss.writeSr (x : Iss) (n : Nat) (w : Word) : Pack × Split :=
  let t := x.sp.trap
  match n with
  | 0x000 => ({ x.k with fpctl := writeFpctl x.k.fpctl w }, x.sp)
  | 0x001 => ({ x.k with fpstat := w &&& 0x1F }, x.sp)
  | 0x041 => (x.k, { x.sp with trap := { t with epc := w } })
  | 0x048 => (x.k, { x.sp with trap := { t with scratch0 := w } })
  | 0x049 => (x.k, { x.sp with trap := { t with scratch1 := w } })
  | 0x04A => (x.k, { x.sp with trap := { t with scratch2 := w } })
  | 0x04B => (x.k, { x.sp with trap := { t with scratch3 := w } })
  | _ => (x.k, x.sp)

/-- Flags are still to come from an earlier instruction of the split, or from one of a sibling that a barrier has joined to it (01 R35). -/
def Iss.flagsOpen (x : Iss) : Bool := x.k.busyFor x.live || x.k.openOps x.sp.flagOps

/-- RDSR (R227): an SRN outside the table is ILLOP with REASON 0; `sr.fpstat` waits for the split's earlier instructions (01
R35). -/
def execRdsr (d : GReg) (n : BitVec 12) (s : State) : Out :=
  issueU s "RDSR" [wrG 0 d] fun x =>
    if n = 0x001 && x.flagsOpen then .next x.s
    else
      match x.readSr n.toNat with
      | none => x.illop 0
      | some r => x.done (x.k.setG d.toNat r.1) r.2

/-- WRSR (R227): `sr.fpstat` keeps the order of the split's own instructions (01 R35). -/
def execWrsr (d : GReg) (n : BitVec 12) (s : State) : Out :=
  issueU s "WRSR" [rdG 0 d] fun x =>
    if n = 0x001 && x.flagsOpen then .next x.s
    else
      match x.readSr n.toNat with
      | none => x.illop 0
      | some _ =>
        let r := x.writeSr n.toNat (x.g d)
        x.done r.1 r.2

/-! ### Traps and returns (R231, R235) -/

/-- TRAP (R231). -/
def execTrap (i : BitVec 8) (s : State) : Out :=
  issueU s "TRAP" [] fun x => x.commit.raise x.live 0x0F (immZ x.sp.hints i).toNat
/-- BRK (R231). -/
def execBrk (i : BitVec 8) (s : State) : Out :=
  issueU s "BRK" [] fun x => x.commit.raise x.live 0x0E (immZ x.sp.hints i).toNat

/-- SYNC's cause word is its REASON (08 R232). -/
def Iss.sync (x : Iss) (reason : Nat) : Out := x.raise x.live 0x15 reason

/-- Leave the handler for `pc` (R235). -/
def Iss.leave (x : Iss) (pc : Word) : Out :=
  .next { x.put x.k.started (x.sp.leave pc x.s.clock) with clock := x.s.clock + 1 }

/-- HRET_RETRY (R235). -/
def execHretRetry (s : State) : Out :=
  issueU s "HRET_RETRY" [] fun x => if x.sp.inh then x.leave x.sp.trap.epc else x.sync 0x04

/-- A REGBUDGET group skipped reaches its `calli`'s reconvergence address (R235, 04 R112). -/
def Iss.skipTarget (x : Iss) : Word :=
  let a := x.s.skipFrom x.f.core x.k x.sp.trap.epc
  if cut x.sp.trap.cause.toNat 0 8 == 0x04 && x.sp.parent.isSome && x.sp.reconv == a then x.sp.reconv else a

/-- HRET_SKIP (R235). -/
def execHretSkip (s : State) : Out :=
  issueU s "HRET_SKIP" [] fun x => if x.sp.inh then x.leave x.skipTarget else x.sync 0x04

/-- The record a task ended from a handler reports: the one the handler was entered with (log entry 24). -/
def Split.lastRecord (sp : Split) : TrapRec :=
  let t := sp.trap
  { code := cut t.cause.toNat 0 8, info := t.info3 ++ t.info2 ++ t.info1 ++ t.info0, joint := t.cause.getLsbD 8
    slot := cut t.cause.toNat 10 2, epc := t.epc, mask := t.mask, active := t.active }

/-- HRET_END (R235): the task ends as R234 lays down (log entry 24). -/
def execHretEnd (s : State) : Out :=
  issueU s "HRET_END" [] fun x =>
    if x.sp.inh then
      .next ((x.s.trapEvent 1 x.f.core x.k x.sp.id x.sp.lastRecord true true).endTask x.k.tag 2 x.k.group)
    else x.sync 0x04

end Sys2Proof.Machine
end

