-- ==== Sys2Proof/Machine/Sync.lean ====
section
/-!
DEFINITION. Synchronisation (08 R210–R214): the group barrier, its deadlock, `yield`, phase-bit barriers in the scratchpad; and
`exit` with the flush of a group's last lane (04 R114, 06 R161).
-/

namespace Sys2Proof.Machine

/-! ### The group barrier (R210, R211) -/

/-- BAR (R210): the split stops at the barrier. -/
def execBar (s : State) : Out :=
  issueU s "BAR" [] fun x =>
    let s := { x.put x.k.started (x.arrive false) with clock := x.s.clock + 1 }
    .next (s.setCore x.f.core { s.core x.f.core with lastPack := x.f.slot })

/-- Every lane-path access of the group's packs is performed, as a full barrier asks before it releases (R210) (log entry 27). -/
def State.groupDone (s : State) (g : Group) : Bool :=
  (s.groupPacks g).all fun p => p.2.2.ops.all fun o => o.done || o.path != .lane

/-- BAR_COMPLETION (R210) (log entry 27). -/
def execBarCompletion (queue index group : Nat) (s : State) : Out :=
  match s.group { queue := queue, index := index } group with
  | none => .refused (.notEnabled "BAR_COMPLETION")
  | some g =>
    if s.barrierFull g false && s.groupDone g then .next (s.releaseGroup g id)
    else .refused (.notEnabled "BAR_COMPLETION")

/-- The lanes of a pack that wait at a barrier, a reconvergence address or a `regang` (R211). -/
def Pack.stoppedLanes (k : Pack) : Mask :=
  k.lanesIn ((k.splits.map (·.2)).filter fun sp =>
    sp.status == .barrier || sp.status == .stoppedReconv || sp.status == .stoppedRegang)

/-- Nothing in the pack is about to move by itself: no parent can resume and no family can be released. -/
def Pack.still (k : Pack) : Bool := k.splits.all fun e => !k.resumable e.1 && !k.familyStopped e.2

/-- Every lane of the group that has not exited is stopped and no barrier is complete (R211). -/
def State.deadlocked (s : State) (g : Group) : Bool :=
  let ks := s.groupPacks g
  (ks.all fun p => (p.2.2.remaining &&& ~~~p.2.2.stoppedLanes) == 0 && p.2.2.still) &&
    (ks.any fun p => p.2.2.splits.any fun e => e.2.status == .barrier) && !s.barrierFull g false && !s.barrierFull g true

/-- The slot that `sr.tcause` reports for the unit at an address (08 R229). -/
def State.slotAt (s : State) (core : Nat) (k : Pack) (a : Word) : Nat :=
  match (s.unitAt core k a).1 with
  | .slot _ n => n
  | _ => 0

/-- Raise SYNC 0x01 at a split stopped at a barrier (R211): at once, or after its refill and the end of its earlier operations. -/
def State.syncAtBarrier (s : State) (core slot i : Nat) : State :=
  match s.pack core slot with
  | none => s
  | some k =>
    match k.split i with
    | none => s
    | some sp =>
      if sp.status != .barrier then s
      else
        let m := k.live sp
        let r : TrapRec := { code := 0x15, info := 1, joint := false, slot := s.slotAt core k sp.hintAt, epc := sp.hintAt, mask := m, active := m }
        let sp := { sp with status := .ready, atFlush := false }
        if k.busyFor m || sp.spill.isSome then s.setPack core slot (k.setSplit { sp.clean with pending := some r, pc := sp.hintAt })
        else s.takeTrap core slot k sp r

/-- BARRIER_DEADLOCK (R211): no arrival stands any more, so none asks for a flush's flags (06 R161). -/
def execBarrierDeadlock (queue index group : Nat) (s : State) : Out :=
  match s.group { queue := queue, index := index } group with
  | none => .refused (.notEnabled "BARRIER_DEADLOCK")
  | some g =>
    if s.deadlocked g then
      let s := (s.groupPacks g).foldl (fun s p => p.2.2.splits.foldl (fun s e => s.syncAtBarrier p.1 p.2.1 e.1) s) s
      .next (g.packs.foldl (fun s p => s.modPack p.1 p.2 fun k => { k with wantFlags := false }) s)
    else .refused (.notEnabled "BARRIER_DEADLOCK")

/-- YIELD (R212): in deterministic mode the split waits until its pack is next current (09 R252, R253). -/
def execYield (s : State) : Out :=
  issueU s "YIELD" [] fun x =>
    let t := x.retire x.k x.sp
    .next (if t.detCore x.f.core then
        (t.setCore x.f.core { t.core x.f.core with detPass := true }).yieldTurn x.f.core x.f.slot x.sp.id
      else t)

/-! ### Exit (04 R114) -/

/-- No lane of the group is left: its flush is performed once more, flags discarded (06 R161). -/
def State.lastFlush (s : State) (t : Tag) (x : Nat) : State :=
  match s.group t x with
  | none => s
  | some g => if (s.groupPacks g).all fun p => p.2.2.remaining == 0 then s.flushGroup t g false else s

/-- EXIT (04 R114): the active lanes leave every split; a pack with no lane left drains. -/
def execExit (g : PReg) (s : State) : Out :=
  issue s "EXIT" g [] fun x act =>
    let s := x.retire x.k x.sp
    let s := s.modPack x.f.core x.f.slot fun k =>
      let k := k.exitLanes act
      if k.remaining = 0 then k.leftLanes else k
    .next s

/-! ### Phase-bit barriers (R213, R214) -/

/-- A phase barrier word (R213). -/
structure Phase where
  expect : Nat
  arrived : Nat
  phase : Bool
  gen : Nat
  reserved : Bool
  deriving DecidableEq, Repr

/-- The word at a scratchpad byte. -/
def phaseAt (m : Bytes) (a : Nat) : Phase :=
  let w := m.readLE a 8
  { expect := cut w 0 8, arrived := cut w 8 8, phase := bit w 16, gen := cut w 32 32, reserved := cut w 17 15 != 0 }

/-- The word's 64 bits. -/
def Phase.bits (p : Phase) : Nat := p.expect + p.arrived * 2 ^ 8 + (if p.phase then 2 ^ 16 else 0) + p.gen % 2 ^ 32 * 2 ^ 32

/-- SYNC 0x02: reserved bits, EXPECT = 0 or ARRIVED ≥ EXPECT (R213). -/
def Phase.bad (p : Phase) : Bool := p.reserved || p.expect == 0 || decide (p.expect ≤ p.arrived)

/-- The word after one more arrival (R214). -/
def Phase.arrive (p : Phase) : Phase :=
  if p.arrived + 1 = p.expect then { p with arrived := 0, phase := !p.phase, gen := p.gen + 1 }
  else { p with arrived := p.arrived + 1 }

/-- The scratchpad byte of the word that a handle and gb name. -/
def phaseByte (h gb : Word) : Nat := hByte h + cut gb.toNat 0 16

/-- The handle and OFF of a mailbox or word pass: bits outside those listed zero, aligned, within the region (R213, R216). -/
def offsetBad (h gb : Word) (mbz align : Nat) : Bool :=
  gb.toNat &&& mbz != 0 || cut gb.toNat 0 16 % align != 0 || decide (hBytes h < cut gb.toNat 0 16 + align)

/-- Issue a phase-barrier instruction: its handle, its operand, then what it does (R213). -/
def phaseIssue (mn : String) (mbz : Nat) (d : TReg) (a : GReg) (s : State) (run : Iss → Nat → Word → Out) : Out :=
  issueU s mn [opT 0 d, rdG 1 a] fun x =>
    let h := x.k.readT d.toNat
    if x.badHandle d.toNat [1, 2, 3] then x.handle 0x10 d.toNat
    else if offsetBad h (x.g a) mbz 8 then x.handle 0x1E d.toNat
    else run x (phaseByte h (x.g a)) (x.g a)

/-- The state with a phase barrier word replaced. -/
def Iss.putPhase (x : Iss) (at_ : Nat) (p : Phase) : Iss :=
  let c := x.s.core x.f.core
  { x with s := x.s.setCore x.f.core { c with sram := c.sram.writeLE at_ 8 p.bits } }

/-- PBINIT (R214): it follows the split's own scratchpad stores (07 R177). -/
def execPbinit (d : TReg) (a : GReg) (s : State) : Out :=
  phaseIssue "PBINIT" 0xF00E0000 d a s fun x at_ w =>
    if cut w.toNat 20 8 = 0 then x.sync 0x03
    else if x.storing then .next x.s
    else (x.putPhase at_ { expect := cut w.toNat 20 8, arrived := 0, phase := false, gen := 0, reserved := false }).done x.k x.sp

/-- An earlier lane, copy or tile operation of the pack is not complete (R214). -/
def Pack.working (k : Pack) : Bool := k.ops.any fun o => !o.done && (o.path == .lane || o.path == .copy || o.path == .matrix)

/-- PBARRIVE (R214): the word is judged as the pack's own operations leave it. -/
def execPbarrive (d : TReg) (a : GReg) (s : State) : Out :=
  phaseIssue "PBARRIVE" 0xFFFE0000 d a s fun x at_ _ =>
    if x.k.working then .next x.s
    else
      let p := phaseAt (x.s.core x.f.core).sram at_
      if p.bad then x.sync 0x02 else (x.putPhase at_ p.arrive).done x.k x.sp

/-- PBWAIT (R214). -/
def execPbwait (d : TReg) (a : GReg) (s : State) : Out :=
  phaseIssue "PBWAIT" 0xFFFE0000 d a s fun x at_ w =>
    if x.storing then .next x.s
    else
      let p := phaseAt (x.s.core x.f.core).sram at_
      if p.bad then x.sync 0x02
      else if p.phase != bit w.toNat 16 then x.done x.k x.sp
      else x.stallAt (.pbwait d.toNat a.toNat)

/-- PBWAIT_PASS (R214): the phase has flipped (log entry 42). -/
def execPbwaitPass (core slot split : Nat) (s : State) : Out :=
  onStall "PBWAIT_PASS" s core slot split fun x st =>
    match st with
    | .pbwait t a =>
      let w := x.k.readG a
      let p := phaseAt (x.s.core core).sram (phaseByte (x.k.readT t) w)
      if p.phase != bit w.toNat 16 then some (x.done x.k x.sp) else none
    | _ => none

end Sys2Proof.Machine
end

