-- ==== Sys2Proof/Machine/Work.lean ====
section
/-!
DEFINITION. Work for packs: `fetchw` and `launch` (08 R216, R217; 15 R319, R330), queue tokens (08 R218, R219) and work lists
(08 R220–R222, 15 R331).
-/

namespace Sys2Proof.Machine

/-! ### Fields of a launch record (15 R321) -/

/-- WBASE of a launch. -/
def Launch.wbase (l : Launch) : Nat := recField l.bytes 24 8

/-- GroupBase of group `x` (15 R323). -/
def Launch.groupBase (l : Launch) (x : Nat) : DWord := BitVec.ofNat 64 ((l.wbase + x) * 2 ^ l.hdr.widths.getD 0 0)

/-- The offset of the first field of a LAUNCH record that fails its own checks (15 R321), none when all pass. -/
def launchFault (bs : List Byte) : Option Nat :=
  let f := recField bs
  (([(1, decide (32 ≤ f 1 1)), (8, f 8 8 % 256 != 0), (16, f 16 4 == 0), (32, f 32 8 % 64 != 0), (40, f 40 8 % 8 != 0),
    (56, f 56 8 % 8 != 0)] : List (Nat × Bool)).find? (·.2)).map (·.1)

/-! ### Fetch-work (R216, 15 R330) -/

/-- FETCHW (R216). -/
def execFetchw (d : TReg) (a : GReg) (s : State) : Out :=
  issueU s "FETCHW" [opT 0 d, rdG 1 a] fun x =>
    let h := x.k.readT d.toNat
    if x.badHandle d.toNat [1, 2, 3] then x.handle 0x10 d.toNat
    else if offsetBad h (x.g a) 0xFFFF0000 16 then x.handle 0x1E d.toNat
    else if x.k.fetch.isSome then x.stallAt (.fetchw d.toNat a.toNat)
    else if x.storing then .next x.s
    else
      let c := x.s.core x.f.core
      let b := phaseByte h (x.g a)
      let s := x.s.setCore x.f.core { c with sram := c.sram.writeLE (b + 12) 4 0 }
      ({ x with s := s } : Iss).commit.done { x.k with fetch := some { mailbox := b } } x.sp

/-- The launch with a group taken from those not placed. -/
def Launch.take (l : Launch) (x : Nat) : Launch :=
  if l.returned.contains x then { l with returned := l.returned.filter (· != x) } else { l with next := l.next + 1 }

/-- The distributor answers an outstanding fetch: WID, STATUS, then READY (15 R330); a second `fetchw` that waited for it then
issues (R216) (log entry 39). -/
def State.answerFetch (s : State) (core slot : Nat) (k : Pack) (f : Fetch) (l : Launch) : State :=
  let free := fun k : Pack =>
    { k with
      fetch := none
      splits := k.splits.map fun e => match e.2.stall with
        | some (.fetchw _ _) => (e.1, { e.2 with stall := none })
        | _ => e }
  let put := fun (s : State) (wid status : Nat) =>
    let c := s.core core
    s.setCore core { c with sram := ((c.sram.writeLE f.mailbox 8 wid).writeLE (f.mailbox + 8) 4 status).writeLE (f.mailbox + 12) 4 1 }
  if !l.hdr.persist then put (s.setPack core slot (free k)) 0 3
  else
    match l.unplaced with
    | none => put (s.setPack core slot (free k)) 0 2
    | some x =>
      let s := s.modLaunch k.tag fun l => { l.take x with granted := l.granted ++ [x] }
      put (s.setPack core slot { free k with granted := k.granted ++ [x] }) (l.groupBase x).toNat 1

/-- FETCHW_ANSWER (15 R330). -/
def execFetchwAnswer (core slot : Nat) (s : State) : Out :=
  match s.pack core slot with
  | none => .refused (.notEnabled "FETCHW_ANSWER")
  | some k =>
    match k.fetch, s.launch k.tag with
    | some f, some l => .next (s.answerFetch core slot k f l)
    | _, _ => .refused (.notEnabled "FETCHW_ANSWER")

/-! ### Device-side launch (R217, 15 R319) -/

/-- The record cannot be queued by `launch`: its KIND, CONTEXT, QUEUE or a field (15 R319) (log entry 40). -/
def State.launchRefused (s : State) (ctx : Nat) (bs : List Byte) : Bool :=
  let q := recField bs 2 2
  recField bs 0 1 != 1 || recField bs 4 4 != ctx || !s.queueServed q || s.qContext q != ctx || (launchFault bs).isSome

/-- Enqueue a record: 0 queued, 1 the queue is full, 2 refused (R217, 15 R319). -/
def State.enqueue (s : State) (ctx : Nat) (bs : List Byte) : State × Nat :=
  let q := recField bs 2 2
  if s.launchRefused ctx bs then (s, 2)
  else
    let r := s.qReserve q
    if s.qSlots q ≤ (r + 2 ^ 32 - s.qHead q) % 2 ^ 32 then (s, 1)
    else
      let a := s.qRing q + 64 * (r % s.qSlots q)
      let s := s.setWin (queueAt q + 32) 4 (r + 1)
      ((s.outsideWrite (a + 8) (bs.drop 8)).outsideWrite a (bs.take 8), 0)

/-- The split has read, or written, `n` bytes as they now stand (11 R276). -/
def Iss.saw (x : Iss) (pa n : Nat) : Split := { x.sp with seen := x.s.seeOwn x.sp.seen pa n }

/-- LAUNCH (R217): the pack's earlier lane-path accesses are performed first (11 R282), and a record on a sequentially consistent page is
read when every earlier access is (11 R284). -/
def execLaunch (d a : GReg) (s : State) : Out :=
  issueU s "LAUNCH" [wrG 0 d, rdG 1 a 2] fun x =>
    let va := x.k.readG64 a.toNat
    if x.k.scBusy || x.k.gated x.sp true || x.k.ops.any (fun o => !o.done && o.path == .lane) then .next x.s
    else
      match x.s.access x.f.core false x.k.ctx .lane va 64 64 .load with
      | .error e =>
        let s := x.s.afterAccess x.f.core false x.k.ctx .lane va 64 64 .load
        ({ x with s := s } : Iss).accessFault x.live e (memWord va 0 0 .lane false false 0)
      | .ok t =>
        if bit t.attr 0 && x.unperformed then .next x.s
        else
          let r := t.s.enqueue x.k.ctx (t.s.mem.readList t.pa 64)
          ({ x with s := r.1, sp := x.saw t.pa 64 } : Iss).commit.doneG d (BitVec.ofNat 32 r.2)

/-! ### Queue tokens (R218, R219) -/

/-- The location fields after a release (R219): KIND, and the word's bits [63:32] for it. -/
def widenToken (hi core slot : Nat) : Nat :=
  let kind := cut hi 30 2
  let at_ := cut hi 4 15
  let own := slot % 16 + core % 2 ^ 15 * 16
  let near := core / 128 * 128 * 16
  let next := match kind with
    | 0 => 1
    | 1 => if hi % 16 == slot && at_ == core then 1 else if at_ / 128 == core / 128 then 2 else 3
    | 2 => if at_ / 128 == core / 128 then 2 else 3
    | _ => 3
  next * 2 ^ 30 + (if next = 1 then own else if next = 2 then near else 0)

/-- A token's address as translated, once the accesses ahead of it allow: none while the instruction must wait. -/
def Iss.tokenAt (x : Iss) (a : Nat) : Option (Except XErr Xlated) :=
  let r := x.s.access x.f.core false x.k.ctx .lane (x.k.readG64 a) 8 8 .atomic
  if x.k.scBusy || x.k.gated x.sp true then none
  else
    match r with
    | .error e => some (.error e)
    | .ok t =>
      let op : PendOp := { id := x.k.nextOp, cls := .ld, path := .lane, lineage := x.live, split := x.sp.id, kind := .atomic 11 none }
      if x.k.blockedBy op { lane := 0, pa := t.pa } || (bit t.attr 0 && x.unperformed) then none else some (.ok t)

/-- Raise what a token's address failed (06 R144, R145); what its walk did stays (16 R349). -/
def Iss.tokenTrap (x : Iss) (a : Nat) (e : XErr) : Out :=
  let s := x.s.afterAccess x.f.core false x.k.ctx .lane (x.k.readG64 a) 8 8 .atomic
  ({ x with s := s } : Iss).accessFault x.live e (memWord (x.k.readG64 a) 0 0 .lane true false 0)

/-- QTOK_REL (R219): it covers every earlier lane-path access of the pack, which it waits for (log entry 24). -/
def execQtokRel (d a : GReg) (s : State) : Out :=
  issueU s "QTOK_REL" [rdG 0 d, rdG 1 a 2] fun x =>
    match x.tokenAt a.toNat with
    | none => .next x.s
    | some (.error e) => x.tokenTrap a.toNat e
    | some (.ok t) =>
      if x.k.ops.any fun o => !o.done && o.path == .lane then .next x.s
      else
        let w := t.s.mem.readLE t.pa 8
        let new := (w % 2 ^ 32 + (x.g d).toNat) % 2 ^ 32 + widenToken (w / 2 ^ 32) x.f.core x.f.slot * 2 ^ 32
        let x : Iss := { x with s := t.s.devWrite x.f.core x.k.ctx t.pa 8 new t.attr }
        x.commit.done x.k (x.saw t.pa 8)

/-- Read a token into gd, if `ok` holds of its COUNT and gd (R219). -/
def Iss.readToken (x : Iss) (d a : Nat) (ok : Nat → Nat → Bool) : Option Out :=
  match x.tokenAt a with
  | none => some (.next x.s)
  | some (.error e) => some (x.tokenTrap a e)
  | some (.ok t) =>
    let n := t.s.mem.readLE t.pa 4
    if ok n (x.k.readG d).toNat then
      let x : Iss := { x with s := t.s }
      some (x.done (x.k.setG d (BitVec.ofNat 32 n)) (x.saw t.pa 8))
    else none

/-- COUNT has reached the target: (COUNT − gd) mod 2^32 < 2^31 (R219). -/
def countReached (n target : Nat) : Bool := decide ((n + 2 ^ 32 - target) % 2 ^ 32 < 2 ^ 31)

/-- QTOK_ACQ (R219). -/
def execQtokAcq (d a : GReg) (s : State) : Out :=
  issueU s "QTOK_ACQ" [rdG 0 d, rdG 1 a 2] fun x =>
    (x.readToken d.toNat a.toNat countReached).getD (x.stallAt (.acquire d.toNat a.toNat))

/-- QTOK_TRY (R219). -/
def execQtokTry (d a : GReg) (s : State) : Out :=
  issueU s "QTOK_TRY" [wrG 0 d, rdG 1 a 2] fun x =>
    (x.readToken d.toNat a.toNat fun _ _ => true).getD (.next x.s)

/-- QTOK_ACQ_PASS (R219): COUNT has reached the target (log entry 42). -/
def execQtokAcqPass (core slot split : Nat) (s : State) : Out :=
  onStall "QTOK_ACQ_PASS" s core slot split fun x st =>
    match st with
    | .acquire d a => if (x.tokenAt a).isNone then none else x.readToken d a countReached
    | _ => none

/-! ### Work lists (R220–R222) -/

/-- WLIST's cause word (R222) (log entry 18). -/
def wlistWord (reason list : Nat) : Nat := reason + list % 256 * 256

/-- The context's work lists. -/
def Iss.lists (x : Iss) : Table WorkList := (x.s.context x.k.ctx).elim [] (·.lists)

/-- Change the context's work lists. -/
def Iss.setLists (x : Iss) (l : Table WorkList) (quiet : Bool) : Iss :=
  { x with s := x.s.modContext x.k.ctx fun c => { c with lists := l, quiescent := quiet } }

/-- The context is quiescent as declared (R220). -/
def Iss.quiet (x : Iss) : Bool := (x.s.context x.k.ctx).elim false (·.quiescent)

/-- Append one item to a list's ring. -/
def pushItem (x : Iss) (list : Nat) (item : Word) : Iss :=
  match x.lists.get list with
  | none => x
  | some w =>
    let s := x.s.outsideWrite (w.ring + 4 * ((w.head + w.count) % w.cap)) (bytesLE 4 item.toNat)
    ({ x with s := s } : Iss).setLists (x.lists.put list { w with count := w.count + 1 }) false

/-- Every item of the lanes fits its list (R220). -/
def Iss.fits (x : Iss) (act : Mask) (d : Nat) : Bool :=
  let named := (lanesOf act).map fun i => (x.k.readV x.sp d i).toNat
  x.lists.all fun e => decide (e.2.count + (named.filter (· == e.1)).length ≤ e.2.cap)

/-- `wlpush` where every item fits. -/
def Iss.wlpush (x : Iss) (act : Mask) (d a : Nat) : Option Out :=
  if x.fits act d then
    let y := (lanesOf act).foldl (fun y i => pushItem y (x.k.readV x.sp d i).toNat (x.k.readV x.sp a i)) x
    some (y.commit.done y.k y.sp)
  else none

/-- WLPUSH (R220); a list index out of range is reported of the lowest lane that has one (R222) (log entries 18, 96). -/
def execWlpush (g : PReg) (d a : VReg) (s : State) : Out :=
  issue s "WLPUSH" g [rdV 0 d, rdV 1 a] fun x act =>
    let bad := (lanesOf act).filter fun i => (x.lists.get (x.v d i).toNat).isNone
    if act = 0 then x.commit.done x.k x.sp
    else if x.lists.isEmpty then x.raise act 0x14 (wlistWord 0x03 0)
    else
      match bad with
      | i :: _ => x.raise act 0x14 (wlistWord 0x01 (x.v d i).toNat)
      | [] => (x.wlpush act d.toNat a.toNat).getD (x.commit.stallAt (.wlpush g d.toNat a.toNat))

/-- The `n` oldest items of a list. -/
def Iss.items (x : Iss) (w : WorkList) (n : Nat) : List Word :=
  (List.range n).map fun j => BitVec.ofNat 32 (x.s.mem.readLE (w.ring + 4 * ((w.head + j) % w.cap)) 4)

/-- `wlpop` where the list holds an item or the context is quiescent (R221). -/
def Iss.wlpop (x : Iss) (act : Mask) (d a : Nat) (p : PReg) : Option Out :=
  let l := (x.k.readG a).toNat
  match x.lists.get l with
  | none => none
  | some w =>
    if w.count = 0 && !x.quiet then none
    else
      let n := if x.quiet then 0 else min w.count (popcount act)
      let takers := (lanesOf act).take n
      let its := x.items w n
      let k := x.k.setLanes d (maskOf takers) fun i => its.getD ((takers.idxOf? i).getD 0) 0
      let k := k.setP p act (maskOf takers)
      let x := if n = 0 then x else x.setLists (x.lists.put l { w with head := (w.head + n) % w.cap, count := w.count - n }) false
      some (x.commit.done { k with wlhold := k.wlhold + n } x.sp)

/-- WLPOP (R221); the list index of REASON 0x03 is 0 (R222) (log entries 18, 96). -/
def execWlpop (g : PReg) (d : VReg) (a : GReg) (p : PReg) (s : State) : Out :=
  issue s "WLPOP" g [wrV 0 d, rdG 1 a] fun x act =>
    if act = 0 then x.commit.done x.k x.sp
    else if x.lists.isEmpty then x.raise act 0x14 (wlistWord 0x03 0)
    else if (x.lists.get (x.g a).toNat).isNone then x.raise act 0x14 (wlistWord 0x01 (x.g a).toNat)
    else (x.wlpop act d.toNat a.toNat p).getD (x.commit.stallAt (.wlpop g d.toNat a.toNat p))

/-- WLDONE (R222); the list index of REASON 0x02 and 0x03 is 0 (log entry 96). -/
def execWldone (g : PReg) (s : State) : Out :=
  issue s "WLDONE" g [] fun x act =>
    if act = 0 then x.done x.k x.sp
    else if x.lists.isEmpty then x.raise act 0x14 (wlistWord 0x03 0)
    else if x.k.wlhold < popcount act then x.raise act 0x14 (wlistWord 0x02 0)
    else x.done { x.k with wlhold := x.k.wlhold - popcount act } x.sp

/-- WLPUSH_RESUME (R220): the registers are read again (log entry 42). -/
def execWlpushResume (core slot split : Nat) (s : State) : Out :=
  onStall "WLPUSH_RESUME" s core slot split fun x st =>
    match st with
    | .wlpush g d a => x.wlpush (x.k.active x.sp g) d a
    | _ => none

/-- WLPOP_RESUME (R221) (log entry 42). -/
def execWlpopResume (core slot split : Nat) (s : State) : Out :=
  onStall "WLPOP_RESUME" s core slot split fun x st =>
    match st with
    | .wlpop g d a p => x.wlpop (x.k.active x.sp g) d a p
    | _ => none

end Sys2Proof.Machine
end

