-- ==== Sys2Proof/Machine/Trail.lean ====
section
/-!
DEFINITION. The Trail: sequences and their streams (20 R409–R412), shipping and journal-before-emit (R413–R416), replay (R418),
and the journal instructions (08 R223–R226).
-/

namespace Sys2Proof.Machine

/-! ### Sequences (R409, R412) -/

/-- An open sequence of a context. -/
def State.seq (s : State) (ctx seq : Nat) : Option Seq := (s.context ctx).bind fun c => c.seqs.get seq

/-- Change an open sequence. -/
def State.modSeq (s : State) (ctx seq : Nat) (f : Seq → Seq) : State :=
  s.modContext ctx fun c => { c with seqs := c.seqs.update seq f }

/-! ### Streams and shipping (R412, R413) -/

/-- An optical port is UP to a peer (19 R402). -/
def State.portTo (s : State) (peer : Nat) : Bool := s.ports.any fun p => p.2.state == .up && p.2.peer == peer

/-- Traffic went to a peer (R416). -/
def State.sentTo (s : State) (peer : Nat) : State := { s with peers := s.peers.update peer fun p => { p with sent := s.now } }

/-- A peer was heard (R416). -/
def State.heardFrom (s : State) (peer : Nat) : State :=
  { s with peers := s.peers.update peer fun p => { p with heard := s.now, silent := false } }

/-- Ship the records of a sequence not yet shipped to the context's partner, in SIDX order (R413) (log entry 72). -/
def State.ship (s : State) (ctx seq : Nat) : State :=
  match (s.context ctx).bind (·.partner), s.seq ctx seq with
  | some p, some q =>
    if s.failSilent then s
    else
      let eth := p.ethernet || !s.portTo p.peer
      let out := (q.stream.filter fun r => decide (q.shipped ≤ r.sidx)).map fun r => OutMsg.record p.peer eth r
      let s := if out.isEmpty then s else s.sentTo p.peer
      { s.modSeq ctx seq fun q => { q with shipped := q.sidx } with outbox := s.outbox ++ out }
  | _, _ => s

/-- Append a record to a sequence's stream and ship it (R412, R413). -/
def State.appendRecord (s : State) (ctx seq kind ord pos : Nat) (payload : DWord) : State :=
  (s.modSeq ctx seq fun q =>
    { q with
      stream := q.stream ++ [{ kind := kind, ord := ord, seq := seq, pos := pos, ctx := ctx, sidx := q.sidx, payload := payload }]
      sidx := q.sidx + 1 }).ship ctx seq

/-- Append the LEFT records of the sequence that wait for room in the pool, in order, as far as there is room in its turn (R412, R413)
(log entry 72). -/
def State.settleLeft (s : State) (ctx seq : Nat) : (waiting : List Nat) → State
  | [] => (s.modSeq ctx seq fun q => { q with left := [] }).unask ctx (.left seq)
  | p :: ps =>
    if s.recordTurn ctx (some (.left seq)) 1 then (s.appendRecord ctx seq 7 0 p 0).settleLeft ctx seq ps
    else (s.modSeq ctx seq fun q => { q with left := p :: ps }).ask ctx (.left seq)

/-- Close a sequence: its held emissions are discarded, LEFT records that wait and a CLOSE record are shipped, and it is freed (R409,
R410) (log entry 72). -/
def State.closeSeq (s : State) (ctx seq : Nat) : State :=
  match s.seq ctx seq with
  | none => s
  | some q =>
    ((q.left.foldl (fun s p => s.appendRecord ctx seq 7 0 p 0) s).appendRecord ctx seq 8 0 q.next 0).modContext ctx
      fun c => { c with seqs := c.seqs.del seq }

/-! ### Accepting a record (08 R224, R418) -/

/-- The ordinal of the next record of a kind and position (08 R224) (log entry 28). -/
def Seq.ordinal (q : Seq) (kind pos : Nat) : Nat :=
  match q.ords.find? fun e => e.1 == kind && e.2.1 == pos with
  | some e => e.2.2
  | none => 0

/-- Count one more record of a kind and position. -/
def Seq.counted (q : Seq) (kind pos : Nat) : Seq :=
  { q with ords := (kind, pos, q.ordinal kind pos + 1) :: q.ords.filter fun e => !(e.1 == kind && e.2.1 == pos) }

/-- A position at or below one that may be NONE. -/
def posLe (p : Nat) (o : Option Nat) : Bool := o.elim false fun n => decide (p ≤ n)

/-- The journalled record that a `jrec` in REPLAY matches. -/
def Seq.journalled (q : Seq) (kind pos : Nat) : Option JRec :=
  if q.replay then q.given.find? fun r => r.kind == kind && r.pos == pos && r.ord == q.ordinal kind pos else none

/-- What a `jrec` does to its sequence beside what it appends: the events it raises as (REASON, kind, ordinal, journalled,
program), and whether it appends (R418). -/
structure Accepted where
  q : Seq
  payload : DWord
  append : Bool
  events : List (Nat × Nat × Nat × DWord × DWord)
  deriving DecidableEq, Repr

/-- The end of a step: `jrec.tok` moves NEXT on, and in REPLAY accounts for the position's journalled records (R418). -/
def Seq.endStep (q : Seq) (pos : Nat) (tok : Word) : Seq × List (Nat × Nat × Nat × DWord × DWord) :=
  let missing := if q.replay then q.given.filter fun r => r.kind ≤ 3 && r.pos == pos && !r.matched else []
  ({ q with
    next := q.next + 1, toks := Words.set q.toks pos tok, forced := q.forced || !missing.isEmpty
    replay := q.replay && q.lastR != some pos },
    missing.map fun r => (2, r.kind, r.ord, r.payload, 0))

/-- A record of a kind at a position with the program's payload is accepted (08 R224, R418). -/
def Seq.accept (q : Seq) (kind pos : Nat) (payload : DWord) : Accepted :=
  let ord := q.ordinal kind pos
  let a : Accepted :=
    match q.journalled kind pos with
    | some j =>
      let given := mapIf (fun r => r.sidx == j.sidx) (fun r => { r with matched := true }) q.given
      let bad := j.payload != payload
      { q := { q with given := given, forced := q.forced || bad }, payload := j.payload, append := false
        events := if bad then [(1, kind, ord, j.payload, payload)] else [] }
    | none =>
      let extra := q.replay && posLe pos q.lastR && !(kind == 1 && !posLe pos q.lastJ)
      { q := { q with forced := q.forced || extra }, payload := payload, append := true
        events := if extra then [(3, kind, ord, 0, payload)] else [] }
  let b := a.q.counted kind pos
  if kind = 1 then
    let e := b.endStep pos (a.payload.extractLsb' 0 32)
    { a with q := e.1, events := a.events ++ e.2 }
  else { a with q := b }

/-- Accept a record of a split: none while it must be appended and the pool has no room for it; else the state and the payload in force. An
event it raises names the split's pack by `head` (R412, R419) (log entry 28). -/
def State.acceptRecord (s : State) (who : Asker) (head : List Byte) (ctx seq kind : Nat) (q : Seq) (payload : DWord) :
    Option (State × DWord) :=
  let pos := q.next
  let a := q.accept kind pos payload
  if a.append && !s.recordTurn ctx (some who) 1 then none
  else
    let s := s.modSeq ctx seq fun _ => a.q
    let s := if a.append then s.appendRecord ctx seq kind (q.ordinal kind pos) pos payload else s
    some (a.events.foldl (fun s e => s.journalEvent head ctx e.1 e.2.1 e.2.2.1 seq pos 0 e.2.2.2.1 e.2.2.2.2) s, a.payload)

/-! ### The journal instructions (08 R223–R226) -/

/-- The operands of a journal instruction: the sequence, the position and the payload (08 R223). -/
def Iss.jseq (x : Iss) (a : Nat) : Nat := (x.k.readG a).toNat
def Iss.jpos (x : Iss) (a : Nat) : Nat := (x.k.readG (a + 1)).toNat
def Iss.jpayload (x : Iss) (a : Nat) : DWord := x.k.readG64 (a + 2)

/-- JRNL's cause word (08 R223). -/
def jrnlWord (reason seq pos expected : Nat) : Nat := reason + seq * 2 ^ 32 + pos * 2 ^ 64 + expected * 2 ^ 96

/-- The first failing check of a journal instruction with the value it expected (08 R223, R411): `own` are the checks of the
instruction over its open sequence, in the order of their REASON. -/
def Iss.jrnl (x : Iss) (a : Nat) (own : Seq → List (Nat × Bool × Nat)) : Except (Nat × Nat) Seq :=
  if !(x.s.header x.k).journal then .error (0x01, 0)
  else
    match x.s.seq x.k.ctx (x.jseq a) with
    | none => .error (0x02, 0)
    | some q =>
      match (own q).find? (·.2.1) with
      | some e => .error (e.1, e.2.2)
      | none => .ok q

/-- The split as it asks for room in its context's pool (R412). -/
def Iss.asker (x : Iss) : Asker := .split x.f.core x.f.slot x.sp.id

/-- The split asks for room, or its wait for it is over. -/
def Iss.ask (x : Iss) : Iss := { x with s := x.s.ask x.k.ctx x.asker }
def Iss.unask (x : Iss) : Iss := { x with s := x.s.unask x.k.ctx x.asker }

/-- The first sixteen bytes of an event that the split's instruction raises (R419, 16 R364). -/
def Iss.eventHead (x : Iss) (kind : Nat) : List Byte :=
  Sys2Proof.Machine.eventHead kind x.sp.id x.k.lpack x.k.ctx x.k.group (x.s.handleAt x.f.core)

/-- Raise JRNL. -/
def Iss.raiseJrnl (x : Iss) (a : Nat) (e : Nat × Nat) : Out := x.unask.raise x.live 0x10 (jrnlWord e.1 (x.jseq a) (x.jpos a) e.2)

/-- A `jrec` of a kind where the Trail can accept its record (08 R224) (log entry 28). -/
def Iss.jrec (x : Iss) (kind d a : Nat) : Option Out :=
  match x.jrnl a fun q =>
    [(0x03, x.jpos a != q.next, q.next), (0x07, q.replay && !(x.s.header x.k).det, 0),
     (0x08, decide (255 < q.ordinal kind (x.jpos a)), 0)] with
  | .error e => some (x.raiseJrnl a e)
  | .ok q =>
    (x.s.acceptRecord x.asker (x.eventHead 6) x.k.ctx (x.jseq a) kind q (x.jpayload a)).map fun r =>
      ({ x with s := r.1 } : Iss).unask.commit.done (x.k.setG64 d r.2) x.sp

/-- The split is stalled at a `jrec`. -/
def Split.atJrec (sp : Split) : Bool :=
  match sp.stall with
  | some (.jrec ..) => true
  | _ => false

/-- The records of a core's port to the Trail that are not yet accepted (08 R224). -/
def Core.portRecords (c : Core) : Nat := (c.packs.map fun p => (p.2.splits.filter fun e => e.2.atJrec).length).sum

/-- Issue a `jrec`: it stalls while the core's port holds 64 records, and its record then waits in the port for the Trail (08 R224) (log
entry 28). -/
def jrecIssue (mn : String) (kind : Nat) (d a : GReg) (s : State) : Out :=
  issueU s mn [wrG 0 d 2, rdG 1 a 4] fun x =>
    if 64 ≤ (x.s.core x.f.core).portRecords then .next x.s
    else (x.jrec kind d.toNat a.toNat).getD (x.ask.commit.stallAt (.jrec kind d.toNat a.toNat))

/-- JREC_TOK (08 R224). -/
def execJrecTok (d a : GReg) (s : State) : Out := jrecIssue "JREC_TOK" 1 d a s
/-- JREC_GEN (08 R224). -/
def execJrecGen (d a : GReg) (s : State) : Out := jrecIssue "JREC_GEN" 2 d a s
/-- JREC_ROUTE (08 R224). -/
def execJrecRoute (d a : GReg) (s : State) : Out := jrecIssue "JREC_ROUTE" 3 d a s

/-- JREC_ACCEPTANCE (08 R224): the pool has room; the registers are read and the checks made again (log entries 28, 42). -/
def execJrecAcceptance (core slot split : Nat) (s : State) : Out :=
  onStall "JREC_ACCEPTANCE" s core slot split fun x st =>
    match st with
    | .jrec kind d a => x.jrec kind d a
    | _ => none

/-- DURABLE as the cause word gives it (08 R223). -/
def durableWord (d : Option Nat) : Nat := d.getD 0xFFFFFFFF

/-- The emissions that the Trail holds for the device (08 R225). -/
def State.heldEmissions (s : State) : Nat :=
  (s.contexts.map fun c => (c.2.seqs.map fun q => q.2.held.length).sum).sum

/-- The sequence after the emission at EMIT: suppressed at or below LEFTMAX, else held with RESENT at or below LASTJ (08 R225,
R418) (log entry 30). -/
def Seq.emitted (q : Seq) : Seq :=
  let p := q.emit
  let q' := { q with emit := p + 1, toks := Words.set q.toks p 0 }
  if posLe p q.leftMax then q'
  else
    { q' with
      held := q.held ++ [{ pos := p, token := Words.get q.toks p
                           tokIdx := (q.stream.find? fun r => r.kind == 1 && r.pos == p).map (·.sidx)
                           resent := posLe p q.lastJ }] }

/-- JEMIT (08 R225): it stalls while the Trail holds 4,096 emissions, but not one that is suppressed (log entry 97). -/
def execJemit (a : GReg) (s : State) : Out :=
  issueU s "JEMIT" [rdG 1 a 4] fun x =>
    let p := x.jpos a.toNat
    match x.jrnl a.toNat fun q =>
      [(0x04, p != q.emit, q.emit), (0x04, decide (q.next ≤ p), q.next), (0x06, x.jpayload a.toNat != 0, 0)] with
    | .error e => x.raiseJrnl a.toNat e
    | .ok q =>
      if !posLe p q.leftMax && decide (4096 ≤ x.s.heldEmissions) then .next x.s
      else
        let s := x.s.modSeq x.k.ctx (x.jseq a.toNat) fun _ => q.emitted
        ({ x with s := s } : Iss).commit.done x.k x.sp

/-- JMARK (08 R226): it stalls while the pool has no room. -/
def execJmark (a : GReg) (s : State) : Out :=
  issueU s "JMARK" [rdG 1 a 4] fun x =>
    let p := x.jpos a.toNat
    let ctx := x.k.ctx
    let n := x.jseq a.toNat
    match x.jrnl a.toNat fun q => [(0x05, decide (q.next ≤ p), q.next)] with
    | .error e => x.raiseJrnl a.toNat e
    | .ok _ =>
      if !x.s.recordTurn ctx (some x.asker) 1 then .next x.ask.s
      else
        let tag := x.jpayload a.toNat
        let s := (x.s.modSeq ctx n fun q => { q with marks := q.marks ++ [(p, tag)] }).appendRecord ctx n 4 0 p tag
        ({ x with s := s } : Iss).unask.commit.done x.k x.sp

/-- Drop the records at or below a position; an emission whose TOK record goes counts as acknowledged (08 R226, R413) (log entry 30). -/
def Seq.truncate (q : Seq) (p : Nat) : Seq :=
  { q with
    stream := q.stream.filter fun r => decide (p < r.pos)
    held := q.held.map fun e => if e.pos ≤ p then { e with tokIdx := none } else e }

/-- With some records dropped, the pool has room for one more: in the granules that the records took, or in the asker's turn (R412) (log
entry 29). -/
def State.truncRoom (s t : State) (ctx : Nat) (a : Asker) : Bool :=
  t.recordRoom ctx 1 && match s.context ctx, t.context ctx with
    | some c, some d => decide (ceilDiv (d.records + 1) 128 ≤ ceilDiv c.records 128) || s.poolTurn c (some a)
    | _, _ => false

/-- JTRUNC (08 R226). -/
def execJtrunc (a : GReg) (s : State) : Out :=
  issueU s "JTRUNC" [rdG 1 a 4] fun x =>
    let p := x.jpos a.toNat
    let ctx := x.k.ctx
    let n := x.jseq a.toNat
    match x.jrnl a.toNat fun q =>
      [(0x05, !posLe p q.durable, durableWord q.durable), (0x06, x.jpayload a.toNat != 0, 0), (0x06, decide (q.next ≤ p), q.next)] with
    | .error e => x.raiseJrnl a.toNat e
    | .ok q =>
      let s := x.s.modSeq ctx n fun q => q.truncate p
      if !x.s.truncRoom s ctx x.asker then .next x.ask.s
      else ({ x with s := (s.appendRecord ctx n 6 0 p 0).settleLeft ctx n q.left } : Iss).unask.commit.done x.k x.sp

/-! ### Partners (R413–R416) -/

/-- The oldest held emission of a sequence may leave: its TOK record is acknowledged by the current partner, or has been truncated (R413,
R415, R417). -/
def State.mayLeave (s : State) (c : Context) (q : Seq) (e : Emission) : Bool :=
  !s.failSilent && !c.partner.elim false (·.silent) && e.tokIdx.elim true fun i => c.partner.isSome && decide (i < q.ackIdx)

/-- EMISSION_RELEASE (R413): the oldest held emission leaves as a frame, and a LEFT record follows as soon as the pool has room; with none to
leave, LEFT records that waited are appended (log entries 30, 72). -/
def execEmissionRelease (ctx seq : Nat) (s : State) : Out :=
  match s.context ctx, s.seq ctx seq with
  | some c, some q =>
    match q.held.head?.filter (s.mayLeave c q) with
    | some e =>
      let s := s.send (.emission q.port q.dmac q.client seq e.pos e.token e.resent q.forced)
      .next ((s.modSeq ctx seq fun q => { q with held := q.held.tail }).settleLeft ctx seq (q.left ++ [e.pos]))
    | none =>
      if q.left.isEmpty || !s.recordTurn ctx (some (.left seq)) 1 then .refused (.notEnabled "EMISSION_RELEASE") else .next (s.settleLeft ctx seq q.left)
  | _, _ => .refused (.notEnabled "EMISSION_RELEASE")

/-- JOURNAL_ACK_RECEIVE (R413, R415): the current partner's acknowledgement raises ACKIDX; any other is ignored. -/
def execJournalAckReceive (peer ctx seq ackidx : Nat) (s : State) : Out :=
  let s := s.heardFrom peer
  match (s.context ctx).bind (·.partner) with
  | some p =>
    if p.peer = peer then .next (s.modSeq ctx seq fun q => { q with ackIdx := max q.ackIdx (min ackidx q.sidx) }) else .next s
  | none => .next s

/-- The stream index after the highest that a store holds of a stream, if it holds one (log entry 31). -/
def JStore.next (j : JStore) (ctx seq : Nat) : Option Nat :=
  (j.acks.find? fun e => e.1 == ctx && e.2.1 == seq).map (·.2.2)

/-- A record of a stream is appended to a store (R414). Records come in the order of their stream indexes, and those that a source no longer
keeps are missing from a stream (R413, R415, 21 R430) (log entry 31). -/
def JStore.append (j : JStore) (ctx seq sidx : Nat) : JStore :=
  { j with
    used := j.used + 32
    acks := (ctx, seq, max ((j.next ctx seq).getD 0) (sidx + 1)) :: j.acks.filter fun e => !(e.1 == ctx && e.2.1 == seq) }

/-- ACKIDX of a stream: the index after the highest stored, but none that has not been stored (R413, R414) (log entry 31). -/
def State.ackIdx (s : State) (source : Nat) (j : JStore) (ctx seq : Nat) : Nat :=
  (s.unstored.filter fun u => u.1 == source && u.2.1 == ctx && u.2.2.1 == seq).foldl (fun n u => min n u.2.2.2) ((j.next ctx seq).getD 0)

/-- JOURNAL_RECORD_RECEIVE (R414): stored, performed and acknowledged. A record without a store or room is not stored, and until it comes
again nothing from it on is acknowledged (log entry 31). -/
def execJournalRecordReceive (source : Nat) (bytes : List Byte) (s : State) : Out :=
  let s := s.heardFrom source
  let ctx := recField bytes 12 4
  let seq := recField bytes 4 4
  let id := (source, ctx, seq, recField bytes 16 8)
  if bytes.length != 32 then .next s
  else
    match (s.stores.get source).filter fun j => decide (j.used + 32 ≤ j.size) with
    | none => .next { s with unstored := id :: s.unstored.filter (· != id) }
    | some j =>
      let s := s.outsideWrite (j.base + j.used) bytes
      let j := j.append ctx seq id.2.2.2
      let s := { s with stores := s.stores.put source j, unstored := s.unstored.filter (· != id) }
      if s.failSilent then .next s else .next ((s.send (.ack source ctx seq (s.ackIdx source j ctx seq))).sentTo source)

/-- HEARTBEAT_SEND (R416): 100 µs have passed without other traffic to the peer. -/
def execHeartbeatSend (peer : Nat) (s : State) : Out :=
  match s.peers.get peer with
  | none => .refused (.notEnabled "HEARTBEAT_SEND")
  | some p =>
    if s.failSilent || s.now < p.sent + 100000 then .refused (.notEnabled "HEARTBEAT_SEND")
    else .next ((s.send (.heartbeat peer)).sentTo peer)

/-- HEARTBEAT_RECEIVE (R416). -/
def execHeartbeatReceive (peer : Nat) (s : State) : Out := .next (s.heardFrom peer)

/-- PEER_SILENT (R416): nothing was heard for 1 ms. REASON 4 for each context it partners that does not yet know it silent, REASON 5 for each
context whose stream it is the source of, or for no context where none of its records has come (log entry 31). -/
def execPeerSilent (peer : Nat) (s : State) : Out :=
  let mine := (s.contexts.filter fun c => c.2.partner.any fun q => q.peer == peer && !q.silent).map (·.1)
  match s.peers.get peer with
  | none => .refused (.notEnabled "PEER_SILENT")
  | some p =>
    if (p.silent && mine.isEmpty) || s.now < p.heard + 1000000 then .refused (.notEnabled "PEER_SILENT")
    else
      let s := { s with peers := s.peers.put peer { p with silent := true } }
      let s := mine.foldl (fun s c =>
        (s.modContext c fun c => { c with partner := c.partner.map fun q => { q with silent := true } }).journalEvent (journalHead c) c 4 0 0 0 0
          peer 0 0) s
      let theirs := (s.stores.get peer).elim [] fun j =>
        let l := sortNats (j.acks.map (·.1) ++ (s.unstored.filter fun u => u.1 == peer).map (·.2.1))
        if l.isEmpty then [0] else l
      .next ((if p.silent then [] else theirs).foldl (fun s c => s.journalEvent (journalHead c) c 5 0 0 0 0 peer 0 0) s)

end Sys2Proof.Machine
end

