-- ==== Sys2Proof/Machine/Optics.lean ====
section
/-!
DEFINITION. Laser modules (19 R399–R401), optical ports (19 R402), circuit planes (19 R405) and the receiving side of collectives (19
R404, R407).
-/

namespace Sys2Proof.Machine

/-- A port moves from one of some states to the state a function gives, or the event cannot come about. -/
def portMove (mn : String) (s : State) (k : Nat) (from_ : Port → Bool) (f : Port → Port) : Out :=
  if portCount ≤ k || !from_ (s.port k) then .refused (.notEnabled mn)
  else .next ((s.modPort k f).resumeTurns)

/-! ### Laser modules (R399–R401) -/

/-- Laser module `m`. -/
def State.laser (s : State) (m : Nat) : Laser := s.lasers.getD m {}

/-- Replace laser module `m`. -/
def State.setLaser (s : State) (m : Nat) (l : Laser) : State := { s with lasers := s.lasers.put m l }

/-- The other module of a Sett module's bus (R399). -/
def partnerOf (m : Nat) : Nat := if m % 2 = 0 then m + 1 else m - 1

/-- The ports an I/O module feeds (R399). -/
def fedBy (m : Nat) : List Nat := (List.range 6).map fun k => 6 * (m - 16) + k

/-- The module that feeds a port is LIT. -/
def State.portLit (s : State) (k : Nat) : Bool := (s.laser (16 + k / 6)).state == .lit

/-- A laser report: UNIT is the module. -/
def laserError (m : Nat) : ErrorReport := { plainError 7 3 m with replaced := true }

/-- A Sett module no longer feeds its bus: its partner carries it alone, or the bus is lost and the chip fails (R400) (log entry 55). -/
def State.loseSett (s : State) (m : Nat) (l : Laser) (fault : Bool) : State :=
  let p := partnerOf m
  let s := (s.setLaser m { l with sole := false }).requestReplacement
  let s := if fault then (s.reportError (laserError m)).1 else s
  if (s.laser p).state == .lit then s.setLaser p { s.laser p with sole := true } else s.chipFail 1

/-- An I/O module is no longer LIT: each of its ports that is not DOWN enters LASER_ABSENT (R401) (log entry 55). -/
def State.loseIo (s : State) (m : Nat) (l : Laser) : State :=
  ((fedBy m).foldl (fun s k => s.modPort k fun p => if p.state == .down then p else { p with state := .laserAbsent }) (s.setLaser m l)).resumeTurns

/-- Write a laser module's ON (R399). -/
def State.writeLaser (s : State) (m value : Nat) : State :=
  let l := s.laser m
  if value % 2 = 1 then
    s.setLaser m { l with on := true, state := if l.present && l.state == .off then .warm else l.state }
  else if m < 16 then
    if (s.laser (partnerOf m)).state != .lit then s
    else if l.state == .lit then s.loseSett m { l with on := false, state := .off } false
    else s.setLaser m { l with on := false, state := if l.state == .warm then .off else l.state }
  else if l.state == .lit then s.loseIo m { l with on := false, state := .off }
  else s.setLaser m { l with on := false, state := if l.state == .warm then .off else l.state }

/-- LASER_ON_WRITE (R399): ignored unless the complex holds the module's semaphore; ON := 0 is ignored at a Sett module whose partner is
not LIT. -/
def execLaserOnWrite (complex laser value : Nat) (s : State) : Out :=
  if 24 ≤ laser then .refused (.notEnabled "LASER_ON_WRITE")
  else if s.guarded complex (5 + laser) then .next (s.writeLaser laser value)
  else .next s

/-- A module removed, or in FAULT where it stays seated. -/
def Laser.gone (l : Laser) (fault : Bool) : Laser :=
  { l with present := fault, state := if fault then .fault else .absent, sole := false }

/-- LASER_MODULE_LOSS (R400): a seated Sett module is removed or faults. One that was not LIT carried nothing; where its partner is not there
or in FAULT, both have failed, and the chip fails (log entry 55). -/
def execLaserModuleLoss (laser : Nat) (fault : Bool) (s : State) : Out :=
  let l := s.laser laser
  if 16 ≤ laser || !l.present then .refused (.notEnabled "LASER_MODULE_LOSS")
  else if l.state == .lit then .next (s.loseSett laser (l.gone fault) true)
  else
    let t := ((s.setLaser laser (l.gone fault)).requestReplacement.reportError (laserError laser)).1
    let p := (s.laser (partnerOf laser)).state
    .next (if p == .absent || p == .fault then t.chipFail 1 else t)

/-- IO_LASER_LOSS (R401): a seated I/O module is removed or faults; there is no spare for it (20 R424) (log entry 55). -/
def execIoLaserLoss (laser : Nat) (fault : Bool) (s : State) : Out :=
  let l := s.laser laser
  if laser < 16 || 24 ≤ laser || !l.present then .refused (.notEnabled "IO_LASER_LOSS")
  else
    let t := if l.state == .lit then s.loseIo laser (l.gone fault) else s.setLaser laser (l.gone fault)
    .next (t.requestReplacement.reportError (laserError laser)).1

/-- LASER_MODULE_INSERT (R400): a module is seated where none is, or in the place of one in FAULT, and warms where ON asks for it. -/
def execLaserModuleInsert (laser : Nat) (s : State) : Out :=
  let l := s.laser laser
  if 24 ≤ laser || (l.present && l.state != .fault) then .refused (.notEnabled "LASER_MODULE_INSERT")
  else .next (s.setLaser laser { l with present := true, state := if l.on then .warm else .off, sole := false })

/-- LASER_WARM_DONE (R399, R400, R402): the module is LIT. On the Sett both SOLE bits clear, or it carries its bus alone; the ports of an
I/O module that waited for it begin calibration. -/
def execLaserWarmDone (laser : Nat) (s : State) : Out :=
  let l := s.laser laser
  if 24 ≤ laser || l.state != .warm then .refused (.notEnabled "LASER_WARM_DONE")
  else if laser < 16 then
    let p := partnerOf laser
    if (s.laser p).state == .lit then
      .next ((s.setLaser laser { l with state := .lit, sole := false }).setLaser p { s.laser p with sole := false })
    else .next (s.setLaser laser { l with state := .lit, sole := true })
  else
    .next ((fedBy laser).foldl (fun s k => s.modPort k fun p => if p.state == .laserWait then { p with state := .cal } else p)
      (s.setLaser laser { l with state := .lit }))

/-! ### Ports (R402) -/

/-- A port's state after its rings are calibrated. -/
def Port.calibrated (p : Port) : Port := { p with state := if p.gate then .gated else .carrier }

/-- The states from which GATE := 1 turns the transmitter off. -/
def Port.gateable (p : Port) : Bool :=
  match p.state with
  | .carrier => true
  | .pol => true
  | .align => true
  | .up => true
  | .divert => true
  | _ => false

/-- Write a port's ENABLE (R402): DOWN goes to LASER_WAIT, and on to CAL where its module is LIT (log entry 54). -/
def Port.writeEnable (p : Port) (v lit : Bool) : Port :=
  if !v then { p with enable := false, state := .down }
  else { p with enable := true, state := if p.state == .down then (if lit then .cal else .laserWait) else p.state }

/-- Write a port's GATE (R402). -/
def Port.writeGate (p : Port) (v : Bool) : Port :=
  let st := if v then (if p.gateable then .gated else p.state) else if p.state == .gated then .carrier else p.state
  { p with gate := v, state := st }

/-- A guarded write of a port: ignored unless the complex holds its plane's semaphore (R402). -/
def portWrite (mn : String) (s : State) (complex k : Nat) (f : Port → Port) : Out :=
  if portCount ≤ k then .refused (.notEnabled mn)
  else if s.guarded complex (1 + planeOf k) then .next ((s.modPort k f).resumeTurns)
  else .next s

/-- PORT_ENABLE (R402). -/
def execPortEnable (complex port : Nat) (s : State) : Out :=
  portWrite "PORT_ENABLE" s complex port fun p => p.writeEnable true (s.portLit port)
/-- PORT_DISABLE (R402). -/
def execPortDisable (complex port : Nat) (s : State) : Out :=
  portWrite "PORT_DISABLE" s complex port fun p => p.writeEnable false (s.portLit port)
/-- PORT_GATE (R402). -/
def execPortGate (complex port : Nat) (s : State) : Out := portWrite "PORT_GATE" s complex port fun p => p.writeGate true
/-- PORT_UNGATE (R402). -/
def execPortUngate (complex port : Nat) (s : State) : Out := portWrite "PORT_UNGATE" s complex port fun p => p.writeGate false

/-- PORT_CALIBRATION_DONE (R402): from CAL, or from LASER_ABSENT once the module is LIT again. -/
def execPortCalibrationDone (port : Nat) (s : State) : Out :=
  portMove "PORT_CALIBRATION_DONE" s port (fun p => p.state == .cal || (p.state == .laserAbsent && s.portLit port)) Port.calibrated
/-- PORT_CARRIER_LOCK (R402). -/
def execPortCarrierLock (port : Nat) (s : State) : Out :=
  portMove "PORT_CARRIER_LOCK" s port (fun p => p.state == .carrier) fun p => { p with state := .pol }
/-- PORT_POLARISATION_LOCK (R402). -/
def execPortPolarisationLock (port : Nat) (s : State) : Out :=
  portMove "PORT_POLARISATION_LOCK" s port (fun p => p.state == .pol) fun p => { p with state := .align }
/-- PORT_ALIGN_DONE (R402): PEER is learned; the plane is not DARK. -/
def execPortAlignDone (port peer : Nat) (s : State) : Out :=
  portMove "PORT_ALIGN_DONE" s port
    (fun p => p.state == .align && decide (peer < 1024) && (s.plane (planeOf port)).state != .dark) fun p => { p with state := .up, peer := peer }
/-- PORT_LOCK_LOST (R402). -/
def execPortLockLost (port : Nat) (s : State) : Out :=
  portMove "PORT_LOCK_LOST" s port (fun p => p.state == .up) fun p => { p with state := .divert }
/-- PORT_LIGHT_RESTORED (R402). -/
def execPortLightRestored (port : Nat) (s : State) : Out :=
  portMove "PORT_LIGHT_RESTORED" s port (fun p => p.state == .divert && (s.plane (planeOf port)).state != .dark) fun p =>
    { p with state := .carrier }

/-! ### Plane reconfiguration (R405) -/

/-- CMD := 1 (R405): ignored while any plane is not ACTIVE (log entry 54). -/
def State.drainPlane (s : State) (j : Nat) : State :=
  if (List.range 4).all fun i => (s.plane i).state == .active then
    (s.setPlane j { state := .draining, wasUp := (portsOf j).filter fun k => (s.port k).state == .up, since := s.now }).resumeTurns
  else s

/-- CMD := 2 (R405): ignored outside DARK. -/
def State.resumePlane (s : State) (j : Nat) : State :=
  let p := s.plane j
  if p.state != .dark then s
  else
    (portsOf j).foldl (fun s k => s.modPort k fun q => if q.state == .divert then { q with state := .carrier } else q)
      (s.setPlane j { p with state := .retrain, since := s.now })

/-- PLANE_DRAIN (R405): ignored unless the complex holds the plane's semaphore. -/
def execPlaneDrain (complex plane : Nat) (s : State) : Out :=
  if 4 ≤ plane then .refused (.notEnabled "PLANE_DRAIN")
  else if s.guarded complex (1 + plane) then .next (s.drainPlane plane) else .next s

/-- PLANE_RESUME (R405). -/
def execPlaneResume (complex plane : Nat) (s : State) : Out :=
  if 4 ≤ plane then .refused (.notEnabled "PLANE_RESUME")
  else if s.guarded complex (1 + plane) then .next (s.resumePlane plane) else .next s

/-- PLANE_DARK (R405): the chunks in flight have arrived; the plane's UP ports enter DIVERT. -/
def execPlaneDark (plane : Nat) (s : State) : Out :=
  let p := s.plane plane
  if 4 ≤ plane || p.state != .draining || !s.planeIdle plane then .refused (.notEnabled "PLANE_DARK")
  else
    .next ((portsOf plane).foldl (fun s k => s.modPort k fun q => if q.state == .up then { q with state := .divert } else q)
      (s.setPlane plane { p with state := .dark }))

/-- PLANE_RETRAIN_DONE (R405): every port that was UP is UP again, or 1 ms has passed. -/
def execPlaneRetrainDone (plane : Nat) (s : State) : Out :=
  let p := s.plane plane
  let back := p.wasUp.all fun k => (s.port k).state == .up
  if 4 ≤ plane || p.state != .retrain || !(back || decide (p.since + 1000000 ≤ s.now)) then .refused (.notEnabled "PLANE_RETRAIN_DONE")
  else .next ((s.setPlane plane {}).resumeTurns)

/-! ### Collectives at the receiver (R404, R407) -/

/-- Add to a token's COUNT, with KIND 3 (08 R218, 19 R404). -/
def State.addToken (s : State) (pa n : Nat) : State :=
  if n = 0 then s else s.outsideWrite pa (bytesLE 8 ((s.mem.readLE pa 4 + n) % 2 ^ 32 + 3 * 2 ^ 62))

/-- COLLECTIVE_CHUNK_ARRIVAL (R404, R407): the chunk is written at DEST, and the token counts the chunks newly contiguous. An optical chunk comes
in parts over the plane's UP ports to the peer, and one of a plane whose turns are diverted waits for the resume marker. A chunk that has
arrived already, which a sender that resumes may send again, changes nothing (log entry 54). -/
def execCollectiveChunkArrival (resv chunk : Nat) (ethernet : Bool) (bytes : List Byte) (s : State) : Out :=
  match s.resvs.get resv with
  | none => .refused (.notEnabled "COLLECTIVE_CHUNK_ARRIVAL")
  | some r =>
    let j := r.turn chunk
    let route := ethernet || (!r.diverted.contains j && !(s.chunkShares j r.peer).isEmpty)
    if r.released || r.dormant.isSome || bytes.length != 65536 || r.len < 65536 * (chunk + 1) || !route then
      .refused (.notEnabled "COLLECTIVE_CHUNK_ARRIVAL")
    else if chunk < r.contiguous || r.arrived.contains chunk then .next s
    else
      let c := countChunks (r.arrived.length + 1) r.contiguous (chunk :: r.arrived)
      let r' := { r with
        contiguous := c.1, arrived := c.2, diverted := if ethernet && !r.diverted.contains j then j :: r.diverted else r.diverted }
      let s := (s.outsideWrite (r.dest + 65536 * chunk) bytes).addToken r.token (c.1 - r.contiguous)
      .next { s with resvs := s.resvs.put resv r' }

/-- RESUME_MARKER (R407): the marker has come; the plane's optical chunks are admitted again. -/
def execResumeMarker (resv plane : Nat) (s : State) : Out :=
  match s.resvs.get resv with
  | none => .refused (.notEnabled "RESUME_MARKER")
  | some r => .next { s with resvs := s.resvs.put resv { r with diverted := r.diverted.filter (· != plane) } }

end Sys2Proof.Machine
end

