-- ==== Sys2Proof/Machine/Queues.lean ====
section
/-!
DEFINITION. Engine queues and gather streams (06 R172, R173; 01 R23).
-/

namespace Sys2Proof.Machine

/-- QREG's cause word: the queue, and the case of R172 (08 R232). -/
def qregWord (q case : Nat) : Nat := q % 8 + case * 256

/-- Raise QREG. -/
def Iss.qreg (x : Iss) (act : Mask) (q case : Nat) : Out := x.raise act 0x12 (qregWord q case)

/-- Stream entries of a queue pushed and not yet completed. -/
def Pack.streaming (k : Pack) (q : Nat) : Nat :=
  (k.ops.filter fun o => !o.done && match o.kind with
    | .stream r _ => r == q
    | _ => false).length

/-- The queue holds entries, completed or pushed. -/
def Pack.holds (k : Pack) (q : Nat) : Bool := !(k.queue q).entries.isEmpty || k.streaming q != 0

/-- A pack of the same group is resident in a slot of the core and has not ended; a DRAINING one may still be there (log entry 78). -/
def Iss.peerIn (x : Iss) (slot : Nat) : Bool :=
  match x.s.pack x.f.core slot with
  | some k => k.tag == x.k.tag && k.group == x.k.group && k.phase != .ended
  | none => false

/-- The pack with a queue bound. -/
def Pack.bindQueue (k : Pack) (q : Nat) (b : QBind) : Pack := k.setQueue q { k.queue q with bind := b }

/-- QUNBIND (R172). -/
def execQunbind (d : QReg) (s : State) : Out :=
  issueU s "QUNBIND" [] fun x =>
    if x.k.holds d.toNat then x.qreg x.live d.toNat 2 else x.done (x.k.bindQueue d.toNat .unbound) x.sp

/-- QBIND_PEER (R172). -/
def execQbindPeer (d : QReg) (a : GReg) (s : State) : Out :=
  issueU s "QBIND_PEER" [rdG 1 a] fun x =>
    let w := (x.g a).toNat
    if x.k.holds d.toNat then x.qreg x.live d.toNat 2
    else if !x.peerIn (w % 16) then x.qreg x.live d.toNat 3
    else if w / 128 != 0 then x.qreg x.live d.toNat 5
    else x.done (x.k.bindQueue d.toNat (.peer (w % 16) (cut w 4 3))) x.sp

/-- QBIND_GATHER (R172). -/
def execQbindGather (d : QReg) (a : GReg) (s : State) : Out :=
  issueU s "QBIND_GATHER" [rdG 1 a 2] fun x =>
    if x.k.holds d.toNat then x.qreg x.live d.toNat 2
    else x.done (x.k.bindQueue d.toNat (.gather (x.k.readG64 a.toNat))) x.sp

/-- The queue with one more entry. -/
def Queue.push (q : Queue) (e : QEntry) : Queue := { q with entries := q.entries ++ [e] }

/-- Push to a peer's queue: none while it is full; an entry for a pack that has ended is lost (log entry 18). -/
def Iss.pushPeer (x : Iss) (act : Mask) (slot q a : Nat) : Option Out :=
  let e : QEntry := { mask := act, vals := wordsOf act fun i => x.k.readV x.sp a i }
  if !x.peerIn slot then some (x.done x.k x.sp)
  else if slot = x.f.slot then
    if 8 ≤ (x.k.queue q).entries.length + x.k.streaming q then none
    else some (x.done (x.k.setQueue q ((x.k.queue q).push e)) x.sp)
  else
    match x.s.pack x.f.core slot with
    | none => none
    | some k =>
      if 8 ≤ (k.queue q).entries.length + k.streaming q then none
      else
        let s := x.s.setPack x.f.core slot (k.setQueue q ((k.queue q).push e))
        some (({ x with s := s } : Iss).done x.k x.sp)

/-- Push to a gather stream: checked as a gather of its lanes, none while eight entries stand (R173). -/
def Iss.pushStream (x : Iss) (act : Mask) (base : DWord) (q : Nat) (a : VReg) : Option Out :=
  let reqs := x.gatherReqs act base a fun _ => 0
  let t := x.s.checkAll x.f.core x.k.ctx .gather 4 4 .load reqs
  match failures t.2 with
  | [] =>
    if 8 ≤ (x.k.queue q).entries.length + x.k.streaming q then none
    else
      let op := { x.engineOp .none_ .gather (.stream q act) with lanes := laneAccs t.2 }
      some (({ x with s := t.1 } : Iss).done (x.k.addOp op) x.sp)
  | fs => some (({ x with s := t.1 } : Iss).memTrap act .gather false 0 false fs)

/-- `qpush` where it does not block; a sequentially consistent access ahead holds it (R147). -/
def Iss.qpush (x : Iss) (act : Mask) (q : Nat) (a : VReg) : Option Out :=
  if x.k.scBusy then none
  else
    match (x.k.queue q).bind with
    | .unbound => some (x.qreg act q 1)
    | .peer slot r => x.pushPeer act slot r a.toNat
    | .gather base => x.pushStream act base q a

/-- `qpop` where it does not block; a sequentially consistent access ahead holds it (R147). -/
def Iss.qpop (x : Iss) (act : Mask) (d q : Nat) : Option Out :=
  let r := x.k.queue q
  if x.k.scBusy then none
  else match r.bind, r.entries with
  | .unbound, _ => some (x.qreg act q 1)
  | _, e :: rest =>
    some (x.done ((x.k.setQueue q { r with entries := rest }).setLanes d act fun i =>
      if e.mask.getLsbD i then Words.get e.vals i else 0) x.sp)
  | .peer slot _, [] => if x.peerIn slot then none else some (x.qreg act q 4)
  | .gather _, [] => none

/-- QPUSH (R172) (log entry 18). -/
def execQpush (g : PReg) (d : QReg) (a : VReg) (s : State) : Out :=
  issue s "QPUSH" g [rdV 1 a] fun x act =>
    if x.k.scBusy then .next x.s
    else if act = 0 then x.done x.k x.sp
    else (x.qpush act d.toNat a).getD (x.stallAt (.qpush g d.toNat a.toNat))

/-- QPOP (R172) (log entry 18). -/
def execQpop (g : PReg) (d : VReg) (a : QReg) (s : State) : Out :=
  issue s "QPOP" g [wrV 0 d] fun x act =>
    if x.k.scBusy then .next x.s
    else if act = 0 then x.done x.k x.sp
    else (x.qpop act d.toNat a.toNat).getD (x.stallAt (.qpop g d.toNat a.toNat))

/-- QUEUE_UNBLOCK (R172): room or an entry has come, or the peer has exited. -/
def execQueueUnblock (core slot split : Nat) (s : State) : Out :=
  onStall "QUEUE_UNBLOCK" s core slot split fun x st =>
    match st with
    | .qpush g q a => x.qpush (x.k.active x.sp g) q (BitVec.ofNat 7 a)
    | .qpop g d q => x.qpop (x.k.active x.sp g) d q
    | _ => none

/-- GATHER_STREAM_RESULT (R173): the loaded words enter the queue, results in push order; the split has then read them (11 R276). -/
def execGatherStreamResult (core slot op : Nat) (s : State) : Out :=
  withOp "GATHER_STREAM_RESULT" s core slot op fun k o =>
    match o.kind with
    | .stream q m =>
      let earlier := (k.ops.takeWhile fun p => p.id != o.id).any fun p => !p.done && match p.kind with
        | .stream r _ => r == q
        | _ => false
      if earlier then none
      else
        let vals := o.lanes.foldl (fun w l => Words.set w l.lane (BitVec.ofNat 32 (s.physRead l.pa 4))) []
        let seen := o.lanes.foldl (fun t l => s.seeOwn t l.pa 4) (k.seenBy o)
        let s := s.cacheLoads core o o.lanes
        let k := (k.setOp { o with done := true }).sees o seen
        some (s.setPack core slot (k.setQueue q ((k.queue q).push { mask := m, vals := vals })))
    | _ => none

end Sys2Proof.Machine
end

