-- ==== Sys2Proof/Machine/Joint.lean ====
section
/-!
DEFINITION. Joint and cooperative matrix multiplies (07 R189–R197): arrivals at the rendezvous, the checks when a joint or set is
complete, chunk sums (02 R58–R60), and the results.
-/

namespace Sys2Proof.Machine

/-- MUSTER (R189). -/
def execMuster (a : GReg) (s : State) : Out := issueU s "MUSTER" [rdG 1 a] fun x => x.done { x.k with mst := x.g a } x.sp
/-- RDMST (R189). -/
def execRdmst (d : GReg) (s : State) : Out := issueU s "RDMST" [wrG 0 d] fun x => x.doneG d x.k.mst

/-! ### Operands in scratchpad -/

/-- A tile header as the matrix instructions read it (R184). -/
structure Header where
  fmt : Nat
  planes : Nat
  smode : Nat
  rows : Nat
  k : Nat
  rsv : Bool
  deriving DecidableEq, Repr

def headerAt (m : Bytes) (a : Nat) : Header :=
  let r := fun o n => m.readLE (a + o) n
  { fmt := r 0 1, planes := r 1 1, smode := r 2 1, rows := r 4 2, k := r 8 4
    rsv := r 3 1 != 0 || r 6 2 != 0 || r 12 52 != 0 }

/-- A scale block as the engine uses it: none for a NaN block; else a factor, its exponent and eight integers. -/
structure Block where
  f : Int
  e : Int
  q : List Int
  deriving DecidableEq, Repr

/-- A block that stands for zero. -/
def zeroBlock : Block := { f := 0, e := 0, q := [] }

/-- A finite value as an integer and an exponent. -/
def Fp.dyadic : Fp → Int × Int
  | .fin n m e => (signedMant n m, e)
  | _ => (0, 0)

/-- The factor of a block that stands for values: band scale, block scale and 2^u (02 R45). -/
def blockFactor (mode scale band : Nat) (u : Int) : Int × Int :=
  let s := if mode = 0 then (1, 0) else (Fmt.e3m5.decode scale).dyadic
  let b := if mode = 2 then (Fmt.bf16.decode band).dyadic else (1, 0)
  (s.1 * b.1, s.2 + b.2 + u)

/-- A byte of the scratchpad as a number. -/
def byteAt (m : Bytes) (a : Nat) : Nat := (m.get a).toNat

/-- q of (row r of group 0 upward, block j, position c) of a planed operand (R185). -/
def planeValue (m : Bytes) (base planes nb i j c : Nat) : Int :=
  let at_ := fun b => base + 128 + ((i / 32 * nb + j) * planes + b) * 32 + 4 * c + i % 32 / 8
  signedOf planes (((List.range planes).map fun b => if bit (byteAt m (at_ b)) (i % 8) then 2 ^ b else 0).sum)

/-- Block j of row i of the planed operand at `base`, none for a NaN block (R185, 02 R46); padding stands for zero. -/
def planedBlock (m : Bytes) (base : Nat) (h : Header) (i j : Nat) : Option Block :=
  let nb := padBlocks h.k
  let l := layoutOf true h.planes h.fmt h.rows h.k
  if h.rows ≤ i || h.k ≤ 8 * j then some zeroBlock
  else
    let meta_ := base + l.second + 4 * (i * nb + j)
    let band := m.readLE (base + l.third + 2 * (i / 64)) 2
    let scale := byteAt m (meta_ + 2)
    match resolve h.smode scale band with
    | .nanBlock => none
    | .zero => some zeroBlock
    | .value =>
      let u := m.readLE meta_ 2
      if u = 0x8000 then none
      else
        let f := blockFactor h.smode scale band (signedOf 16 u)
        some { f := f.1, e := f.2, q := (List.range 8).map fun c =>
                if h.k ≤ 8 * j + c then 0 else planeValue m base h.planes nb i j c }

/-- Block b of row j of the parallel operand at `base`, aligned at 12 bits (R186, 02 R48), with the alignment's NX. -/
def parallelBlock (m : Bytes) (base : Nat) (h : Header) (j b : Nat) : Option Block × Bool :=
  let nb := padBlocks h.k
  let l := layoutOf false 0 h.fmt h.rows h.k
  if h.rows ≤ j || h.k ≤ 8 * b then (some zeroBlock, false)
  else
    let row := base + 128 + j * nb * fmtBits h.fmt
    let band := m.readLE (base + l.third + 2 * (j / 64)) 2
    let scale := byteAt m (base + l.second + j * nb + b)
    match resolve h.smode scale band with
    | .nanBlock => (none, false)
    | .zero => (some zeroBlock, false)
    | .value =>
      let a := alignBlock 12 h.fmt ((List.range 8).map fun c =>
        if h.k ≤ 8 * b + c then 0 else elementAt (fun o => byteAt m (row + o)) h.fmt (8 * b + c))
      if a.nan then (none, a.nx)
      else
        let f := blockFactor h.smode scale band a.u
        (some { f := f.1, e := f.2, q := a.q }, a.nx)

/-- Add two numbers of the form x × 2^e. -/
def addDyadic (a b : Int × Int) : Int × Int :=
  let e := min a.2 b.2
  (a.1 * (2 ^ (a.2 - e).toNat : Nat) + b.1 * (2 ^ (b.2 - e).toNat : Nat), e)

/-- The exact sum over some blocks, none where one is a NaN block (02 R58, R59). -/
def chunkSum : List (Option Block × Option Block) → Option (Int × Int)
  | [] => some (0, 0)
  | (some a, some b) :: r =>
    (chunkSum r).map fun t =>
      let d := (List.zipWith (· * ·) a.q b.q).sum * a.f * b.f
      if d = 0 then t else if t.1 = 0 then (d, a.e + b.e) else addDyadic (d, a.e + b.e) t
  | _ => none

/-- Accumulate one chunk: an addition rounded to nearest (02 R58, R59). -/
def accumulate (acc : FRes) (s : Option (Int × Int)) : FRes :=
  match s with
  | none => { bits := Fmt.f32.nanBits, flags := acc.flags ||| fNV }
  | some (x, e) =>
    let r := Fmt.f32.add 0 (Fmt.f32.decode acc.bits) (.fin (decide (x < 0)) x.natAbs e)
    { r with flags := acc.flags ||| r.flags }

/-- One result element over all chunks of a K-range, from an initial accumulator; a chunk of a padding row adds +0 (R193). -/
def elementSum (m : Bytes) (ab bb : Nat) (ha hb : Header) (m' : Bytes) (i j : Nat) (init : Nat) : FRes :=
  (List.range (ceilDiv ha.k 64)).foldl (fun acc c =>
    accumulate acc
      (if ha.rows ≤ i || hb.rows ≤ j then some (0, 0)
       else chunkSum ((List.range 8).map fun b =>
        (planedBlock m ab ha i (8 * c + b), (parallelBlock m' bb hb j (8 * c + b)).1))))
    { bits := init, flags := 0 }

/-- Alignment of the parallel operand's first `n` rows discarded a nonzero bit (02 R51). -/
def parallelNx (m : Bytes) (base : Nat) (h : Header) (n : Nat) : Bool :=
  (List.range (min n h.rows)).any fun j => (List.range (ceilDiv h.k 8)).any fun b => (parallelBlock m base h j b).2

/-! ### Participants -/

/-- A participant of a joint or set: its arrival, and the split stalled there. -/
structure Part where
  x : Iss
  a : Arrival

/-- The handles, header addresses and headers of a participant's tile pair, as its tile registers and its scratchpad hold them when the
joint or set is complete; R21 is not checked again (R192) (log entry 83). -/
def Part.ha (p : Part) : Word := p.x.k.readT p.a.tile
def Part.hb (p : Part) : Word := p.x.k.readT (p.a.tile + 1)
def Part.sram (p : Part) : Bytes := (p.x.s.core p.x.f.core).sram
def Part.headA (p : Part) : Header := headerAt p.sram (hByte p.ha)
def Part.headB (p : Part) : Header := headerAt p.sram (hByte p.hb)

/-- The participant whose split waits with an arrival. -/
def State.part (s : State) (core : Nat) (a : Arrival) : Option Part :=
  (s.stalled core a.slot a.split).map fun x => { x := x, a := a }

/-- A failure of a joint: the trap code, and the cause word each participant receives. -/
structure JointFail where
  code : Nat
  word : Part → Nat

/-- HANDLE found in `bad`, as each participant records it (R202). -/
def handleIn (reason tile : Nat) (bad : Part) (rank : Nat := 0) : JointFail where
  code := 0x08
  word p := handleWord reason tile 0
    (p.x.f.core != bad.x.f.core || p.x.f.slot != bad.x.f.slot) bad.x.k.lpack rank

/-- The voters in order: (group, logical pack, lane), with their words (R192). -/
def voters (ps : List Part) : List (Nat × Nat × Word) :=
  (sortBy (fun p : Part => p.x.k.group * 2 ^ 16 + p.x.k.lpack) ps).flatMap fun p =>
    (lanesOf p.a.voters).map fun i => (p.x.k.lpack, i, Words.get p.a.words i)

/-- The vote and validity of 01 R31. -/
def voteFail (vs : List (Nat × Nat × Word)) : Option JointFail :=
  match vs with
  | [] => none
  | (_, _, w) :: r =>
    match r.find? fun v => v.2.2 != w with
    | some (l, i, o) => some { code := 0x07, word := fun _ => w.toNat + o.toNat * 2 ^ 32 + i * 2 ^ 68 + l * 2 ^ 73 }
    | none => if fwCheck w = 0 then none else some { code := 0x07, word := fun _ => fmtInvalid w }

/-- The word the voters agree on. -/
def votedWord (ps : List Part) : Word := ((voters ps).head?.map fun v => v.2.2).getD 0

/-- A planed header matches the format word and its handle (R192). -/
def planedMatches (w h : Word) (t : Header) : Bool :=
  t.fmt == fwA w && t.planes == hPlanes h && t.planes == fwPlanes w && t.smode == fwAScale w

/-- A parallel header matches the format word (R192). -/
def parallelMatches (w : Word) (t : Header) : Bool := t.fmt == fwB w && t.planes == 0 && t.smode == fwBScale w

/-- The header check of R192 step 2 at every participant, `hb` giving the parallel header that counts. -/
def headerFail (w : Word) (ps : List Part) (hb : Part → Header) (rank : Part → Nat) : Option JointFail :=
  ps.findSome? fun p =>
    if !planedMatches w p.ha p.headA then some (handleIn 0x11 p.a.tile p (rank p))
    else if !parallelMatches w (hb p) then some (handleIn 0x11 (p.a.tile + 1) p (rank p))
    else none

/-- The enables of all participants. -/
def jointTe (ps : List Part) : Nat := ps.foldl (fun f p => f ||| p.x.k.te) 0

/-- Raise a failure at every participant (R192, 08 R229). -/
def State.failJoint (s : State) (ps : List Part) (f : JointFail) : State :=
  ps.foldl (fun s p =>
    match s.stalled p.x.f.core p.x.f.slot p.x.sp.id with
    | none => s
    | some x =>
      match x.raiseRec (x.trap x.live f.code (f.word p) true) with
      | .next t => t
      | _ => s) s

/-- Arrivals leave a core's latch. -/
def State.leaveLatch (s : State) (core : Nat) (f : Arrival → Bool) : State :=
  s.setCore core { s.core core with latch := (s.core core).latch.filter fun a => !f a }

/-- When a core's matrix engine ends what it has begun, in ns: a joint holds it after those before it (R203) (log entry 37). -/
def State.engineEnd (s : State) (core : Nat) : Nat :=
  ((s.core core).packs.map fun p => ((p.2.ops.filter fun o => !o.done).map (·.till)).foldl max 0).foldl max s.now

/-- The engine time of `n` × 1,024 elements over a planed tile's K, in ns at 1.5 GHz (R203). -/
def Part.engineTime (p : Part) (n : Nat) : Nat := ceilDiv (ceilDiv (1024 * n * (64 * ceilDiv p.headA.k 64) * p.headA.planes) 20480 * 2) 3

/-- A participant's split retires with the tile operation its joint leaves; all of a joint's issue at one instant, the completion of the
rendezvous (R177). -/
def State.retirePart (s : State) (p : Part) (kind : OpKind) (stamp till : Nat) : State :=
  match s.stalled p.x.f.core p.x.f.slot p.x.sp.id with
  | none => s
  | some x => x.retire (x.k.addOp { x.engineOp .tl .matrix kind with stamp := stamp, till := till }) x.sp

/-! ### `mmj` (R190–R193) -/

/-- The bits of a mask of slots. -/
def slotsOf (m : Word) : List Nat := (List.range 16).filter fun i => m.getLsbD i

/-- `mst` fails R22 in the parts its issuer sees (R190). -/
def Iss.badMuster (x : Iss) : Bool :=
  let m := x.k.mst
  let n := (slotsOf m).length
  m.toNat / 2 ^ 16 != 0 || !m.getLsbD x.f.slot || decide (n < 2) || decide (6 < n) || !(slotsOf m).all x.peerIn

/-- Raise HANDLE at a joint's own check, with the pack concerned and, for `mmc`, its rank (R202). -/
def Iss.handleOwn (x : Iss) (reason : Nat) (tile : Nat := 0) (rank : Nat := 0) : Out :=
  x.raise x.live 0x08 (handleWord reason tile 0 false x.k.lpack rank)

/-- The format words of the live lanes. -/
def Iss.formatWords (x : Iss) (a : VReg) : Words := wordsOf x.live (x.v a)

/-- The scratchpad bytes of a tile pair's regions. -/
def Iss.pairSpans (x : Iss) (b : Nat) : List (Nat × Nat) :=
  [(hByte (x.k.readT b), hBytes (x.k.readT b)), (hByte (x.k.readT (b + 1)), hBytes (x.k.readT (b + 1)))]

/-- MMJ (R190, R191): the pack's own checks, the comparison of `mst` with waiting arrivals, then the arrival waits (log entry 20). Where
some differ, the arriving pack and each waiting pack whose `mst` differs raise HANDLE 0x15 (log entry 82), each record
with its own pack's index as PACK and REMOTE 0 (log entry 95). -/
def execMmj (d : AReg) (a : VReg) (b : TReg) (s : State) : Out :=
  issueU s "MMJ" [opA 0 d, rdV 1 a, opT 2 b 2] fun x =>
    let c := x.s.core x.f.core
    let m := x.k.mst
    let ta := x.k.readT b.toNat
    let tb := x.k.readT (b.toNat + 1)
    let heads := [(b.toNat, headerAt c.sram (hByte ta)), (b.toNat + 1, headerAt c.sram (hByte tb))]
    if c.latch.any fun r => r.slot == x.f.slot && r.coop.isEmpty then .next x.s
    else if x.tileWait || c.tileBusy x.f.slot (x.pairSpans b.toNat) [d.toNat] x.s.clock then .next x.s
    else if x.badMuster then x.handleOwn 0x14
    else if x.badHandle b.toNat [2] then x.handleOwn 0x10 b.toNat
    else if x.badHandle (b.toNat + 1) [1] then x.handleOwn 0x10 (b.toNat + 1)
    else
      match heads.find? fun h => decide (32 < h.2.rows) || h.2.rsv with
      | some h => x.handleOwn 0x11 h.1
      | none =>
        let clash := c.latch.filter fun r =>
          r.coop.isEmpty && (r.mst.getLsbD x.f.slot || m.getLsbD r.slot) && r.mst != m
        let arrival : Arrival :=
          { slot := x.f.slot, split := x.sp.id, mst := m, acc := d.toNat, tile := b.toNat, voters := x.live
            words := x.formatWords a, coop := [] }
        if clash.isEmpty then
          let s := x.s.setCore x.f.core { c with latch := c.latch ++ [arrival] }
          ({ x with s := s } : Iss).stallAt .joint
        else
          let s := x.s.leaveLatch x.f.core fun r => clash.contains r
          let s := clash.foldl (fun s r =>
            s.handleAtStall x.f.core r.slot r.split true
              (handleWord 0x15 0 0 false ((s.pack x.f.core r.slot).elim 0 (·.lpack)))) s
          ({ x with s := s } : Iss).raiseRec (x.trap x.live 0x08 (handleWord 0x15 0 0 false x.k.lpack) true)

/-- Arrivals whose `mst` names a pack that has ended raise HANDLE 0x16 (R191), each with its own pack's index as PACK
and REMOTE 0 (log entry 95). -/
def State.orphanJoints (s : State) (core slot : Nat) : State :=
  let bad := (s.core core).latch.filter fun r => r.coop.isEmpty && r.mst.getLsbD slot
  bad.foldl (fun s r =>
    s.handleAtStall core r.slot r.split true (handleWord 0x16 0 0 false ((s.pack core r.slot).elim 0 (·.lpack))))
    (s.leaveLatch core fun r => bad.contains r)

/-- A pack's part of a joint: every element of its granule with its flags (R193). -/
def Part.granule (p : Part) (w : Word) : List (Nat × Nat × FRes) :=
  elements1024.map fun e =>
    let init := if fwOvw w then 0 else (p.x.k.readAcc p.a.acc e.1 e.2).toNat
    (e.1, e.2, elementSum p.sram (hByte p.ha) (hByte p.hb) p.headA p.headB p.sram e.1 e.2 init)

/-- The tile register of a pack in which it differs from the joint's first pack, if one does: the planed one by its handle or K, the
parallel one by its K (R192 step 3). -/
def Part.differs (p f : Part) : Option Nat :=
  if p.ha != f.ha || p.headA.k != f.headA.k then some p.a.tile
  else if p.headB.k != f.headA.k then some (p.a.tile + 1)
  else none

/-- The checks of R192 over the joint's packs, in slot order. -/
def jointFail (ps : List Part) : Option JointFail :=
  let w := votedWord ps
  let first := ps.head?
  voteFail (voters ps) <|> headerFail w ps Part.headB (fun _ => 0) <|>
    first.bind fun f => ps.findSome? fun p => (p.differs f).map fun t => handleIn 0x13 t p

/-- Give every participant its results, under one number by which they complete together, or FPX to all (R193, R197, 02 R65); `n` granules
are computed on its core (R203) (log entry 20). -/
def State.finishJoint (s : State) (ps : List Part) (hits : List Hit) (nx : Bool) (n : Nat) (kind : Part → Word → Nat → OpKind) : State :=
  let aligned := if nx then fNX else 0
  match matrixFpx (jointTe ps) hits aligned with
  | some w => s.failJoint ps { code := 0x0C, word := fun _ => w }
  | none =>
    let flags := BitVec.ofNat 32 (hitFlags hits ||| aligned)
    ps.foldl (fun s' p => s'.retirePart p (kind p flags (s.clock + 1)) s.clock (s.engineEnd p.x.f.core + p.engineTime n)) s

/-- JOINT_FORMATION (R191–R193): every pack named in a mask has an arrival waiting (log entry 20). -/
def execJointFormation (core slot : Nat) (s : State) : Out :=
  let c := s.core core
  let joint := fun (a : Arrival) => a.coop.isEmpty
  match c.latch.find? fun a => joint a && a.slot == slot with
  | none => .refused (.notEnabled "JOINT_FORMATION")
  | some a0 =>
    let as := (slotsOf a0.mst).map fun i => c.latch.find? fun a => joint a && a.slot == i && a.mst == a0.mst
    match as.mapM fun a => a.bind (s.part core) with
    | none => .refused (.notEnabled "JOINT_FORMATION")
    | some ps =>
      let waits := ps.any fun p => p.x.k.full .tl || c.tileBusy p.x.f.slot (p.x.pairSpans p.a.tile) [p.a.acc] s.clock
      if waits then .refused (.notEnabled "JOINT_FORMATION")
      else
        let s := s.leaveLatch core fun a => ps.any fun p => p.a == a
        match jointFail ps with
        | some f => .next (s.failJoint ps f)
        | none =>
          let w := votedWord ps
          let rs := ps.map fun p => (p, p.granule w)
          let hits := rs.flatMap fun r => r.2.map fun e =>
            ({ group := r.1.x.k.group, lpack := r.1.x.k.lpack, row := e.1, col := e.2.1, flags := e.2.2.flags } : Hit)
          let nx := ps.any fun p => parallelNx p.sram (hByte p.hb) p.headB 32
          let words := fun (p : Part) => (p.granule w).map fun e => (accKey p.a.acc e.1 e.2.1, BitVec.ofNat 32 e.2.2.bits)
          .next (s.finishJoint ps hits nx ps.length fun p flags joint =>
            .tile (p.x.pairSpans p.a.tile) [p.a.acc] [] (words p) flags joint)

/-! ### `mmc` (R194–R197) -/

/-- The fields of a cooperation record (R194). -/
structure Coop where
  id : Nat
  rank : Nat
  mb : Nat
  nb : Nat
  ks : Nat
  bad : Bool
  deriving DecidableEq, Repr

def coopOf (g : List Word) : Coop :=
  let r := fun j => (g.getD j 0).toNat
  let mb := cut (r 2) 0 5
  let nb := cut (r 2) 8 4
  let ks := cut (r 2) 16 4
  let inR := fun n hi => decide (1 ≤ n) && decide (n ≤ hi)
  { id := cut (r 0) 0 16, rank := cut (r 1) 0 7, mb := mb, nb := nb, ks := ks
    bad := r 0 / 2 ^ 16 != 0 || r 1 / 2 ^ 7 != 0 || cut (r 2) 5 3 != 0 || cut (r 2) 12 4 != 0 || r 2 / 2 ^ 20 != 0 ||
      (g.drop 3).any (· != 0) || !(inR mb 16 && inR nb 8 && inR ks 8) || decide (128 < mb * nb * ks) ||
      decide (mb * nb * ks ≤ cut (r 1) 0 7) }

/-- RANKS, and the parts of a rank (R194, R195). -/
def Coop.ranks (c : Coop) : Nat := c.mb * c.nb * c.ks
def Coop.kp (c : Coop) : Nat := c.rank % c.ks
def Coop.col (c : Coop) : Nat := c.rank / c.ks % c.nb
def Coop.row (c : Coop) : Nat := c.rank / c.ks / c.nb

/-- A participant's cooperation record. -/
def Part.coop (p : Part) : Coop := coopOf p.a.coop

/-- The waiting arrivals of a cooperative set: core and arrival, by context and COOPID (R196) (log entry 65). -/
def State.coopSet (s : State) (ctx id : Nat) : List (Nat × Arrival) :=
  s.cores.flatMap fun e =>
    (e.2.latch.filter fun a =>
      !a.coop.isEmpty && (coopOf a.coop).id == id && ((s.pack e.1 a.slot).map (·.ctx)) == some ctx).map fun a => (e.1, a)

/-- MMC (R194, R196): the record, handles and headers are checked, then the arrival waits. -/
def execMmc (d : GReg) (a : VReg) (b : TReg) (s : State) : Out :=
  issueU s "MMC" [rdG 0 d 8, rdV 1 a, opT 2 b 2, { field := 3, cls := .a, idx := 0, cnt := 16 }] fun x =>
    let c := x.s.core x.f.core
    let rec_ := (List.range 8).map fun j => x.k.readG (d.toNat + j)
    let co := coopOf rec_
    let head := fun t => headerAt c.sram (hByte (x.k.readT t))
    if x.tileWait || c.tileBusy x.f.slot (x.pairSpans b.toNat) (List.range 16) x.s.clock then .next x.s
    else if co.bad then x.handleOwn 0x17 0 co.rank
    else if x.badHandle b.toNat [2] then x.handleOwn 0x10 b.toNat co.rank
    else if x.badHandle (b.toNat + 1) [1] then x.handleOwn 0x10 (b.toNat + 1) co.rank
    else if 128 < (head b.toNat).rows then x.handleOwn 0x11 b.toNat co.rank
    else if 128 < (head (b.toNat + 1)).rows then x.handleOwn 0x11 (b.toNat + 1) co.rank
    else if (x.s.coopSet x.k.ctx co.id).any fun r => (coopOf r.2.coop).rank == co.rank then
      x.handleOwn 0x18 0 co.rank
    else
      let arrival : Arrival :=
        { slot := x.f.slot, split := x.sp.id, mst := 0, acc := 0, tile := b.toNat, voters := x.live
          words := x.formatWords a, coop := rec_ }
      let s := x.s.setCore x.f.core { c with latch := c.latch ++ [arrival] }
      ({ x with s := s } : Iss).stallAt .joint

/-- The source of a rank's parallel tile: the rank with mb = 0 of the same (nb, kp) (R195). -/
def sourceOf (ps : List Part) (p : Part) : Part :=
  (ps.find? fun q => q.coop.row == 0 && q.coop.col == p.coop.col && q.coop.kp == p.coop.kp).getD p

/-- The tile register of a rank whose K is at fault, if one is (R195): K is a multiple of 64 in every part but the last, and equal within
a part and in a rank's two tiles. -/
def badK (ps : List Part) (p : Part) : Option Nat :=
  let k := p.headA.k
  if (p.coop.kp + 1 != p.coop.ks && k % 64 != 0) || ps.any fun q => q.coop.kp == p.coop.kp && q.headA.k != k then some p.a.tile
  else if (sourceOf ps p).headB.k != k then some (p.a.tile + 1)
  else none

/-- The bytes of a parallel tile's layout. -/
def Part.layoutB (p : Part) : Nat := (layoutOf false 0 p.headB.fmt p.headB.rows p.headB.k).size

/-- The checks of R196 over a complete set, in rank order. -/
def coopFail (ps : List Part) : Option JointFail :=
  match ps with
  | [] => none
  | f :: _ =>
    let fail18 := fun (p : Part) (tile : Nat) => handleIn 0x18 tile p p.coop.rank
    let w := votedWord ps
    let clusters := sortNats (ps.map fun p => clusterOf p.x.f.core)
    ((ps.find? fun p => p.coop.mb != f.coop.mb || p.coop.nb != f.coop.nb || p.coop.ks != f.coop.ks).map (fail18 · 0)) <|>
      (if 2 < clusters.length then
        (ps.find? fun p => !(clusters.take 2).contains (clusterOf p.x.f.core)).map (fail18 · 0) else none) <|>
      voteFail (voters ps) <|>
      headerFail w ps (fun p => (sourceOf ps p).headB) (fun p => p.coop.rank) <|>
      (ps.findSome? fun p => (badK ps p).map (fail18 p)) <|>
      ((ps.find? fun p => decide (hBytes p.hb < (sourceOf ps p).layoutB)).map fun p =>
        handleIn 0x12 (p.a.tile + 1) p p.coop.rank)

/-- The granule, row and column of a share's element (R195). -/
def shareKey (i j : Nat) : Nat := accKey (4 * (i / 32) + j / 32) (i % 32) (j % 32)

/-- Every element of a share. -/
def share : List (Nat × Nat) := (List.range 128).flatMap fun i => (List.range 128).map fun j => (i, j)

/-- A rank's partial at an element of its share (R197). -/
def Part.partial_ (p : Part) (ps : List Part) (w : Word) (i j : Nat) : FRes :=
  let src := sourceOf ps p
  let init := if p.coop.kp = 0 && !fwOvw w then (p.x.k.acc.get (shareKey i j)).toNat else 0
  elementSum p.sram (hByte p.ha) (hByte src.hb) p.headA src.headB src.sram i j init

/-- A rank's final element: the rank of K part 0 adds the other parts' partials in ascending rank (R197, 02 R60). -/
def Part.final (p : Part) (ps : List Part) (w : Word) (i j : Nat) : FRes :=
  let mine := p.partial_ ps w i j
  if p.coop.kp = 0 then
    ((List.range p.coop.ks).drop 1).foldl (fun acc q =>
      match ps.find? fun r => r.coop.rank == p.coop.rank + q with
      | none => acc
      | some r =>
        let t := Fmt.f32.add 0 (Fmt.f32.decode acc.bits) (Fmt.f32.decode (r.partial_ ps w i j).bits)
        { t with flags := acc.flags ||| t.flags }) mine
  else mine

/-- The source's layout bytes, as a receiving rank's region gets them (R195). -/
def Part.received (p : Part) (ps : List Part) : List (Nat × List Byte) :=
  let src := sourceOf ps p
  if p.coop.row = 0 then [] else [(hByte p.hb, src.sram.readList (hByte src.hb) src.layoutB)]

/-- COOP_RENDEZVOUS (R196, R197): every rank has arrived (log entries 20, 65). -/
def execCoopRendezvous (ctx coopid : Nat) (s : State) : Out :=
  let set := s.coopSet ctx coopid
  let has := fun r => set.any fun e => (coopOf e.2.coop).rank == r
  let ready := set.any fun e => (List.range (coopOf e.2.coop).ranks).all has
  match set.mapM fun e => s.part e.1 e.2 with
  | none => .refused (.notEnabled "COOP_RENDEZVOUS")
  | some ps =>
    let waits := ps.any fun p =>
      p.x.k.full .tl || (s.core p.x.f.core).tileBusy p.x.f.slot (p.x.pairSpans p.a.tile) (List.range 16) s.clock
    if !ready || waits then .refused (.notEnabled "COOP_RENDEZVOUS")
    else
      let ps := sortBy (fun p => p.coop.rank) ps
      let s := ps.foldl (fun s p => s.leaveLatch p.x.f.core fun a => a == p.a) s
      match coopFail ps with
      | some f => .next (s.failJoint ps f)
      | none =>
        let w := votedWord ps
        let hits := ps.flatMap fun p => share.map fun e =>
          ({ group := p.x.k.group, lpack := p.x.k.lpack, row := 128 * p.coop.row + e.1, col := 128 * p.coop.col + e.2
             flags := (p.final ps w e.1 e.2).flags } : Hit)
        let nx := ps.any fun p => parallelNx (sourceOf ps p).sram (hByte (sourceOf ps p).hb) (sourceOf ps p).headB 128
        .next (s.finishJoint ps hits nx 16 fun p flags joint =>
          .tile (p.x.pairSpans p.a.tile) (List.range 16) (p.received ps)
            (share.map fun e => (shareKey e.1 e.2, BitVec.ofNat 32 (p.final ps w e.1 e.2).bits)) flags joint)

end Sys2Proof.Machine
end

