-- ==== Sys2Proof/Machine/Header.lean ====
section
/-!
DEFINITION. The kernel header (03 R88) and the faults that refuse it (R89): each with the byte offset of its field.
-/

namespace Sys2Proof.Machine

/-- A header's fields (R88) (log entry 74). -/
def parseHeader (b : List Byte) : KHeader :=
  let u := recField b
  { nbv := u 6 2, flags := u 8 4, slices := u 12 1, gpacks := u 13 1, regs := (u 16 1, u 17 1, u 18 1)
    roles := (List.range 3).map fun r =>
      (u (20 + 8 * r) 1, u (21 + 8 * r) 1, u (22 + 8 * r) 1, u (23 + 8 * r) 1, u (24 + 8 * r) 4)
    banks := u 44 4, spill := u 48 4, widths := (List.range 6).map fun k => u (52 + k) 1, fpctl := u 60 4, entry := u 64 4
    codeOff := u 68 4, codeSize := u 72 4, dictOff := u 76 4, dictCount := u 80 2, callOff := u 84 4, callCount := u 88 2
    handler := u 92 4, leaseOff := u 96 4, leaseCount := u 100 2 }

/-- N, M and A are outside the limits of 01 R15. -/
def regsBad (n m a : Nat) : Bool := n % 8 != 0 || n == 0 || decide (120 < n) || m % 8 != 0 || m == 0 || decide (64 < m) || decide (16 < a)

/-- The faults of role entry `r` at offset `at_` (R89): its COUNT, N, M and A, then its ENTRY (log entry 32). -/
def roleFaults (codeSize at_ : Nat) (r : Nat × Nat × Nat × Nat × Nat) : List (Nat × Bool) :=
  if r.1 = 0 then [(at_, r.2 != (0, 0, 0, 0))]
  else [(at_, decide (16 < r.1) || regsBad r.2.1 r.2.2.1 r.2.2.2.1), (at_ + 4, decide (codeSize ≤ 2 * r.2.2.2.2))]

/-- The faults of the header's own bytes, each with the offset of its field, NBV apart (R89, R86) (log entry 32) (log entry 74). -/
def headerFaults (b : List Byte) : List (Nat × Bool) :=
  let u := recField b
  let h := parseHeader b
  let past := fun off n => decide (2 ^ 32 < off + n)
  [(0, u 0 4 != 0x4C52454B), (4, u 4 2 != 1), (8, h.flags / 16 != 0), (12, h.slices == 0 || decide (8 < h.slices)),
   (13, h.gpacks == 0 || decide (16 < h.gpacks)), (14, u 14 2 != 0),
   (16, u 19 1 != 0 || (!h.hasRoles && regsBad h.regs.1 h.regs.2.1 h.regs.2.2)),
   (20, if h.hasRoles then (h.roles.map (·.1)).sum != h.gpacks else u 20 24 != 0)] ++
  (if h.hasRoles then h.roles.zipIdx.flatMap fun r => roleFaults h.codeSize (20 + 8 * r.2) r.1 else []) ++
  [(44, (List.range 16).any fun k => cut h.banks (2 * k) 2 == 3),
   (48, h.spill % 1152 != 0 || decide (147456 < h.spill)),
   (52, (h.widths.any fun w => decide (64 < w)) || h.widths.sum != 64), (58, u 58 2 != 0),
   (60, cut h.fpctl 3 5 != 0 || h.fpctl / 2 ^ 13 != 0), (64, !h.hasRoles && decide (h.codeSize ≤ 2 * h.entry)),
   (68, h.codeOff % 4 != 0 || past h.codeOff h.codeSize), (72, h.codeSize % 4 != 0),
   (76, h.dictOff % 4 != 0 || past h.dictOff (4 * h.dictCount)), (80, decide (1024 < h.dictCount)), (82, u 82 2 != 0),
   (84, past h.callOff (8 * h.callCount)), (88, decide (256 < h.callCount)), (90, u 90 2 != 0),
   (92, !h.noHandler && decide (h.codeSize ≤ 2 * h.handler)), (96, past h.leaseOff (24 * h.leaseCount)),
   (100, decide (64 < h.leaseCount)), (102, u 102 2 != 0), (104, past (u 104 4) (u 108 4)), (112, u 112 136 != 0),
   (248, u 248 8 != natLE ((sha256 (b.take 248)).take 8))]

/-- The faults of call table entry `b` at offset `at_` (R88): a target outside the code section is one of them (log entry 85). -/
def callFaults (codeSize : Nat) (at_ : Nat) (b : List Byte) : List (Nat × Bool) :=
  let u := recField b
  [(at_, decide (codeSize ≤ 2 * u 0 4)), (at_ + 4, regsBad (u 4 1) (u 5 1) (u 6 1)), (at_ + 7, u 7 1 != 0)]

/-- The faults of lease table entry `b` at offset `at_` (R89). -/
def leaseFaults (at_ : Nat) (b : List Byte) : List (Nat × Bool) :=
  let u := recField b
  let base := u 0 8
  let len := u 8 8
  let ok := fun va => canonical (BitVec.ofNat 64 va)
  [(at_, base % 4096 != 0 || !ok base ||
      (len != 0 && (decide (2 ^ 64 < base + len) || !ok (base + len - 1) || (decide (base < 2 ^ 63) && decide (2 ^ 63 < base + len))))),
   (at_ + 8, len % 4096 != 0 || len == 0), (at_ + 16, u 16 4 / 4 != 0), (at_ + 20, u 20 4 != 0)]

/-- The lowest offset among faults. -/
def firstFault (l : List (Nat × Bool)) : Option Nat :=
  ((l.filter (·.2)).map (·.1)).foldl (fun r x => minReason r (some x)) none

/-- A range in whole pages, none when empty. -/
def pageSpan (va n : Nat) : List (Nat × Nat) :=
  if n = 0 then [] else [(va / 4096 * 4096, (va + n - 1) / 4096 * 4096 + 4096 - va / 4096 * 4096)]

/-- The pages of the image lease: header, code, dictionary and call table (16 R353). -/
def imageSpans (image : Nat) (h : KHeader) : List (Nat × Nat) :=
  pageSpan image 256 ++ pageSpan (image + h.codeOff) h.codeSize ++ pageSpan (image + h.dictOff) (4 * h.dictCount) ++
    pageSpan (image + h.callOff) (8 * h.callCount)

/-- The 4 KiB pages of spans. -/
def pagesOf (l : List (Nat × Nat)) : List Nat :=
  l.flatMap fun p => (List.range (p.2 / 4096)).map fun k => p.1 + 4096 * k

end Sys2Proof.Machine
end

