-- ==== Sys2Proof/Machine/Launch.lean ====
section
/-!
DEFINITION. The distributor up to placement (spec 15): records consumed from launch queues (R319), contexts created (R316), launches
checked, made resident and dispatched (R324, R353), and queue aging (R326).
-/

namespace Sys2Proof.Machine

/-! ### Records (R318–R320) -/

/-- A record is finished with a completion entry (R320). -/
def State.finish (s : State) (t : Tag) (status detail : Nat) : State :=
  (s.modLaunch t fun l => { l with phase := .closed, leased := false }).complete t status detail

/-- Take a record into the distributor's hands; a closed one of the same tag is forgotten. -/
def State.take (s : State) (l : Launch) : State :=
  { s with launches := (s.launches.filter fun o => !(o.tag == l.tag && o.phase == .closed)) ++ [l] }

/-- The offset of the first field of a DESTROY record that is faulty (R317, R320). -/
def destroyFault (bs : List Byte) : Option Nat :=
  let u := recField bs
  (([(1, u 1 1 != 0), (20, u 20 12 != 0)] : List (Nat × Bool)).find? (·.2)).map (·.1)

/-- The faults of a CREATE record's own bytes: MALFORMED (R316, R320). -/
def createBytes (bs : List Byte) : Option Nat :=
  let u := recField bs
  (([(1, u 1 1 != 0), (32, u 32 8 % 4096 != 0), (48, u 48 8 % 32 != 0), (60, u 60 4 != 0)] : List (Nat × Bool)).find? (·.2)).map (·.1)

/-- The offset at which a record's own bytes are MALFORMED (R324) (log entry 32). -/
def recordFault (bs : List Byte) : Option Nat :=
  match recField bs 0 1 with
  | 1 => launchFault bs
  | 2 => createBytes bs
  | _ => destroyFault bs

/-- The status with which a record is turned away as it is consumed, and its DETAIL (R319): its own bytes are judged before its
context (R324); a context that a DESTROY is ending takes no more records (R317) (log entry 32). -/
def State.turnedAway (s : State) (q : Nat) (bs : List Byte) : Option (Nat × Nat) :=
  let kind := recField bs 0 1
  let ctx := recField bs 4 4
  if 4 ≤ kind then some (21, 0)
  else if recField bs 2 2 != q then some (21, 2)
  else if (kind == 1) == (s.qContext q == 0) || (kind == 1 && ctx != s.qContext q) || (kind != 2 && (s.context ctx).any fun c => c.ending.isSome) then
    match recordFault bs with
    | some d => some (21, d)
    | none => some (20, ctx)
  else none

/-- LAUNCH_RECORD_CONSUME (R319): the record at HEAD is read whole, its KIND cleared, its STATUS set to pending, HEAD moves on. -/
def execLaunchRecordConsume (queue : Nat) (s : State) : Out :=
  let a := s.qRing queue + 64 * (s.qHead queue % s.qSlots queue)
  let bs := s.mem.readList a 64
  if s.phase < 5 || !s.queueServed queue || recField bs 0 1 == 0 then .refused (.notEnabled "LAUNCH_RECORD_CONSUME")
  else
    let t : Tag := { queue := queue, index := s.qHead queue % 2 ^ 22 }
    let s := s.outsideWrite a (bytesLE 8 0)
    let s := s.outsideWrite (s.qCpl queue + 16 * (t.index % s.qSlots queue)) (bytesLE 4 0)
    let s := s.setWin (queueAt queue + 40) 4 (s.qHead queue + 1)
    let away := s.turnedAway queue bs
    let s := s.take { tag := t, kind := recField bs 0 1, bytes := bs, ctx := recField bs 4 4 }
    .next (match away with
      | some e => s.finish t e.1 e.2
      | none => s)

/-- The head of a queue: its first record not yet dispatched (R324). -/
def State.headRecord (s : State) (q : Nat) : Option Launch :=
  s.launches.find? fun l => l.tag.queue == q && (l.phase == .consumed || l.phase == .resident)

/-! ### CREATE (R316) -/

/-- A CREATE record's own faults, as (status, offset): MALFORMED, then CREATE (R316, R320, 16 R346). -/
def createFault (bs : List Byte) : Option (Nat × Nat) :=
  let u := recField bs
  match createBytes bs with
  | some d => some (21, d)
  | none =>
  (([((22, 4), u 4 4 == 0 || decide (4095 < u 4 4)), ((22, 8), cut (u 8 8) 60 4 != 10), ((22, 16), cut (u 16 8) 0 12 != 0 || cut (u 16 8) 56 8 != 0),
     ((22, 32), !inDevice (u 32 8) (u 40 8)), ((22, 40), u 40 8 == 0 || u 40 8 % 4096 != 0),
     ((22, 48), (u 56 2 == 0 && u 48 8 != 0) || !inDevice (u 48 8) (32 * u 56 2)), ((22, 56), decide (256 < u 56 2)),
     ((22, 58), u 58 2 == 0 || decide (50 < u 58 2))] : List ((Nat × Nat) × Bool)).find? (·.2)).map (·.1)

/-- A work list from its table entry, none where a field is faulty (R331). -/
def parseList (b : List Byte) : Option WorkList :=
  let u := recField b
  let cap := u 8 4
  if u 16 16 != 0 || u 0 8 % 128 != 0 || !inDevice (u 0 8) (4 * cap) || decide (cap < u 12 4) ||
      !(List.range 19).any (fun k => cap == 2 ^ (k + 6)) then none
  else some { ring := u 0 8, cap := cap, count := u 12 4 }

/-- The work lists of a CREATE record. -/
def State.readLists (s : State) (table n : Nat) : List (Option WorkList) :=
  (List.range n).map fun k => parseList (s.mem.readList (table + 32 * k) 32)

/-- The context a CREATE record makes. -/
def createContext (bs : List Byte) (lists : List WorkList) : Context :=
  let u := recField bs
  { num := u 4 4, root := BitVec.ofNat 64 (u 8 8), attrMap := u 16 8, key0 := BitVec.ofNat 32 (u 24 4), key1 := BitVec.ofNat 32 (u 28 4)
    pool := u 32 8, poolSize := u 40 8, wlTable := u 48 8, dormant := u 58 2, lists := lists.zipIdx.map fun p => (p.2, p.1) }

/-- CREATE (R316) (log entry 32). -/
def execCreate (queue : Nat) (s : State) : Out :=
  match s.headRecord queue with
  | none => .refused (.notEnabled "CREATE")
  | some l =>
    if l.kind != 2 then .refused (.notEnabled "CREATE")
    else
      let u := recField l.bytes
      let ls := s.readLists (u 48 8) (u 56 2)
      match createFault l.bytes with
      | some e => .next (s.finish l.tag e.1 e.2)
      | none =>
        if (s.context l.ctx).isSome then .next (s.finish l.tag 20 l.ctx)
        else if ls.any Option.isNone then .next (s.finish l.tag 22 48)
        else .next ((s.setContext (createContext l.bytes (ls.filterMap id))).finish l.tag 1 0)

/-! ### Making pages resident (R324, 16 R353) -/

/-- Walk addresses as a lease walk does: the state after the walks, and the pages that fail; `own` for pages the distributor itself reads (16
R353). -/
def State.walkAll (s : State) (c : Context) (own : Bool) : List (Nat × Bool) → State × List (DWord × WalkInfo)
  | [] => (s, [])
  | (va, w) :: rest =>
    let r := s.leaseWalkPage c va w own
    let t := r.1.walkAll c own rest
    match r.2 with
    | .ok _ => t
    | .error e => (t.1, (BitVec.ofNat 64 (va / 4096 * 4096), e) :: t.2)

/-- The first of several failures of one page. -/
def oncePerPage : List (DWord × WalkInfo) → List (DWord × WalkInfo)
  | [] => []
  | f :: rest => f :: (oncePerPage rest).filter fun g => g.1 != f.1

/-- Every page that failed raises a residency event, once per page and launch, and the launch waits for RETRY (16 R353) (log entry 61). -/
def State.failPages (s : State) (l : Launch) (fs : List (DWord × WalkInfo)) : State :=
  let fs := oncePerPage fs
  let s := (fs.filter fun f => !l.reported.contains f.1).foldl (fun s f => s.residencyEvent l.ctx l.tag.queue f.1 f.2) s
  s.modLaunch l.tag fun l => { l with failedPages := fs.map (·.1), reported := (l.reported ++ fs.map (·.1)).eraseDups }

/-- A migration is watching the page: a lease walk waits (16 R354). -/
def State.armedPage (s : State) (c : Context) (va : Nat) : Bool :=
  match (s.leaseWalkPage c va).2 with
  | .ok r => bit r.2 1
  | .error _ => false

/-- The physical address of a virtual one that has been made resident. -/
def State.residentPa (s : State) (c : Context) (va : Nat) : Nat :=
  match (s.leaseWalkPage c va false true).2 with
  | .ok r => r.1
  | .error _ => 0

/-- Bytes of a context's virtual memory that has been made resident. -/
def State.residentBytes (s : State) (c : Context) (va n : Nat) : List Byte :=
  (List.range n).map fun j => s.mem.get (s.residentPa c (va + j))

/-- IMAGE, ARGS, WAITTOK, WAITCNT, LATBOUND, SIGTOK, GEST and the FLAGS bits of a launch (R321). -/
def Launch.args_ (l : Launch) : Nat := recField l.bytes 32 8
def Launch.waitTok (l : Launch) : Nat := recField l.bytes 40 8
def Launch.waitCnt (l : Launch) : Nat := recField l.bytes 48 4
def Launch.latBound (l : Launch) : Nat := recField l.bytes 52 4
def Launch.sigTok (l : Launch) : Nat := recField l.bytes 56 8
def Launch.gest (l : Launch) : Nat := recField l.bytes 20 4
def Launch.flag (l : Launch) (k : Nat) : Bool := bit (recField l.bytes 1 1) k

/-- The addresses R324 makes resident that the record names: the header's page, the argument block with the placement list, and the
token words (log entry 33). -/
def Launch.recordPages (l : Launch) : List (Nat × Bool) :=
  let args := if l.args_ = 0 && !l.flag 1 then [] else pageSpan l.args_ (64 + (if l.flag 1 then 4 * l.count else 0))
  (l.image.toNat, false) :: (pagesOf args).map (fun p => (p, false)) ++ (if l.waitTok = 0 then [] else [(l.waitTok, false)]) ++
    (if l.sigTok = 0 then [] else [(l.sigTok, true)])

/-- Those that the header names: the pages of the image lease, and of the lease table that dispatch reads (16 R353). A faulty header
names none; dispatch refuses it (log entry 61). -/
def Launch.imagePages (l : Launch) (b : List Byte) : List (Nat × Bool) :=
  let h := parseHeader b
  if (firstFault (headerFaults b)).isSome then []
  else (pagesOf (imageSpans l.image.toNat h ++ pageSpan (l.image.toNat + h.leaseOff) (24 * h.leaseCount))).map fun p => (p, false)

/-- The head record's pages are made resident; one that fails waits (R324), and so does the record while a migration watches one of them
(16 R354): none then (log entry 61). -/
def State.makeResident (s : State) (l : Launch) (c : Context) : Option State :=
  if l.recordPages.any fun p => s.armedPage c p.1 then none
  else
    let head := s.walkAll c true l.recordPages
    match head.2 with
    | f :: fs => some (head.1.failPages l (f :: fs))
    | [] =>
      let s := head.1
      let b := s.residentBytes c l.image.toNat 256
      let pages := l.imagePages b
      if pages.any fun p => s.armedPage c p.1 then none
      else
        let t := s.walkAll c true pages
        match t.2 with
        | f :: fs => some (t.1.failPages l (f :: fs))
        | [] =>
          let s := t.1
          some (s.modLaunch l.tag fun l =>
            { l with
              phase := .resident, hdr := parseHeader b
              waitPa := if l.waitTok = 0 then 0 else s.residentPa c l.waitTok
              sigPa := if l.sigTok = 0 then 0 else s.residentPa c l.sigTok })

/-! ### Dispatch (R324) -/

/-- Every group of a launch has been placed or granted (R324, R330). -/
def Launch.allOut (l : Launch) : Bool := l.unplaced.isNone

/-- The record of the queue before this one, if the distributor still knows it. -/
def State.previous (s : State) (l : Launch) : Option Launch :=
  ((s.launches.takeWhile fun o => o.tag != l.tag).filter fun o => o.tag.queue == l.tag.queue).getLast?

/-- The queue and its previous record let dispatch begin, and the token has been released (R324). -/
def State.dispatchReady (s : State) (l : Launch) : Bool :=
  let prev := match s.previous l with
    | none => true
    | some p => p.phase == .closed || (p.phase == .placing && p.allOut && !l.flag 0)
  s.qEnable l.tag.queue && prev && (l.waitTok == 0 || countReached (s.mem.readLE l.waitPa 4) l.waitCnt)

/-- The leases of a launch: the image lease and its lease table (16 R353, 03 R88). -/
def State.leasesOf (s : State) (c : Context) (l : Launch) : List Lease :=
  let image := l.image.toNat
  ((imageSpans image l.hdr).map fun p => { base := p.1, len := p.2, perms := 1 }) ++
    (List.range l.hdr.leaseCount).map fun i =>
      let b := s.residentBytes c (image + l.hdr.leaseOff + 24 * i) 24
      { base := recField b 0 8, len := recField b 8 8, perms := recField b 16 4 }

/-- The first HEADER fault of a launch's image (03 R89): of the header, and where that is sound, of the tables it names (log entries 32, 61). -/
def State.headerFault (s : State) (c : Context) (l : Launch) : Option Nat :=
  let image := l.image.toNat
  let b := s.residentBytes c image 256
  let table := fun off size n (f : Nat → List Byte → List (Nat × Bool)) =>
    (List.range n).flatMap fun i => f (off + size * i) (s.residentBytes c (image + off + size * i) size)
  match firstFault (headerFaults b) with
  | some d => some d
  | none =>
    firstFault (table l.hdr.callOff 8 l.hdr.callCount (callFaults l.hdr.codeSize) ++ table l.hdr.leaseOff 24 l.hdr.leaseCount leaseFaults)

/-- WORKID: W0 too narrow for a group's lanes, or the last coordinate too wide (R320, 09 R256). -/
def Launch.workidBad (l : Launch) : Bool :=
  let w0 := l.hdr.widths.getD 0 0
  decide (2 ^ w0 < 32 * l.hdr.gpacks) || decide (2 ^ (64 - w0) ≤ l.wbase + l.count - 1)

/-- The shape of each pack of a group in logical order: its role, N, M and A (09 R255). -/
def KHeader.shapes (h : KHeader) : List (Nat × Nat × Nat × Nat) :=
  if h.hasRoles then
    h.roles.zipIdx.flatMap fun r => List.replicate r.1.1 (r.2, r.1.2.1, r.1.2.2.1, r.1.2.2.2.1)
  else List.replicate h.gpacks (0, h.regs.1, h.regs.2.1, h.regs.2.2)

/-- Shapes fit beside `n` resident packs that hold these sums of N, M and A (01 R15, R327). -/
def shapesFit (n sv sg sa : Nat) (l : List (Nat × Nat × Nat × Nat)) : Bool :=
  decide (n + l.length ≤ 16) && decide (sv + (l.map (·.2.1)).sum ≤ Config.coreVectors) &&
    decide (sg + (l.map (·.2.2.1)).sum ≤ Config.coreUniforms) && decide (sa + (l.map (·.2.2.2)).sum ≤ Config.coreGranules)

/-- A logical core is bound and available at a cluster and position (18 R389, R390). -/
def State.coreUsable (s : State) (cluster position : Nat) : Bool :=
  (s.bindings.any fun b => b.cluster == cluster && b.position == position && !b.retired) && !(s.core (128 * cluster + position)).failed

/-- The usable positions of a cluster. -/
def State.usable (s : State) (cluster : Nat) : List Nat := (List.range Config.positions).filter fun p => s.coreUsable cluster p

/-- The group must go whole on one core (R327). -/
def Launch.oneCore (l : Launch) : Bool := l.hdr.hasRoles || l.flag 1

/-- Packs of a shape that an empty core can take. -/
def packsPerCore (sh : Nat × Nat × Nat × Nat) : Nat :=
  ((List.range 17).filter fun n => shapesFit 0 0 0 0 (List.replicate n sh)).length - 1

/-- Groups of the launch that an empty cluster can take. -/
def State.clusterTakes (s : State) (l : Launch) (cluster : Nat) : Nat :=
  let n := (s.usable cluster).length
  let sh := l.hdr.shapes
  if l.oneCore then n * ((List.range 17).filter fun m => shapesFit 0 0 0 0 ((List.replicate m sh).flatten)).length.pred
  else n * packsPerCore (sh.headD (0, 0, 0, 0)) / l.hdr.gpacks

/-- The two largest of some numbers, added. -/
def topTwo (l : List Nat) : Nat :=
  let a := l.foldl max 0
  a + (l.erase a).foldl max 0

/-- The cluster and position of a placement-list entry (R322). -/
def placeOf (e : Nat) : Nat × Nat := (e % 256, cut e 8 7)

/-- The first `n` groups of a COOP launch with a placement list fit together: two clusters at most, and each core takes its share. -/
def Launch.fitTogether (l : Launch) (n : Nat) : Bool :=
  let ps := (l.places.take n).map placeOf
  decide ((ps.map (·.1)).eraseDups.length ≤ 2) &&
    ps.all fun p => shapesFit 0 0 0 0 (List.replicate (ps.count p) l.hdr.shapes).flatten

/-- Groups of a COOP launch that two clusters can take at once, at most all of them. -/
def State.coopTakes (s : State) (l : Launch) : Nat :=
  if l.flag 1 then ((List.range l.count).find? fun x => !l.fitTogether (x + 1)).getD l.count
  else topTwo ((List.range Config.clusters).map fun k => s.clusterTakes l k)

/-- The group that no placement can ever take (R324, R327): the pool is too small, an entry names no core, a group is larger than a
core or cluster, or a COOP launch than two clusters or than the pool. -/
def State.neverPlaced (s : State) (c : Context) (l : Launch) : Option Nat :=
  let sh := l.hdr.shapes
  let need := l.hdr.gpacks * ceilDiv l.hdr.spill 4096
  let room := if need = 0 then l.count else c.poolSize / 4096 / need
  let absent := if l.flag 1 then
      (List.range l.count).find? fun x =>
        let p := placeOf (l.places.getD x 0)
        decide (Config.clusters ≤ p.1) || !s.coreUsable p.1 p.2
    else none
  if room = 0 then some 0
  else if l.oneCore && !shapesFit 0 0 0 0 sh then some 0
  else if absent.isSome then absent
  else if (List.range Config.clusters).all fun k => s.clusterTakes l k == 0 then some 0
  else if l.flag 2 && decide (min room (s.coopTakes l) < l.count) then some (min room (s.coopTakes l))
  else none

/-- Where a launch with its list read stands at dispatch: the status and DETAIL that refuse it (R324). -/
def State.dispatchFault (s : State) (c : Context) (l : Launch) : Option (Nat × Nat) :=
  if l.places.any fun e => e / 2 ^ 15 != 0 then some (21, 32)
  else
    match s.headerFault c l with
    | some d => some (16, d)
    | none =>
      if l.hdr.nbv != 1 then some (17, l.hdr.nbv)
      else if l.workidBad then some (18, 0)
      else (s.neverPlaced c l).map fun x => (19, x)

/-- Dispatch a resident launch: header, argument block and placement list are read once (R322, R324). -/
def State.dispatch (s : State) (c : Context) (l : Launch) : State :=
  let words := fun va n => (List.range n).map fun k => recField (s.residentBytes c (va + 4 * k) 4) 0 4
  let l := { l with hdr := parseHeader (s.residentBytes c l.image.toNat 256) }
  let l :=
    { l with
      phase := .placing, args := if l.args_ = 0 then [] else (words l.args_ 16).map (BitVec.ofNat 32)
      places := if l.flag 1 then words (l.args_ + 64) l.count else []
      leases := s.leasesOf c l }
  match s.dispatchFault c l with
  | some e => s.finish l.tag e.1 e.2
  | none => s.modLaunch l.tag fun _ => l

/-- LAUNCH_DISPATCH (R324): the head record is checked and made resident; once its conditions hold, it is dispatched. -/
def execLaunchDispatch (queue : Nat) (s : State) : Out :=
  match s.headRecord queue with
  | none => .refused (.notEnabled "LAUNCH_DISPATCH")
  | some l =>
    if l.kind != 1 || s.phase < 5 || !l.failedPages.isEmpty then .refused (.notEnabled "LAUNCH_DISPATCH")
    else
      match launchFault l.bytes, s.context l.ctx with
      | some d, _ => .next (s.finish l.tag 21 d)
      | none, none => .next (s.finish l.tag 20 l.ctx)
      | none, some c =>
        if l.phase == .consumed then (s.makeResident l c).elim (.refused (.notEnabled "LAUNCH_DISPATCH")) .next
        else if s.dispatchReady l then .next (s.dispatch c l)
        else .refused (.notEnabled "LAUNCH_DISPATCH")

/-- Every 4 KiB page of a launch's leases. -/
def Launch.leasePages (l : Launch) : List Nat := pagesOf (l.leases.map fun e => (e.base, e.len))

/-- LEASE_WALK (16 R353): every page of every lease is walked; the launch then holds its leases, or waits for RETRY. -/
def execLeaseWalk (queue index : Nat) (s : State) : Out :=
  match s.launch { queue := queue, index := index } with
  | none => .refused (.notEnabled "LEASE_WALK")
  | some l =>
    match s.context l.ctx with
    | none => .refused (.notEnabled "LEASE_WALK")
    | some c =>
      if l.phase != .placing || l.leased || !l.failedPages.isEmpty || l.leasePages.any (fun va => s.armedPage c va) then
        .refused (.notEnabled "LEASE_WALK")
      else
        let t := s.walkAll c false (l.leasePages.map fun p => (p, false))
        match t.2 with
        | [] => .next (t.1.modLaunch l.tag fun l => { l with leased := true })
        | fs => .next (t.1.failPages l fs)

/-! ### Priority (R326) -/

/-- The effective priority of a queue (log entry 64). -/
def State.effective (s : State) (q : Nat) : Nat := min 7 (s.qPrio q + ((s.waits.get q).map (·.2)).getD 0)

/-- QUEUE_AGING (R326): one more millisecond of waiting has passed (log entry 64). -/
def execQueueAging (queue : Nat) (s : State) : Out :=
  match s.waits.get queue with
  | none => .refused (.notEnabled "QUEUE_AGING")
  | some w =>
    if w.1 < (w.2 + 1) * 1000000 then .refused (.notEnabled "QUEUE_AGING")
    else .next { s with waits := s.waits.put queue (w.1, w.2 + 1) }

end Sys2Proof.Machine
end

