-- ==== Sys2Proof/Machine/Place.lean ====
section
/-!
DEFINITION. Placement of groups (15 R326–R328, R260 of spec 10, R19 of spec 01), the end of packs and groups (R329, 04 R114) with the
release of what they held (R343), and launch completion (R325).
-/

namespace Sys2Proof.Machine

/-! ### Where packs fit (R327) -/

/-- A drain holds the core for another launch that still has groups to place (R333). -/
def State.heldAway (s : State) (t : Tag) (core : Nat) : Bool :=
  match (s.core core).heldFor with
  | none => false
  | some h => h != t && (s.launch h).elim false Launch.wantsPlace

/-- Packs that are not ENDED: an ENDED pack has released its registers, split-table entries and dictionary claim (09 R237). -/
def livePacks (ks : List Pack) : List Pack := ks.filter fun k => k.phase != .ended

/-- The kernels whose dictionaries the packs of a core claim (03 R79) (log entry 34). -/
def State.claims (s : State) (ks : List Pack) : List (Nat × DWord) := (livePacks ks).map fun k => (k.ctx, s.imageOf k)

/-- The kernels whose dictionaries a core would hold with this launch's (03 R79) (log entry 34). -/
def State.kernelsWith (s : State) (core : Nat) (l : Launch) : List (Nat × DWord) :=
  ((l.ctx, l.image) :: s.claims ((s.core core).packs.map (·.2))).eraseDups

/-- Split-table entries that some packs hold or are guaranteed (09 R243). -/
def entriesOf (ks : List Pack) : Nat := ((livePacks ks).map fun k => max 4 k.entries).sum

/-- The core's banks permit a pack of the launch (10 R260). -/
def State.banksPermit (s : State) (core : Nat) (l : Launch) : Bool :=
  let c := s.core core
  c.packs.isEmpty ||
    (((List.range 16).all fun b => c.bank b == (match cut l.hdr.banks (2 * b) 2 with | 0 => .cache | 1 => .pad | _ => .fifo)) &&
      ((c.packs.all fun p => p.2.ctx == l.ctx) || (List.range 16).all fun b => c.bank b == .cache))

/-- Shapes fit on a core beside its packs, of which an ENDED one keeps only its slot (R327, 09 R237). -/
def fitsBeside (ks : List Pack) (sh : List (Nat × Nat × Nat × Nat)) : Bool :=
  let ls := livePacks ks
  shapesFit ks.length (ls.map (·.nv)).sum (ls.map (·.ng)).sum (ls.map (·.na)).sum sh

/-- The core can take packs of these shapes for the launch now (R327); a pack finds its four guaranteed split-table entries free (09
R243) (log entry 87). -/
def State.coreTakes (s : State) (l : Launch) (core : Nat) (sh : List (Nat × Nat × Nat × Nat)) : Bool :=
  let c := s.core core
  let ks := c.packs.map (·.2)
  s.coreUsable (clusterOf core) (core % 128) && !s.heldAway l.tag core && c.switching.isNone &&
    fitsBeside ks sh && decide (entriesOf ks + 4 * sh.length ≤ Config.splitEntries) && decide ((s.kernelsWith core l).length ≤ 4) && s.banksPermit core l &&
    ks.all fun k => (s.header k).det == l.hdr.det

/-- Packs of one shape that a core can take now. -/
def State.takesNow (s : State) (l : Launch) (core : Nat) (sh : Nat × Nat × Nat × Nat) : Nat :=
  ((List.range 17).filter fun n => 1 ≤ n && s.coreTakes l core (List.replicate n sh)).length

/-- Groups of the launch that a cluster can take now. -/
def State.groupsNow (s : State) (l : Launch) (cluster : Nat) : Nat :=
  let cores := (List.range Config.positions).map fun p => 128 * cluster + p
  let sh := l.hdr.shapes
  if l.oneCore then
    (cores.map fun c => ((List.range 17).filter fun m => 1 ≤ m && s.coreTakes l c ((List.replicate m sh).flatten)).length).sum
  else (cores.map fun c => s.takesNow l c (sh.headD (0, 0, 0, 0))).sum / l.hdr.gpacks

/-- A revoke holds the launch from placement (16 R358). -/
def State.revoked (s : State) (l : Launch) : Bool :=
  (s.context l.ctx).elim false fun c => c.holds.any fun h => l.leases.any fun e => overlap e.base e.len h.1 h.2

/-- The groups of a COOP launch that are placed together: all of them, or those that a flush has returned (R327, R333). -/
def Launch.together (l : Launch) : List Nat := if l.next = 0 then List.range l.count else sortNats l.returned

/-- The clusters where groups of a launch stand. -/
def Launch.clusters (l : Launch) : List Nat := ((l.groups.filter fun g => !g.2.packs.isEmpty).map fun g => g.2.cluster).eraseDups

/-- With some clusters more, the groups of a COOP launch stay within two clusters (R327). -/
def Launch.twoClusters (l : Launch) (cs : List Nat) : Bool := decide ((l.clusters ++ cs).eraseDups.length ≤ 2)

/-- Groups of a COOP launch that two clusters can take now, those where it stands among them. -/
def State.pairTakes (s : State) (l : Launch) (at_ : List Nat) : Nat :=
  match l.clusters with
  | [] => topTwo (at_.map fun k => s.groupsNow l k)
  | [a] => s.groupsNow l a + ((at_.filter (· != a)).map fun k => s.groupsNow l k).foldl max 0
  | cs => (cs.map fun k => s.groupsNow l k).sum

/-- The launch has a group ready that a placement could take now: `at_` narrows it to one cluster (R326, R327). -/
def State.placeable (s : State) (l : Launch) (at_ : List Nat) : Bool :=
  l.phase == .placing && l.leased && l.savedGroups.isEmpty && !s.revoked l &&
    match l.unplaced, s.context l.ctx with
    | some x, some c =>
      let xs := if l.flag 2 then l.together else [x]
      let need := xs.length * l.hdr.gpacks * l.hdr.spillGranules
      (need == 0 || (decide (need ≤ c.freeGranules) && s.poolTurn c none)) &&
        (if l.flag 1 then
          let ps := xs.map fun x => placeOf (l.places.getD x 0)
          (!l.flag 2 || l.twoClusters (ps.map (·.1))) && ps.all fun p => at_.contains p.1 && s.coreTakes l (128 * p.1 + p.2) (List.replicate (ps.count p) l.hdr.shapes).flatten
        else if l.flag 2 then decide (xs.length ≤ s.pairTakes l at_)
        else at_.any fun k => decide (1 ≤ s.groupsNow l k))
    | _, _ => false

/-- A saved pack's group may stand on a core: the core its placement-list entry names, and for a COOP launch one of two clusters (R327). -/
def Launch.standsAt (l : Launch) (x core : Nat) : Bool :=
  (!l.flag 1 || core == 128 * (placeOf (l.places.getD x 0)).1 + (placeOf (l.places.getD x 0)).2) &&
    (!l.flag 2 || l.twoClusters [clusterOf core])

/-- A saved core block may go to a core: one that meets R327 for all its packs, with their slots free (R337) (log entry 35). -/
def State.blockFits (s : State) (core : Nat) (b : Core) : Bool :=
  let c := s.core core
  let ks := c.packs.map (·.2)
  let bs := b.packs.map (·.2)
  let all := ks ++ bs
  s.coreUsable (clusterOf core) (core % 128) && c.switching.isNone && (b.packs.all fun p => (Table.get c.packs p.1).isNone) &&
    fitsBeside ks ((livePacks bs).map fun k => (0, k.nv, k.ng, k.na)) && decide (all.length ≤ 16) && decide (entriesOf all ≤ Config.splitEntries) &&
    decide ((s.claims all).eraseDups.length ≤ 4) &&
    (c.packs.isEmpty || (((List.range 16).all fun n => c.bank n == b.bank n) &&
      ((all.all fun k => (bs.head?).any fun o => k.ctx == o.ctx) || (List.range 16).all fun n => c.bank n == .cache))) &&
    (all.all fun k => (bs.head?).any fun o => (s.header k).det == (s.header o).det) &&
    bs.all fun k => (s.launch k.tag).elim false fun l => l.leased && l.phase == .placing && !s.revoked l && !s.heldAway k.tag core && l.standsAt k.group core

/-- Each block has a core of its own among these. -/
def State.fitBlocks (s : State) : List Core → List Nat → Bool
  | [], _ => true
  | b :: rest, cores => cores.any fun c => s.blockFits c b && s.fitBlocks rest (cores.filter (· != c))

/-- A closure could be placed again now on one of these clusters (R337). -/
def State.restorable (s : State) (v : Save) (at_ : List Nat) : Bool :=
  at_.any fun k => s.fitBlocks (v.cores.map (·.2)) ((List.range Config.positions).map fun p => 128 * k + p)

/-- Every save record. -/
def State.allSaves (s : State) : List Save := s.contexts.flatMap fun c => c.2.saves

/-- The launch has a group, saved or not yet placed, that could be placed now (R324, R326, R337). -/
def State.canPlace (s : State) (l : Launch) : Bool :=
  let ks := List.range Config.clusters
  s.placeable l ks || s.allSaves.any fun v => (v.groups.any fun g => g.1 == l.tag) && s.restorable v ks

/-- The queues with a group placeable now, in ascending order; those of a closure that could be placed again among them (R324, R337). -/
def State.readyQueues (s : State) : List Nat := sortNats ((s.launches.filter s.canPlace).map fun l => l.tag.queue)

/-- The queue the distributor serves next: the highest effective priority, in rotation among equals (R326). -/
def State.chosenQueue (s : State) : Option Nat :=
  let qs := s.readyQueues
  let e := (qs.map s.effective).foldl max 0
  let same := qs.filter fun q => s.effective q == e
  match s.served.get e with
  | none => same.head?
  | some last => (same.find? fun q => decide (last < q)).or same.head?

/-! ### Placing (R19, R322, R323) -/

/-- Scratchpad and FIFO banks, copy write pointers and counts are zeroed, and L1 lines go (R343). -/
def Core.zeroed (c : Core) : Core :=
  let bs := (List.range 16).filter fun b => c.bank b != .cache
  { c with
    sram := bs.foldl (fun m b => m.clear (65536 * b) (65536 * (b + 1))) c.sram
    fifos := [], cwp := [], copySeq := [], l1 := [] }

/-- A core's banks pass to a new context (R343). -/
def Core.passTo (c : Core) (ctx : Nat) : Core := if c.owner = some ctx then c else { c.zeroed with owner := some ctx }

/-- What a context that is destroyed owned on a core is zeroed (R343). -/
def Core.disown (c : Core) (ctx : Nat) : Core :=
  let c := { c with dicts := c.dicts.filter fun d => d.ctx != ctx }
  if c.owner = some ctx then { c.zeroed with owner := none } else c

/-- A core that holds no pack takes the kernel's bank modes (10 R260). -/
def Core.adopt (c : Core) (banks : Nat) : Core :=
  if c.packs.isEmpty then
    (List.range 16).foldl (fun c b => c.setBank b (match cut banks (2 * b) 2 with | 0 => .cache | 1 => .pad | _ => .fifo)) c
  else c

/-- The lowest free slot of a core (log entry 34). -/
def Core.freeSlot (c : Core) : Nat := freshFrom (c.packs.map (·.1)) 16

/-- The dictionary of a launch's kernel as its image holds it (03 R79). -/
def State.readDict (s : State) (c : Context) (l : Launch) : Dict :=
  let word := fun i => BitVec.ofNat 32 (recField (s.residentBytes c (l.image.toNat + l.hdr.dictOff + 4 * i) 4) 0 4)
  { ctx := l.ctx, image := l.image, count := l.hdr.dictCount
    words := (List.range l.hdr.dictCount).foldl (fun w i => Words.set w i (word i)) [] }

/-- The core holds the dictionary of the launch's kernel (03 R79). -/
def Core.loadDict (c : Core) (d : Dict) : Core :=
  if d.count = 0 || c.dicts.any (fun e => e.ctx == d.ctx && e.image == d.image) then c else { c with dicts := c.dicts ++ [d] }

/-- A pack at placement (01 R19, 09 R237, R256, 15 R322, R328); RM 5–7 of the header's FPCTL gives RM 0, as a write of `sr.fpctl` does (log
entry 84). -/
def Launch.newPack (l : Launch) (x lpack : Nat) (sh : Nat × Nat × Nat × Nat) (spillAt : Nat) : Pack :=
  let entry := if l.hdr.hasRoles then (l.hdr.roles.getD sh.1 (0, 0, 0, 0, 0)).2.2.2.2 else l.hdr.entry
  { ctx := l.ctx, tag := l.tag, group := x, lpack := lpack, role := if l.hdr.hasRoles then sh.1 + 1 else 0, slices := l.hdr.slices, nv := sh.2.1, ng := sh.2.2.1, na := sh.2.2.2
    g := ((l.args.take (min 16 sh.2.2.1)).zipIdx).foldl (fun g p => Words.set g p.2 p.1) []
    fpctl := writeFpctl 0 (BitVec.ofNat 32 l.hdr.fpctl), wlhold := if l.flag 4 then 1 else 0, spillAt := spillAt, wid := l.groupBase x
    splits := [(0, { id := 0, pc := BitVec.ofNat 32 entry, mask := presentMask l.hdr.slices, reconv := 0xFFFFFFFF, parent := none })]
    order := [0] }

/-- Bind one pack of a group to a core: its slot, where the pool has room for its spill area (R327). -/
def State.placePack (s : State) (l : Launch) (x lpack core : Nat) (sh : Nat × Nat × Nat × Nat) : Option (State × Nat) :=
  match s.context l.ctx with
  | none => none
  | some c =>
    match s.carve l.ctx l.hdr.spillGranules with
    | none => none
    | some (a, c') =>
      let k := (((s.core core).passTo l.ctx).adopt l.hdr.banks).loadDict (s.readDict c l)
      let slot := k.freeSlot
      let p := l.newPack x lpack sh (c.pool + 4096 * a)
      let k := { k with packs := k.packs.put slot p, heldFor := if k.heldFor = some l.tag then none else k.heldFor }
      some (((s.setContext c').setCore core k).voidPromises core, slot)

/-- Bind the packs of a group in logical order to the cores given: each must take its pack as it comes (R327) (log entry 34). -/
def State.placePacks (s : State) (l : Launch) (x : Nat) :
    List ((Nat × Nat × Nat × Nat) × Nat) → (lpack : Nat) → Option (State × List (Nat × Nat))
  | [], _ => some (s, [])
  | (sh, core) :: rest, n =>
    if !s.coreTakes l core [sh] then none
    else
      match s.placePack l x n core sh with
      | none => none
      | some (t, slot) => (t.placePacks l x rest (n + 1)).map fun r => (r.1, (core, slot) :: r.2)

/-- The placement puts the group where it must go: whole in a cluster, on one core where it must, on the core its entry names. -/
def Launch.placesRight (l : Launch) (x : Nat) (cores : List Nat) : Bool :=
  match cores with
  | [] => false
  | c :: rest =>
    (rest.all fun d => clusterOf d == clusterOf c && (!l.oneCore || d == c)) && cores.length == l.hdr.gpacks &&
      (!l.flag 1 || c == 128 * (placeOf (l.places.getD x 0)).1 + (placeOf (l.places.getD x 0)).2)

/-- Place a group on cores (R327). -/
def State.placeGroup (s : State) (l : Launch) (x : Nat) (cores : List Nat) : Option State :=
  if !l.placesRight x cores then none
  else
    match s.placePacks l x (l.hdr.shapes.zip cores) 0 with
    | none => none
    | some (t, ps) =>
      let g : Group := { x := x, cluster := clusterOf (cores.headD 0), packs := ps, since := s.now, serial := s.clock }
      some { t.modLaunch l.tag fun l => { l.take x with groups := l.groups.put x g } with clock := t.clock + 1 }

/-- Place some groups of a COOP launch at once: `cores` lists those of each group in turn (R327). -/
def State.placeAll (s : State) (l : Launch) : (xs cores : List Nat) → Option State
  | [], _ => some s
  | x :: rest, cores =>
    match s.placeGroup l x (cores.take l.hdr.gpacks) with
    | none => none
    | some t => t.placeAll l rest (cores.drop l.hdr.gpacks)

/-- A group of the queue is placed: its waiting starts anew (R326). -/
def State.placedFrom (s : State) (q : Nat) : State := { s with waits := s.waits.del q }

/-- The queue has been served at its effective priority (R326). -/
def State.servedQueue (s : State) (q : Nat) : State := ({ s with served := s.served.put (s.effective q) q } : State).placedFrom q

/-- A group of the context is placed: its dormant reservations wake, and one whose EXPIRY has passed, released there, is requested anew
(R342); its chunks start after the last completed one, and planes that are live again take their turns back (19 R407, R408) (log entry 38). -/
def State.wakeResvs (s : State) (ctx : Nat) : State :=
  ({ s with
    resvs := s.resvs.map fun e => if e.2.ctx == ctx && !e.2.awake then (e.1, e.2.restart) else e } : State).resumeTurns

/-- GROUP_PLACEMENT (R327): `positions` are those of the packs in logical order; a position of 128 or more lies in a later cluster,
and a COOP launch names the packs of every group to be placed in turn (log entry 34). -/
def execGroupPlacement (queue index group cluster : Nat) (positions : List Nat) (s : State) : Out :=
  match s.launch { queue := queue, index := index } with
  | none => .refused (.notEnabled "GROUP_PLACEMENT")
  | some l =>
    let cores := positions.map fun p => 128 * cluster + p
    let ready := s.phase == 5 && s.placeable l (List.range Config.clusters) && l.unplaced == some group && s.chosenQueue == some queue
    let done := if l.flag 2 then
        if l.twoClusters (cores.map clusterOf) then s.placeAll l l.together cores else none
      else s.placeGroup l group cores
    match if ready then done else none with
    | none => .refused (.notEnabled "GROUP_PLACEMENT")
    | some t => .next ((t.servedQueue queue).wakeResvs l.ctx)

/-! ### Release (R329, R343) -/

/-- The pack leaves its core: its registers, table entries, latch slot, holds and dictionary claim go with it. -/
def Core.drop (c : Core) (slot : Nat) (keepsDict : Bool) (d : Nat × DWord) : Core :=
  { c with
    packs := c.packs.del slot
    detCur := c.detCur.filter (· != slot)
    latch := c.latch.filter fun a => a.slot != slot
    dicts := if keepsDict then c.dicts else c.dicts.filter fun e => (e.ctx, e.image) != d }

/-- Release a pack: it leaves its core, and its spill area returns to the pool (R316, R343). -/
def State.releasePack (s : State) (core slot : Nat) : State :=
  match s.pack core slot with
  | none => s
  | some k =>
    let d := (k.ctx, s.imageOf k)
    let others := (s.claims (((s.core core).packs.filter fun p => p.1 != slot).map (·.2))).contains d
    let spill := (s.header k).spillGranules
    let s := (s.setCore core ((s.core core).drop slot others d)).dropLists fun p => p.core == core && p.slot == slot
    let s := s.modContext k.ctx fun c => (if spill = 0 then c else c.freeSpill k.spillAt).forgetAsks core slot
    s.modGroup k.tag k.group fun g => { g with packs := g.packs.filter (· != (core, slot)) }

/-- Every pack of a group has ended, and no payload of one is in flight (R329, 11 R282). -/
def State.groupOver (s : State) (t : Tag) (g : Group) : Bool :=
  ((s.groupPacks g).all fun p => p.2.2.reaped) && !g.packs.isEmpty && !s.inflight.any fun b => b.tag == t && b.group == g.x

/-- A group completes when its last pack has ended and its flush is done: its writes are lane-visible, and its cores are released (R329, 11
R282, R285). That of a task that has ended only leaves its cores (log entry 79). -/
def State.groupEnd (s : State) (t : Tag) (x : Nat) : State :=
  match s.group t x with
  | none => s
  | some g =>
    if !s.groupOver t g then s
    else
      let s := if g.ended then s
        else
          (((s.lastFlush t x).reveal fun _ w => w.tag == t && w.group == x).modGroup t x fun g =>
            { g with ended := true, victim := none }).modLaunch t fun l => { l with completed := l.completed + 1 }
      g.packs.foldl (fun s p => s.releasePack p.1 p.2) s

/-- The leases of a launch with no group placed or granted lapse (16 R353). -/
def State.lapse (s : State) (t : Tag) : State :=
  s.modLaunch t fun l =>
    if l.groups.all fun g => g.2.packs.isEmpty then { l with leased := l.leased && l.savedGroups.isEmpty } else l

/-- Commands KIND 3 that wait are done once no placed group holds a lease over their range (16 R358). -/
def State.settleRevokes (s : State) : State :=
  [0, 1].foldl (fun s complex =>
    if s.cmdStatus.getD complex 0 == 1 && s.cmd complex 0 1 == 3 then
      let ctx := s.cmd complex 4 4
      let open_ := s.launches.any fun l =>
        l.ctx == ctx && (l.groups.any fun g => !g.2.packs.isEmpty) &&
          l.leases.any fun e => overlap e.base e.len (s.cmd complex 8 8) (s.cmd complex 16 8)
      if open_ then s else s.cmdDone complex 2
    else s) s

/-- A pack is ENDED on its core: it holds nothing but its place, and its dictionary claim goes (09 R237). -/
def State.reap (s : State) (core slot : Nat) (k : Pack) : State :=
  let s := s.setPack core slot { k.finish with reaped := true, granted := [] }
  let c := s.core core
  let d := (k.ctx, s.imageOf k)
  if (s.claims (c.packs.map (·.2))).contains d then s
  else s.setCore core { c with dicts := c.dicts.filter fun e => (e.ctx, e.image) != d }

/-- PACK_END (04 R114, 09 R237): every lane has exited and the four counters are zero. Joints that name the pack fail (07 R191), and
the groups it fetched complete with it (R330) (log entries 39, 79). -/
def execPackEnd (core slot : Nat) (s : State) : Out :=
  match s.pack core slot with
  | none => .refused (.notEnabled "PACK_END")
  | some k =>
    if k.remaining != 0 || !k.drained || k.reaped then .refused (.notEnabled "PACK_END")
    else
      let s := (s.reap core slot k).orphanJoints core slot
      let s := s.modLaunch k.tag fun l => { l with completed := l.completed + k.granted.length }
      .next (s.groupEnd k.tag k.group).settleRevokes

/-! ### Completion (R325) -/

/-- LAUNCH_COMPLETION (R325): every group has completed; its writes are performed and lane-visible (11 R282), COMPLETE is written
and SIGTOK released. -/
def execLaunchCompletion (queue index : Nat) (s : State) : Out :=
  match s.launch { queue := queue, index := index } with
  | none => .refused (.notEnabled "LAUNCH_COMPLETION")
  | some l =>
    let busy := s.inflight.any fun p => p.tag == l.tag
    if l.phase != .placing || !l.allOut || l.completed < l.count || busy then .refused (.notEnabled "LAUNCH_COMPLETION")
    else
      let s := (s.reveal fun _ w => w.tag == l.tag).finish l.tag 1 0
      .next (if l.sigTok = 0 then s
        else s.outsideWrite l.sigPa (bytesLE 8 ((s.mem.readLE l.sigPa 4 + 1) % 2 ^ 32 + 3 * 2 ^ 62)))

end Sys2Proof.Machine
end

