-- ==== Sys2Proof/Machine/Broadcast.lean ====
section
/-!
DEFINITION. Reader filters and broadcast payloads (10 R266–R269, 11 R289), and the frames of the Sett that carry them (19 R395, R396).
-/

namespace Sys2Proof.Machine

/-! ### The device window's masked bytes (00 R8, R9) -/

/-- Write window bytes through a mask of the writable bits of each: a reserved or read-only bit keeps its value. -/
def State.setWinMasked (s : State) (off : Nat) (mask : Nat → Byte) : (size v : Nat) → State
  | 0, _ => s
  | n + 1, v =>
    let m := mask off
    let b := (s.window.get off &&& ~~~m) ||| (BitVec.ofNat 8 v &&& m)
    ({ s with window := s.window.set off b } : State).setWinMasked (off + 1) mask n (v / 256)

/-! ### Reader filters (10 R267) -/

/-- The window offset of a cluster's filter entry for a multicast group (16 R356). -/
def filterAt (cluster mgroup : Nat) : Nat := 0x1000000 + 0x2000 * cluster + 32 * mgroup

/-- A reader filter entry (10 R267). -/
structure Filter where
  mode : Nat
  bank : Nat
  slots : Nat
  ring : Nat
  cores : List Nat
  deriving DecidableEq, Repr

/-- A cluster's entry for a multicast group, as its window bytes hold it. RING's low seven bits are ignored. -/
def State.filter (s : State) (cluster mgroup : Nat) : Filter :=
  let a := filterAt cluster mgroup
  let cores := s.win (a + 16) 16
  { mode := cut (s.win a 1) 0 2, bank := cut (s.win a 1) 2 4, slots := s.win (a + 2) 2, ring := s.win (a + 8) 8 / 128 * 128
    cores := (List.range 128).filter fun n => bit cores n }

/-- The writable bits of byte `k` of a filter entry (10 R267). -/
def filterMask (k : Nat) : Byte :=
  if k = 0 then 0x3F else if k = 1 || (decide (4 ≤ k) && decide (k < 8)) then 0 else 0xFF

/-- Write an entry: reserved fields and DROPS are kept, but DROPS is zeroed by a write that covers MODE's byte. -/
def State.writeFilter (s : State) (off size v : Nat) : State :=
  let s := s.setWinMasked off (fun o => filterMask (o % 32)) size v
  if off % 32 = 0 then s.setWin (off + 4) 4 0 else s

/-- FILTER_ENTRY_WRITE (10 R267, 16 R356): an access that is not 4 or 8 bytes, naturally aligned, has no effect. -/
def execFilterEntryWrite (cluster mgroup byte size value : Nat) (s : State) : Out :=
  if Config.clusters ≤ cluster || 256 ≤ mgroup || 32 < byte + size then .refused (.notEnabled "FILTER_ENTRY_WRITE")
  else if (size = 4 || size = 8) && byte % size = 0 then .next (s.writeFilter (filterAt cluster mgroup + byte) size value)
  else .next s

/-- ARRIVED and CONSUMED of a ring (10 R269). -/
def State.ringArrived (s : State) (ring : Nat) : Nat := s.mem.readLE ring 8
def State.ringConsumed (s : State) (ring : Nat) : Nat := s.mem.readLE (ring + 8) 8

/-- Slots of a ring that hold payloads; a CONSUMED out of range counts as too many, which halts the ring (10 R269). -/
def State.ringHeld (s : State) (f : Filter) : Nat := (s.ringArrived f.ring + 2 ^ 64 - s.ringConsumed f.ring) % 2 ^ 64

/-- The ring can take a payload beside `n` that are to come before it (log entry 57). -/
def State.ringRoom (s : State) (f : Filter) (n : Nat) : Bool :=
  inDevice f.ring (128 + 128 * f.slots) && decide (s.ringHeld f + n < f.slots)

/-! ### Emission (10 R268) -/

/-- Payloads on their way that hold a granted slot of a cluster's ring. -/
def State.ringGranted (s : State) (cluster mgroup : Nat) : Nat :=
  (s.inflight.filter fun p => p.mgroup == mgroup && p.rings.contains cluster && p.late.elim true fun l => l.contains cluster).length

/-- The cores of a MODE 1 entry whose bank is in FIFO mode. -/
def State.fifoCores (s : State) (cluster : Nat) (f : Filter) : List Nat :=
  (f.cores.map fun n => 128 * cluster + n).filter fun c => (s.core c).bank f.bank == .fifo

/-- A cluster has room for a payload of the group, or needs none (10 R268). -/
def State.grants (s : State) (cluster mgroup : Nat) : Bool :=
  let f := s.filter cluster mgroup
  if f.mode = 1 then (s.fifoCores cluster f).all fun c => !((s.core c).fifo f.bank).full
  else if f.mode = 2 && f.slots != 0 then s.ringRoom f (s.ringGranted cluster mgroup)
  else true

/-- The FIFO entries that a payload of the group is promised. -/
def State.promises (s : State) (mgroup : Nat) : List (Nat × Nat) :=
  (List.range Config.clusters).flatMap fun cl =>
    let f := s.filter cl mgroup
    if f.mode = 1 then (s.fifoCores cl f).map fun c => (c, f.bank) else []

/-- The clusters whose rings hold a slot for a payload of the group. -/
def State.ringClusters (s : State) (mgroup : Nat) : List Nat :=
  (List.range Config.clusters).filter fun cl =>
    let f := s.filter cl mgroup
    f.mode == 2 && f.slots != 0

/-- One more or one fewer promise at a bank. -/
def State.modPromise (s : State) (c b : Nat) (f : Nat → Nat) : State :=
  let k := s.core c
  let q := k.fifo b
  s.setCore c (k.setFifo b { q with promised := f q.promised })

/-- The participants on a bus whose STATE permits them a slot of their own (19 R398). -/
def Link.sound (l : Link) : Bool := decide (l.state < 2)

/-- The relay partner of a participant on a bus (19 R398): the lowest-indexed sound one of its own field, else of the fields after
it. Those that qualify only ever grow fewer, so choosing afresh each time chooses again just when the partner is lost. -/
def State.relayPartner (s : State) (bus participant : Nat) : Option Nat :=
  let f := if participant = 160 then 18 else if participant = 161 then 21 else participant / 4
  let order := (List.range 40).flatMap fun n => (List.range 4).map fun q => 4 * ((f + n) % 40) + q
  order.find? fun p => (s.link p bus).sound

/-- The participant moves to a spare group and emits nothing: from the failure's frame F to frame F + 3 (19 R397). -/
def Link.silent (l : Link) (frame : Nat) : Bool := l.announce != 0 && decide (frame < l.announce + 3)

/-- A participant's payload may take this frame's slot, and whose slot it is: its own, or its partner's every fourth frame (19 R398). -/
def State.slotOwner (s : State) (bus participant frame : Nat) : Option Nat :=
  let l := s.link participant bus
  if frame < l.resume then none
  else if l.state = 2 then
    if frame % 4 = 0 then (s.relayPartner bus participant).filter fun p => !(s.link p bus).silent frame else none
  else if l.state = 3 then none
  else if frame % 4 = 0 && (List.range 162).any fun p => (s.link p bus).state == 2 && s.relayPartner bus p == some participant then none
  else some participant

/-- The payloads that stand in a participant's slot of a frame. -/
def State.inSlot (s : State) (bus owner frame : Nat) : List Payload :=
  s.inflight.filter fun p => p.bus == bus && p.participant == owner && p.frame == frame && p.late.isNone

/-- The slot has a data cell free for a cluster: three cells, all of one sender (19 R394). -/
def State.slotFree (s : State) (bus owner frame cluster : Nat) : Bool :=
  let ps := s.inSlot bus owner frame
  decide (ps.length < 3) && ps.all fun p => clusterOf p.core == cluster

/-- An earlier broadcast store of the pack to the group is still to be emitted (10 R268), or one to any group that was saved with the pack:
those go first (15 R341, R344). -/
def Pack.bstAhead (k : Pack) (o : PendOp) (mgroup : Nat) : Bool :=
  (k.ops.takeWhile fun p => p.id != o.id).any fun p => !p.done && match p.kind with
    | .bst m .. => m == mgroup || p.again
    | _ => false

/-- BST_EMISSION (10 R268): every accepting cluster has granted room, and this frame's slot has a cell for it. The entries and ring
slots granted are held for the payload, and the `bst` completes (06 R169). -/
def execBstEmission (core slot op : Nat) (s : State) : Out :=
  withOp "BST_EMISSION" s core slot op fun k o =>
    match o.kind with
    | .bst mgroup _ lanes vals =>
      let bus := mgroup % 8
      match s.slotOwner bus (clusterOf core) s.frame with
      | none => none
      | some owner =>
        if o.done || k.bstAhead o mgroup || !(List.range Config.clusters).all (fun cl => s.grants cl mgroup) ||
            !s.slotFree bus owner s.frame (clusterOf core) then none
        else
          let p : Payload :=
            { bus := bus, mgroup := mgroup, lanes := lanes, vals := vals, frame := s.frame, participant := owner, core := core
              slot := slot, tag := k.tag, group := k.group, lpack := k.lpack, promised := s.promises mgroup, rings := s.ringClusters mgroup
              serial := s.clock }
          let s := p.promised.foldl (fun s e => s.modPromise e.1 e.2 (· + 1)) s
          some (({ s with inflight := s.inflight ++ [p], clock := s.clock + 1 } : State).setPack core slot (k.setOp { o with done := true }))
    | _ => none

/-! ### Delivery (10 R268, R269; 19 R395) -/

/-- The place of a payload in its bus's order: its frame, then its participant's place in the frame's rotation (19 R395). -/
def Payload.place (p : Payload) : Nat := 162 * p.frame + (p.participant + 162 - p.frame % 162) % 162

/-- A payload enters one receiving core, or is dropped there (10 R268). -/
def State.intoFifo (s : State) (p : Payload) (cluster : Nat) (b c : Nat) : State :=
  let k := s.core c
  let f := k.fifo b
  let held := p.promised.contains (c, b) && decide (0 < f.promised)
  if k.bank b == .fifo && (held || !f.full) then
    s.setCore c (k.setFifo b ({ f with promised := if held then f.promised - 1 else f.promised }.push p.vals))
  else
    let a := filterAt cluster p.mgroup + 4
    s.setWin a 4 (s.win a 4 + 1)

/-- A payload enters a ring: the active lanes' bytes of its slot, then ARRIVED (10 R268, R269). -/
def State.intoRing (s : State) (p : Payload) (cluster : Nat) (f : Filter) : State :=
  let n := s.ringArrived f.ring
  let at_ := f.ring + 128 + 128 * (n % f.slots)
  let s := (lanesOf p.lanes).foldl (fun s i => s.unitWrite cluster (at_ + 4 * i) (bytesLE 4 (Words.get p.vals i).toNat)) s
  s.unitWrite cluster f.ring (bytesLE 8 (n + 1))

/-- A payload can be applied at a cluster now: only a ring without room holds it up (10 R269). -/
def State.canApply (s : State) (p : Payload) (cluster : Nat) : Bool :=
  let f := s.filter cluster p.mgroup
  f.mode != 2 || f.slots == 0 || s.ringRoom f 0

/-- Apply a payload at a cluster by the entry that stands there now (10 R267). Promises held at cores that the entry no longer names lapse. -/
def State.applyAt (s : State) (p : Payload) (cluster : Nat) : State :=
  let f := s.filter cluster p.mgroup
  let cores := if f.mode = 1 then f.cores.map fun n => 128 * cluster + n else []
  let s := (p.promised.filter fun e => clusterOf e.1 == cluster && !(cores.contains e.1 && e.2 == f.bank)).foldl
    (fun s e => s.modPromise e.1 e.2 (· - 1)) s
  if f.mode = 1 then cores.foldl (fun s c => s.intoFifo p cluster f.bank c) s
  else if f.mode = 2 && f.slots != 0 then s.intoRing p cluster f
  else s

/-- The clusters at which a payload is still to be applied. -/
def Payload.waiting (p : Payload) : List Nat := p.late.getD (List.range Config.clusters)

/-- The next payload of a bus, in its order, that has come to the end of frame n + 2 and can be applied somewhere (19 R395). -/
def State.nextPayload (s : State) (bus : Nat) : Option Payload :=
  (sortBy Payload.place (s.inflight.filter fun p => p.bus == bus && decide (p.frame + 2 < s.frame))).find? fun p =>
    p.late.isNone || p.waiting.any fun c => s.canApply p c

/-- An earlier payload of the group still waits at a cluster, which keeps the group's order there (10 R268) (log entry 57). -/
def State.behindAt (s : State) (p : Payload) (cluster : Nat) : Bool :=
  s.inflight.any fun q => q.mgroup == p.mgroup && q.serial != p.serial && (q.late.elim false fun l => l.contains cluster) && decide (q.place ≤ p.place)

/-- BROADCAST_DELIVERY (10 R268): the next payload is applied at every cluster whose ring does not hold it up. A group whose packs have
ended completes once its last is applied (11 R282, R289, 15 R329). -/
def execBroadcastDelivery (bus : Nat) (s : State) : Out :=
  match s.nextPayload bus with
  | none => .refused (.notEnabled "BROADCAST_DELIVERY")
  | some p =>
    let go := p.waiting.filter fun c => s.canApply p c && !s.behindAt p c
    let rest := p.waiting.filter fun c => !go.contains c
    let s := go.foldl (fun s c => s.applyAt p c) s
    let s : State := { s with inflight := s.inflight.flatMap fun q =>
      if q.serial = p.serial then (if rest.isEmpty then [] else [{ p with late := some rest }]) else [q] }
    .next (s.groupEnd p.tag p.group).settleRevokes

/-! ### Frames and vetoes (19 R395, R396) -/

/-- The first frame from `n` on whose slot has room for a sender's payload. -/
def State.nextSlot (s : State) (bus cluster n : Nat) : Option (Nat × Nat) :=
  (firstFrom (fun f => (s.slotOwner bus cluster f).elim false fun o => s.slotFree bus o f cluster) n 1024).bind fun f =>
    (s.slotOwner bus cluster f).map fun o => (f, o)

/-- Emit a payload again in its sender's next slot. -/
def State.reslot (s : State) (p : Payload) (n : Nat) : State :=
  match s.nextSlot p.bus (clusterOf p.core) n with
  | none => s
  | some (f, o) => { s with inflight := s.inflight.map fun q => if q.serial = p.serial then { p with frame := f, participant := o } else q }

/-- The slot of a participant on a bus in frame `f` is discarded; its payloads, and those its pack sent to the group after them, go into
the sender's next slots in their order (19 R396, 06 R169) (log entry 57). -/
def State.veto (s : State) (f bus participant : Nat) : State :=
  let lost := s.inflight.filter fun p => p.bus == bus && p.participant == participant && p.frame == f && p.late.isNone
  let after := s.inflight.filter fun p =>
    p.bus == bus && p.late.isNone && decide (f < p.frame) &&
      lost.any fun q => q.tag == p.tag && q.group == p.group && q.lpack == p.lpack && q.mgroup == p.mgroup
  (lost ++ after).foldl (fun s p => s.reslot p (s.frame + 1)) s

/-- The compute or host field of a participant, and its cluster (10 R264). -/
def participantField (p : Nat) : Nat := if p < 160 then p / 4 else p - 120
def participantCluster (p : Nat) : Nat := if p < 160 then p else 255

/-- A Sett report: UNIT holds the bus, waveguide and group of the participant's link (18 R385) (log entry 50). -/
def State.settError (s : State) (cls severity bus participant : Nat) (spared replaced : Bool) : ErrorReport :=
  let l := s.link participant bus
  { plainError cls severity (bus + l.wg * 8 + l.group * 32) with
    field := participantField participant, cluster := participantCluster participant, spared := spared, replaced := replaced }

/-- A link after one more frame: the consecutive frames whose slot was bad by its own readback, and by three or more vetoes (19 R397). -/
def Link.watch (l : Link) (r : Option SlotReport) : Link :=
  { l with
    unread := if r.any (·.unread) then l.unread + 1 else 0
    vetoed := if r.any fun r => decide (3 ≤ r.vetoes) then l.vetoed + 1 else 0 }

/-- Every participant's ring on every bus is watched (19 R397). -/
def State.watchRings (s : State) (bad : List SlotReport) : State :=
  { s with links := s.links.map fun e => (e.1, e.2.watch (bad.find? fun r => 8 * r.participant + r.bus == e.1)) }

/-- SETT_FRAME (19 R395, R396): a frame ends. `bad` lists the slots of the frame before it that its header cells veto or that read back
uncorrectable; each veto is counted in a CLASS 14 record. -/
def execSettFrame (bad : List SlotReport) (s : State) : Out :=
  if s.frame = 0 && !bad.isEmpty then .refused (.notEnabled "SETT_FRAME")
  else
    let vetoed := bad.filter fun r => r.vetoes != 0
    let s := vetoed.foldl (fun s r =>
      ((s.veto (s.frame - 1) r.bus r.participant).reportError (s.settError 14 0 r.bus r.participant false false)).1) (s.watchRings bad)
    .next { s with frame := s.frame + 1 }

end Sys2Proof.Machine
end

