-- ==== Sys2Proof/Machine/Rings.lean ====
section
/-!
DEFINITION. Ring failures on the Sett: spare groups and relay (19 R397, R398; 10 R270, R271).
-/

namespace Sys2Proof.Machine

/-- The map in force disables a participant's ring for a group of a bus: transmit (`rx` false) or receive (18 R385, R386). -/
def State.ringDead (s : State) (bus wg group participant : Nat) (rx : Bool) : Bool :=
  s.maps.force.any fun u =>
    u.kind == 4 && cut u.loc 0 3 == bus && cut u.loc 3 2 == wg && cut u.loc 5 6 == group && cut u.loc 11 8 == participant && bit u.loc 19 == rx

/-- The spare groups of a waveguide that no participant has taken: group 41, and on waveguides 2 and 3 then group 40 (10 R271). -/
def State.sparesOf (s : State) (bus wg : Nat) : List Nat := s.spareGroups.getD (4 * bus + wg) []

/-- The spare group that a participant takes next: the first free one whose ring it has (10 R271, 18 R386). -/
def State.nextSpare (s : State) (bus wg participant : Nat) : Option Nat :=
  (s.sparesOf bus wg).find? fun g => !s.ringDead bus wg g participant false

/-- A spare group is taken. -/
def State.takeSpare (s : State) (bus wg group : Nat) : State :=
  { s with spareGroups := s.spareGroups.put (4 * bus + wg) ((s.sparesOf bus wg).filter (· != group)) }

/-- Replace a participant's link on a bus. -/
def State.setLink (s : State) (participant bus : Nat) (l : Link) : State := { s with links := s.links.put (8 * participant + bus) l }

/-- The payloads of a participant's unconfirmed slots on a bus, in their order: those of the three frames before this one and of this one, with the
slots that a veto has put off to a later frame (19 R396, R397). -/
def State.unconfirmed (s : State) (bus participant : Nat) : List Payload :=
  sortBy Payload.place (s.inflight.filter fun p =>
    p.bus == bus && p.participant == participant && p.late.isNone && decide (s.frame ≤ p.frame + 3))

/-- The frames of some payloads, each once, in order. -/
def framesOf (ps : List Payload) : List Nat := sortNats (ps.map (·.frame))

/-- The first frame from `n` on in which a sender's cluster has a whole slot on a bus, and whose slot it is. -/
def State.emptySlot (s : State) (bus cluster n : Nat) : Option (Nat × Nat) :=
  (firstFrom (fun f => (s.slotOwner bus cluster f).elim false fun o => (s.inSlot bus o f).isEmpty) n 1024).bind fun f =>
    (s.slotOwner bus cluster f).map fun o => (f, o)

/-- A held slot, the payloads of one frame, goes out again whole in its sender's first empty slot from frame `n` on; the next one may follow from
the frame after it. -/
def State.reemitSlot (s : State) (bus n : Nat) (ps : List Payload) : State × Nat :=
  match ps with
  | [] => (s, n)
  | p :: _ =>
    match s.emptySlot bus (clusterOf p.core) n with
    | none => (s, n)
    | some (f, o) =>
      ({ s with inflight := s.inflight.map fun q => if ps.any (·.serial == q.serial) then { q with frame := f, participant := o } else q }, f + 1)

/-- New slots of the senders of some payloads wait for those payloads' slots (19 R397). -/
def State.holdNew (s : State) (bus : Nat) (ps : List Payload) : State :=
  ps.foldl (fun s p =>
    let now := (s.inflight.find? fun q => q.serial == p.serial).getD p
    let l := s.link (clusterOf p.core) bus
    s.setLink (clusterOf p.core) bus { l with resume := max l.resume (now.frame + 1) }) s

/-- The held slots go out again one per frame from frame `n`, in their original order, before any new slot of their senders (19 R397, R398) (log
entry 57). -/
def State.reemit (s : State) (bus : Nat) (ps : List Payload) (n : Nat) : State :=
  ((framesOf ps).foldl (fun r f => r.1.reemitSlot bus r.2 (ps.filter fun p => p.frame == f)) (s, n)).1.holdNew bus ps

/-- A bus that has a relaying participant with no partner left is lost: a chip failure (19 R398). -/
def State.checkRelays (s : State) (bus : Nat) : State :=
  if (List.range 162).any fun p => (s.link p bus).state == 2 && (s.relayPartner bus p).isNone then s.chipFail 2 else s

/-- A participant enters RELAY on a bus (19 R398): its held slots, and those it relayed, go out again in the slots that partners give them,
FLAGS bits 0 and 1 and REPLREQ are set (log entry 57). -/
def State.enterRelay (s : State) (bus participant : Nat) : State :=
  let l := s.link participant bus
  let held := s.unconfirmed bus participant
  let e := s.settError 6 3 bus participant false true
  let old := s
  let s := (s.setLink participant bus { l with state := 2, moves := l.moves + 1, unread := 0, vetoed := 0 }).settChange
  let s := ({ s with settRelay := true, replReq := true } : State).announce old
  ((s.reemit bus held (s.frame + 4)).reportError e).1.checkRelays bus

/-- Participants whose receive ring for a group the map disables take its slots over the mesh (19 R398, 18 R386). -/
def State.deafTo (s : State) (bus wg group : Nat) : State :=
  ((List.range 162).filter fun p => s.ringDead bus wg group p true && (s.link p bus).sound).foldl (fun s p => s.enterRelay bus p) s

/-- A participant's ring moves to a spare group of its waveguide (19 R397): frame F + 1 announces it on the next bus, and the held slots
go out again from frame F + 4, before any new one. -/
def State.moveRing (s : State) (bus participant group : Nat) : State :=
  let l := s.link participant bus
  let held := s.unconfirmed bus participant
  let e := s.settError 6 3 bus participant true false
  let l' := { l with
    group := group, state := 1, moves := l.moves + 1, unread := 0, vetoed := 0, announce := s.frame + 1, resume := s.frame + 4 }
  let s := ((s.setLink participant bus l').reemit bus held (s.frame + 4)).settChange
  ((s.takeSpare bus l.wg group).reportError e).1.deafTo bus l.wg group

/-- A transmit ring has failed (19 R397): four frames in a row its slot read back uncorrectable, or three or more receivers vetoed it. -/
def Link.failed (l : Link) : Bool := decide (4 ≤ l.unread) || decide (4 ≤ l.vetoed)

/-- RING_FAILURE (19 R397, R398): a transmit ring has failed in this frame. -/
def execRingFailure (bus participant : Nat) (s : State) : Out :=
  let l := s.link participant bus
  if 8 ≤ bus || 162 ≤ participant || !l.sound || !l.failed then .refused (.notEnabled "RING_FAILURE")
  else
    match s.nextSpare bus l.wg participant with
    | none => .next (s.enterRelay bus participant)
    | some g => .next (s.moveRing bus participant g)

/-- RECEIVE_RING_FAILURE (19 R398): the participant takes the group's slots over the mesh; STATE becomes RELAY, with the same flags. -/
def execReceiveRingFailure (bus participant : Nat) (s : State) : Out :=
  let l := s.link participant bus
  if 8 ≤ bus || 162 ≤ participant || l.state = 3 then .refused (.notEnabled "RECEIVE_RING_FAILURE")
  else if l.state = 2 then .next s
  else .next (s.enterRelay bus participant)

end Sys2Proof.Machine
end

