-- ==== Sys2Proof/Machine/Bringup.lean ====
section
/-!
DEFINITION. Bring-up (18 R380, R386, R389, R271 of spec 10), the installation of a defect map (18 R387), and the management interface's
receiving side (18 R382–R384).
-/

namespace Sys2Proof.Machine

/-! ### Reset and the phases (R380) -/

/-- The machine as a power-on reset leaves it at the start of SELFTEST: the maps' copies, the management controller, which stands on standby
power, and what the model numbers by stay; `mem` is what device memory holds (log entry 52). -/
def State.restart (s : State) (mem : Bytes) : State :=
  { State.reset with
    mem := mem, maps := { copy1 := s.maps.copy1, copy2 := s.maps.copy2 }, mgmt := { s.mgmt with standby := true }, outbox := s.outbox
    agenda := s.agenda, free := s.free, clock := s.clock, phase := 1 }

/-- The machine as a module reset leaves it: the state of the long run stays (00 R4), which is global time, the error records not yet delivered,
laser modules, ports, planes, partners' stores and the peers watched; so do COUNT of each semaphore and MOVES of each link, which count
from power-on (16 R359, 10 R271) (log entry 52). -/
def State.rerun (s : State) : State :=
  { s.restart s.mem with
    gtime := s.gtime, errSeq := s.errSeq, errors := s.errors, events := s.events.filter fun e => natLE (e.bytes.take 1) == 5
    stores := s.stores, peers := s.peers, lasers := s.lasers, ports := s.ports, planes := s.planes
    links := s.links.map fun e => (e.1, { moves := e.2.moves })
    sems := s.sems.map fun m => (m.1, { count := m.2.count }) }

/-- POWER_ON_RESET (R380): a module that powers on has its standby supply (R382) (log entry 1). -/
def execPowerOnReset (s : State) : Out := .next ((s.restart []).announce s)

/-- MODULE_RESET (R380): device memory keeps its bytes (log entries 1, 52). -/
def execModuleReset (s : State) : Out := .next (s.rerun.announce s)

/-- The CLASS 12 report of a unit that failed its test (R384, R386): FIELD, CLUSTER and POSITION where its location names them, UNIT the rest
of the location, as R385 lays it down (log entry 49). -/
def selftestError (u : DefectUnit) : ErrorReport :=
  let l := u.loc
  let f := cut l 0 8
  let e := { plainError 12 3 0 with spared := true }
  match u.kind with
  | 1 => { e with field := f, cluster := 4 * f + cut l 8 2, position := cut l 10 7 }
  | 2 => { e with field := f, cluster := 4 * f + cut l 8 2, unitNo := cut l 10 4 }
  | 3 => { e with field := f, unitNo := cut l 8 5 }
  | 4 => { e with field := participantField (cut l 11 8), cluster := participantCluster (cut l 11 8), unitNo := cut l 0 11 }
  | 5 => { e with unitNo := cut l 0 16 }
  | _ => { e with field := f, unitNo := cut l 8 5 }

/-- SELFTEST_DONE (R380, R384): the test map is recorded, and each failure goes out on the management interface. -/
def execSelftestDone (failures : List DefectUnit) (s : State) : Out :=
  if s.phase != 1 || !failures.all DefectUnit.ok then .refused (.notEnabled "SELFTEST_DONE")
  else
    let t := failures.zipIdx.foldl (fun t u => t.toCollectors 2 (s.errorRecord (selftestError u.1) (s.errSeq + u.2))) s
    .next (({ t with
      phase := 2, maps := { t.maps with test := failures, testSeq := t.errSeq }, errSeq := t.errSeq + failures.length } : State).announce s)

/-- Nominal stages of seam `k`: 4 for a vertical, 3 for a horizontal one (10 R273). -/
def nominalSeam (k : Nat) : Nat := if k < 5 then 4 else 3

/-- SEAMTRAIN_DONE (R380): each seam fixes its stage count, the nominal one plus 0 to 2; a link that failed is disabled and reported. A link
is named as R385 names a seam lane's: the seam in bits [3:0], the router row or column in bits [15:8]. -/
def execSeamtrainDone (extra failedLinks : List Nat) (s : State) : Out :=
  if s.phase != 2 || extra.length != 11 || extra.any (fun x => decide (2 < x)) then .refused (.notEnabled "SEAMTRAIN_DONE")
  else
    let t := ({ s with
      phase := 3, seams := extra.zipIdx.map fun x => nominalSeam x.2 + x.1, deadLinks := failedLinks } : State).settWrite.announce s
    .next (failedLinks.foldl (fun t l => (t.reportError (plainError 10 3 (l % 65536))).1) t)

/-- The field of the mesh grid, 6 columns by 7 rows, in order of y then x: a compute field's index, or none for West, 18, and East, 23 (10 R264). -/
def gridField (n : Nat) : Option Nat :=
  if n = 18 || n = 23 then none else some (if n < 18 then n else if n < 23 then n - 1 else n - 2)

/-- Two fields of the grid are joined by a trained link (R380). -/
def State.joined (s : State) (a b : Nat) : Bool :=
  let by_ := fun n right => !(s.deadLinks.contains (linkNo n right 0) && s.deadLinks.contains (linkNo n right 1))
  (b == a + 1 && a % 6 != 5 && by_ a true) || (a == b + 1 && b % 6 != 5 && by_ b true) || (b == a + 6 && by_ a false) ||
    (a == b + 6 && by_ b false)

/-- The fabric island that grows from some fields: every field that trained links join to it (R380). -/
def State.island_ (s : State) : (fuel : Nat) → (seen front : List Nat) → List Nat
  | 0, seen, _ => seen
  | fuel + 1, seen, front =>
    let new := (List.range 42).filter fun b => !seen.contains b && front.any fun a => s.joined a b
    if new.isEmpty then seen else s.island_ fuel (seen ++ new) new

/-- The one island that merging leaves: that of the West host field, or of the East where the West is not there (R380) (log entry 52). -/
def State.fabric (s : State) (west east : Bool) : List Nat :=
  if west then s.island_ 42 [18] [18] else if east then s.island_ 42 [23] [23] else []

/-- MERGE_DONE (R380): the fields that trained links join to a host field make up the fabric. With no host field the module stays in MERGE and
reports the failure, the loss of both host complexes (20 R417). `west` and `east` say which host fields are there (log entry 52). -/
def execMergeDone (fields : List Nat) (west east : Bool) (s : State) : Out :=
  let isle := s.fabric west east
  let fs := sortNats (isle.filterMap gridField)
  if s.phase != 3 then .refused (.notEnabled "MERGE_DONE")
  else if !west && !east then .next (s.chipFail 4)
  else if sortNats fields != fs then .refused (.notEnabled "MERGE_DONE")
  else
    let t : State := { s with
      phase := 4, fieldMap := fs, hosts := (if west then 1 else 0) + (if east && isle.contains 23 then 2 else 0)
      replReq := s.replReq || decide (fs.length < 40) }
    .next (t.announce s)

/-! ### VERIFY (R386, R389, R271) -/

/-- The physical core a unit names, for KIND 1 (R385). -/
def DefectUnit.core? (u : DefectUnit) : Option Nat :=
  if u.kind = 1 then some (128 * (4 * cut u.loc 0 8 + cut u.loc 8 2) + cut u.loc 10 7) else none

/-- Good positions of a cluster under a map (log entry 52). -/
def goodPositions (bad : List Nat) (cluster : Nat) : List Nat :=
  (List.range Config.positions).filter fun p => !bad.contains (128 * cluster + p)

/-- The clusters of the fields in the fabric, in ascending order. -/
def State.clustersIn (s : State) : List Nat := s.fieldMap.flatMap fun f => (List.range 4).map fun q => 4 * f + q

/-- The first handle from `w` on that is not 0, not all ones and not taken (R389). -/
def freshHandle (taken : List Word) : (fuel : Nat) → Word → Word
  | 0, w => w
  | fuel + 1, w => if w == 0 || w == 0xFFFFFFFF || taken.contains w then freshHandle taken fuel (w + 1) else w

/-- The handles of `n` logical cores: distinct, and otherwise free values from the `i`-th on (R389) (log entry 7). -/
def newHandles (n i : Nat) : List Word :=
  (List.range n).foldl (fun hs k => hs ++ [freshHandle hs (hs.length + 3) (Config.freeWord (i + k))]) []

/-- Bind the logical cores: the lowest 120 good positions of each cluster, the rest its spares (R386, R389) (log entry 52). -/
def State.bindCores (s : State) (bad : List Nat) : State :=
  let bs := s.clustersIn.flatMap fun c => ((goodPositions bad c).take Config.logicalPerCluster).map fun p => (c, p)
  { s with
    free := s.free + bs.length
    bindings := (bs.zip (newHandles bs.length s.free)).map fun b => { handle := b.2, cluster := b.1.1, position := b.1.2 }
    spares := (s.clustersIn.map fun c => (c, (goodPositions bad c).drop Config.logicalPerCluster)).filter fun e => !e.2.isEmpty
    bindGen := 1 }

/-- The participant is on the Sett: its field is in the fabric. -/
def State.onBus (s : State) (p : Nat) : Bool :=
  if p < 160 then s.fieldMap.contains (p / 4) else bit s.hosts (p - 160)

/-- Assign the wavelength groups (10 R271): WG = P mod 4, GROUP = P div 4 on every bus, ABSENT where the field is out. MOVES counts on. -/
def State.assignGroups (s : State) : State :=
  { s with
    links := (List.range (162 * 8)).map fun k =>
      let p := k / 8
      (k, { wg := p % 4, group := p / 4, state := if s.onBus p then 0 else 3, moves := (s.link p (k % 8)).moves })
    spareGroups := (List.range 32).map fun k => (k, if k % 4 < 2 then [41] else [41, 40]) }

/-- A participant enters RELAY at bring-up (19 R398), and a record says that its waveguide's spares are out (20 R424). -/
def State.mapRelay (s : State) (bus p : Nat) : State :=
  let l := s.link p bus
  let e := s.settError 6 3 bus p false true
  (({ s.setLink p bus { l with state := 2, moves := l.moves + 1 } with settRelay := true, replReq := true } : State).reportError e).1

/-- A participant's transmit ring that the map names: its group moves as a failed ring's does, to a spare or to RELAY (R385, 19 R397, R398)
(log entry 52). -/
def State.mapGroup (s : State) (u : DefectUnit) : State :=
  let bus := cut u.loc 0 3
  let p := cut u.loc 11 8
  let l := s.link p bus
  if u.kind != 4 || bit u.loc 19 || l.wg != cut u.loc 3 2 || l.group != cut u.loc 5 6 || !l.sound then s
  else
    match s.nextSpare bus l.wg p with
    | some g => (s.setLink p bus { l with group := g, state := 1, moves := l.moves + 1 }).takeSpare bus l.wg g
    | none => s.mapRelay bus p

/-- A participant's receive ring that the map names: where a participant sends on that group, its slots come over the mesh (19 R398) (log
entry 52). -/
def State.mapReceive (s : State) (u : DefectUnit) : State :=
  let bus := cut u.loc 0 3
  let p := cut u.loc 11 8
  let used := (List.range 162).any fun q =>
    (s.link q bus).sound && (s.link q bus).wg == cut u.loc 3 2 && (s.link q bus).group == cut u.loc 5 6
  if u.kind == 4 && bit u.loc 19 && used && (s.link p bus).sound then s.mapRelay bus p else s

/-- CLASS of a unit of a defect map (18 R385, 20 R420). -/
def DefectUnit.cls (u : DefectUnit) : Nat :=
  match u.kind with
  | 1 => 1
  | 2 => 2
  | 3 => 9
  | 4 => 6
  | 5 => 10
  | _ => 3

/-- The units of the map in force that no spare stands in for: those past the spares of their cluster, field or link, and an L2 way that the
map did not name; Sett groups enter RELAY (20 R424). -/
def shortUnits (force mapped : List DefectUnit) : List DefectUnit :=
  (force.zipIdx.filter fun e =>
    e.1.kind != 4 && (if e.1.kind = 2 then !mapped.contains e.1
      else decide (sparesOfKind e.1.kind ≤ ((force.take e.2).filter (DefectUnit.shares e.1)).length))).map (·.1)

/-- Spares of a kind have run out at bring-up: replacement is requested, and a record with FLAGS bit 1 says so of each unit left without
(20 R424) (log entry 52). -/
def State.mapShort (s : State) (u : DefectUnit) : State :=
  (({ s with replReq := true } : State).reportError { selftestError u with cls := DefectUnit.cls u, spared := false, replaced := true }).1

/-- The error records of units that failed their test and are absent from the map (R386) (log entry 49). -/
def State.logUnmapped (s : State) (mapped : List DefectUnit) : State :=
  s.maps.test.zipIdx.foldl (fun s u =>
    if mapped.contains u.1 then s
    else
      let e := selftestError u.1
      { s with
        events := s.events ++ [{ ctx := 0, bytes := s.errorRecord e (s.maps.testSeq + u.2), unitAt := some (e.cluster, e.position) }] }) s

/-- VERIFY_DONE (R386, R380): the map in force is the union of the first copy that passes and the test map, or the test map alone, with the
device sheltered; cores are bound, Sett groups assigned, and time is aligned to within the skew. Fewer than 18,432 logical cores request
replacement (log entry 52). -/
def execVerifyDone (skewPs : Nat) (s : State) : Out :=
  if s.phase != 4 || 2 ^ 31 ≤ skewPs then .refused (.notEnabled "VERIFY_DONE")
  else
    let copy := s.maps.passing
    let mapped := (copy.bind mapUnits).getD []
    let force := (mapped ++ s.maps.test).eraseDups
    let t := { s with
      maps := { s.maps with force := force }, sheltered := copy.isNone, mapCopy := copy.isSome && decide (mapVerdict s.maps.copy1 ≠ 2)
      dev := [], corr := [], exchanged := [], parents := [], skew := skewPs }
    let t := (t.bindCores (force.filterMap DefectUnit.core?)).assignGroups
    let t := ((shortUnits force mapped).foldl State.mapShort (force.foldl State.mapReceive (force.foldl State.mapGroup t))).settWrite
    let t := { t with replReq := t.replReq || decide (t.coreCount < 18432), phase := 5 }
    .next ((List.range 8).foldl State.checkRelays ((t.logUnmapped mapped).announce s))

/-! ### Installing a map (R387) -/

/-- MAPCTL's GO: the installation starts (log entry 53). -/
def State.startMap (s : State) : State := { s with maps := { s.maps with stat := 1 } }

/-- The map's bytes at MAPADDR, as its COUNT gives their number; none where they do not lie in device memory. -/
def State.newMap (s : State) : List Byte :=
  let a := s.maps.addr.toNat
  let n := 16 + 8 * s.mem.readLE (a + 6) 2 + 384
  if a % 8 = 0 && inDevice a n then s.mem.readList a n else []

/-- The installation ends: a map that passes replaces both copies; else they stay (R387) (log entry 53). -/
def State.endMap (s : State) : State :=
  let b := s.newMap
  let v := mapVerdict b
  if v = 2 then { s with maps := { s.maps with copy1 := b, copy2 := b, stat := 2 } } else { s with maps := { s.maps with stat := v } }

/-- MAP_INSTALL (R387): GO, ignored unless the complex holds semaphore 0; an installation under way ends (log entry 53). -/
def execMapInstall (complex : Nat) (s : State) : Out :=
  if s.maps.stat = 1 then .next s.endMap
  else if s.guarded complex 0 then .next s.startMap
  else .next s

/-! ### The management interface (R382–R384) -/

/-- STANDBY_POWER_ON (R382): the controller begins to serve its port. -/
def execStandbyPowerOn (s : State) : Out :=
  if s.mgmt.standby then .refused (.notEnabled "STANDBY_POWER_ON") else .next { s with mgmt := { standby := true } }

/-- The datagram is a well-formed QUERY or SUBSCRIBE: its TYPE (R383, R384). -/
def mgmtType (b : List Byte) : Option Nat :=
  let u := fun off n => natLE ((b.drop off).take n)
  if b.length = 32 && u 0 4 == 0x474D4A48 && u 4 2 == 1 && u 7 1 == 0 && (u 8 8 == 0 || u 8 8 == Config.serial.toNat) && u 20 4 == 0 &&
      u 24 8 == 0 && (u 6 1 == 3 || u 6 1 == 4) then some (u 6 1) else none

/-- The source port of a datagram whose ports are `ports`, and whether it is addressed to the management port (R382). -/
def portOf (ports : Nat) : Nat := ports % 65536
def toMgmt (ports : Nat) : Bool := ports / 65536 == mgmtPort

/-- MGMT_QUERY (R384): a STATUS goes to the sender at once. -/
def execMgmtQuery (sender ports : Nat) (datagram : List Byte) (s : State) : Out :=
  if !s.mgmt.standby || !toMgmt ports || mgmtType datagram != some 3 then .refused (.notEnabled "MGMT_QUERY")
  else .next (s.datagram sender (portOf ports) 1 s.statusBody)

/-- MGMT_SUBSCRIBE (R384): the sender becomes a collector, replacing the oldest of four (log entry 48). -/
def execMgmtSubscribe (sender ports : Nat) (datagram : List Byte) (s : State) : Out :=
  if !s.mgmt.standby || !toMgmt ports || mgmtType datagram != some 4 then .refused (.notEnabled "MGMT_SUBSCRIBE")
  else
    let port := portOf ports
    let cs := s.mgmt.collectors.filter (· != (sender, port))
    .next { s with mgmt := { s.mgmt with collectors := (if cs.length < 4 then cs else cs.drop 1) ++ [(sender, port)] } }

/-- MGMT_BAD_DATAGRAM (R384): anything else is discarded; the controller speaks no other protocol and serves no other port (R382). -/
def execMgmtBadDatagram (_sender ports : Nat) (datagram : List Byte) (s : State) : Out :=
  if toMgmt ports && (mgmtType datagram).isSome then .refused (.notEnabled "MGMT_BAD_DATAGRAM") else .next s

/-- MGMT_STATUS_PERIODIC (R384): a second after the last STATUS another goes to every collector. -/
def execMgmtStatusPeriodic (s : State) : Out :=
  if !s.mgmt.standby || s.mgmt.wait < 1000000000 then .refused (.notEnabled "MGMT_STATUS_PERIODIC") else .next (s.toCollectors 1 s.statusBody)

end Sys2Proof.Machine
end

