-- ==== Sys2Proof/Machine/Images.lean ====
section
/-!
DEFINITION. The images of which a save record is made (15 R338–R340, 01 R36), and what a record read back says (01 R37, 09 R246, 15 R341).
-/

namespace Sys2Proof.Machine

/-! ### Images as written (R338–R340, 01 R36) -/

/-- Zero bytes up to a multiple of 128. -/
def pad128 (b : List Byte) : List Byte := b ++ List.replicate ((128 - b.length % 128) % 128) 0

/-- Zero bytes up to a length. -/
def padTo (n : Nat) (b : List Byte) : List Byte := b ++ List.replicate (n - b.length) 0

/-- The banks in a core block: those in scratchpad or FIFO mode. -/
def Core.savedBanks (c : Core) : List Nat := (List.range 16).filter fun b => c.bank b != .cache

/-- BANKS of a core, in the layout of the kernel header (03 R88). -/
def Core.banksWord (c : Core) : Nat :=
  ((List.range 16).map fun b => (match c.bank b with | .cache => 0 | .pad => 1 | .fifo => 2) * 2 ^ (2 * b)).sum

/-- The 32 lane words of an entry, 128 bytes. -/
def laneBytes (w : Words) : List Byte := (List.range 32).flatMap fun i => bytesLE 4 (Words.get w i).toNat

/-- A FIFO bank's image: entry e of the ring at 128e (R339). -/
def Fifo.image (f : Fifo) : List Byte :=
  (List.range 512).flatMap fun e => laneBytes (f.entries.getD ((e + 512 - f.head) % 512) [])

/-- A core block (R339). -/
def Core.block (c : Core) : List Byte :=
  let fifo := fun b => if c.bank b == .fifo then (c.fifo b).entries.length + (c.fifo b).head * 2 ^ 10 else 0
  padTo 128 (((List.range 8).flatMap fun k => bytesLE 4 (Words.get c.cwp k).toNat) ++ bytesLE 4 c.banksWord ++ bytesLE 12 0 ++
      (List.range 16).flatMap fun b => bytesLE 4 (fifo b)) ++
    c.savedBanks.flatMap fun b => if c.bank b == .fifo then (c.fifo b).image else c.sram.readList (65536 * b) 65536

/-- A queue binding, 16 bytes (R340). -/
def QBind.image (b : QBind) : List Byte :=
  match b with
  | .unbound => bytesLE 16 0
  | .peer slot q => bytesLE 4 (1 + slot * 4 + q * 64) ++ bytesLE 12 0
  | .gather base => bytesLE 8 2 ++ bytesLE 8 base.toNat

/-- A queue's image, 1,152 bytes (01 R36). -/
def Queue.image (q : Queue) : List Byte :=
  padTo 1152 (padTo 64 (bytesLE 1 q.entries.length) ++
    q.entries.flatMap fun e => laneBytes e.vals ++ bytesLE 4 e.mask.toNat ++ bytesLE 4 0)

/-- A vector register's image: absent lanes are zero (01 R36). -/
def Pack.vImage (k : Pack) (r : Nat) : List Byte :=
  (List.range 32).flatMap fun i => bytesLE 4 (if i < 4 * k.slices then (k.v.get (32 * r + i)).toNat else 0)

/-- The pack's splits in the order of its record: the priority list, then those that stand in none (R340). -/
def Pack.savedSplits (k : Pack) : List Split :=
  k.order.filterMap k.split ++ (k.splits.map (·.2)).filter fun sp => !k.order.contains sp.id

/-- A deterministic entry, 32 bytes (R340). -/
def DetEntry.image (e : DetEntry) : List Byte :=
  bytesLE 8 e.addr ++ bytesLE 1 e.fn ++ bytesLE 1 e.lane ++ bytesLE 2 0 ++ bytesLE 4 e.seq ++ bytesLE 4 e.operand ++
    bytesLE 4 e.compare ++ bytesLE 8 0

/-- The broadcast records of a pack, 256 bytes each: its stores not granted room (R336, R340). -/
def Pack.bstImages (k : Pack) : List (List Byte) :=
  (k.ops.filter fun o => !o.done).filterMap fun o => match o.kind with
    | .bst _ va lanes vals => some (padTo 128 (bytesLE 8 va.toNat ++ bytesLE 4 lanes.toNat) ++ laneBytes vals)
    | _ => none

/-- A pack block (R340). -/
def Pack.block (k : Pack) (groupRef coreRef slot : Nat) : List Byte :=
  let sps := k.savedSplits
  let bst := k.bstImages
  padTo 64 (bytesLE 2 groupRef ++ bytesLE 2 coreRef ++ bytesLE 2 k.lpack ++ bytesLE 1 k.role ++ bytesLE 1 k.slices ++ bytesLE 1 k.nv ++
      bytesLE 1 k.ng ++ bytesLE 1 k.na ++ bytesLE 1 sps.length ++ bytesLE 2 0 ++ bytesLE 2 bst.length ++ bytesLE 4 0 ++
      bytesLE 4 k.fpctl.toNat ++ bytesLE 4 k.fpstat.toNat ++ bytesLE 4 k.wlhold ++ bytesLE 4 k.mst.toNat ++ bytesLE 1 k.det.length ++
      bytesLE 1 bst.length ++ bytesLE 1 slot) ++
    padTo 192 ((List.range 8).flatMap fun q => (k.queue q).bind.image) ++
    (List.range k.nv).flatMap k.vImage ++
    pad128 ((List.range k.ng).flatMap fun r => bytesLE 4 (k.readG r).toNat) ++
    pad128 ((List.range 7).flatMap fun p => bytesLE 4 (Words.get k.p p).toNat) ++
    ((List.range 32).flatMap fun t => bytesLE 4 (k.readT t).toNat) ++
    ((List.range (1024 * k.na)).flatMap fun e => bytesLE 4 (Words.get k.acc e).toNat) ++
    ((List.range 8).flatMap fun q => (k.queue q).image) ++
    (sps.flatMap fun sp => sp.image k.order) ++ pad128 (k.det.flatMap DetEntry.image) ++ bst.flatten

/-- SATOV: FIELD alone does not hold the sum (02 R62). -/
def Accum.satov (a : Accum) : Bool := decide (a.fn < 3) && (decide (a.sum.toInt < -(2 ^ 319 : Nat)) || decide ((2 ^ 319 : Nat) ≤ a.sum.toInt))

/-- An accumulator record, 64 bytes (R340). -/
def Accum.image (a : Accum) : List Byte :=
  let b := fun (v : Bool) (n : Nat) => if v then 2 ^ n else 0
  let int := decide (3 ≤ a.fn)
  bytesLE 8 a.dest ++ bytesLE 1 a.fn ++
    bytesLE 1 (b a.nan 0 + b a.posInf 1 + b a.negInf 2 + b a.allNegZero 3 + b a.contrib 4 + b a.satov 5 + b a.snan 6) ++ bytesLE 6 0 ++
    bytesLE 40 (if int then a.sum.toNat % 2 ^ 64 else a.sum.toNat) ++ bytesLE 8 (if int then 0 else a.sum.toNat / 2 ^ 320)

/-! ### Images read back (01 R37, R341) (log entry 36) -/

/-- Some bytes are as they were written: counts and references by which the rest of a record is laid out, and reserved bytes. -/
def asWritten (written now : List Byte) (off n : Nat) : Bool := (now.drop off).take n == (written.drop off).take n

/-- A FIFO bank from its state word and image; none where COUNT is above 512 or a reserved bit is set (R339). -/
def Fifo.ofImage (w : Nat) (b : List Byte) : Option Fifo :=
  let count := cut w 0 10
  let head := cut w 10 9
  if 512 < count || 2 ^ 19 ≤ w then none
  else some { entries := (List.range count).map fun j => laneWords (b.drop (128 * ((head + j) % 512))), head := head }

/-- One bank of a core block. -/
def Core.bankOfImage (c : Core) (b w : Nat) (bytes : List Byte) : Option Core :=
  match c.bank b with
  | .fifo => (Fifo.ofImage w bytes).map fun f => { c with fifos := c.fifos.put b f }
  | _ => if w = 0 then some { c with sram := c.sram.writeList (65536 * b) (bytes.take 65536) } else none

/-- The banks of a core block, in order. -/
def Core.banksOfImage (c : Core) (head : List Byte) : List Nat → List Byte → Option Core
  | [], _ => some c
  | b :: rest, bytes =>
    match c.bankOfImage b (recField head (48 + 4 * b) 4) bytes with
    | some c => c.banksOfImage head rest (bytes.drop 65536)
    | none => none

/-- A core from its block (R339). -/
def Core.ofBlock (c : Core) (written now : List Byte) : Option Core :=
  let saved := c.savedBanks
  let stray := (List.range 16).any fun b => !saved.contains b && recField now (48 + 4 * b) 4 != 0
  if !asWritten written now 32 16 || !asWritten written now 112 16 || stray then none
  else
    let cwp := (List.range 8).foldl (fun w k => Words.set w k (BitVec.ofNat 32 (recField now (4 * k) 4))) []
    ({ c with cwp := cwp } : Core).banksOfImage now saved (now.drop 128)

/-- A queue binding; none where KIND is 3 or a reserved bit is set (R340). -/
def QBind.ofImage (b : List Byte) : Option QBind :=
  let w := recField b 0 4
  if 2 ^ 9 ≤ w || recField b 4 4 != 0 then none
  else
    match cut w 0 2 with
    | 0 => some .unbound
    | 1 => some (.peer (cut w 2 4) (cut w 6 3))
    | 2 => some (.gather (BitVec.ofNat 64 (recField b 8 8)))
    | _ => none

/-- A queue's entries; none where the count is above 8 or a reserved byte is set (01 R36); what stands in the places of entries beyond the
count is not looked at (log entry 36). -/
def entriesOfImage (b : List Byte) : Option (List QEntry) :=
  let n := recField b 0 1
  let at_ := fun j => b.drop (64 + 136 * j)
  if 8 < n || recField b 1 63 != 0 || (List.range n).any (fun j => recField (at_ j) 132 4 != 0) then none
  else some ((List.range n).map fun j => { mask := BitVec.ofNat 32 (recField (at_ j) 128 4), vals := laneWords (at_ j) })

/-- Queue `q` from its binding and its image. -/
def Queue.ofImages (bind image : List Byte) : Option Queue :=
  match QBind.ofImage bind, entriesOfImage image with
  | some b, some es => some { bind := b, entries := es }
  | _, _ => none

/-- `n` words of an image, by key. -/
def wordsOfImage (b : List Byte) (n : Nat) : Words :=
  (List.range n).foldl (fun w j => Words.set w j (BitVec.ofNat 32 (recField b (4 * j) 4))) []

/-- The splits of a pack block, each with its ORDER (R245, R340). -/
def splitsOfImage : List Split → (written now : List Byte) → Option (List (Split × Nat))
  | [], _, _ => some []
  | sp :: rest, w, b =>
    match sp.reread (w.take 1152) (b.take 1152), splitsOfImage rest (w.drop 1152) (b.drop 1152) with
    | some r, some l => some (r :: l)
    | _, _ => none

/-- An address in a save record stands for `at_` and is aligned for a function: another address would take the write of a flush out of the
context, and R10 keeps it there (log entry 36). -/
def sameTarget (at_ fn now : Nat) : Bool := now == at_ && now % adetSize fn == 0

/-- A deterministic entry; what no image holds is that of `e` (R340). -/
def DetEntry.ofImage (e : DetEntry) (b : List Byte) : Option DetEntry :=
  let u := recField b
  if u 10 2 != 0 || u 24 8 != 0 || !sameTarget e.addr (u 8 1) (u 0 8) then none
  else some { e with fn := u 8 1, lane := u 9 1, seq := u 12 4, operand := u 16 4, compare := u 20 4 }

/-- A broadcast store from its record: its multicast group stays that of its translation (R340). -/
def PendOp.ofImage (o : PendOp) (b : List Byte) : Option PendOp :=
  match o.kind with
  | .bst m _ _ _ =>
    if recField b 12 116 != 0 then none
    else some { o with kind := .bst m (BitVec.ofNat 64 (recField b 0 8)) (BitVec.ofNat 32 (recField b 8 4)) (laneWords (b.drop 128)) }
  | _ => some o

/-- Read a list of things from records of `n` bytes each. -/
def eachOfImage {α : Type} (f : α → List Byte → Option α) (n : Nat) : List α → List Byte → Option (List α)
  | [], _ => some []
  | x :: rest, b =>
    match f x (b.take n), eachOfImage f n rest (b.drop n) with
    | some y, some l => some (y :: l)
    | _, _ => none

/-- A pack from its block; none where R37 or R246 finds a fault (R340, R341). Words of absent lanes that are not zero are a fault in the
vector image, which R36 writes as zero; elsewhere they are taken as they stand (log entry 36). -/
def Pack.ofBlock (k : Pack) (written now : List Byte) : Option Pack :=
  let u := recField now
  let v := now.drop 256
  let g := v.drop (128 * k.nv)
  let p := g.drop (roundUp (4 * k.ng) 128)
  let t := p.drop 128
  let acc := t.drop 128
  let q := acc.drop (4096 * k.na)
  let off := 256 + 128 * k.nv + roundUp (4 * k.ng) 128 + 256 + 4096 * k.na + 9216
  let sps := k.savedSplits
  let det := off + 1152 * sps.length
  let bst := det + roundUp (32 * k.det.length) 128
  let absent := (List.range k.nv).any fun r => recField v (128 * r + 16 * k.slices) (128 - 16 * k.slices) != 0
  let reserved := !asWritten written now 0 20 || !asWritten written now 36 28 || !asWritten written now 192 64 || absent ||
    recField g (4 * k.ng) (roundUp (4 * k.ng) 128 - 4 * k.ng) != 0 || recField p 28 100 != 0 ||
    cut (u 20 4) 3 5 != 0 || 2 ^ 13 ≤ u 20 4 || 2 ^ 5 ≤ u 24 4 || (now.drop (det + 32 * k.det.length)).take (bst - det - 32 * k.det.length) != List.replicate (bst - det - 32 * k.det.length) 0
  if reserved then none
  else
    match (List.range 8).mapM fun j => Queue.ofImages ((now.drop (64 + 16 * j)).take 16) ((q.drop (1152 * j)).take 1152),
        splitsOfImage sps (written.drop off) (now.drop off), eachOfImage DetEntry.ofImage 32 k.det (now.drop det),
        eachOfImage PendOp.ofImage 256 (k.ops.filter fun o => !o.done) (now.drop bst) with
    | some qs, some ss, some ds, some os =>
      let place := fun i => ((ss.find? fun e => e.1.id == i).map (·.2)).getD 0
      some { k with
        v := wordsOfImage v (32 * k.nv), g := wordsOfImage g k.ng, p := wordsOfImage p 7, t := wordsOfImage t 32
        acc := wordsOfImage acc (1024 * k.na), queues := qs.zipIdx.foldl (fun m e => Table.put m e.2 e.1) []
        fpctl := writeFpctl 0 (BitVec.ofNat 32 (u 20 4)), fpstat := BitVec.ofNat 32 (u 24 4), wlhold := u 28 4
        mst := BitVec.ofNat 32 (u 32 4), splits := ss.foldl (fun m e => Table.put m e.1.id e.1) k.splits
        order := sortBy place k.order, det := ds, ops := os }
    | _, _, _, _ => none

/-- An accumulator from its record: SATOV is derived anew and ignored (R340). -/
def Accum.ofImage (a : Accum) (b : List Byte) : Option Accum :=
  let u := recField b
  let f := u 9 1
  let int := decide (3 ≤ u 8 1)
  let low := u 16 8
  if 8 < u 8 1 || 128 ≤ f || u 10 6 != 0 || !sameTarget a.dest (u 8 1) (u 0 8) || (int && (u 24 32 != 0 || u 56 8 != 0)) then none
  else
    some { a with
      fn := u 8 1, nan := bit f 0, posInf := bit f 1, negInf := bit f 2, allNegZero := bit f 3, contrib := bit f 4
      snan := bit f 6
      sum := if !int then BitVec.ofNat 384 (u 16 40 + u 56 8 * 2 ^ 320)
        else if low = a.sum.toNat % 2 ^ 64 then a.sum else BitVec.ofNat 384 low }

/-- A group's COMMITTED and RUN from its descriptor (R338). -/
def Group.ofImage (g : Group) (written now : List Byte) : Option Group :=
  if !asWritten written now 0 13 || 2 ≤ recField now 13 1 || !asWritten written now 14 2 || !asWritten written now 24 40 then none
  else some { g with committed := bit (recField now 13 1) 0, ran := recField now 16 8 }

end Sys2Proof.Machine
end

