-- ==== Sys2Proof/Machine/Preempt.lean ====
section
/-!
DEFINITION. Pre-emption (15 R333–R336), save records (R337–R341) and the expiry of dormant reservations (R342).
-/

namespace Sys2Proof.Machine

/-! ### Closures (R337) -/

/-- The cores where a context has a pack of one of the groups that stand on `cores`, one step outward. -/
def State.spread (s : State) (ctx : Nat) (cores : List Nat) : List Nat :=
  let groups := cores.flatMap fun c => ((s.core c).packs.filter fun p => p.2.ctx == ctx).map fun p => (p.2.tag, p.2.group)
  sortNats (cores ++ (s.cores.filter fun e => e.2.packs.any fun p => groups.contains (p.2.tag, p.2.group)).map (·.1))

/-- The cores of the closure that starts on some cores. -/
def State.closureCores (s : State) (ctx : Nat) : (fuel : Nat) → List Nat → List Nat
  | 0, cs => cs
  | n + 1, cs => s.closureCores ctx n (s.spread ctx cs)

/-- The cores of a group's closure. -/
def State.closureOf (s : State) (ctx : Nat) (g : Group) : List Nat :=
  s.closureCores ctx Config.positions (sortNats (g.packs.map (·.1)))

/-- The packs of a context on some cores, as (core, slot, pack). -/
def State.packsOn (s : State) (ctx : Nat) (cores : List Nat) : List (Nat × Nat × Pack) :=
  cores.flatMap fun c => ((s.core c).packs.filter fun p => p.2.ctx == ctx).map fun p => (c, p.1, p.2)

/-- The groups of some packs, each once, as (tag, index). -/
def groupsOf (l : List (Nat × Nat × Pack)) : List (Tag × Nat) := (l.map fun p => (p.2.2.tag, p.2.2.group)).eraseDups

/-! ### The record (R338) -/

/-- A group descriptor, 64 bytes (R338). -/
def State.groupImage (s : State) (t : Tag) (g : Group) (accFirst : Nat) : List Byte :=
  padTo 64 (bytesLE 2 t.queue ++ bytesLE 2 0 ++ bytesLE 4 (t.index % s.qSlots t.queue) ++ bytesLE 4 g.x ++ bytesLE 1 g.packs.length ++
    bytesLE 1 (if g.committed then 1 else 0) ++ bytesLE 2 0 ++ bytesLE 8 g.ran ++ bytesLE 4 accFirst ++ bytesLE 4 g.accs.length)

/-- What a save record is written from: its cores, its groups, its packs in the order of their blocks, its collectives. -/
structure Closure where
  ctx : Nat
  cores : List Nat
  groups : List (Tag × Group)
  packs : List (Nat × Nat × Pack)
  colls : List (Nat × Nat × Nat)
  deriving DecidableEq, Repr

/-- The packs with a block in a record: those not ENDED (R340) (log entry 79). -/
def blockPacks (l : List (Nat × Nat × Pack)) : List (Nat × Nat × Pack) := l.filter fun p => p.2.2.phase != .ended

/-- The packs of some groups, those of a group in logical order, as their blocks follow one another (R338). -/
def inBlockOrder (gs : List (Tag × Group)) (ps : List (Nat × Nat × Pack)) : List (Nat × Nat × Pack) :=
  gs.flatMap fun g => sortBy (fun p => p.2.2.lpack) ((blockPacks ps).filter fun p => p.2.2.tag == g.1 && p.2.2.group == g.2.x)

/-- The index of a pack's group among the descriptors. -/
def Closure.groupRef (c : Closure) (k : Pack) : Nat := (c.groups.findIdx? fun g => g.1 == k.tag && g.2.x == k.group).getD 0

/-- A save record's bytes (R338); SIZE counts them. -/
def State.saveBytes (s : State) (c : Closure) : List Byte :=
  let accs := c.groups.flatMap fun g => g.2.accs
  let firsts := (List.range c.groups.length).map fun n => ((c.groups.take n).map fun g => g.2.accs.length).sum
  let groups := (c.groups.zip firsts).flatMap fun p => s.groupImage p.1.1 p.1.2 p.2
  let body := pad128 groups ++ (c.cores.flatMap fun k => (s.core k).block) ++
    (c.packs.flatMap fun p => p.2.2.block (c.groupRef p.2.2) ((c.cores.idxOf? p.1).getD 0) p.2.1) ++
    pad128 (accs.flatMap Accum.image) ++
    pad128 (c.colls.flatMap fun r => bytesLE 8 r.1 ++ bytesLE 8 r.2.1 ++ bytesLE 8 r.2.2 ++ bytesLE 8 0)
  padTo 128 (bytesLE 4 0x56415345 ++ bytesLE 2 1 ++ bytesLE 2 c.groups.length ++ bytesLE 2 c.cores.length ++ bytesLE 2 c.packs.length ++
    bytesLE 4 accs.length ++ bytesLE 2 c.colls.length ++ bytesLE 2 0 ++ bytesLE 4 c.ctx ++ bytesLE 8 (128 + body.length) ++
    bytesLE 8 s.now) ++ body

/-! ### Choosing victims (R333, R335) -/

/-- The reservations that a save of a closure makes dormant: the context's, when no group of it stays placed (R342). CHUNK is the last
completed chunk, at the sender (19 R404) (log entry 38). -/
def State.dormantWith (s : State) (ctx : Nat) (cores : List Nat) : List (Nat × Nat × Nat) :=
  let alone := s.cores.all fun e => cores.contains e.1 || !e.2.packs.any fun p => p.2.ctx == ctx
  if !alone then []
  else
    ((s.resvs.filter fun r => r.2.ctx == ctx && !r.2.released).map fun r =>
      (r.1, (r.2.completed + 2 ^ 64 - 1) % 2 ^ 64, s.now + ((s.context ctx).elim 0 (·.dormant)) * 1000000))

/-- The closure of a group as it stands. -/
def State.closure (s : State) (ctx : Nat) (g : Group) : Closure :=
  let cores := s.closureOf ctx g
  let ps := s.packsOn ctx cores
  let gs := (groupsOf ps).filterMap fun t => (s.group t.1 t.2).map fun g => (t.1, { g with ran := g.ran + (s.now - g.since) })
  { ctx := ctx, cores := cores, groups := gs, packs := inBlockOrder gs ps, colls := s.dormantWith ctx cores }

/-- The pool has room for a save of the group's closure (R333). -/
def State.saveFits (s : State) (ctx : Nat) (g : Group) : Bool :=
  (s.carve ctx (ceilDiv (s.saveBytes (s.closure ctx g)).length 4096)).isSome

/-- The largest number of save-record bytes written for one core (R335). -/
def State.saveCost (s : State) (c : Closure) : Nat :=
  (c.cores.map fun k =>
    128 + 64 * c.groups.length + (s.core k).block.length +
      ((c.packs.filter fun p => p.1 == k).map fun p => (p.2.2.block 0 0 0).length).sum).foldl max 0

/-- Remaining bytes of the copies in flight on the channels of some cores, the most on one channel, in ns (R335). -/
def State.copyTime (s : State) (cores : List Nat) : Nat :=
  (cores.map fun k =>
    ((List.range 8).map fun ch =>
      ((s.core k).packs.map fun p => (p.2.ops.map fun o => match o.kind with
        | .copy c _ _ _ n d _ => if c == ch && !o.done then n - d else 0
        | _ => 0).sum).sum / 96).foldl max 0).foldl max 0

/-- The action for a victim under a bound (R335): `engine` is the remaining time of its tile operations (log entry 37). -/
def State.chooseAction (s : State) (l : Launch) (g : Group) (bound engine : Nat) : Victim :=
  let c := s.closure l.ctx g
  let stop := 1000 + engine + s.copyTime c.cores
  let ran := g.ran + (s.now - g.since)
  let drain := if ran < l.gest then some (l.gest - ran) else none
  let save := if s.saveFits l.ctx g then some (stop + 2000 + ceilDiv (s.saveCost c) 96) else none
  let flush := if l.flag 3 && !g.committed then some (stop + 1000) else none
  let fits : Option Nat → Bool := fun e => e.elim false fun n => decide (n ≤ bound)
  let le : Option Nat → Option Nat → Bool := fun a b => match a, b with
    | some x, some y => decide (x ≤ y)
    | some _, none => true
    | none, some _ => false
    | none, none => true
  if fits drain then .drain
  else if fits save then .save
  else if fits flush then .flush
  else if le drain save && le drain flush then .drain
  else if le save flush then .save
  else .flush

/-- The clusters where the next group of a blocked launch could be placed: those its entries name, or those that could take a group, for a
COOP launch one of two (R327, R333). -/
def State.couldHost (s : State) (l : Launch) (k : Nat) : Bool :=
  if l.flag 1 then
    (if l.flag 2 then l.together else [l.unplaced.getD 0]).any fun x => (placeOf (l.places.getD x 0)).1 == k
  else decide (1 ≤ s.clusterTakes l k) && (!l.flag 2 || l.twoClusters [k])

/-- Groups placed whose release is already in hand: each has its victim action. -/
def State.inHand (s : State) : List (Launch × Group) :=
  s.launches.flatMap fun l => (l.groups.filter fun g => !g.2.packs.isEmpty && g.2.victim.isSome).map fun g => (l, g.2)

/-- Groups that may be victims for a launch, lowest PRIO first, then most recently placed (R333). -/
def State.victims (s : State) (b : Launch) : List (Launch × Group) :=
  let ks := (List.range Config.clusters).filter fun k => s.couldHost b k
  let all := s.launches.flatMap fun l => (l.groups.filter fun g => !g.2.packs.isEmpty && ks.contains g.2.cluster &&
    g.2.victim.isNone && decide (s.qPrio l.tag.queue < s.qPrio b.tag.queue)).map fun g => (l, g.2)
  sortBy (fun p => s.qPrio p.1.tag.queue) (sortBy (fun p => s.clock - p.2.serial) all)

/-- The state without the packs of a group, to see what room its release makes. -/
def State.without (s : State) (g : Group) : State := g.packs.foldl (fun s p => s.releasePack p.1 p.2) s

/-- The state without the packs of several groups. -/
def State.withoutAll (s : State) (gs : List (Launch × Group)) : State := gs.foldl (fun s p => s.without p.2) s

/-- The first victims whose release makes room for the launch (R333). -/
def State.enough (s : State) (l : Launch) : List (Launch × Group) → List (Launch × Group) → Option (List (Launch × Group))
  | taken, [] => if (s.withoutAll taken).canPlace l then some taken else none
  | taken, v :: rest => if (s.withoutAll taken).canPlace l then some taken else s.enough l (taken ++ [v]) rest

/-- The packs of a group's closure, or of the group alone, stop issuing (R336 step 1). -/
def State.stopPacks (s : State) (ps : List (Nat × Nat × Pack)) (stop : Bool) : State :=
  ps.foldl (fun s p => s.modPack p.1 p.2.1 fun k => { k with stopping := stop }) s

/-- A group's own packs. -/
def State.ownPacks (s : State) (g : Group) : List (Nat × Nat × Pack) := s.groupPacks g

/-- A drain of a group: it runs on, and the cores of its packs are held for the requester (R333). -/
def State.drainGroup (s : State) (t : Tag) (g : Group) (requester : Option Tag) : State :=
  g.packs.foldl (fun s p => s.setCore p.1 { s.core p.1 with heldFor := requester })
    (s.modGroup t g.x fun g => { g with victim := some .drain, requester := requester, stopped := false })

/-- A stopping closure is drained instead of saved: its packs issue again (R335). -/
def State.drainClosure (s : State) (ps : List (Nat × Nat × Pack)) (requester : Option Tag) : State :=
  (groupsOf ps).foldl (fun s t => (s.group t.1 t.2).elim s fun h => s.drainGroup t.1 h requester) (s.stopPacks ps false)

/-- Begin an action on a victim: a save stops its closure, a flush the group, a drain holds its cores for the requester (R333). -/
def State.beginVictim (s : State) (l : Launch) (g : Group) (v : Victim) (requester : Option Tag) : State :=
  match v with
  | .drain => s.drainGroup l.tag g requester
  | .flush => (s.modGroup l.tag g.x fun g => { g with victim := some .flush, requester := requester }).stopPacks (s.ownPacks g) true
  | .save =>
    let ps := s.packsOn l.ctx (s.closureOf l.ctx g)
    let s := (groupsOf ps).foldl (fun s t => s.modGroup t.1 t.2 fun g => { g with victim := some .save, requester := requester, stopped := false }) s
    s.stopPacks ps true

/-- The remaining engine time of a victim's begun tile operations, in ns: the longest of any core of its closure (R335, 07 R203) (log
entry 37). -/
def State.engineTime (s : State) (ctx : Nat) (g : Group) : Nat :=
  ((s.packsOn ctx (s.closureOf ctx g)).map fun p =>
    ((p.2.2.ops.filter fun o => !o.done).map fun o => o.till - s.now).foldl max 0).foldl max 0

/-- PREEMPTION (R333): the next group of the queue's launch, a saved one included, cannot be placed, victims in hand counted as gone, and the
groups that stand in its way are chosen one by one (log entry 37). -/
def execPreemption (queue : Nat) (s : State) : Out :=
  match s.launches.find? fun l => l.tag.queue == queue && l.wantsPlace with
  | none => .refused (.notEnabled "PREEMPTION")
  | some l =>
    let base := s.withoutAll s.inHand
    if l.latBound == 0 || !l.leased || base.canPlace l then .refused (.notEnabled "PREEMPTION")
    else
      match base.enough l [] (s.victims l) with
      | none => .refused (.notEnabled "PREEMPTION")
      | some vs =>
        .next (vs.foldl (fun s p =>
          match s.group p.1.tag p.2.x with
          | some g =>
            if g.victim.isSome then s
            else
              s.beginVictim p.1 g (s.chooseAction p.1 g l.latBound (s.engineTime p.1.ctx g)) (some l.tag)
          | none => s) s)

/-! ### Stopping (R336) -/

/-- The pack has reached the state of R336: nothing half issued, no fetch unanswered, and nothing outstanding but broadcast stores not
granted room and accepted deterministic atomics (log entry 37). -/
def Pack.quiet (k : Pack) : Bool :=
  k.fetch.isNone && (k.splits.all fun e => !(e.2.canIssue && e.2.midUnit)) &&
    k.ops.all fun o => o.done || match o.kind with
      | .bst .. => true
      | .adet => true
      | _ => false

/-- The flush of a completed `aflush` barrier comes before the stop (R336) (log entry 37). -/
def State.flushDue (s : State) (ps : List (Nat × Nat × Pack)) : Bool :=
  (groupsOf ps).any fun t => (s.group t.1 t.2).elim false fun g => s.barrierFull g true

/-- A split as it stands when stopped: at the instruction, or group, it has not carried out (R336, 03 R76). -/
def Split.halt (sp : Split) : Split :=
  { sp with pc := if sp.hints.isEmpty then sp.pc else sp.hintAt, hints := [], slot := none, stall := none, await := none }

/-- A pack as it stands when stopped: only its broadcast stores not granted room stay outstanding, to be emitted first when it is placed again
(R336, R341). -/
def Pack.halt (k : Pack) : Pack :=
  { k with
    loop := none
    splits := k.splits.map fun e => (e.1, e.2.halt)
    ops := (k.ops.filter fun o => !o.done && match o.kind with
      | .bst .. => true
      | _ => false).map fun o => { o with again := true } }

/-- Withdraw a pack's arrivals and its bank switch, and halt it (R336 steps 2–4). -/
def State.haltPack (s : State) (core slot : Nat) : State :=
  let c := s.core core
  let c := { c with
    latch := c.latch.filter fun a => a.slot != slot
    switching := match c.switching with
      | some b => if b.slot == slot then none else some b
      | none => none }
  (s.setCore core c).modPack core slot Pack.halt

/-- Flush a stopped group: its state is discarded, its cores are freed, and it returns to its launch as never placed (R333). -/
def State.flushVictim (s : State) (t : Tag) (g : Group) : State :=
  let s := g.packs.foldl (fun s p => s.releasePack p.1 p.2) s
  (s.modLaunch t fun l => { l with groups := l.groups.del g.x, returned := l.returned ++ [g.x] }).settleRevokes

/-- A group of the context has been placed on the closure's cores since its stop began: it is of the closure too, and stops with it (R336,
R337) (log entry 37). -/
def State.closureGrown (s : State) (ps : List (Nat × Nat × Pack)) : Bool :=
  ps.any fun p => !p.2.2.stopping || (s.group p.2.2.tag p.2.2.group).any fun g => g.victim != some .save

/-- VICTIM_STOP (R336): every pack of the victim has stopped. A flush is done here, unless the group committed meanwhile: it is then
saved; a victim whose save finds no room is drained (R335) (log entry 37). -/
def execVictimStop (queue index group : Nat) (s : State) : Out :=
  let t : Tag := { queue := queue, index := index }
  match s.launch t, s.group t group with
  | some l, some g =>
    let go := fun (ps : List (Nat × Nat × Pack)) (f : State → State) =>
      if (ps.all fun p => p.2.2.quiet && (s.core p.1).fifos.all fun f => f.2.promised == 0) && !s.flushDue ps then
        Host.Outcome.next (f (ps.foldl (fun s p => s.haltPack p.1 p.2.1) s))
      else .refused (.notEnabled "VICTIM_STOP")
    let closure := s.packsOn l.ctx (s.closureOf l.ctx g)
    match g.victim, g.stopped with
    | some .flush, false =>
      if !g.committed then go (s.ownPacks g) fun s => s.flushVictim t g
      else if s.saveFits l.ctx g then .next (s.beginVictim l g .save g.requester)
      else .next (s.drainClosure (s.ownPacks g) g.requester)
    | some .save, false =>
      if !s.saveFits l.ctx g then .next (s.drainClosure closure g.requester)
      else if s.closureGrown closure then .next (s.beginVictim l g .save g.requester)
      else
        go closure fun s => (groupsOf closure).foldl (fun s t => s.modGroup t.1 t.2 fun g => { g with stopped := true }) s
    | _, _ => .refused (.notEnabled "VICTIM_STOP")
  | _, _ => .refused (.notEnabled "VICTIM_STOP")

/-! ### Save and restore (R337–R341) -/

/-- Lift a saved pack off its core; its spill area stays its own. -/
def State.liftPack (s : State) (p : Nat × Nat × Pack) : State :=
  let d := (p.2.2.ctx, s.imageOf p.2.2)
  let others := (s.claims (((s.core p.1).packs.filter fun q => q.1 != p.2.1).map (·.2))).contains d
  (s.setCore p.1 ((s.core p.1).drop p.2.1 others d)).modContext p.2.2.ctx fun c => c.forgetAsks p.1 p.2.1

/-- A pack in a save record is SAVED; an ENDED one stays so, with the deterministic entries that its group's flush will apply (09 R237) (log
entry 79). -/
def Pack.saved (k : Pack) : Pack := if k.phase == .ended then k else { k with phase := .saved }

/-- A core as its block holds it: bank modes and contents, pointers, and the packs of the context. -/
def Core.saved (c : Core) (ctx : Nat) : Core :=
  { packs := (c.packs.filter fun p => p.2.ctx == ctx).map fun p => (p.1, p.2.saved), banks := c.banks, fifos := c.fifos, sram := c.sram, cwp := c.cwp, copySeq := c.copySeq }

/-- Reservations become dormant with the save that records them (R342) (log entry 38). -/
def State.sleepResvs (s : State) (colls : List (Nat × Nat × Nat)) : State :=
  colls.foldl (fun s c => { s with resvs := s.resvs.update c.1 fun r => { r with dormant := some c.2.2 } }) s

/-- CLOSURE_SAVE (R338): the record is written in the pool, the cores are released, and the groups wait to be placed again. A closure that
has grown stops anew, and one for which the pool has no room left is drained (R335, R336) (log entry 37). -/
def execClosureSave (queue index group : Nat) (s : State) : Out :=
  let t : Tag := { queue := queue, index := index }
  match s.launch t, s.group t group with
  | some l, some g =>
    let ps := s.packsOn l.ctx (s.closureOf l.ctx g)
    if g.victim != some .save || !g.stopped then .refused (.notEnabled "CLOSURE_SAVE")
    else if s.closureGrown ps then .next (s.beginVictim l g .save g.requester)
    else
      let c := s.closure l.ctx g
      let bytes := s.saveBytes c
      match s.carve l.ctx (ceilDiv bytes.length 4096) with
      | none => .next (s.drainClosure ps g.requester)
      | some (a, x) =>
        let sv : Save :=
          { id := s.clock, base := x.pool + 4096 * a, size := bytes.length, bytes := bytes
            cores := c.cores.zipIdx.map fun p => (p.2, (s.core p.1).saved l.ctx)
            groups := c.groups.map fun g => (g.1, { g.2 with victim := none, requester := none, stopped := false })
            colls := c.colls, time := s.now }
        let s := (s.setContext { x with saves := x.saves ++ [sv] }).outsideWrite sv.base bytes
        let s := ps.foldl (fun s p => s.liftPack p) s
        let s := c.groups.foldl (fun s g =>
          (s.modLaunch g.1 fun l => { l with groups := l.groups.del g.2.x, savedGroups := l.savedGroups ++ [g.2.x] }).lapse g.1) s
        .next (({ s with clock := s.clock + 1 } : State).sleepResvs c.colls).settleRevokes
  | _, _ => .refused (.notEnabled "CLOSURE_SAVE")

/-- Read the blocks of a record back, with the lengths they were written with (R338, R341) (log entry 36). -/
def eachBlock {α : Type} (f : α → List Byte → List Byte → Option α) :
    List (α × Nat) → (written now : List Byte) → Option (List α)
  | [], _, _ => some []
  | (x, n) :: rest, w, b =>
    match f x (w.take n) (b.take n), eachBlock f rest (w.drop n) (b.drop n) with
    | some y, some l => some (y :: l)
    | _, _ => none

/-- The packs of a save record, by core index and slot. -/
def Save.packs (v : Save) : List (Nat × Nat × Pack) := v.cores.flatMap fun c => c.2.packs.map fun p => (c.1, p.1, p.2)

/-- The record's groups with their accumulators as its records say. -/
def accumsBack : List (Tag × Group) → (bytes : List Byte) → Option (List (Tag × Group))
  | [], _ => some []
  | g :: rest, b =>
    let n := 64 * g.2.accs.length
    match eachOfImage Accum.ofImage 64 g.2.accs b, accumsBack rest (b.drop n) with
    | some as, some l => some ((g.1, { g.2 with accs := as }) :: l)
    | _, _ => none

/-- A save record as its bytes now stand: as it was where they are those written, else what they say; none where R37 or R246 finds a fault
(R341) (log entry 36). -/
def Save.reread (v : Save) (now : List Byte) : Option Save :=
  if now == v.bytes then some v
  else if !asWritten v.bytes now 0 32 || !asWritten v.bytes now 40 88 then none
  else
    let ps := inBlockOrder v.groups v.packs
    let gs := v.groups.map fun g => (g, 64)
    let cs := v.cores.map fun c => (c, c.2.block.length)
    let ks := ps.map fun p => (p, (p.2.2.block 0 0 0).length)
    let atCores := 128 + roundUp (64 * v.groups.length) 128
    let atPacks := atCores + (cs.map (·.2)).sum
    let atAccs := atPacks + (ks.map (·.2)).sum
    let group := fun (g : Tag × Group) (w b : List Byte) => (g.2.ofImage w b).map fun h => (g.1, h)
    let core := fun (c : Nat × Core) (w b : List Byte) => (c.2.ofBlock w b).map fun k => (c.1, k)
    let pack := fun (p : Nat × Nat × Pack) (w b : List Byte) => (p.2.2.ofBlock w b).map fun k => (p.1, p.2.1, k)
    match eachBlock group gs (v.bytes.drop 128) (now.drop 128), eachBlock core cs (v.bytes.drop atCores) (now.drop atCores),
        eachBlock pack ks (v.bytes.drop atPacks) (now.drop atPacks) with
    | some gs, some cs, some ks =>
      (accumsBack gs (now.drop atAccs)).map fun gs =>
        let back := fun (c slot : Nat) (k : Pack) => ((ks.find? fun p => p.1 == c && p.2.1 == slot).map (·.2.2)).getD k
        { v with groups := gs, cores := cs.map fun c => (c.1, { c.2 with packs := c.2.packs.map fun p => (p.1, back c.1 p.1 p.2) }) }
    | _, _, _ => none

/-- A pack as it is placed again (R341); `bad` marks a record at fault (01 R37) (log entry 36). -/
def Pack.restored (k : Pack) (bad : Bool) : Pack :=
  let r := fun sp : Split =>
    ({ code := 0x08, info := BitVec.ofNat 128 (handleWord 0x1D), joint := false, slot := 0, epc := sp.pc, mask := k.live sp,
       active := k.live sp } : TrapRec)
  { k with
    phase := if k.phase == .ended then .ended else if k.splits.isEmpty then .draining else .placed
    stopping := false, loop := none, cur := none
    splits := if bad then k.splits.map fun e => (e.1, { e.2 with status := .ready, spill := none, pending := some (r e.2) }) else k.splits }

/-- The core a saved block is restored on: its packs come beside those that are there, and its images are written back (R339, R341) (log
entry 35). -/
def State.restoreCore (s : State) (ctx core : Nat) (b : Core) (bad : Bool) : State :=
  let c := (s.core core).passTo ctx
  let c := (List.range 16).foldl (fun c k => c.setBank k (b.bank k)) c
  let c := { c with
    packs := b.packs.foldl (fun m p => Table.put m p.1 (p.2.restored bad)) c.packs, sram := b.sram, fifos := b.fifos, cwp := b.cwp
    copySeq := b.copySeq }
  let s := (s.setCore core c).voidPromises core
  b.packs.foldl (fun s p =>
    match s.launch p.2.tag, s.context ctx with
    | some l, some x => s.setCore core ((s.core core).loadDict (s.readDict x l))
    | _, _ => s) s

/-- A group's accumulators take ways of the L2 of the cluster it is placed in (10 R263). -/
def State.pinGroup (s : State) (t : Tag) (x : Nat) : State :=
  match s.group t x with
  | none => s
  | some g =>
    let t0 := s.modGroup t x fun g => { g with accs := [] }
    g.accs.foldl (fun s a =>
      let p := s.pinWay g.cluster a.dest
      p.1.modGroup t x fun g => { g with accs := g.accs ++ [{ a with set := p.2.1, way := p.2.2 }] }) t0

/-- CLOSURE_RESTORE (R337, R341): the closure's queue is the one to be served (R326), and the closure is placed again whole, each block on one
core of the cluster (log entries 35, 36). A group whose packs had all ended completes then, if nothing of it is in flight (R329). -/
def execClosureRestore (ctx save cluster : Nat) (positions : List Nat) (s : State) : Out :=
  match (s.context ctx).bind fun c => c.saves.find? fun v => v.id == save with
  | none => .refused (.notEnabled "CLOSURE_RESTORE")
  | some v =>
    let cores := positions.map fun p => 128 * cluster + p % 128
    if cores.length != v.cores.length || cores.eraseDups.length != cores.length || s.phase != 5 ||
        !((v.cores.zip cores).all fun p => s.blockFits p.2 p.1.2) ||
        !v.groups.any (fun g => s.chosenQueue == some g.1.queue) then .refused (.notEnabled "CLOSURE_RESTORE")
    else
      let back := v.reread (s.mem.readList v.base v.size)
      let bad := back.isNone
      let v := back.getD v
      let served := s.chosenQueue
      let s := (v.cores.zip cores).foldl (fun s p => s.restoreCore ctx p.2 p.1.2 bad) s
      let at_ := fun t x => (v.cores.zip cores).flatMap fun p =>
        (sortBy (fun q => q.2.lpack) (p.1.2.packs.filter fun q => q.2.tag == t && q.2.group == x)).map fun q => (q.2.lpack, p.2, q.1)
      let s := v.groups.foldl (fun s g =>
        let ps := (sortBy (·.1) (at_ g.1 g.2.x)).map (·.2)
        let s := s.modLaunch g.1 fun l =>
          { l with
            groups := l.groups.put g.2.x { g.2 with cluster := cluster, packs := ps, since := s.now, serial := s.clock }
            savedGroups := l.savedGroups.filter (· != g.2.x) }
        (if served == some g.1.queue then s.servedQueue g.1.queue else s.placedFrom g.1.queue).pinGroup g.1 g.2.x) s
      let s := s.modContext ctx fun c =>
        { c.giveBack ((v.base - c.pool) / 4096) with saves := c.saves.filter fun w => w.id != save }
      let s := { s with clock := s.clock + 1 }.wakeResvs ctx
      .next (v.groups.foldl (fun s g => s.groupEnd g.1 g.2.x) s).settleRevokes

/-- RESERVATION_EXPIRY (R342): a dormant reservation is released at its EXPIRY (log entry 38). -/
def execReservationExpiry (resv : Nat) (s : State) : Out :=
  match s.resvs.get resv with
  | none => .refused (.notEnabled "RESERVATION_EXPIRY")
  | some r =>
    if r.dormant.elim false fun e => decide (e ≤ s.now) then
      .next { s with resvs := s.resvs.put resv { r with dormant := none, released := true } }
    else .refused (.notEnabled "RESERVATION_EXPIRY")

end Sys2Proof.Machine
end

