-- ==== Sys2Proof/Machine/Contexts.lean ====
section
/-!
DEFINITION. The end of a context (15 R317, R343), its quiescence (15 R332), and the walk that fills a core's TLB (16 R348, R351).
-/

namespace Sys2Proof.Machine

/-! ### TABLE_WALK (16 R348, R351) -/

/-- The context whose packs a core holds: that of its lowest slot. -/
def State.residentCtx (s : State) (core : Nat) : Option Nat := ((s.core core).packs.head?).map fun p => p.2.ctx

/-- TABLE_WALK (16 R348): a load's address that misses the core's TLB is walked for the resident context. A leaf that permits the load fills
the TLB; a walk that fails, or a page that does not permit it, leaves only the walk cache entries it made: the instruction that meets it
raises the fault (log entry 59). -/
def execTableWalk (core : Nat) (va : DWord) (s : State) : Out :=
  match s.residentCtx core with
  | none => .refused (.notEnabled "TABLE_WALK")
  | some ctx =>
    if (s.tlbHit core false ctx va.toNat).isSome then .refused (.notEnabled "TABLE_WALK")
    else .next (s.reach core false ctx va .load).1

/-! ### QUIESCENCE_DECLARED (R332) -/

/-- Every pack of a context, resident or saved. -/
def State.packsOfCtx (s : State) (ctx : Nat) : List Pack :=
  let resident := s.cores.flatMap fun c => c.2.packs.map (·.2)
  let saved := (s.contexts.flatMap fun c => c.2.saves).flatMap fun v => v.cores.flatMap fun c => c.2.packs.map (·.2)
  (resident ++ saved).filter fun k => k.ctx == ctx

/-- Every list is empty and every hold count, of saved packs too, is zero (R332) (log entry 59). -/
def State.quiet (s : State) (c : Context) : Bool :=
  (c.lists.all fun l => l.2.count == 0) && (s.packsOfCtx c.num).all fun k => k.wlhold == 0

/-- QUIESCENCE_DECLARED (R332) (log entry 59). -/
def execQuiescenceDeclared (ctx : Nat) (s : State) : Out :=
  match s.context ctx with
  | none => .refused (.notEnabled "QUIESCENCE_DECLARED")
  | some c =>
    if c.quiescent || !s.quiet c then .refused (.notEnabled "QUIESCENCE_DECLARED")
    else .next (s.setContext { c with quiescent := true })

/-! ### DESTROY (R317) -/

/-- The launches of a context that are not closed. -/
def State.openLaunches (s : State) (ctx : Nat) : List Tag :=
  (s.launches.filter fun l => l.kind == 1 && l.ctx == ctx && l.phase != .closed).map (·.tag)

/-- Close the open sequences of a context whose LEFT and CLOSE records find room in the pool; those of the others are discarded but for
their records, which wait (20 R409, R412) (log entry 58). -/
def State.closeSeqs (s : State) (ctx : Nat) : State :=
  ((s.context ctx).elim [] fun c => c.seqs.map (·.1)).foldl (fun s n =>
    let s := s.modSeq ctx n fun q => { q with held := [] }
    if s.recordRoom ctx (((s.seq ctx n).elim 0 fun q => q.left.length) + 1) then s.closeSeq ctx n else s) s

/-- The context has no open sequence left. -/
def State.seqsClosed (s : State) (ctx : Nat) : Bool := (s.context ctx).all fun c => c.seqs.isEmpty

/-- Steps 1 and 2: the context takes no more records, its launches end ABORTED, its sequences close, then its save records go (log entry 58). -/
def State.endContext (s : State) (ctx : Nat) (t : Tag) : State :=
  let s := (s.openLaunches ctx).foldl (fun s t => s.endTask t 3 0) s
  let s := s.closeSeqs ctx
  s.modContext ctx fun c => { c with saves := if s.seqsClosed ctx then [] else c.saves, ending := some t }

/-- A pack or a payload of the context is still in the device (log entry 58). -/
def State.contextBusy (s : State) (ctx : Nat) : Bool :=
  (s.cores.any fun c => c.2.packs.any fun p => p.2.ctx == ctx && p.2.ops.any (fun o => o.cls != .none_)) ||
    s.inflight.any fun p => (s.launch p.tag).elim false fun l => l.ctx == ctx

/-- The pages of a ZLIST (R317) (log entry 58). -/
def State.zlist (s : State) (a n : Nat) : List Nat := (List.range n).map fun k => s.mem.readLE (a + 8 * k) 8 / 4096 * 4096

/-- Zero the filter entries of the multicast groups of a bitmap, in every cluster (R343). -/
def State.zeroFilters (s : State) (groups : Nat) : State :=
  ((List.range 256).filter fun g => bit groups g).foldl (fun s g =>
    (List.range Config.clusters).foldl (fun s c =>
      { s with window := s.window.clear (filterAt c g) (filterAt c g + 32) }) s) s

/-- Release every pack of a context (R343). -/
def State.releaseContext (s : State) (ctx : Nat) : State :=
  (s.cores.flatMap fun c => (c.2.packs.filter fun p => p.2.ctx == ctx).map fun p => (c.1, p.1)).foldl
    (fun s p => s.releasePack p.1 p.2) s

/-- Steps 3 and 4: reservations, the pool, the pages and filter entries listed, what it owned on cores, and the context with its cached
translations. -/
def State.dropContext (s : State) (bs : List Byte) (c : Context) : State :=
  let u := recField bs
  let s := { s.releaseContext c.num with resvs := s.resvs.filter fun r => r.2.ctx != c.num }
  let pages := (s.zlist (u 8 8) (u 16 4)).filter fun a => inDevice a 4096
  let s := pages.foldl (fun s a => (s.physZero a 4096).unretain a 4096) ((s.physZero c.pool c.poolSize).unretain c.pool c.poolSize)
  let s := s.zeroFilters (u 32 32)
  { s with
    contexts := s.contexts.del c.num
    pageLists := s.pageLists.filter fun p => p.ctx != c.num
    tlb := s.tlb.filter fun e => e.ctx != c.num, walkCache := s.walkCache.filter fun e => e.ctx != c.num
    cores := s.cores.map fun k => (k.1, k.2.disown c.num) }

/-- DESTROY (R317): the context's work ends; once what it had issued is complete (04 R114) and its journals have closed, its resources are zeroed and the record completes (log entry 58). -/
def execDestroy (queue : Nat) (s : State) : Out :=
  match s.headRecord queue with
  | none => .refused (.notEnabled "DESTROY")
  | some l =>
    if l.kind != 3 then .refused (.notEnabled "DESTROY")
    else
      match destroyFault l.bytes, s.context l.ctx with
      | some d, _ => .next (s.finish l.tag 21 d)
      | none, none => .next (s.finish l.tag 20 l.ctx)
      | none, some c =>
        if c.ending.any (· != l.tag) then .next (s.finish l.tag 20 l.ctx)
        else
        let s := s.endContext l.ctx l.tag
        if s.contextBusy l.ctx || !s.seqsClosed l.ctx then .next s else .next ((s.dropContext l.bytes c).finish l.tag 1 0)

end Sys2Proof.Machine
end

