-- ==== Sys2Proof/Machine/Islands.lean ====
section
/-!
DEFINITION. Voltage and frequency islands (18 R374–R376): points, throttling, and the safe points of a complex reset (16 R360).
-/

namespace Sys2Proof.Machine

/-- Island `i`. -/
def State.island (s : State) (i : Nat) : Island := s.islands.getD i {}

/-- Replace island `i`. -/
def State.setIsland (s : State) (i : Nat) (x : Island) : State := { s with islands := s.islands.put i x }

/-- The row y of compute field `f` (10 R264). -/
def fieldRow (f : Nat) : Nat := if f < 18 then f / 6 else if f < 22 then 3 else 4 + (f - 22) / 6

/-- The semaphore that guards an island's point (18 R375). -/
def islandSem (i : Nat) : Nat := if i < 40 then 29 + fieldRow i else if i < 42 then 32 else 36 + (i - 42)

/-- Write POINT: 5–7, and any value but 2 for islands 42–47, leave it unchanged (18 R375). -/
def State.writePoint (s : State) (i point : Nat) : State :=
  if 4 < point || (42 ≤ i && point != 2) then s
  else s.setIsland i { s.island i with point := point }

/-- ISLAND_POINT_WRITE (18 R375): ignored unless the complex holds the island's semaphore. -/
def execIslandPointWrite (complex island point : Nat) (s : State) : Out :=
  if 48 ≤ island || 8 ≤ point then .refused (.notEnabled "ISLAND_POINT_WRITE")
  else if s.guarded complex (islandSem island) then .next (s.writePoint island point)
  else .next s

/-- The island with the point asked for in force; one that is throttled does not rise (18 R376) (log entry 56). -/
def Island.changed (x : Island) : Island := { x with current := if x.throttled then min x.current x.point else x.point }

/-- ISLAND_POINT_CHANGE (18 R376): the island's regions resume at the new point; nothing else changes. -/
def execIslandPointChange (island : Nat) (s : State) : Out :=
  if 48 ≤ island then .refused (.notEnabled "ISLAND_POINT_CHANGE") else .next (s.setIsland island (s.island island).changed)

/-- ISLAND_THROTTLE (18 R376): CURRENT is lowered, for temperature or power. -/
def execIslandThrottle (island point temp : Nat) (s : State) : Out :=
  let x := s.island island
  if 48 ≤ island || x.current ≤ point then .refused (.notEnabled "ISLAND_THROTTLE")
  else .next (s.setIsland island { x with current := point, throttled := true, temp := min temp 255 })

/-- ISLAND_THROTTLE_END (18 R376): the sensor has fallen to 95 °C and power allows: CURRENT is restored. -/
def execIslandThrottleEnd (island temp : Nat) (s : State) : Out :=
  let x := s.island island
  if 48 ≤ island || !x.throttled || 95 < temp then .refused (.notEnabled "ISLAND_THROTTLE_END")
  else .next (s.setIsland island { x with current := x.point, throttled := false, temp := temp })

/-- A sensor reads: one that reaches 105 °C lowers CURRENT below POINT at once, and holds it there until ISLAND_THROTTLE_END (18 R376) (log entry
56). -/
def Island.sensed (x : Island) (temp : Nat) : Island :=
  if temp < 105 then { x with temp := temp }
  else { x with temp := min temp 255, current := min x.current (x.point - 1), throttled := true }

/-- An island back at its nominal point (16 R360). -/
def Island.nominal (x : Island) : Island := ({ x with point := 2 } : Island).changed

end Sys2Proof.Machine
end

