-- ==== Sys2Proof/Machine/Host.lean ====
section
/-!
DEFINITION. The host complexes: event delivery (16 R357, R362–R364), hardware semaphores and the reset of a complex (16 R359, R360).
-/

namespace Sys2Proof.Machine

/-! ### Events (R357, R362–R364) -/

/-- The window offset of a complex's event ring registers (R356). -/
def ringAt (complex : Nat) : Nat := 0x300000 + 0x100 * complex

/-- The MSI address of interrupt file f of a hart in a complex (R362). -/
def msiAddr (complex hart file : Nat) : Nat := 0x00F4000000000000 + complex * 0x1000000 + file * 0x100000 + hart * 0x1000

/-- The record as it is written in the ring: an ERROR record takes GEN, and REMAPPED and CURHANDLE where the handle bound at its place has
changed since the fault: CURHANDLE is the handle bound there now, or, where none is, the record's own at the spare that it moved to (20 R420)
(log entry 49). -/
def State.finalBytes (s : State) (e : Event) : List Byte :=
  match e.unitAt with
  | none => e.bytes
  | some (c, p) =>
    let b := patchBytes e.bytes 44 4 s.bindGen
    let then_ := natLE ((b.drop 12).take 4)
    let at_ := if c < 160 && p < 128 then s.handleAt (128 * c + p) else 0
    let moved := s.bindings.any fun b => b.handle.toNat == then_ && !b.retired
    let now := if at_ = 0 && moved then then_ else at_
    if then_ != 0 && at_ != then_ then patchBytes (patchBytes b 21 1 (natLE ((b.drop 21).take 1) + 1)) 24 4 now else b

/-- An ERROR record that further occurrences may still join is not written yet (20 R420). -/
def State.stillOpen (s : State) (e : Event) : Bool :=
  s.errors.any fun o => e.isError o.errSeq && decide (s.now < o.first + 1000000)

/-- EVENT_DELIVERY (R364): the context's oldest event, where its routing entry and the ring permit; bytes 1–63 then byte 0, EVTAIL, the
MSI (log entry 57). -/
def execEventDelivery (ctx : Nat) (s : State) : Out :=
  match s.events.find? fun e => e.ctx == ctx with
  | none => .refused (.notEnabled "EVENT_DELIVERY")
  | some e =>
    let r := s.win (0x200000 + 8 * ctx) 8
    let eiid := cut r 10 11
    let c := cut r 1 1
    let g := ringAt c
    let slots := s.win (g + 8) 4
    let tail := s.win (g + 20) 4
    let held := (tail + 2 ^ 32 - s.win (g + 16) 4) % 2 ^ 32
    let at_ := s.win g 8 + 64 * (tail % slots)
    if !bit r 0 || eiid == 0 || s.win (g + 12) 1 % 2 == 0 || !slotsOk slots || slots ≤ held || !inDevice at_ 64 || s.stillOpen e then
      .refused (.notEnabled "EVENT_DELIVERY")
    else
      let b := s.finalBytes e
      let s := (s.outsideWrite (at_ + 1) (b.drop 1)).outsideWrite at_ (b.take 1)
      let s := s.setWin (g + 20) 4 (tail + 1)
      .next ({ s with events := s.events.erase e }.send (.msi (msiAddr c (cut r 2 5) (cut r 7 3)) eiid))

/-! ### Semaphores (R359) -/

/-- Semaphore `n`. -/
def State.sem (s : State) (n : Nat) : Sem := s.sems.getD n {}

/-- A complex writes HELD (R359): 1 acquires a free semaphore, 0 releases the complex's own; anything else is ignored. -/
def State.writeSem (s : State) (complex n value : Nat) : State :=
  let m := s.sem n
  if value % 2 = 1 then
    if m.held then s else { s with sems := s.sems.put n { held := true, owner := complex, count := (m.count + 1) % 2 ^ 16 } }
  else if m.held && m.owner == complex then { s with sems := s.sems.put n { m with held := false } }
  else s

/-- SEMAPHORE_ACQUIRE (R359). -/
def execSemaphoreAcquire (complex n : Nat) (s : State) : Out :=
  if 2 ≤ complex || 64 ≤ n then .refused (.notEnabled "SEMAPHORE_ACQUIRE") else .next (s.writeSem complex n 1)

/-- SEMAPHORE_RELEASE (R359). -/
def execSemaphoreRelease (complex n : Nat) (s : State) : Out :=
  if 2 ≤ complex || 64 ≤ n then .refused (.notEnabled "SEMAPHORE_RELEASE") else .next (s.writeSem complex n 0)

/-! ### Reset of a complex (R360) -/

/-- The safe state of what a semaphore guards (R360) (log entry 56). -/
def State.safeState (s : State) (n : Nat) : State :=
  if n = 0 then if s.maps.stat = 1 then { s with maps := { s.maps with stat := 0 } } else s
  else if n < 5 then if (s.plane (n - 1)).state == .active then s else (s.setPlane (n - 1) {}).resumeTurns
  else if n < 29 then s
  else if n < 42 then
    ((List.range 48).filter fun i => islandSem i == n).foldl (fun s i => s.setIsland i (s.island i).nominal) s
  else if n = 42 then { s with slew := 0 }
  else s

/-- HOST_COMPLEX_RESET (R360, R364): every semaphore the complex holds is released and its resource takes its safe state; the complex's event
ring is not in use until it is enabled again (log entry 56). -/
def execHostComplexReset (complex : Nat) (s : State) : Out :=
  if 2 ≤ complex then .refused (.notEnabled "HOST_COMPLEX_RESET")
  else
    let held := (s.sems.filter fun m => m.2.held && m.2.owner == complex).map (·.1)
    let s := held.foldl (fun s n => (s.writeSem complex n 0).safeState n) s
    .next (s.setWin (ringAt complex + 12) 4 0)

end Sys2Proof.Machine
end

