-- ==== Sys2Proof/Machine/Commands.lean ====
section
/-!
DEFINITION. Commands of the command blocks (16 R358): RESUME to UNREVOKE, page migration (16 R354), QUERY (18 R391), ATTEST (18 R388), and
circuit reservations (19 R403). A command event is the write of DOORBELL, and where the command has to wait, each later try to end it.
-/

namespace Sys2Proof.Machine

/-- Carry out a command of a kind: `run` answers the state with the command done, or none where it must wait; it then stays BUSY. A doorbell
while another command is in progress is ignored (log entry 44). -/
def command (mn : String) (kind complex : Nat) (s : State) (run : State → Option State) : Out :=
  if 2 ≤ complex then .refused (.notEnabled mn)
  else if s.cmd complex 0 1 != kind then if s.cmdBusy complex then .next s else .refused (.notEnabled mn)
  else
    match run s with
    | some t => .next t
    | none => .next (if s.cmdBusy complex then s else s.cmdStart complex)

/-- The command's CONTEXT. -/
def State.cmdCtx (s : State) (complex : Nat) : Nat := s.cmd complex 4 4

/-! ### RESUME, RETRY (R358) -/

/-- The suspended split that RESUME names, with its pack, core and slot (log entry 41). -/
def State.suspendedAt (s : State) (ctx launch group lpack split : Nat) : Option (Nat × Nat × Pack × Split) :=
  (s.cores.flatMap fun c => c.2.packs.map fun p => (c.1, p.1, p.2)).findSome? fun p =>
    let k := p.2.2
    if k.ctx == ctx && k.tag.word == launch && k.group == group && k.lpack == lpack then
      match k.split split with
      | some sp => if sp.suspended then some (p.1, p.2.1, k, sp) else none
      | none => none
    else none

/-- What RESUME does (log entries 13, 41). -/
def State.runResume (s : State) (c : Nat) : State :=
  if !s.cmdClean c [(0, 1), (4, 16)] || 1 < s.cmd c 15 1 then s.cmdDone c 5
  else
    match s.suspendedAt (s.cmdCtx c) (s.cmd c 16 4) (s.cmd c 8 4) (s.cmd c 12 2) (s.cmd c 14 1) with
    | none => s.cmdDone c 6
    | some (core, slot, k, sp) =>
      if s.cmd c 15 1 = 0 then
        let t := s.setPack core slot (k.setSplit (sp.leave (s.skipFrom core k sp.trap.epc) s.clock))
        ({ t with clock := t.clock + 1 } : State).cmdDone c 2
      else ((s.trapEvent 1 core k sp.id sp.lastRecord true sp.inh).endTask k.tag 2 k.group).cmdDone c 2

/-- RESUME (R358): the suspended split goes on as by `hret.skip`, or its task ends. -/
def execResume (complex : Nat) (s : State) : Out := command "RESUME" 1 complex s fun s => some (s.runResume complex)

/-- What RETRY does: the pages that failed are walked again by the launch's next walk (log entry 45). -/
def State.runRetry (s : State) (c : Nat) : State :=
  if !s.cmdClean c [(0, 1), (4, 4)] then s.cmdDone c 5
  else if (s.context (s.cmdCtx c)).isNone then s.cmdDone c 6
  else
    ({ s with launches := mapIf (fun l => l.ctx == s.cmdCtx c) (fun l => { l with failedPages := [] }) s.launches } : State).cmdDone c 2

/-- RETRY (R358). -/
def execRetry (complex : Nat) (s : State) : Out := command "RETRY" 2 complex s fun s => some (s.runRetry complex)

/-! ### REVOKE, UNREVOKE (R358) -/

/-- The range of a REVOKE or UNREVOKE is well formed. -/
def State.rangeOk (s : State) (c : Nat) : Bool :=
  s.cmdClean c [(0, 1), (4, 4), (8, 16)] && s.cmd c 8 8 % 4096 == 0 && s.cmd c 16 8 % 4096 == 0

/-- The launch holds a lease over the range of a command. -/
def State.leaseIn (s : State) (c : Nat) (l : Launch) : Bool := l.leases.any fun e => overlap e.base e.len (s.cmd c 8 8) (s.cmd c 16 8)

/-- Every placed group of the context whose launch holds such a lease is saved, or drained where the pool lacks room. -/
def State.revokeGroups (s : State) (c : Nat) : State :=
  let gs := s.launches.flatMap fun l =>
    if l.ctx == s.cmdCtx c && l.leased && s.leaseIn c l then
      (l.groups.filter fun g => !g.2.packs.isEmpty && !g.2.ended).map fun g => (l, g.1)
    else []
  gs.foldl (fun s p =>
    match s.group p.1.tag p.2 with
    | some g => if g.victim.isSome then s else s.beginVictim p.1 g (if s.saveFits p.1.ctx g then .save else .drain) none
    | none => s) s

/-- What REVOKE does: the hold stands from now on, and the command ends once no placed group holds such a lease. -/
def State.runRevoke (s : State) (c : Nat) : State :=
  if s.cmdBusy c then s.settleRevokes
  else if !s.rangeOk c then s.cmdDone c 5
  else
    match s.context (s.cmdCtx c) with
    | none => s.cmdDone c 6
    | some x =>
      let s := s.setContext { x with holds := x.holds ++ [(s.cmd c 8 8, s.cmd c 16 8)] }
      ((s.cmdStart c).revokeGroups c).settleRevokes

/-- REVOKE (R358). -/
def execRevoke (complex : Nat) (s : State) : Out := command "REVOKE" 3 complex s fun s => some (s.runRevoke complex)

/-- What UNREVOKE does: the hold goes, and launches it held walk their leases again before a placement (log entry 45). -/
def State.runUnrevoke (s : State) (c : Nat) : State :=
  if !s.rangeOk c then s.cmdDone c 5
  else
    match s.context (s.cmdCtx c) with
    | none => s.cmdDone c 6
    | some x =>
      let idle := fun l : Launch => l.ctx == x.num && s.leaseIn c l && l.groups.all fun g => g.2.packs.isEmpty
      let t := { s with launches := mapIf idle (fun l => { l with leased := false }) s.launches }
      (t.setContext { x with holds := x.holds.filter (· != (s.cmd c 8 8, s.cmd c 16 8)) }).cmdDone c 2

/-- UNREVOKE (R358). -/
def execUnrevoke (complex : Nat) (s : State) : Out := command "UNREVOKE" 4 complex s fun s => some (s.runUnrevoke complex)

/-! ### Migration (R354) -/

/-- Every page that a context's tables map, from a table down, as (base, size). -/
def State.leavesFrom (s : State) : (levels : Nat) → (table : Nat) → List (Nat × Nat)
  | 0, _ => []
  | l + 1, a =>
    (List.range 512).flatMap fun i =>
      let e := s.mem.readLE (a + 8 * i) 8
      if malformed e l != 0 then []
      else if ptePointer e then s.leavesFrom l (ptePpn e * 4096)
      else [(leafBase e (leafSize e l), leafSize e l)]

/-- Another page of the context is mapped to some physical bytes. -/
def State.mapsOther (s : State) (c : Context) (old size new : Nat) : Bool :=
  (s.leavesFrom 5 c.table).any fun p => p != (old, size) && overlap p.1 p.2 new size

/-- A launch holds the page, by a lease or by a token word (R354, 15 R324) (log entry 45). -/
def State.pageLeased (s : State) (ctx va size : Nat) : Bool :=
  s.launches.any fun l =>
    l.ctx == ctx && l.phase != .closed &&
      ((l.leased && l.leases.any fun e => overlap e.base e.len va size) ||
        (l.phase != .consumed && ((l.waitTok != 0 && overlap l.waitTok 8 va size) || (l.sigTok != 0 && overlap l.sigTok 8 va size))))

/-- The attribute bytes of a page's granules, where the context has a map (R347). -/
def attrBytes (map base size : Nat) : List Nat :=
  (List.range (max 1 (size / 65536))).filterMap fun k => attrAt map (base + 65536 * k)

/-- Step 1 of a migration: ARMED is set and WVER recorded in each granule's attribute byte; the TLBs drop (R352) (log entry 46). -/
def State.arm (s : State) (m : Migration) (map : Nat) : State × Migration :=
  let as := attrBytes map m.oldPa m.size
  let armed := as.map fun a => (a, (s.mem.get a).toNat / 16)
  let s := as.foldl (fun s a => s.outsideWrite a (bytesLE 1 ((s.mem.get a).toNat ||| 2))) s
  (s.dropTranslations (m.leafAt / 128 * 128) 128, { m with armed := armed })

/-- What MIGRATE does: its checks, then step 1; it stays BUSY until its commit (log entry 45). -/
def State.runMigrate (s : State) (c : Nat) : State :=
  if s.cmdBusy c then s
  else
    let va := s.cmd c 8 8
    let new := s.cmd c 16 8
    let z := s.cmd c 24 1
    let size := if z = 0 then 4096 else if z = 1 then 65536 else 2 * 2 ^ 20
    if !s.cmdClean c [(0, 1), (4, 4), (8, 17)] || 2 < z then s.cmdDone c 5
    else
      match s.context (s.cmdCtx c) with
      | none => s.cmdDone c 6
      | some x =>
        match if canonical (BitVec.ofNat 64 va) then s.walkFrom va 5 x.table [] else .error .addr with
        | .error _ => s.cmdDone c 5
        | .ok l =>
          let old := leafBase l.entry size
          if leafSize l.entry l.level != size || new % size != 0 || !inDevice new size || attrOut x.attrMap old size ||
              s.mapsOther x old size new then s.cmdDone c 5
          else if s.pageLeased x.num (va / size * size) size then s.cmdDone c 4
          else
            let m : Migration :=
              { ctx := x.num, va := va / size * size, newPa := new, size := size, oldPa := old, leafAt := l.at_, leaf := l.entry, armed := [] }
            let t := s.arm m x.attrMap
            ({ t.1 with migrations := t.1.migrations.put c t.2 } : State).cmdStart c

/-- MIGRATE (R354). -/
def execMigrate (complex : Nat) (s : State) : Out := command "MIGRATE" 5 complex s fun s => some (s.runMigrate complex)

/-- An outstanding operation still has bytes of a page to write. -/
def PendOp.writesTo (o : PendOp) (base size : Nat) : Bool :=
  let lanes := o.lanes.any fun l => !l.done && overlap l.pa 16 base size
  let runs := fun r : Runs => r.any fun e => overlap e.1 e.2.1 base size
  !o.done && match o.kind with
    | .store _ => lanes
    | .atomic _ _ => lanes
    | .adet => lanes
    | .copy _ _ into _ _ _ r => !into && runs r
    | .tstore _ _ r => runs r
    | _ => false

/-- A device write translated to the page is still to be performed, or is held for a flush (log entry 46). -/
def State.pageBusy (s : State) (base size : Nat) : Bool :=
  (s.cores.any fun c => c.2.packs.any fun p =>
    (p.2.ops.any fun o => o.writesTo base size) || p.2.det.any fun e => overlap e.addr 8 base size) ||
    s.launches.any fun l => l.groups.any fun g => g.2.accs.any fun a => overlap a.dest 8 base size

/-- Copy `n` bytes of device memory, the cells that hold something. -/
def Bytes.copyRange (m : Bytes) (src dst n : Nat) : Bytes :=
  (m.filter fun e => decide (src ≤ e.1) && decide (e.1 < src + n)).foldl (fun m e => Bytes.set m (dst + (e.1 - src)) e.2)
    (m.clear dst (dst + n))

/-- Step 2: the page is copied, one write in coherence order (log entries 16, 46). -/
def State.copyPage (s : State) (src dst n : Nat) : State :=
  let s := (lines128 dst n).foldl (fun s l => s.takeLine none l) s
  let t := { s.dropTranslations dst n with mem := s.mem.copyRange src dst n }
  let serial := (s.stale.getLast?.elim 0 (·.serial)) + 1
  let cells := sortNats ((s.mem.map (·.1) ++ t.mem.map (·.1)).filter fun a => decide (dst ≤ a) && decide (a < dst + n))
  { t with
    stale := s.stale ++ (cells.filter fun a => s.mem.get a != t.mem.get a).map fun a =>
      { pa := a, old := s.mem.get a, serial := serial, writer := none } }

/-- An entry with a new page: its other bits stay. -/
def pteMoved (e new size : Nat) : Nat := e - ptePpn e * 1024 + (new / 4096 + (if size = 65536 then 8 else 0)) * 1024

/-- The leaf's entries with the new page: all sixteen of a 64 KiB page (R354 step 3). -/
def State.moveLeaf (s : State) (m : Migration) : State :=
  let as := if m.size = 65536 then (List.range 16).map fun k => m.leafAt / 128 * 128 + 8 * k else [m.leafAt]
  as.foldl (fun s a => s.outsideWrite a (bytesLE 8 (pteMoved (s.mem.readLE a 8) m.newPa m.size))) s

/-- Every granule still has ARMED and its recorded WVER. -/
def State.undisturbed (s : State) (m : Migration) : Bool :=
  m.armed.all fun e => bit (s.mem.get e.1).toNat 1 && (s.mem.get e.1).toNat / 16 == e.2

/-- Clear the ARMED bits that still stand. -/
def State.disarm (s : State) (m : Migration) : State :=
  m.armed.foldl (fun s e =>
    let b := (s.mem.get e.1).toNat
    if bit b 1 then s.outsideWrite e.1 (bytesLE 1 (b - 2)) else s) s

/-- MIGRATE_COMMIT (R354): no device write to the page is under way; the copy ends, and the leaf is rewritten, or left where a granule was
disturbed (log entry 46). -/
def execMigrateCommit (complex : Nat) (s : State) : Out :=
  match s.migrations.get complex with
  | none => .refused (.notEnabled "MIGRATE_COMMIT")
  | some m =>
    let t := { s with migrations := s.migrations.del complex }
    if (s.context m.ctx).isNone then .next (t.cmdDone complex 6)
    else if s.pageBusy m.oldPa m.size then .refused (.notEnabled "MIGRATE_COMMIT")
    else
      let t := t.copyPage m.oldPa m.newPa m.size
      if s.undisturbed m then .next (((t.moveLeaf m).disarm m).cmdDone complex 2) else .next ((t.disarm m).cmdDone complex 3)

/-! ### QUERY and ATTEST (18 R388, R391) -/

/-- A QUERY entry (18 R391). -/
def Binding.entry (b : Binding) : List Byte :=
  bytesLE 4 b.handle.toNat ++ bytesLE 1 b.cluster ++ bytesLE 1 b.position ++ bytesLE 1 (if b.retired then 1 else 0) ++ bytesLE 1 0

/-- The logical cores in ascending (CLUSTER, POSITION). -/
def State.query (s : State) : List Binding := sortBy (fun b => 128 * b.cluster + b.position) s.bindings

/-- What QUERY does. -/
def State.runQuery (s : State) (c : Nat) : State :=
  let out := s.cmd c 8 8
  let n := min s.bindings.length (s.cmd c 16 4)
  if !s.cmdClean c [(0, 1), (8, 12)] || out % 8 != 0 || !inDevice out (8 + 8 * n) then s.cmdDone c 5
  else
    (s.outsideWrite out (bytesLE 4 s.bindings.length ++ bytesLE 4 s.bindGen ++ (s.query.take n).flatMap Binding.entry)).cmdDone c 2

/-- QUERY (18 R391). -/
def execQuery (complex : Nat) (s : State) : Out := command "QUERY" 6 complex s fun s => some (s.runQuery complex)

/-- Bytes 0–127 of an attestation report (18 R388). -/
def State.report (s : State) (nonce : List Byte) : List Byte :=
  bytesLE 4 0x54455441 ++ bytesLE 2 1 ++ bytesLE 2 s.attestState ++ bytesLE 8 Config.serial.toNat ++ nonce ++
    bytesLE 32 Config.firmwareDigest.toNat ++ (match s.maps.passing with | some b => sha256 b | none => bytesLE 32 0) ++
    bytesLE 32 (Config.forceDigest s.maps.force).toNat

/-- What ATTEST does: the salt of the signature is a free value (log entry 3). -/
def State.runAttest (s : State) (c : Nat) : State :=
  let out := s.cmd c 24 8
  if !s.cmdClean c [(0, 1), (8, 24)] || out % 64 != 0 || !inDevice out 512 then s.cmdDone c 5
  else
    let b := s.report ((List.range 16).map fun k => BitVec.ofNat 8 (s.cmd c (8 + k) 1))
    let salt := s.freeBytes 32
    (salt.2.outsideWrite out (b ++ attestSignature b salt.1)).cmdDone c 2

/-- ATTEST (18 R388). -/
def execAttest (complex : Nat) (s : State) : Out := command "ATTEST" 7 complex s fun s => some (s.runAttest complex)

/-! ### Circuit reservations (19 R403) -/

/-- What RESERVE does: DONE where each plane has an UP port to the peer, else NOTFOUND. The number is returned in bytes 40–47 (log entry 45). -/
def State.runReserve (s : State) (c : Nat) : State :=
  let peer := s.cmd c 8 2
  let planes := s.cmd c 10 1
  let token := s.cmd c 16 8
  let dest := s.cmd c 24 8
  let len := s.cmd c 32 8
  if !s.cmdClean c [(0, 1), (4, 7), (16, 32)] || planes == 0 || 15 < planes || len % 65536 != 0 || token % 8 != 0 || !inDevice token 8 ||
      !inDevice dest len then s.cmdDone c 5
  else if (s.context (s.cmdCtx c)).isNone || !(planesOf planes).all fun j => s.planeUp j peer then s.cmdDone c 6
  else
    let r : Resv := { ctx := s.cmdCtx c, peer := peer, planes := planes, token := token, dest := dest, len := len }
    ({ s with resvs := s.resvs.put s.nextResv (s.settleResv r), nextResv := s.nextResv + 1 }.setWin (cmdAt c + 40) 8 s.nextResv).cmdDone c 2

/-- RESERVE (19 R403). -/
def execReserve (complex : Nat) (s : State) : Out := command "RESERVE" 8 complex s fun s => some (s.runReserve complex)

/-- What RELEASE does. -/
def State.runRelease (s : State) (c : Nat) : State :=
  let n := s.cmd c 8 8
  if !s.cmdClean c [(0, 1), (4, 4), (8, 8)] then s.cmdDone c 5
  else
    match s.resvs.get n with
    | some r => if r.ctx = s.cmdCtx c then ({ s with resvs := s.resvs.del n } : State).cmdDone c 2 else s.cmdDone c 6
    | none => s.cmdDone c 6

/-- RELEASE (19 R403). -/
def execRelease (complex : Nat) (s : State) : Out := command "RELEASE" 9 complex s fun s => some (s.runRelease complex)

end Sys2Proof.Machine
end

