-- ==== Sys2Proof/Machine/Fences.lean ====
section
/-!
DEFINITION. Fences, the cross-path fence (06 R162, R163; 11 R280, R285) and the issue of a broadcast store (06 R169).
-/

namespace Sys2Proof.Machine

/-- The kind waits for an operation: loads for acquire; loads and stores for full and release. An atomic is both (R162, 11
R278). -/
def fenceCovers (kind : Nat) (o : OpKind) : Bool :=
  match o with
  | .load .. => true
  | .loadU .. => true
  | .atomic .. => true
  | .poll .. => true
  | .loadS _ => true
  | .store _ => kind != 1
  | .storeS => kind != 1
  | _ => false

/-- The earlier lane-path operations of the split that a fence of a kind covers, still to be performed (11 R279) (log entry 17). -/
def Iss.covered (x : Iss) (kind : Nat) : List Nat :=
  (x.k.ops.filter fun o => !o.done && o.path == .lane && (o.lineage &&& x.live) != 0 && fenceCovers kind o.kind).map (·.id)

/-- FENCE (R162): what it covers gates the split's later accesses, or its later stores for a release. Within one core the scope
changes cost only (11 R280) (log entry 17). -/
def execFence (k : BitVec 2) (_s : BitVec 3) (st : State) : Out :=
  issueU st "FENCE" [] fun x =>
    let ids := x.covered k.toNat
    let add := fun l => l ++ ids.filter fun i => !l.contains i
    if k = 2 then x.done x.k { x.sp with gateSt := add x.sp.gateSt }
    else x.done x.k { x.sp with gateAll := add x.sp.gateAll }

/-- The path of a code of 06 R145. -/
def pathOf (n : Nat) : Path :=
  match n with
  | 0 => .lane
  | 1 => .copy
  | 2 => .matrix
  | 3 => .gather
  | 4 => .collective
  | _ => .broadcast

/-- An operation of the pack on a path is not yet performed: still outstanding, a broadcast payload in flight, or a chunk of its context's
collectives (R163, 11 R280, R289) (log entry 93). -/
def Iss.pathBusy (x : Iss) (p : Path) : Bool :=
  (x.k.ops.any fun o => !o.done && o.path == p) ||
    (p == .broadcast && x.s.payloadOf x.k) || (p == .collective && x.s.chunksOut x.k.ctx)

/-- A pack's writes on a path are lane-visible (11 R285). -/
def State.showPath (s : State) (p : Path) (k : Pack) : State :=
  s.reveal fun _ w => w.path == p && w.tag == k.tag && w.group == k.group && w.lpack == k.lpack

/-- XFENCE (R163): the split stalls until the pack's earlier operations on the from path are performed; at cluster scope or wider
they are then lane-visible (11 R285). -/
def execXfence (_t f s : BitVec 3) (st : State) : Out :=
  issueU st "XFENCE" [] fun x =>
    let p := pathOf f.toNat
    if x.pathBusy p then .next x.s
    else if s.toNat < 2 then x.done x.k x.sp
    else ({ x with s := x.s.showPath p x.k } : Iss).done x.k x.sp

/-- BST (R169): the checks are made once at the window address, whose trap names no lane (log entry 86); the payload is counted under STC until
BST_EMISSION (log entry 62). -/
def execBst (g : PReg) (d : VReg) (a : GReg) (i : BitVec 8) (s : State) : Out :=
  issue s "BST" g [rdV 0 d, rdG 1 a 2] fun x act =>
    let va := x.k.readG64 a.toNat + offI x.sp.hints i
    if x.k.full .st || x.k.scBusy then .next x.s
    else if act = 0 then x.commit.done (x.k.addIdle (x.engineOp .st .broadcast (.bst 0 va 0 []))) x.sp
    else
      match x.s.access x.f.core false x.k.ctx .broadcast va 128 128 .store with
      | .error e =>
        let t := x.s.afterAccess x.f.core false x.k.ctx .broadcast va 128 128 .store
        ({ x with s := t } : Iss).accessFault act e (memWord va 0 0 .broadcast true false 0)
      | .ok t =>
        let kind : OpKind := .bst (cut t.pa 7 8) va act (wordsOf act fun i => x.v d i)
        ({ x with s := t.s } : Iss).commit.done (x.k.addOp (x.engineOp .st .broadcast kind)) x.sp

end Sys2Proof.Machine
end

