-- ==== Sys2Proof/Machine/FloatFun.lean ====
section
/-!
DEFINITION. 2^x, log2 x, sin πx and cos πx (05 R129, R130). Results that are exactly representable are found exactly. Every
other result of a dyadic operand is irrational, so it never ties and never equals a representable value; it is computed in
fixed point with 256 fraction bits and rounded from there, with a sticky bit (log entry 9).
-/

namespace Sys2Proof.Machine

/-- One, in fixed point with 256 fraction bits. -/
def fx1 : Nat := 2 ^ 256

/-- floor(2^256 × ln 2). -/
def fxLn2 : Nat := 0xb17217f7d1cf79abc9e3b39803f2f6af40f343267298b62d8a0d175b8baafa2b

/-- floor(2^256 × π). -/
def fxPi : Nat := 0x3243f6a8885a308d313198a2e03707344a4093822299f31d0082efa98ec4e6c89

/-- The fixed-point product. -/
def fxMul (a b : Nat) : Nat := a * b / fx1

/-- Σ y^k / k! from the term `t` of index `k`, over `fuel` terms. -/
def expSeries (y : Nat) : (fuel : Nat) → (k t : Nat) → Nat
  | 0, _, _ => 0
  | n + 1, k, t => t + expSeries y n (k + 1) (fxMul t y / (k + 1))

/-- e^y for 0 ≤ y < 1 (log entry 9). -/
def fxExp (y : Nat) : Nat := expSeries y 64 0 fx1

/-- Σ (−1)^j y^(2j+1) / (2j+1)! from the term `t` of index `k` = 2j + 1. -/
def sinSeries (y2 : Nat) : (fuel : Nat) → (k t : Nat) → Int
  | 0, _, _ => 0
  | n + 1, k, t => (t : Int) - sinSeries y2 n (k + 2) (fxMul t y2 / ((k + 1) * (k + 2)))

/-- sin y for 0 ≤ y < 2 (log entry 9). -/
def fxSin (y : Nat) : Nat := (sinSeries (fxMul y y) 40 1 y).toNat

/-- Σ (−1)^j y^(2j) / (2j)!. -/
def cosSeries (y2 : Nat) : (fuel : Nat) → (k t : Nat) → Int
  | 0, _, _ => 0
  | n + 1, k, t => (t : Int) - cosSeries y2 n (k + 2) (fxMul t y2 / ((k + 1) * (k + 2)))

/-- cos y for 0 ≤ y < 2 (log entry 9). -/
def fxCos (y : Nat) : Nat := (cosSeries (fxMul y y) 40 0 fx1).toNat

/-- Σ u^(2j+1) / (2j+1), the series of atanh u. -/
def atanhSeries (u2 : Nat) : (fuel : Nat) → (k t : Nat) → Nat
  | 0, _, _ => 0
  | n + 1, k, t => t / k + atanhSeries u2 n (k + 2) (fxMul t u2)

/-- ln z for 1 ≤ z < 2, in fixed point: 2 atanh((z − 1) / (z + 1)) (log entry 9). -/
def fxLn (z : Nat) : Nat :=
  let u := (z - fx1) * fx1 / (z + fx1)
  2 * atanhSeries (fxMul u u) 96 1 u

/-- A fixed-point value as a dyadic, with a sticky bit below it. -/
def fxDyadic (q : Nat) : Nat × Int := (2 * q + 1, -257)

/-- Round an irrational result held in fixed point, times 2^`scale`. -/
def Fmt.roundFx (f : Fmt) (rm : Nat) (neg : Bool) (q : Nat) (scale : Int) : FRes :=
  let x := fxDyadic q
  f.round rm neg x.1 (x.2 + scale)

/-- 2^a (05 R130): exact for an integer; operands beyond every format's range stand at the edge of it (log entry 9). -/
def Fmt.exp2 (f : Fmt) (rm : Nat) (a : Fp) : FRes :=
  match a with
  | .nan s => f.nanRes s
  | .inf n => if n then f.zeroRes false else f.infRes false
  | .fin n m e =>
    if m = 0 then f.round rm false 1 0
    else
      let top : Int := m.log2 + e
      if 12 ≤ top then f.roundFx rm false fx1 (if n then -4096 else 4096)
      else
        let q := quant m e 0
        if q.2.1 = 0 then f.round rm false 1 (if n then -(q.1 : Int) else q.1)
        else
          -- a = n + frac with 0 < frac < 1, the fraction exact in 256 bits
          let frac := q.2.1 * fx1 / 2 ^ q.2.2
          let k : Int := if n then -(q.1 : Int) - 1 else q.1
          let frac := if n then fx1 - frac else frac
          f.roundFx rm false (fxExp (fxMul frac fxLn2)) k

/-- log2 a (05 R130): exact for a power of two (log entry 9). -/
def Fmt.log2 (f : Fmt) (rm : Nat) (a : Fp) : FRes :=
  match a with
  | .nan s => f.nanRes s
  | .inf n => if n then f.nanRes true else f.infRes false
  | .fin n m e =>
    if m = 0 then f.infRes true fDZ
    else if n then f.nanRes true
    else
      let k : Int := m.log2 + e
      if 2 ^ m.log2 = m then f.roundInt rm k 0 false
      else
        let z := m * fx1 / 2 ^ m.log2
        let frac := fxLn z * fx1 / fxLn2
        let x : Int := k * fx1 + frac
        f.roundFx rm (decide (x < 0)) x.natAbs 0

/-- Below this, cos πr differs from 1 by less than the fixed point resolves. -/
def cosEdge : Nat := 2 ^ 156

/-- cos πr for 0 < r < 1/2 in fixed point: just below 1 for the smallest r. -/
def fxCosPi (r : Nat) : Nat := if r < cosEdge then fx1 - 2 ^ 56 else fxCos (fxMul fxPi r)

/-- sin πr for 0 < r < 1/2 in fixed point, through the nearer of the two series. -/
def fxSinPi (r : Nat) : Nat := if 4 * r ≤ fx1 then fxSin (fxMul fxPi r) else fxCosPi (fx1 / 2 - r)

/-- A dyadic |a| reduced modulo 2, in fixed point. Every fraction of the three formats fits 256 bits. -/
def mod2 (m : Nat) (e : Int) : Nat := (if 0 ≤ e + 256 then m * 2 ^ (e + 256).toNat else m / 2 ^ (-(e + 256)).toNat) % (2 * fx1)

/-- sin πa (05 R130) (log entry 9). -/
def Fmt.sinpi (f : Fmt) (rm : Nat) (a : Fp) : FRes :=
  match a with
  | .nan s => f.nanRes s
  | .inf _ => f.nanRes true
  | .fin n m e =>
    if m = 0 then f.zeroRes n
    else
      let t := mod2 m e
      let half := t % fx1
      -- sin π(1 + u) = −sin πu
      let neg := (decide (fx1 ≤ t)) != n
      if half = 0 then f.zeroRes n
      else if 2 * half = fx1 then f.round rm neg 1 0
      else if 2 * half < fx1 then f.roundFx rm neg (fxSinPi half) 0
      else f.roundFx rm neg (fxSinPi (fx1 - half)) 0

/-- cos πa (05 R130) (log entry 9). -/
def Fmt.cospi (f : Fmt) (rm : Nat) (a : Fp) : FRes :=
  match a with
  | .nan s => f.nanRes s
  | .inf _ => f.nanRes true
  | .fin _ m e =>
    let t := mod2 m e
    -- cos is even and has period 2; fold to [0, 1]
    let u := if fx1 < t then 2 * fx1 - t else t
    if u = 0 then f.round rm false 1 0
    else if u = fx1 then f.round rm true 1 0
    else if 2 * u = fx1 then f.zeroRes false
    else if 2 * u < fx1 then f.roundFx rm false (if 4 * u ≤ fx1 then fxCosPi u else fxSin (fxMul fxPi (fx1 / 2 - u))) 0
    else
      let v := fx1 - u
      f.roundFx rm true (if 4 * v ≤ fx1 then fxCosPi v else fxSin (fxMul fxPi (fx1 / 2 - v))) 0

end Sys2Proof.Machine
end

