-- ==== Sys2Proof/Machine/FloatVec.lean ====
section
/-!
DEFINITION. The vector floating-point instructions of primaries 0x28–0x34 (05 R124–R131).
-/

namespace Sys2Proof.Machine

/-- A two-operand FP32 instruction (R124). -/
def fp32 (mn : String) (f : Nat → Fp → Fp → FRes) (g : PReg) (d a b : VReg) (s : State) : Out :=
  fpIssue s mn g d [wrV 0 d, rdV 1 a, rdV 2 b] fun x i => res32 (f (x.k.rm x.sp.hints) (f32Of (x.v a i)) (f32Of (x.v b i)))

/-- A two-operand instruction on pairs of 16-bit elements (R124). -/
def fp16 (mn : String) (t : Fmt) (f : Nat → Fp → Fp → FRes) (g : PReg) (d a b : VReg) (s : State) : Out :=
  fpIssue s mn g d [wrV 0 d, rdV 1 a, rdV 2 b] fun x i =>
    let e := fun j => f (x.k.rm x.sp.hints) (t.decode (half (x.v a i) j)) (t.decode (half (x.v b i) j))
    res16 (e 0) (e 1)

/-- A fused multiply-add on FP32, the destination the addend (R126). -/
def fma32 (mn : String) (negate : Bool) (g : PReg) (d a b : VReg) (s : State) : Out :=
  fpIssue s mn g d [rdV 0 d, rdV 1 a, rdV 2 b] fun x i =>
    let p := f32Of (x.v a i)
    res32 (Fmt.f32.fma (x.k.rm x.sp.hints) (if negate then p.flip else p) (f32Of (x.v b i)) (f32Of (x.v d i)))

/-- A fused multiply-add on pairs (R126). -/
def fma16 (mn : String) (t : Fmt) (g : PReg) (d a b : VReg) (s : State) : Out :=
  fpIssue s mn g d [rdV 0 d, rdV 1 a, rdV 2 b] fun x i =>
    let e := fun j =>
      t.fma (x.k.rm x.sp.hints) (t.decode (half (x.v a i) j)) (t.decode (half (x.v b i) j)) (t.decode (half (x.v d i) j))
    res16 (e 0) (e 1)

/-- Minimum or maximum on FP32 (R125). -/
def fmm32 (mn : String) (isMin : Bool) (g : PReg) (d a b : VReg) (s : State) : Out :=
  fpIssue s mn g d [wrV 0 d, rdV 1 a, rdV 2 b] fun x i => res32 (Fmt.f32.minmax isMin (x.v a i).toNat (x.v b i).toNat)

/-- Minimum or maximum on pairs (R125). -/
def fmm16 (mn : String) (t : Fmt) (isMin : Bool) (g : PReg) (d a b : VReg) (s : State) : Out :=
  fpIssue s mn g d [wrV 0 d, rdV 1 a, rdV 2 b] fun x i =>
    let e := fun j => t.minmax isMin (half (x.v a i) j) (half (x.v b i) j)
    res16 (e 0) (e 1)

/-- The type of FN[6:5] (R129). -/
def unaryFmt (t : BitVec 2) : Fmt := if t = 1 then Fmt.f16 else Fmt.bf16

/-- A unary instruction of primary 0x33 on the element type `t`: `f` takes the format, direction and element bits (R129). -/
def unary (mn : String) (f : Fmt → Nat → Nat → FRes) (g : PReg) (d a : VReg) (t : BitVec 2) (s : State) : Out :=
  fpIssue s mn g d [wrV 0 d, rdV 1 a] fun x i =>
    let rm := x.k.rm x.sp.hints
    if t = 0 then res32 (f Fmt.f32 rm (x.v a i).toNat)
    else res16 (f (unaryFmt t) rm (half (x.v a i) 0)) (f (unaryFmt t) rm (half (x.v a i) 1))

/-- A unary operation on a decoded element. -/
def onValue (f : Fmt → Nat → Fp → FRes) (t : Fmt) (rm x : Nat) : FRes := f t rm (t.decode x)

/-- A unary operation that moves bits and raises nothing. -/
def onBits (f : Fmt → Nat → Nat) (t : Fmt) (_rm x : Nat) : FRes := { bits := f t x, flags := 0 }

/-- An FP32 comparison (R128). -/
def fpCmp (mn : String) (both : Bool) (g p : PReg) (c : BitVec 4) (a b : VReg) (s : State) : Out :=
  issue s mn g [rdV 1 a, rdV 2 b] fun x act =>
    let cs := (lanesOf act).map fun i => (i, fcond c.toNat (f32Of (x.v a i)) (f32Of (x.v b i)))
    let rs := cs.map fun r => (r.1, ({ word := 0, flags := [(0, nvIf r.2.2)] } : LaneRes))
    let bits := maskOf ((cs.filter fun r => r.2.1).map (·.1))
    x.fpFinish act rs fun k sp => (k.setP p act (if both then bits &&& k.p.get p.toNat else bits), sp)

/-- FADD_F32 (R124). -/
def execFaddF32 (g : PReg) (d a b : VReg) (s : State) : Out := fp32 "FADD_F32" Fmt.f32.add g d a b s

/-- FSUB_F32 (R124): a plus b with its sign inverted. -/
def execFsubF32 (g : PReg) (d a b : VReg) (s : State) : Out := fp32 "FSUB_F32" (fun rm a b => Fmt.f32.add rm a b.flip) g d a b s

/-- FMUL_F32 (R124). -/
def execFmulF32 (g : PReg) (d a b : VReg) (s : State) : Out := fp32 "FMUL_F32" Fmt.f32.mul g d a b s

/-- FDIV_F32 (R124). -/
def execFdivF32 (g : PReg) (d a b : VReg) (s : State) : Out := fp32 "FDIV_F32" Fmt.f32.div g d a b s

/-- FMIN_F32 (R125). -/
def execFminF32 (g : PReg) (d a b : VReg) (s : State) : Out := fmm32 "FMIN_F32" true g d a b s

/-- FMAX_F32 (R125). -/
def execFmaxF32 (g : PReg) (d a b : VReg) (s : State) : Out := fmm32 "FMAX_F32" false g d a b s

/-- FFMA_F32 (R126). -/
def execFfmaF32 (g : PReg) (d a b : VReg) (s : State) : Out := fma32 "FFMA_F32" false g d a b s

/-- FFMS_F32 (R126). -/
def execFfmsF32 (g : PReg) (d a b : VReg) (s : State) : Out := fma32 "FFMS_F32" true g d a b s

/-- FADD_F16X2 (R124). -/
def execFaddF16x2 (g : PReg) (d a b : VReg) (s : State) : Out := fp16 "FADD_F16X2" Fmt.f16 Fmt.f16.add g d a b s

/-- FSUB_F16X2 (R124). -/
def execFsubF16x2 (g : PReg) (d a b : VReg) (s : State) : Out := fp16 "FSUB_F16X2" Fmt.f16 (fun rm a b => Fmt.f16.add rm a b.flip) g d a b s

/-- FMUL_F16X2 (R124). -/
def execFmulF16x2 (g : PReg) (d a b : VReg) (s : State) : Out := fp16 "FMUL_F16X2" Fmt.f16 Fmt.f16.mul g d a b s

/-- FFMA_F16X2 (R126). -/
def execFfmaF16x2 (g : PReg) (d a b : VReg) (s : State) : Out := fma16 "FFMA_F16X2" Fmt.f16 g d a b s

/-- FMIN_F16X2 (R125). -/
def execFminF16x2 (g : PReg) (d a b : VReg) (s : State) : Out := fmm16 "FMIN_F16X2" Fmt.f16 true g d a b s

/-- FMAX_F16X2 (R125). -/
def execFmaxF16x2 (g : PReg) (d a b : VReg) (s : State) : Out := fmm16 "FMAX_F16X2" Fmt.f16 false g d a b s

/-- FADD_BF16X2 (R124). -/
def execFaddBf16x2 (g : PReg) (d a b : VReg) (s : State) : Out := fp16 "FADD_BF16X2" Fmt.bf16 Fmt.bf16.add g d a b s

/-- FSUB_BF16X2 (R124). -/
def execFsubBf16x2 (g : PReg) (d a b : VReg) (s : State) : Out := fp16 "FSUB_BF16X2" Fmt.bf16 (fun rm a b => Fmt.bf16.add rm a b.flip) g d a b s

/-- FMUL_BF16X2 (R124). -/
def execFmulBf16x2 (g : PReg) (d a b : VReg) (s : State) : Out := fp16 "FMUL_BF16X2" Fmt.bf16 Fmt.bf16.mul g d a b s

/-- FFMA_BF16X2 (R126). -/
def execFfmaBf16x2 (g : PReg) (d a b : VReg) (s : State) : Out := fma16 "FFMA_BF16X2" Fmt.bf16 g d a b s

/-- FMIN_BF16X2 (R125). -/
def execFminBf16x2 (g : PReg) (d a b : VReg) (s : State) : Out := fmm16 "FMIN_BF16X2" Fmt.bf16 true g d a b s

/-- FMAX_BF16X2 (R125). -/
def execFmaxBf16x2 (g : PReg) (d a b : VReg) (s : State) : Out := fmm16 "FMAX_BF16X2" Fmt.bf16 false g d a b s

/-- FCMP (R128). -/
def execFcmp (g p : PReg) (c : BitVec 4) (a b : VReg) (s : State) : Out := fpCmp "FCMP" false g p c a b s

/-- FCMPA (R128). -/
def execFcmpa (g p : PReg) (c : BitVec 4) (a b : VReg) (s : State) : Out := fpCmp "FCMPA" true g p c a b s

/-- FNEG (R129–R131). -/
def execFneg (g : PReg) (d a : VReg) (t : BitVec 2) (s : State) : Out := unary "FNEG" (onBits fun t x => x ^^^ t.signBit) g d a t s

/-- FABS (R129–R131). -/
def execFabs (g : PReg) (d a : VReg) (t : BitVec 2) (s : State) : Out := unary "FABS" (onBits fun t x => x % t.signBit) g d a t s

/-- FSQRT (R129–R131). -/
def execFsqrt (g : PReg) (d a : VReg) (t : BitVec 2) (s : State) : Out := unary "FSQRT" (onValue Fmt.sqrt) g d a t s

/-- FRSQ (R129–R131). -/
def execFrsq (g : PReg) (d a : VReg) (t : BitVec 2) (s : State) : Out := unary "FRSQ" (onValue Fmt.rsq) g d a t s

/-- FRCP (R129–R131). -/
def execFrcp (g : PReg) (d a : VReg) (t : BitVec 2) (s : State) : Out := unary "FRCP" (onValue Fmt.rcp) g d a t s

/-- FEXP2 (R129–R131). -/
def execFexp2 (g : PReg) (d a : VReg) (t : BitVec 2) (s : State) : Out := unary "FEXP2" (onValue Fmt.exp2) g d a t s

/-- FLOG2 (R129–R131). -/
def execFlog2 (g : PReg) (d a : VReg) (t : BitVec 2) (s : State) : Out := unary "FLOG2" (onValue Fmt.log2) g d a t s

/-- FSINPI (R129–R131). -/
def execFsinpi (g : PReg) (d a : VReg) (t : BitVec 2) (s : State) : Out := unary "FSINPI" (onValue Fmt.sinpi) g d a t s

/-- FCOSPI (R129–R131). -/
def execFcospi (g : PReg) (d a : VReg) (t : BitVec 2) (s : State) : Out := unary "FCOSPI" (onValue Fmt.cospi) g d a t s

/-- FRINT (R129–R131). -/
def execFrint (g : PReg) (d a : VReg) (t : BitVec 2) (s : State) : Out := unary "FRINT" (onValue Fmt.rint) g d a t s

/-- FCLASS (R129–R131). -/
def execFclass (g : PReg) (d a : VReg) (t : BitVec 2) (s : State) : Out := unary "FCLASS" (onBits Fmt.classMask) g d a t s

/-- FCPSGN_F32 (R127): bits only. -/
def execFcpsgnF32 (g : PReg) (d a b : VReg) (s : State) : Out :=
  vec3 "FCPSGN_F32" (fun a b => (a &&& 0x7FFFFFFF) ||| (b &&& 0x80000000)) g d a b s

/-- FCPSGN_H (R127): bits only. -/
def execFcpsgnH (g : PReg) (d a b : VReg) (s : State) : Out :=
  vec3 "FCPSGN_H" (fun a b => (a &&& 0x7FFF7FFF) ||| (b &&& 0x80008000)) g d a b s

end Sys2Proof.Machine
end

