-- ==== Sys2Proof/Machine/Hints.lean ====
section
/-!
DEFINITION. Hint words, dictionary slots, and words that are no instruction (03 R73–R81).
-/

namespace Sys2Proof.Machine

/-- A hint word of a kind with a payload (03 R73). -/
def hintWord (kind payload : Nat) : Word := BitVec.ofNat 32 (0xF9C00000 + kind * 2 ^ 19 + payload)

/-- A hint word issues: it takes an issue slot and waits for the instruction it modifies (03 R76). The first hint of a group
looks at the whole group, and a group that violates R74 raises ILLOP there. -/
def hint (mn : String) (w : Word) (s : State) : Out :=
  match s.issuer with
  | none => .refused (.noIssuer mn)
  | some x =>
    let r := x.s.hintRun x.f.core x.k ((x.s.header x.k).codeSize / 4 + 1) x.f.addr
    match if x.sp.hints.isEmpty then groupReason (w :: r.1.tail) r.2 else none with
    | some reason => x.illopWith (x.groupActive r.2) reason
    | none =>
      .next { x.s with
        cores := (x.put x.k.started
          { x.sp with hints := x.sp.hints ++ [w], hintAt := x.at_, pc := x.f.next }).cores }

/-- HINT_IMM (R73). -/
def execHintImm (i : BitVec 19) (s : State) : Out := hint "HINT_IMM" (hintWord 0 i.toNat) s

/-- HINT_IMMTOP (R73). -/
def execHintImmtop (i : BitVec 5) (s : State) : Out := hint "HINT_IMMTOP" (hintWord 1 i.toNat) s

/-- HINT_RND (R73): the site in [15:5], the mode in [2:0]. -/
def execHintRnd (site : BitVec 11) (m : BitVec 3) (s : State) : Out :=
  hint "HINT_RND" (hintWord 2 (site.toNat * 32 + m.toNat)) s

/-- HINT_CACHE (R73): bypass in [4], the L2 policy in [3:2], the L1 policy in [1:0]. -/
def execHintCache (b : BitVec 1) (c l : BitVec 2) (s : State) : Out :=
  hint "HINT_CACHE" (hintWord 3 (b.toNat * 16 + c.toNat * 4 + l.toNat)) s

/-- HINT_CTL (R73): TOFF[18:10] in [18:10], ROFF[18:9] in [9:0]. -/
def execHintCtl (t : BitVec 9) (r : BitVec 10) (s : State) : Out :=
  hint "HINT_CTL" (hintWord 4 (t.toNat * 1024 + r.toNat)) s

/-- HINT_MOD (R73). -/
def execHintMod (m : BitVec 19) (s : State) : Out := hint "HINT_MOD" (hintWord 5 m.toNat) s

/-- An entry that may not stand in a dictionary slot: a hint, a dictionary word, a word illegal as a full word, or one that
needs a hint (03 R78). -/
def entryIllegal (w : Word) : Bool :=
  (wordReason w).isSome || primary w == 0x7C || isDict w || (accepts w).rnd5 || (primary w == 0x22 && fld w 0 9 == 0)

/-- ILLOP with REASON 6 at a dictionary slot (03 R77, R81) (log entry 11). -/
def Iss.slotIllop (x : Iss) (word : Word) (slot index : Nat) : Out :=
  let x := { x with f := { x.f with dslot := slot, dindex := index } }
  x.raise (x.wordActive word) 0x01 (illopWord word 6 slot index)

/-- DICTIONARY_SLOT (R77, R78): the slot at the program counter stands for the entry its index names, which the split then
issues at the slot's address. Slot 0 is the high half with index `i`; slot 1 the low half `k` (log entry 10). -/
def execDictionarySlot (i : BitVec 10) (k : BitVec 16) (s : State) : Out :=
  match s.issuer with
  | none => .refused (.noIssuer "DICTIONARY_SLOT")
  | some x =>
    let w : Word := BitVec.ofNat 32 (0xFC000000 + i.toNat * 65536 + k.toNat)
    let d := x.s.dict x.f.core x.k
    let count := d.elim 0 (·.count)
    let entry := fun n => d.elim 0 fun d => Words.get d.words n
    let low := k.toNat % 1024
    let lowOk := k.toNat / 1024 == 0x3F
    let go := fun (n : Nat) (slot : Nat) =>
      if entryIllegal (entry n) then x.slotIllop (entry n) slot n
      else .next (x.put x.k { x.sp with slot := some { word := entry n, index := n, slot := slot, lastSlot := k == 0 } })
    if !x.sp.hints.isEmpty then x.illop 5
    else if x.f.addr.getLsbD 0 then
      if !lowOk then x.slotIllop w 2 0
      else if count ≤ low then x.slotIllop w 2 low
      else go low 2
    else if count ≤ i.toNat then x.slotIllop w 1 i.toNat
    else if k != 0 && (!lowOk || decide (count ≤ low)) then x.slotIllop (entry i.toNat) 1 i.toNat
    else go i.toNat 1

/-- ILLEGAL_INSTRUCTION (R81): the word at the program counter is no instruction. In a hint group the lowest REASON of the
group is reported, at its first hint (R74, R80); an address that is no instruction stands in no group (R71). -/
def execIllegalInstruction (word : Word) (reason : Nat) (s : State) : Out :=
  match s.issuer with
  | none => .refused (.noIssuer "ILLEGAL_INSTRUCTION")
  | some x =>
    let run := x.s.hintRun x.f.core x.k ((x.s.header x.k).codeSize / 4 + 1) x.f.addr
    if reason = 7 && x.sp.hints.isEmpty then x.illop 7
    else if primary word == 0x7C then
      x.illopWith (x.groupActive run.2) ((minReason (some reason) (groupReason (x.sp.hints ++ word :: run.1.tail) run.2)).getD reason)
    else if x.sp.hints.isEmpty then x.illop reason
    else x.illop ((minReason (some reason) (groupReason x.sp.hints (.full word))).getD reason)

end Sys2Proof.Machine
end

