-- ==== Sys2Proof/Machine/IntUni.lean ====
section
/-!
DEFINITION. The uniform integer instructions of primaries 0x0F and 0x11–0x1F (04 R95–R102).
-/

namespace Sys2Proof.Machine

/-- ADD_I32_U (R96). -/
def execAddI32U (d a b : GReg) (s : State) : Out := uni3 "ADD_I32_U" (· + ·) d a b s

/-- ADDS_I32_U (R96). -/
def execAddsI32U (d a b : GReg) (s : State) : Out := uni3 "ADDS_I32_U" Alu.adds d a b s

/-- SUB_I32_U (R96). -/
def execSubI32U (d a b : GReg) (s : State) : Out := uni3 "SUB_I32_U" (· - ·) d a b s

/-- SUBS_I32_U (R96). -/
def execSubsI32U (d a b : GReg) (s : State) : Out := uni3 "SUBS_I32_U" Alu.subs d a b s

/-- MUL_I32_U (R96). -/
def execMulI32U (d a b : GReg) (s : State) : Out := uni3 "MUL_I32_U" (· * ·) d a b s

/-- MULH_I32_U (R96). -/
def execMulhI32U (d a b : GReg) (s : State) : Out := uni3 "MULH_I32_U" Alu.mulh d a b s

/-- MULHU_I32_U (R96). -/
def execMulhuI32U (d a b : GReg) (s : State) : Out := uni3 "MULHU_I32_U" Alu.mulhu d a b s

/-- MIN_I32_U (R96). -/
def execMinI32U (d a b : GReg) (s : State) : Out := uni3 "MIN_I32_U" Alu.mins d a b s

/-- MINU_I32_U (R96). -/
def execMinuI32U (d a b : GReg) (s : State) : Out := uni3 "MINU_I32_U" Alu.minu d a b s

/-- MAX_I32_U (R96). -/
def execMaxI32U (d a b : GReg) (s : State) : Out := uni3 "MAX_I32_U" Alu.maxs d a b s

/-- MAXU_I32_U (R96). -/
def execMaxuI32U (d a b : GReg) (s : State) : Out := uni3 "MAXU_I32_U" Alu.maxu d a b s

/-- AND_I32_U (R96). -/
def execAndI32U (d a b : GReg) (s : State) : Out := uni3 "AND_I32_U" (· &&& ·) d a b s

/-- ANDN_I32_U (R96). -/
def execAndnI32U (d a b : GReg) (s : State) : Out := uni3 "ANDN_I32_U" Alu.andn d a b s

/-- OR_I32_U (R96). -/
def execOrI32U (d a b : GReg) (s : State) : Out := uni3 "OR_I32_U" (· ||| ·) d a b s

/-- XOR_I32_U (R96). -/
def execXorI32U (d a b : GReg) (s : State) : Out := uni3 "XOR_I32_U" (· ^^^ ·) d a b s

/-- SHL_I32_U (R96). -/
def execShlI32U (d a b : GReg) (s : State) : Out := uni3 "SHL_I32_U" Alu.shl d a b s

/-- SHR_I32_U (R96). -/
def execShrI32U (d a b : GReg) (s : State) : Out := uni3 "SHR_I32_U" Alu.shr d a b s

/-- SRA_I32_U (R96). -/
def execSraI32U (d a b : GReg) (s : State) : Out := uni3 "SRA_I32_U" Alu.sra d a b s

/-- ROTL_I32_U (R96). -/
def execRotlI32U (d a b : GReg) (s : State) : Out := uni3 "ROTL_I32_U" Alu.rotl d a b s

/-- A uniform comparison: the one bit goes to every live lane of the split (R91, R102). -/
def uniCmp (mn : String) (both : Bool) (p : PReg) (c : BitVec 4) (a b : GReg) (s : State) : Out :=
  issueU s mn [rdG 1 a, rdG 2 b] fun x =>
    let bits : Mask := if Alu.cond c (x.g a) (x.g b) then BitVec.allOnes 32 else 0
    x.doneP p x.live (if both then bits &&& x.k.p.get p.toNat else bits)

/-- CMP_U (R101, R102). -/
def execCmpU (p : PReg) (c : BitVec 4) (a b : GReg) (s : State) : Out := uniCmp "CMP_U" false p c a b s

/-- CMPA_U (R101, R102). -/
def execCmpaU (p : PReg) (c : BitVec 4) (a b : GReg) (s : State) : Out := uniCmp "CMPA_U" true p c a b s

/-- MOV_I32_U (R98). -/
def execMovI32U (d a : GReg) (s : State) : Out := uni2 "MOV_I32_U" id d a s

/-- NOT_I32_U (R98). -/
def execNotI32U (d a : GReg) (s : State) : Out := uni2 "NOT_I32_U" (~~~ ·) d a s

/-- NEG_I32_U (R98). -/
def execNegI32U (d a : GReg) (s : State) : Out := uni2 "NEG_I32_U" (- ·) d a s

/-- ABS_I32_U (R98). -/
def execAbsI32U (d a : GReg) (s : State) : Out := uni2 "ABS_I32_U" Alu.abs d a s

/-- POPC_I32_U (R98). -/
def execPopcI32U (d a : GReg) (s : State) : Out := uni2 "POPC_I32_U" (fun a => BitVec.ofNat 32 (popcount a)) d a s

/-- CLZ_I32_U (R98). -/
def execClzI32U (d a : GReg) (s : State) : Out := uni2 "CLZ_I32_U" (fun a => BitVec.ofNat 32 (clz a)) d a s

/-- CTZ_I32_U (R98). -/
def execCtzI32U (d a : GReg) (s : State) : Out := uni2 "CTZ_I32_U" (fun a => BitVec.ofNat 32 (ctz a)) d a s

/-- BREV_I32_U (R98). -/
def execBrevI32U (d a : GReg) (s : State) : Out := uni2 "BREV_I32_U" brev d a s

/-- SEXT8_I32_U (R98). -/
def execSext8I32U (d a : GReg) (s : State) : Out := uni2 "SEXT8_I32_U" Alu.sext8 d a s

/-- SEXT16_I32_U (R98). -/
def execSext16I32U (d a : GReg) (s : State) : Out := uni2 "SEXT16_I32_U" Alu.sext16 d a s

/-- ZEXT8_I32_U (R98). -/
def execZext8I32U (d a : GReg) (s : State) : Out := uni2 "ZEXT8_I32_U" (· &&& 0xFF) d a s

/-- ZEXT16_I32_U (R98). -/
def execZext16I32U (d a : GReg) (s : State) : Out := uni2 "ZEXT16_I32_U" (· &&& 0xFFFF) d a s

/-- MOVI_U (R99). -/
def execMoviU (d : GReg) (i : BitVec 8) (s : State) : Out :=
  issueU s "MOVI_U" [wrG 0 d] fun x => x.doneG d (immS x.sp.hints i)

/-- ADDI_U (R99). -/
def execAddiU (d a : GReg) (i : BitVec 8) (s : State) : Out :=
  issueU s "ADDI_U" [wrG 0 d, rdG 1 a] fun x => x.doneG d (x.g a + immS x.sp.hints i)

/-- ADDI_I64 on uniform pairs (R99). -/
def execAddiI64 (d a : GReg) (i : BitVec 8) (s : State) : Out :=
  issueU s "ADDI_I64" [wrG 0 d 2, rdG 1 a 2] fun x =>
    x.done (x.k.setG64 d.toNat (x.k.readG64 a.toNat + (immS x.sp.hints i).signExtend 64)) x.sp

/-- SHLI_U (R100). -/
def execShliU (d a : GReg) (n : BitVec 5) (s : State) : Out := uni2 "SHLI_U" (· <<< n.toNat) d a s

/-- SHRI_U (R100). -/
def execShriU (d a : GReg) (n : BitVec 5) (s : State) : Out := uni2 "SHRI_U" (· >>> n.toNat) d a s

/-- SRAI_U (R100). -/
def execSraiU (d a : GReg) (n : BitVec 5) (s : State) : Out := uni2 "SRAI_U" (BitVec.sshiftRight · n.toNat) d a s

/-- ROTLI_U (R100). -/
def execRotliU (d a : GReg) (n : BitVec 5) (s : State) : Out := uni2 "ROTLI_U" (BitVec.rotateLeft · n.toNat) d a s

end Sys2Proof.Machine
end

