-- ==== Sys2Proof/Machine/IntVec.lean ====
section
/-!
DEFINITION. The vector integer instructions of primaries 0x01–0x12 (04 R95–R102).
-/

namespace Sys2Proof.Machine

/-- ADD_I32 (R96). -/
def execAddI32 (g : PReg) (d a b : VReg) (s : State) : Out := vec3 "ADD_I32" (· + ·) g d a b s

/-- ADDS_I32 (R96). -/
def execAddsI32 (g : PReg) (d a b : VReg) (s : State) : Out := vec3 "ADDS_I32" Alu.adds g d a b s

/-- SUB_I32 (R96). -/
def execSubI32 (g : PReg) (d a b : VReg) (s : State) : Out := vec3 "SUB_I32" (· - ·) g d a b s

/-- SUBS_I32 (R96). -/
def execSubsI32 (g : PReg) (d a b : VReg) (s : State) : Out := vec3 "SUBS_I32" Alu.subs g d a b s

/-- MUL_I32 (R96). -/
def execMulI32 (g : PReg) (d a b : VReg) (s : State) : Out := vec3 "MUL_I32" (· * ·) g d a b s

/-- MULH_I32 (R96). -/
def execMulhI32 (g : PReg) (d a b : VReg) (s : State) : Out := vec3 "MULH_I32" Alu.mulh g d a b s

/-- MULHU_I32 (R96). -/
def execMulhuI32 (g : PReg) (d a b : VReg) (s : State) : Out := vec3 "MULHU_I32" Alu.mulhu g d a b s

/-- MIN_I32 (R96). -/
def execMinI32 (g : PReg) (d a b : VReg) (s : State) : Out := vec3 "MIN_I32" Alu.mins g d a b s

/-- MINU_I32 (R96). -/
def execMinuI32 (g : PReg) (d a b : VReg) (s : State) : Out := vec3 "MINU_I32" Alu.minu g d a b s

/-- MAX_I32 (R96). -/
def execMaxI32 (g : PReg) (d a b : VReg) (s : State) : Out := vec3 "MAX_I32" Alu.maxs g d a b s

/-- MAXU_I32 (R96). -/
def execMaxuI32 (g : PReg) (d a b : VReg) (s : State) : Out := vec3 "MAXU_I32" Alu.maxu g d a b s

/-- AND_I32 (R96). -/
def execAndI32 (g : PReg) (d a b : VReg) (s : State) : Out := vec3 "AND_I32" (· &&& ·) g d a b s

/-- ANDN_I32 (R96). -/
def execAndnI32 (g : PReg) (d a b : VReg) (s : State) : Out := vec3 "ANDN_I32" Alu.andn g d a b s

/-- OR_I32 (R96). -/
def execOrI32 (g : PReg) (d a b : VReg) (s : State) : Out := vec3 "OR_I32" (· ||| ·) g d a b s

/-- XOR_I32 (R96). -/
def execXorI32 (g : PReg) (d a b : VReg) (s : State) : Out := vec3 "XOR_I32" (· ^^^ ·) g d a b s

/-- SHL_I32 (R96). -/
def execShlI32 (g : PReg) (d a b : VReg) (s : State) : Out := vec3 "SHL_I32" Alu.shl g d a b s

/-- SHR_I32 (R96). -/
def execShrI32 (g : PReg) (d a b : VReg) (s : State) : Out := vec3 "SHR_I32" Alu.shr g d a b s

/-- SRA_I32 (R96). -/
def execSraI32 (g : PReg) (d a b : VReg) (s : State) : Out := vec3 "SRA_I32" Alu.sra g d a b s

/-- ROTL_I32 (R96). -/
def execRotlI32 (g : PReg) (d a b : VReg) (s : State) : Out := vec3 "ROTL_I32" Alu.rotl g d a b s

/-- BFE_I32 (R97). -/
def execBfeI32 (g : PReg) (d a b : VReg) (s : State) : Out := vec3 "BFE_I32" Alu.bfe g d a b s

/-- BFES_I32 (R97). -/
def execBfesI32 (g : PReg) (d a b : VReg) (s : State) : Out := vec3 "BFES_I32" Alu.bfes g d a b s

/-- BFI_I32 (R97): the destination is read as a third source. -/
def execBfiI32 (g : PReg) (d a b : VReg) (s : State) : Out :=
  issue s "BFI_I32" g [rdV 0 d, rdV 1 a, rdV 2 b] fun x act => x.doneV d act fun i => Alu.bfi (x.v d i) (x.v a i) (x.v b i)

/-- A vector comparison: each active lane writes its bit, or ANDs it in (R102). -/
def vecCmp (mn : String) (both : Bool) (g p : PReg) (c : BitVec 4) (a b : VReg) (s : State) : Out :=
  issue s mn g [rdV 1 a, rdV 2 b] fun x act =>
    let bits := maskWhere fun i => Alu.cond c (x.v a i) (x.v b i)
    x.doneP p act (if both then bits &&& x.k.p.get p.toNat else bits)

/-- CMP (R101, R102). -/
def execCmp (g p : PReg) (c : BitVec 4) (a b : VReg) (s : State) : Out := vecCmp "CMP" false g p c a b s

/-- CMPA (R101, R102). -/
def execCmpa (g p : PReg) (c : BitVec 4) (a b : VReg) (s : State) : Out := vecCmp "CMPA" true g p c a b s

/-- CMPI (R101, R102): the immediate is sign-extended for codes 0–5 and zero-extended above. -/
def execCmpi (g p : PReg) (c : BitVec 4) (a : VReg) (i : BitVec 8) (s : State) : Out :=
  issue s "CMPI" g [rdV 1 a] fun x act =>
    let b := if c.toNat < 6 then immS x.sp.hints i else immZ x.sp.hints i
    x.doneP p act (maskWhere fun j => Alu.cond c (x.v a j) b)

/-- MOV_I32 (R98). -/
def execMovI32 (g : PReg) (d a : VReg) (s : State) : Out := vec2 "MOV_I32" id g d a s

/-- NOT_I32 (R98). -/
def execNotI32 (g : PReg) (d a : VReg) (s : State) : Out := vec2 "NOT_I32" (~~~ ·) g d a s

/-- NEG_I32 (R98). -/
def execNegI32 (g : PReg) (d a : VReg) (s : State) : Out := vec2 "NEG_I32" (- ·) g d a s

/-- ABS_I32 (R98). -/
def execAbsI32 (g : PReg) (d a : VReg) (s : State) : Out := vec2 "ABS_I32" Alu.abs g d a s

/-- POPC_I32 (R98). -/
def execPopcI32 (g : PReg) (d a : VReg) (s : State) : Out := vec2 "POPC_I32" (fun a => BitVec.ofNat 32 (popcount a)) g d a s

/-- CLZ_I32 (R98). -/
def execClzI32 (g : PReg) (d a : VReg) (s : State) : Out := vec2 "CLZ_I32" (fun a => BitVec.ofNat 32 (clz a)) g d a s

/-- CTZ_I32 (R98). -/
def execCtzI32 (g : PReg) (d a : VReg) (s : State) : Out := vec2 "CTZ_I32" (fun a => BitVec.ofNat 32 (ctz a)) g d a s

/-- BREV_I32 (R98). -/
def execBrevI32 (g : PReg) (d a : VReg) (s : State) : Out := vec2 "BREV_I32" brev g d a s

/-- SEXT8_I32 (R98). -/
def execSext8I32 (g : PReg) (d a : VReg) (s : State) : Out := vec2 "SEXT8_I32" Alu.sext8 g d a s

/-- SEXT16_I32 (R98). -/
def execSext16I32 (g : PReg) (d a : VReg) (s : State) : Out := vec2 "SEXT16_I32" Alu.sext16 g d a s

/-- ZEXT8_I32 (R98). -/
def execZext8I32 (g : PReg) (d a : VReg) (s : State) : Out := vec2 "ZEXT8_I32" (· &&& 0xFF) g d a s

/-- ZEXT16_I32 (R98). -/
def execZext16I32 (g : PReg) (d a : VReg) (s : State) : Out := vec2 "ZEXT16_I32" (· &&& 0xFFFF) g d a s

/-- ADDI (R99). -/
def execAddi (g : PReg) (d a : VReg) (i : BitVec 8) (s : State) : Out :=
  issue s "ADDI" g [wrV 0 d, rdV 1 a] fun x act => x.doneV d act fun j => x.v a j + immS x.sp.hints i

/-- MOVI (R99). -/
def execMovi (g : PReg) (d : VReg) (i : BitVec 8) (s : State) : Out :=
  issue s "MOVI" g [wrV 0 d] fun x act => x.doneV d act fun _ => immS x.sp.hints i

/-- SHLI (R100). -/
def execShli (g : PReg) (d a : VReg) (n : BitVec 5) (s : State) : Out := vec2 "SHLI" (· <<< n.toNat) g d a s

/-- SHRI (R100). -/
def execShri (g : PReg) (d a : VReg) (n : BitVec 5) (s : State) : Out := vec2 "SHRI" (· >>> n.toNat) g d a s

/-- SRAI (R100). -/
def execSrai (g : PReg) (d a : VReg) (n : BitVec 5) (s : State) : Out := vec2 "SRAI" (BitVec.sshiftRight · n.toNat) g d a s

/-- ROTLI (R100). -/
def execRotli (g : PReg) (d a : VReg) (n : BitVec 5) (s : State) : Out := vec2 "ROTLI" (BitVec.rotateLeft · n.toNat) g d a s

end Sys2Proof.Machine
end

