-- ==== Sys2Proof/Machine/JournalCommands.lean ====
section
/-!
DEFINITION. The journal commands of the command blocks: SEQOPEN, SEQCLOSE, PARTNER, MARKDONE and JSTORE (20 R409, R410, R414, R415, R418).
-/

namespace Sys2Proof.Machine

/-- NONE, which ranks below every position (R410). -/
def posOf (n : Nat) : Option Nat := if n = 0xFFFFFFFF then none else some n

/-- The largest of some positions, NONE for none. -/
def maxPos (l : List Nat) : Option Nat := l.foldl (fun m p => some (m.elim p fun n => max n p)) none

/-- A record as given in 32 bytes (R412). -/
def parseRecord (b : List Byte) : JRec :=
  let u := recField b
  { kind := u 0 1, ord := u 1 1, seq := u 4 4, pos := u 8 4, ctx := u 12 4, sidx := u 16 8, payload := BitVec.ofNat 64 (u 24 8) }

/-- The records given to a SEQOPEN in MODE 1. -/
def State.givenRecords (s : State) (a n : Nat) : List JRec := (List.range n).map fun k => parseRecord (s.mem.readList (a + 32 * k) 32)

/-- A sequence opened in MODE 1 with its given records (R418): they are the start of its stream, and it is in REPLAY where LASTR is a
position. -/
def Seq.replayed (q : Seq) (given : List JRec) (leftMax : Option Nat) : Seq :=
  let lastJ := maxPos ((given.filter fun r => r.kind == 1).map (·.pos))
  let lastR := maxPos ((given.filter fun r => decide (1 ≤ r.kind) && decide (r.kind ≤ 3)).map (·.pos))
  { q with
    given := given, stream := given, sidx := (maxPos (given.map (·.sidx))).elim 0 (· + 1), leftMax := leftMax, lastJ := lastJ, lastR := lastR
    replay := lastR.isSome, durable := some (q.next - 1) }

/-- Sequences open in the device (R409). -/
def State.openSeqs (s : State) : Nat := (s.contexts.map fun c => c.2.seqs.length).sum

/-- A SEQOPEN's limits (R410). -/
def State.seqopenOk (s : State) (c : Nat) : Bool :=
  let mode := s.cmd c 16 1
  s.cmdClean c [(0, 1), (4, 44)] && decide (mode ≤ 1) && decide (s.cmd c 17 1 ≤ 7) && decide (s.openSeqs < 65536) &&
    (s.seq (s.cmdCtx c) (s.cmd c 8 4)).isNone &&
    if mode = 0 then s.cmd c 32 8 == 0 && s.cmd c 40 8 == 0
    else s.cmd c 12 4 != 0 && s.cmd c 32 8 % 32 == 0 && inDevice (s.cmd c 32 8) (32 * s.cmd c 40 4)

/-- What SEQOPEN does; given records wait for room in the pool (R412) (log entry 47). -/
def State.runSeqopen (s : State) (c : Nat) : Option State :=
  let ctx := s.cmdCtx c
  if (s.context ctx).isNone then some (s.cmdDone c 6)
  else if !s.seqopenOk c then some (s.cmdDone c 5)
  else
    let given := if s.cmd c 16 1 = 1 then s.givenRecords (s.cmd c 32 8) (s.cmd c 40 4) else []
    let start := s.cmd c 12 4
    let q : Seq :=
      { seq := s.cmd c 8 4, next := start, emit := start, durable := none, port := s.cmd c 17 1, dmac := s.cmd c 18 6, client := s.cmd c 24 8 }
    let q := if s.cmd c 16 1 = 1 then q.replayed given (posOf (s.cmd c 44 4)) else q
    if !s.recordTurn ctx none given.length then none
    else some (((s.modContext ctx fun x => { x with seqs := x.seqs.put q.seq q }).ship ctx q.seq).cmdDone c 2)

/-- SEQOPEN (R410). -/
def execSeqopen (complex : Nat) (s : State) : Out := command "SEQOPEN" 10 complex s fun s => s.runSeqopen complex

/-- The oldest held emission is released and has still to leave (R413). -/
def State.releasing (s : State) (c : Context) (q : Seq) : Bool :=
  q.held.head?.any (s.mayLeave c q)

/-- What SEQCLOSE does; it waits for released emissions to leave, and for room for its record. -/
def State.runSeqclose (s : State) (c : Nat) : Option State :=
  let ctx := s.cmdCtx c
  let n := s.cmd c 8 4
  if !s.cmdClean c [(0, 1), (4, 8)] then some (s.cmdDone c 5)
  else
    match s.context ctx, s.seq ctx n with
    | some x, some q => if s.releasing x q || !s.recordTurn ctx (some (.left n)) (q.left.length + 1) then none else some ((s.closeSeq ctx n).cmdDone c 2)
    | _, _ => some (s.cmdDone c 6)

/-- SEQCLOSE (R410). -/
def execSeqclose (complex : Nat) (s : State) : Out := command "SEQCLOSE" 11 complex s fun s => s.runSeqclose complex

/-- Watch a peer from now on (R416). -/
def State.watch (s : State) (peer : Nat) : State :=
  if (s.peers.get peer).isSome then s else { s with peers := s.peers.put peer { heard := s.now, sent := s.now } }

/-- Forget peers that are neither a partner nor a source. -/
def State.unwatch (s : State) : State :=
  { s with
    peers := s.peers.filter fun p =>
      (s.stores.get p.1).isSome || s.contexts.any fun c => c.2.partner.elim false fun q => q.peer == p.1 }

/-- Start a stream over for a new partner: ACKIDX is the lowest SIDX retained, and the retained records are shipped from there (R415). -/
def Seq.reship (q : Seq) : Seq :=
  let low := (q.stream.head?).elim q.sidx (·.sidx)
  { q with ackIdx := low, shipped := low }

/-- What PARTNER does: emissions that wait for a live peer go on waiting where it names the present one and that is silent still (R416) (log
entry 47). -/
def State.runPartner (s : State) (c : Nat) : State :=
  let peer := s.cmd c 8 2
  if !s.cmdClean c [(0, 1), (4, 7), (12, 6)] || 1 < s.cmd c 10 1 || 1024 ≤ peer then s.cmdDone c 5
  else
    match s.context (s.cmdCtx c) with
    | none => s.cmdDone c 6
    | some x =>
      let changed := x.partner.elim true fun p => p.peer != peer
      let x' := { x with
        partner := some
          { peer := peer, ethernet := s.cmd c 10 1 == 1, pmac := s.cmd c 12 6, silent := !changed && (s.peers.getD peer {}).silent }
        seqs := if changed then x.seqs.map fun q => (q.1, q.2.reship) else x.seqs }
      let t := ((s.setContext x').watch peer).unwatch
      (if changed then (x.seqs.map (·.1)).foldl (fun t q => t.ship x.num q) t else t).cmdDone c 2

/-- PARTNER (R415). -/
def execPartner (complex : Nat) (s : State) : Out := command "PARTNER" 12 complex s fun s => some (s.runPartner complex)

/-- What MARKDONE does; its record waits for room in the pool (R412). -/
def State.runMarkdone (s : State) (c : Nat) : Option State :=
  let ctx := s.cmdCtx c
  let n := s.cmd c 8 4
  let mark := (s.cmd c 12 4, BitVec.ofNat 64 (s.cmd c 16 8))
  if !s.cmdClean c [(0, 1), (4, 20)] then some (s.cmdDone c 5)
  else
    match s.seq ctx n with
    | none => some (s.cmdDone c 6)
    | some q =>
      if !q.marks.contains mark then some (s.cmdDone c 6)
      else if !s.recordTurn ctx none 1 then none
      else
        let t := s.modSeq ctx n fun q => { q with durable := some (q.durable.elim mark.1 fun d => max d mark.1), marks := q.marks.erase mark }
        some ((t.appendRecord ctx n 5 0 mark.1 mark.2).cmdDone c 2)

/-- MARKDONE (R410). -/
def execMarkdone (complex : Nat) (s : State) : Out := command "MARKDONE" 13 complex s fun s => s.runMarkdone complex

/-- What JSTORE does (log entry 47). -/
def State.runJstore (s : State) (c : Nat) : State :=
  let source := s.cmd c 8 2
  if !s.cmdClean c [(0, 1), (4, 6), (16, 16)] || 1024 ≤ source || !inDevice (s.cmd c 16 8) (s.cmd c 24 8) then s.cmdDone c 5
  else
    let t := { s with stores := s.stores.put source { base := s.cmd c 16 8, size := s.cmd c 24 8 } }
    (t.watch source).cmdDone c 2

/-- JSTORE (R410, R414). -/
def execJstore (complex : Nat) (s : State) : Out := command "JSTORE" 15 complex s fun s => some (s.runJstore complex)

end Sys2Proof.Machine
end

