-- ==== Sys2Proof/Machine/Pred.lean ====
section
/-!
DEFINITION. Predicate logic, the moves between register classes, and address formation (04 R103–R105).
-/

namespace Sys2Proof.Machine

/-- A predicate operation on the lanes of the guard (R103). -/
def predOp (mn : String) (f : Mask → Mask → Mask) (g d a b : PReg) (s : State) : Out :=
  issue s mn g [] fun x act => x.doneP d act (f (x.k.pred a) (x.k.pred b))

/-- PAND (R103). -/
def execPand (g d a b : PReg) (s : State) : Out := predOp "PAND" (· &&& ·) g d a b s

/-- POR (R103). -/
def execPor (g d a b : PReg) (s : State) : Out := predOp "POR" (· ||| ·) g d a b s

/-- PXOR (R103). -/
def execPxor (g d a b : PReg) (s : State) : Out := predOp "PXOR" (· ^^^ ·) g d a b s

/-- PANDN (R103). -/
def execPandn (g d a b : PReg) (s : State) : Out := predOp "PANDN" (fun p q => p &&& ~~~q) g d a b s

/-- MOV_VG (R104). -/
def execMovVg (g : PReg) (d : VReg) (a : GReg) (s : State) : Out :=
  issue s "MOV_VG" g [wrV 0 d, rdG 1 a] fun x act => x.doneV d act fun _ => x.g a

/-- MOV_PG: the bits of the split's live lanes (R91, R104). -/
def execMovPg (d : PReg) (a : GReg) (s : State) : Out :=
  issueU s "MOV_PG" [rdG 1 a] fun x => x.doneP d x.live (x.g a)

/-- MOV_GP: all 32 bits, absent lanes 0 (R104). -/
def execMovGp (d : GReg) (a : PReg) (s : State) : Out :=
  issueU s "MOV_GP" [wrG 0 d] fun x => x.doneG d (x.k.pred a &&& presentMask x.k.slices)

/-- MOV_VP (R104). -/
def execMovVp (g : PReg) (d : VReg) (a : PReg) (s : State) : Out :=
  issue s "MOV_VP" g [wrV 0 d] fun x act => x.doneV d act fun i => if (x.k.pred a).getLsbD i then 1 else 0

/-- MOV_PV (R104). -/
def execMovPv (g d : PReg) (a : VReg) (s : State) : Out :=
  issue s "MOV_PV" g [rdV 1 a] fun x act => x.doneP d act (maskWhere fun i => x.v a i != 0)

/-- LANEID (R104). -/
def execLaneid (g : PReg) (d : VReg) (s : State) : Out :=
  issue s "LANEID" g [wrV 0 d] fun x act => x.doneV d act fun i => BitVec.ofNat 32 i

/-- MOV_GV: any lane of the pack (R104). -/
def execMovGv (d : GReg) (a : VReg) (l : BitVec 5) (s : State) : Out :=
  issueU s "MOV_GV" [wrG 0 d, rdV 1 a] fun x => x.doneG d (x.v a l.toNat)

/-- `lea` with its scale from the MOD hint (R105). -/
def leaOp (mn : String) (ext : Word → DWord) (g : PReg) (d : VReg) (a : GReg) (b : VReg) (s : State) : Out :=
  issue s mn g [wrV 0 d 2, rdG 1 a 2, rdV 2 b] fun x act =>
    x.doneV64 d act fun i => x.k.readG64 a.toNat + (ext (x.v b i) <<< (modBits x.sp.hints % 4))

/-- LEA: the offset sign-extended (R105). -/
def execLea (g : PReg) (d : VReg) (a : GReg) (b : VReg) (s : State) : Out := leaOp "LEA" (·.signExtend 64) g d a b s

/-- LEAU: the offset zero-extended (R105). -/
def execLeau (g : PReg) (d : VReg) (a : GReg) (b : VReg) (s : State) : Out := leaOp "LEAU" (·.setWidth 64) g d a b s

end Sys2Proof.Machine
end

