-- ==== Sys2Proof/Machine/Turns.lean ====
section
/-!
DEFINITION. Which split may issue: stalls whose condition has come to hold, eligibility, demotion, the ports and the rotation of normal mode
(09 R239, R241, R247), and the current pack and split of deterministic mode (09 R251–R254).
-/

namespace Sys2Proof.Machine

/-! ### Stalled instructions (09 R239) -/

/-- The event that carries out the instruction a split is stalled at, where the split itself is what goes on (09 R239): a bank switch, a
joint, a second `fetchw` and a yielded turn end by what others do. -/
def Stall.event (core slot split : Nat) : Stall → Option (State → Out)
  | .wait .. => some (execWaitSatisfied core slot split)
  | .fpush .. => some (execFifoUnblock core slot split)
  | .fpop .. => some (execFifoUnblock core slot split)
  | .qpush .. => some (execQueueUnblock core slot split)
  | .qpop .. => some (execQueueUnblock core slot split)
  | .cwpwait .. => some (execCwpwaitPass core slot split)
  | .pbwait .. => some (execPbwaitPass core slot split)
  | .acquire .. => some (execQtokAcqPass core slot split)
  | .wlpush .. => some (execWlpushResume core slot split)
  | .wlpop .. => some (execWlpopResume core slot split)
  | .jrec .. => some (execJrecAcceptance core slot split)
  | .bankcfg => none
  | .joint => none
  | .fetchw .. => none
  | .yielded => none

/-- What the split's stalled instruction answers now, where it can be carried out. -/
def State.unstall (s : State) (core slot : Nat) (sp : Split) : Option Out :=
  match sp.stall.bind (Stall.event core slot sp.id) with
  | some f =>
    match f s with
    | .next t => some (.next t)
    | _ => none
  | none => none

/-- The instruction the split is stalled at can be carried out: its blocking condition holds no more (09 R241). -/
def State.ripe (s : State) (core slot : Nat) (sp : Split) : Bool := (s.unstall core slot sp).isSome

/-- READY and not blocked at a switch point whose condition holds (09 R241, R252). -/
def State.eligible (s : State) (core slot : Nat) (sp : Split) : Bool :=
  sp.status == .ready && (!sp.stall.elim false Stall.switchPoint || s.ripe core slot sp)

/-- The split can issue its next word, or carry out what it is stalled at; a pack that stops goes on only inside a unit that is not divided
(09 R241, 15 R336). -/
def State.goes (s : State) (core slot : Nat) (k : Pack) (sp : Split) : Bool :=
  (!k.stopping || sp.midUnit) && (sp.canIssue || s.ripe core slot sp)

/-! ### Normal mode (09 R241) -/

/-- Demotion lets the split issue: no non-demoted split of its pack is eligible (09 R241, R247). -/
def State.demotionLets (s : State) (core slot : Nat) (k : Pack) (sp : Split) : Bool :=
  !sp.demoted || !(k.splits.any fun e => !e.2.demoted && s.eligible core slot e.2)

/-- The split may be given a port. -/
def State.portable (s : State) (core slot : Nat) (k : Pack) (sp : Split) : Bool :=
  s.goes core slot k sp && s.demotionLets core slot k sp

/-- The splits a port may be given, in order: the packs in rotation after a slot, within a pack the priority list (09 R241). -/
def State.candidates (s : State) (core last : Nat) : List (Nat × Split) :=
  ((s.core core).rotation last).flatMap fun p =>
    ((p.2.order.filterMap p.2.split).filter fun sp => s.portable core p.1 p.2 sp).map fun sp => (p.1, sp)

/-- Two splits that may not issue in one cycle: they are one, or share a slice (09 R241). -/
def sameSlice (a b : Nat × Split) : Bool :=
  a.1 == b.1 && (a.2.id == b.2.id || (slicesOf a.2.mask).any fun j => (slicesOf b.2.mask).contains j)

/-! ### Deterministic mode (09 R251–R254) -/

/-- The first split of a pack's priority list that is READY and not blocked (09 R252). -/
def State.firstEligible (s : State) (core slot : Nat) (k : Pack) : Option Nat :=
  k.order.find? fun i => (k.split i).elim false fun sp => s.eligible core slot sp

/-- The current split of a pack: the one whose turn it is, else the first that is not blocked (09 R252); a demoted one gives way once a split
that is not demoted can go on (09 R247) (log entry 71). -/
def State.current (s : State) (core slot : Nat) (k : Pack) : Option Nat :=
  let first := s.firstEligible core slot k
  match k.cur with
  | some i => if k.isDemoted i && first.any (!k.isDemoted ·) then first else some i
  | none => first

/-- A stopping pack has a unit half issued that must not be divided, or the pack is not stopping (15 R336). -/
def Pack.mayRun (k : Pack) : Bool := !k.stopping || k.splits.any fun e => e.2.canIssue && e.2.midUnit

/-- The pack has a split that R252 can select, or one that only waits for its pack to be current again. -/
def State.hasTurn (s : State) (core slot : Nat) (k : Pack) : Bool :=
  k.mayRun && ((s.current core slot k).isSome || k.splits.any fun e => e.2.stall == some .yielded)

/-- The pack a deterministic core passes to from its current one (09 R253) (log entry 71). -/
def State.nextPack (s : State) (core : Nat) : Option Nat :=
  let c := s.core core
  let l := match c.detKey with
    | some key => c.cyclic key
    | none => sortBy packKey c.packs
  (l.find? fun p => s.hasTurn core p.1 p.2).map (·.1)

/-- The core must pass to another pack: a `yield` asked for it, or the current pack has no split to select (09 R253) (log entry 71). -/
def State.mustPass (s : State) (core : Nat) : Bool :=
  let c := s.core core
  c.detPass || match c.detCur.bind fun n => (Table.get c.packs n).map fun k => (n, k) with
    | some p => !p.2.mayRun || (s.current core p.1 p.2).isNone
    | none => true

/-- DET_PACK_SWITCH (09 R253): the next pack in cyclic order with a split to select becomes current, and splits that waited there for its turn
go on (log entry 71). -/
def execDetPackSwitch (core : Nat) (s : State) : Out :=
  let c := s.core core
  match if s.detCore core && s.mustPass core then s.nextPack core else none with
  | none => .refused (.notEnabled "DET_PACK_SWITCH")
  | some n =>
    let s := s.setCore core { c with detCur := some n, detPass := false, detKey := (Table.get c.packs n).map fun p => packKey (n, p) }
    .next (s.modPack core n fun k =>
      { k with
        cur := none
        splits := k.splits.map fun e => if e.2.stall == some .yielded then (e.1, { e.2 with stall := none }) else e })

/-! ### Permission -/

/-- The split may issue its next word, or carry out what it is stalled at, as far as its own state, demotion and turn decide (09 R241, R247,
R251, R252). -/
def State.mayIssue (s : State) (c slot split : Nat) : Bool :=
  match s.pack c slot with
  | none => false
  | some k =>
    match k.split split with
    | none => false
    | some sp =>
      if s.detCore c then
        (s.core c).detCur == some slot && !s.mustPass c && s.current c slot k == some split && s.goes c slot k sp
      else s.portable c slot k sp

/-- The split that issues is the current one of its pack from now on, on a deterministic core (09 R252); on another the rotation records its
pack (09 R241). -/
def State.takeTurn (s : State) (c slot split : Nat) : State :=
  if s.detCore c then s.modPack c slot fun k => { k with cur := some split }
  else s.setCore c { s.core c with lastPack := slot }

/-- On a deterministic core the split that R252 selects is current at once, also while it waits to be refilled. -/
def State.latchTurn (s : State) (c : Nat) : State :=
  if s.detCore c then
    match (s.core c).detCur with
    | some n => s.modPack c n fun k => { k with cur := s.current c n k }
    | none => s
  else s

/-- Turns that have ended are given up, and the next split of each current pack is selected (09 R252). -/
def State.settleTurns (s : State) : State := (s.cores.map (·.1)).foldl State.latchTurn s.giveUpTurns

/-- What a step leaves once every turn that ended in it has passed on (09 R252). -/
def settled : Out → Out
  | .next t => .next t.settleTurns
  | .fault f => .fault f
  | .refused r => .refused r

end Sys2Proof.Machine
end

