-- ==== Sys2Proof/Machine/Window.lean ====
section
/-!
DEFINITION. What outside agents reach: writes in the device window (16 R356), host harts (11 R290, 16 R345) and PCI Express endpoints.
-/

namespace Sys2Proof.Machine

/-- A 64-bit register with one 32-bit half replaced. -/
def withHalf (old off v : Nat) : Nat := if off % 8 = 0 then old / 2 ^ 32 * 2 ^ 32 + v % 2 ^ 32 else old % 2 ^ 32 + v % 2 ^ 32 * 2 ^ 32

/-- Write a port's register: ENABLE, then GATE (19 R402). -/
def State.writePort (s : State) (k v : Nat) : State :=
  (s.modPort k fun p =>
    let p := p.writeEnable (bit v 0) (s.portLit k)
    p.writeGate (bit v 1)).resumeTurns

/-- Write 32 bits of a resource control register, at an offset from 0x0200_0000: ignored unless the complex holds its semaphore (16 R360) (log entry 60). -/
def State.writeControl (s : State) (complex off v : Nat) : State :=
  let own := s.guarded complex
  if off = 0x100 || off = 0x104 then
    if own 0 then { s with maps := { s.maps with addr := BitVec.ofNat 64 (withHalf s.maps.addr.toNat off v) } } else s
  else if off = 0x108 then if own 0 && bit v 0 && s.maps.stat != 1 then s.startMap else s
  else if 0x200 ≤ off && off < 0x200 + 4 * 48 then
    let i := (off - 0x200) / 4
    if own (islandSem i) then s.writePoint i (v % 8) else s
  else if off = 0x300 || off = 0x304 then if own 42 then s.writeStep (BitVec.ofNat 64 (withHalf s.step.toNat off v)) else s
  else if 0x400 ≤ off && off < 0x400 + 8 * 24 && off % 8 = 0 then
    let m := (off - 0x400) / 8
    if own (5 + m) then s.writeLaser m v else s
  else if 0x500 ≤ off && off < 0x500 + 8 * 4 && off % 8 = 0 then
    let j := (off - 0x500) / 8
    if own (1 + j) then if v % 4 = 1 then s.drainPlane j else if v % 4 = 2 then s.resumePlane j else s else s
  else if 0x800 ≤ off && off < 0x800 + 8 * portCount && off % 8 = 0 then
    let k := (off - 0x800) / 8
    if own (1 + planeOf k) then s.writePort k v else s
  else s

/-- The writable bits of a queue descriptor's byte: HEAD is the distributor's own (15 R318) (log entry 60). -/
def queueMask (o : Nat) : Byte := if 40 ≤ o % 64 && o % 64 < 44 then 0 else 0xFF
/-- The writable bits of a routing entry's byte (16 R357). -/
def routeMask (o : Nat) : Byte := if o % 8 < 2 then 0xFF else if o % 8 = 2 then 0x1F else 0
/-- The writable bits of an event ring register's byte (16 R363). -/
def ringMask (o : Nat) : Byte :=
  let k := o % 256
  if k < 12 || (16 ≤ k && k < 20) then 0xFF else if k = 12 then 1 else 0

/-- DOORBELL (16 R358): ignored while the command block is BUSY; a KIND that names no command is INVALID (log entry 44). -/
def doorbell (complex : Nat) (s : State) : Out :=
  if s.cmdBusy complex then .next s
  else
    match s.cmd complex 0 1 with
    | 1 => execResume complex s
    | 2 => execRetry complex s
    | 3 => execRevoke complex s
    | 4 => execUnrevoke complex s
    | 5 => execMigrate complex s
    | 6 => execQuery complex s
    | 7 => execAttest complex s
    | 8 => execReserve complex s
    | 9 => execRelease complex s
    | 10 => execSeqopen complex s
    | 11 => execSeqclose complex s
    | 12 => execPartner complex s
    | 13 => execMarkdone complex s
    | 15 => execJstore complex s
    | _ => .next (s.cmdDone complex 5)

/-- An offset lies in a range of the window. -/
def inRange (off base n : Nat) : Bool := decide (base ≤ off) && decide (off < base + n)

/-- The base of the device window (16 R345). -/
def windowBase : Nat := 0x00F1000000000000

/-- A write of 4 or 8 bytes, naturally aligned, in the device window (R356); any other has no effect. One to ECAM goes out to its root port
(R365) (log entries 60, 92). -/
def windowStore (complex off size v : Nat) (s : State) : Out :=
  if (size != 4 && size != 8) || off % size != 0 then .next s
  else if inRange off 0x10000000 (8 * 2 ^ 25) then .next (s.send (.pcie (windowBase + off) size .store v))
  else if inRange off 0x1000 0x100 then
    let n := (off - 0x1000) / 4
    let t := s.writeSem complex n v
    .next (if size = 8 then t.writeSem complex (n + 1) (v / 2 ^ 32) else t)
  else if inRange off 0x100000 0x10000 then .next (s.setWinMasked off queueMask size v)
  else if inRange off 0x200000 0x8000 then .next (s.setWinMasked off routeMask size v)
  else if inRange off 0x300000 0x200 then .next (s.setWinMasked off ringMask size v)
  else if inRange off 0x400000 0x2000 then
    let o := off % 0x1000
    if o < 64 then .next (s.setWinMasked off (fun _ => 0xFF) size v)
    else if o = 0x40 then doorbell ((off - 0x400000) / 0x1000) s
    else .next s
  else if inRange off 0x1000000 (0x2000 * Config.clusters) then .next (s.writeFilter off size v)
  else if inRange off 0x2000000 0x1000 then
    let o := off - 0x2000000
    if size = 8 && o = 0x300 then
      .next (if s.guarded complex 42 then s.writeStep (BitVec.ofNat 64 v) else s)
    else
      let t := s.writeControl complex o v
      .next (if size = 8 then t.writeControl complex (o + 4) (v / 2 ^ 32) else t)
  else .next s

/-- REGISTER_WRITE (00 R8): a complex writes a register of the window. -/
def execRegisterWrite (complex offset size value : Nat) (s : State) : Out :=
  if 2 ≤ complex || 2 ^ 30 ≤ offset then .refused (.notEnabled "REGISTER_WRITE") else windowStore complex offset size value s

/-! ### Host harts (11 R290, 16 R345) -/

/-- What an operation of a host hart writes over an old value of `8 size` bits, if it writes. -/
def hartResult (op : HartOp) (size old v : Nat) : Option Nat :=
  let w := 8 * size
  match op with
  | .load => none
  | .store => some v
  | .amoSwap => some v
  | .amoAdd => some ((old + v) % 2 ^ w)
  | .amoAnd => some (old &&& v)
  | .amoOr => some (old ||| v)
  | .amoXor => some (old ^^^ v)
  | .amoMin => some (if signedOf w old ≤ signedOf w v then old else v)
  | .amoMax => some (if signedOf w old ≤ signedOf w v then v else old)
  | .amoMinu => some (min old v)
  | .amoMaxu => some (max old v)
  | .amoCas e => if old = e then some v else none
  | .lr => none
  | .sc => none

/-- A semaphore register (16 R359). -/
def Sem.word (m : Sem) : Nat := (if m.held then 1 else 0) + m.owner % 2 * 2 + m.count * 2 ^ 16

/-! ### Reading the window (00 R8, R9) -/

/-- An island's register (18 R375). -/
def Island.word (x : Island) : Nat := x.point % 8 + x.current % 8 * 16 + (if x.throttled && decide (x.current < x.point) then 128 else 0) + min x.temp 255 * 256

/-- The code of a laser module's STATE (19 R399). -/
def LaserState.code : LaserState → Nat
  | .absent => 0
  | .warm => 1
  | .lit => 2
  | .off => 3
  | .fault => 4

/-- A laser module's register (19 R399). -/
def Laser.word (l : Laser) : Nat :=
  (if l.on then 1 else 0) + (if l.present then 2 else 0) + l.state.code * 4 + (if l.sole then 32 else 0) + l.temp % 256 * 256

/-- The code of a plane's PSTATE (19 R405). -/
def PlaneState.code : PlaneState → Nat
  | .active => 0
  | .draining => 1
  | .dark => 2
  | .retrain => 3

/-- The code of a port's STATE (19 R402). -/
def PortState.code : PortState → Nat
  | .down => 0
  | .laserWait => 1
  | .cal => 2
  | .carrier => 3
  | .pol => 4
  | .align => 5
  | .up => 6
  | .divert => 7
  | .gated => 8
  | .laserAbsent => 9

/-- A port's register (19 R402). -/
def Port.word (p : Port) (k : Nat) : Nat :=
  (if p.enable then 1 else 0) + (if p.gate then 2 else 0) + p.state.code * 4 + planeOf k % 4 * 64 + p.peer % 1024 * 256

/-- 32 bits of the resource control registers, at an offset from 0x0200_0000: GO and CMD read as 0 (18 R375, R379, R381, R387; 19 R399, R402,
R405). -/
def State.controlWord (s : State) (o : Nat) : Nat :=
  let half := fun (v : Nat) => if o % 8 = 0 then v % 2 ^ 32 else v / 2 ^ 32 % 2 ^ 32
  if o = 0 then s.idstat
  else if o = 8 || o = 0xC then half Config.serial.toNat
  else if o = 0x10 then s.coreCount
  else if o = 0x100 || o = 0x104 then half s.maps.addr.toNat
  else if o = 0x10C then s.maps.stat % 8
  else if 0x200 ≤ o && o < 0x200 + 4 * 48 then (s.island ((o - 0x200) / 4)).word
  else if o = 0x300 || o = 0x304 then half s.step.toNat
  else if o = 0x308 then if s.slew = 0 then 0 else 1
  else if 0x400 ≤ o && o < 0x400 + 8 * 24 && o % 8 = 0 then (s.laser ((o - 0x400) / 8)).word
  else if 0x500 ≤ o && o < 0x500 + 8 * 4 && o % 8 = 0 then (s.plane ((o - 0x500) / 8)).state.code * 4
  else if 0x800 ≤ o && o < 0x800 + 8 * portCount && o % 8 = 0 then (s.port ((o - 0x800) / 8)).word ((o - 0x800) / 8)
  else 0

/-- 32 bits of the device window (R356); what no register lies at reads as 0. -/
def State.windowWord (s : State) (off : Nat) : Nat :=
  if inRange off 0x1000 0x100 then (s.sem ((off - 0x1000) / 4)).word
  else if inRange off 0x100000 0x10000 || inRange off 0x200000 0x8000 || inRange off 0x300000 0x200 then s.win off 4
  else if inRange off 0x400000 0x2000 then
    let o := off % 0x1000
    if o < 64 then s.win off 4 else if o = 0x48 then s.cmdStatus.getD ((off - 0x400000) / 0x1000) 0 else 0
  else if inRange off 0x1000000 (0x2000 * Config.clusters) then s.win off 4
  else if inRange off 0x2000000 0x1000 then s.controlWord (off - 0x2000000)
  else 0

/-- What a load of the window gives: 0 for an access that is not 4 or 8 bytes, naturally aligned (R356). -/
def State.windowRead (s : State) (off size : Nat) : Nat :=
  if (size != 4 && size != 8) || off % size != 0 then 0
  else s.windowWord off + if size = 8 then s.windowWord (off + 4) * 2 ^ 32 else 0

/-! ### Reservations of host harts (R356, 11 R290) -/

/-- What a host hart reads at a physical address: device memory, the Sett status block or the window. -/
def State.hartRead (s : State) (pa size : Nat) : Nat :=
  if inDevice pa size then s.mem.readLE pa size
  else if inSett pa size then s.physRead pa size
  else s.windowRead (pa - windowBase) size

/-- The hart's reservation stands for these bytes: none of them has been written since (log entry 60). -/
def State.reserved (s : State) (a : HostAccess) : Bool :=
  match s.hartResvs.get (32 * a.complex + a.hart) with
  | none => false
  | some r =>
    r.pa == a.pa && r.size == a.size && r.value == s.hartRead a.pa a.size &&
      !s.stale.any fun b => decide (r.serial < b.serial) && decide (a.pa ≤ b.pa) && decide (b.pa < a.pa + a.size)

/-- What the access writes, if it writes (log entry 60). -/
def State.hartWrites (s : State) (a : HostAccess) : Option Nat :=
  match a.op with
  | .sc => if s.reserved a then some a.value else none
  | op => hartResult op a.size (s.hartRead a.pa a.size) a.value

/-- A hart has made an access: LR takes a reservation, SC gives up its own, and a write ends those on its bytes. What the hart gets, SC's 0 or 1
among it, goes out to it (log entry 60). -/
def State.hartDone (s old : State) (a : HostAccess) (wrote : Bool) : State :=
  let key := 32 * a.complex + a.hart
  let rs : Table HartResv := if wrote then s.hartResvs.filter fun r => !overlap r.2.pa r.2.size a.pa a.size else s.hartResvs
  let seen := old.hartRead a.pa a.size
  let give := fun (v : Nat) (rs : Table HartResv) => ({ s with hartResvs := rs } : State).send (.hartData a.complex a.hart v)
  match a.op with
  | .store => { s with hartResvs := rs }
  | .lr => give seen (Table.put rs key { pa := a.pa, size := a.size, value := seen, serial := s.stale.getLast?.elim 0 (·.serial) })
  | .sc => give (if wrote then 0 else 1) (Table.del rs key)
  | _ => give seen rs

/-- The window's bytes that AMOs and LR/SC pairs act on: the queue table and the semaphores (R356) (log entry 60). -/
def atomicWindow (off size : Nat) : Bool :=
  (size == 4 || size == 8) && off % size == 0 && (inRange off 0x100000 0x10000 || inRange off 0x1000 0x100)

/-- The operation is an AMO, an LR or an SC. -/
def atomicOp (op : HartOp) : Bool :=
  match op with
  | .load => false
  | .store => false
  | _ => true

/-- An access without effect: what it reads is 0, and an SC fails (R356) (log entry 60). -/
def hartNothing (a : HostAccess) (s : State) : State :=
  if a.op = .store then s else s.send (.hartData a.complex a.hart (if a.op = .sc then 1 else 0))

/-- An access that goes out to a root port or an endpoint: what comes back to the hart is a free value (R345, R365) (log entries 3, 92). -/
def hartOutward (a : HostAccess) (s : State) : State :=
  let s := s.send (.pcie a.pa a.size a.op a.value)
  let b := s.freeBytes a.size
  match a.op with
  | .store => s
  | .sc => b.2.send (.hartData a.complex a.hart (natLE b.1 % 2))
  | _ => b.2.send (.hartData a.complex a.hart (natLE b.1))

/-- The address is `seteipnum_le` of an interrupt file (R361, R362). -/
def eipAddress (pa : Nat) : Bool :=
  let o := pa - 0x00F4000000000000
  pa % 0x1000 == 0 && decide (o / 0x1000000 < 2) && decide (o / 0x100000 % 16 < 8) && decide (o / 0x1000 % 256 < 32)

/-- A host hart's access to the interrupt files: a store of 4 bytes to `seteipnum_le` is an MSI (R362); by the AIA that R361 names, no other
access has an effect, and what it reads is 0 (log entry 92). -/
def hartImsic (a : HostAccess) (s : State) : State :=
  if a.op = .store && a.size == 4 && eipAddress a.pa then s.send (.msi a.pa (a.value % 2 ^ 32)) else hartNothing a s

/-- A host hart's access to the window (R356): a load gives the register's word, AMOs and LR/SC pairs act on the queue table and the semaphores
only, and elsewhere have no effect (log entry 60). -/
def hartWindow (a : HostAccess) (off : Nat) (s : State) : Out :=
  if atomicOp a.op && !atomicWindow off a.size then .next (hartNothing a s)
  else if inRange off 0x10000000 (8 * 2 ^ 25) && a.op = .load && (a.size == 4 || a.size == 8) && off % a.size == 0 then
    .next (hartOutward a s)
  else
    match s.hartWrites a with
    | none => .next (s.hartDone s a false)
    | some v =>
      match windowStore a.complex off a.size v s with
      | .next t => .next (t.hartDone s a true)
      | o => o

/-- HOST_HART_ACCESS (11 R290, 16 R345, R355): device memory takes loads, stores, AMOs and LR/SC pairs, whose writes drop the line from every L2;
the Sett status block loads only; the window as R356 says; the interrupt files and PCI Express windows as R362 and R365 say. What the hart reads
goes out to it (log entries 73, 92). -/
def execHostHartAccess (a : HostAccess) (s : State) : Out :=
  if 2 ≤ a.complex || 32 ≤ a.hart then .refused (.notEnabled "HOST_HART_ACCESS")
  else if inDevice a.pa a.size then
    .next (match s.hartWrites a with
      | some v => (s.outsideWrite a.pa (bytesLE a.size v)).hartDone s a true
      | none => s.hartDone s a false)
  else if inSett a.pa a.size then
    .next (if a.op = .load then s.send (.hartData a.complex a.hart (s.physRead a.pa a.size)) else hartNothing a s)
  else if inRange a.pa windowBase (2 ^ 30) then hartWindow a (a.pa - windowBase) s
  else if inRange a.pa 0x00F4000000000000 0x2000000 then .next (hartImsic a s)
  else if inRange a.pa 0x00F8000000000000 (4 * 2 ^ 48) then .next (hartOutward a s)
  else .fault (.noSuchAddress a.pa)

/-- PCIE_ENDPOINT_WRITE (11 R290, 16 R345): applied at the point of coherence; endpoints reach device memory only (log entry 73). -/
def execPcieEndpointWrite (pa : Nat) (bytes : List Byte) (s : State) : Out :=
  if inDevice pa bytes.length then .next (s.outsideWrite pa bytes) else .fault (.noSuchAddress pa)

/-! ### Sensors (18 R375, 19 R399) -/

/-- A temperature sensor reads: an island's hottest, or a laser module's (log entry 2). -/
def State.sense (s : State) (unit temp : Nat) : State :=
  if unit < 48 then s.setIsland unit ((s.island unit).sensed temp)
  else if unit < 72 then s.setLaser (unit - 48) { s.laser (unit - 48) with temp := min temp 255 }
  else s

end Sys2Proof.Machine
end

