-- ==== Sys2Proof/Machine/Dispatch.lean ====
section
/-!
DEFINITION. One arm for each constructor of `Instr`: a direct call of its meaning, or a refusal by name.
-/

namespace Sys2Proof.Machine

/-- What one instruction or event does. -/
def exec (i : Instr) (s : State) : Host.Outcome State Fault Refusal :=
  match i with
  | .addI32 g d a b => Sys2Proof.Machine.execAddI32 g d a b s
  | .addsI32 g d a b => Sys2Proof.Machine.execAddsI32 g d a b s
  | .subI32 g d a b => Sys2Proof.Machine.execSubI32 g d a b s
  | .subsI32 g d a b => Sys2Proof.Machine.execSubsI32 g d a b s
  | .mulI32 g d a b => Sys2Proof.Machine.execMulI32 g d a b s
  | .mulhI32 g d a b => Sys2Proof.Machine.execMulhI32 g d a b s
  | .mulhuI32 g d a b => Sys2Proof.Machine.execMulhuI32 g d a b s
  | .minI32 g d a b => Sys2Proof.Machine.execMinI32 g d a b s
  | .minuI32 g d a b => Sys2Proof.Machine.execMinuI32 g d a b s
  | .maxI32 g d a b => Sys2Proof.Machine.execMaxI32 g d a b s
  | .maxuI32 g d a b => Sys2Proof.Machine.execMaxuI32 g d a b s
  | .andI32 g d a b => Sys2Proof.Machine.execAndI32 g d a b s
  | .andnI32 g d a b => Sys2Proof.Machine.execAndnI32 g d a b s
  | .orI32 g d a b => Sys2Proof.Machine.execOrI32 g d a b s
  | .xorI32 g d a b => Sys2Proof.Machine.execXorI32 g d a b s
  | .shlI32 g d a b => Sys2Proof.Machine.execShlI32 g d a b s
  | .shrI32 g d a b => Sys2Proof.Machine.execShrI32 g d a b s
  | .sraI32 g d a b => Sys2Proof.Machine.execSraI32 g d a b s
  | .rotlI32 g d a b => Sys2Proof.Machine.execRotlI32 g d a b s
  | .addI32U d a b => Sys2Proof.Machine.execAddI32U d a b s
  | .addsI32U d a b => Sys2Proof.Machine.execAddsI32U d a b s
  | .subI32U d a b => Sys2Proof.Machine.execSubI32U d a b s
  | .subsI32U d a b => Sys2Proof.Machine.execSubsI32U d a b s
  | .mulI32U d a b => Sys2Proof.Machine.execMulI32U d a b s
  | .mulhI32U d a b => Sys2Proof.Machine.execMulhI32U d a b s
  | .mulhuI32U d a b => Sys2Proof.Machine.execMulhuI32U d a b s
  | .minI32U d a b => Sys2Proof.Machine.execMinI32U d a b s
  | .minuI32U d a b => Sys2Proof.Machine.execMinuI32U d a b s
  | .maxI32U d a b => Sys2Proof.Machine.execMaxI32U d a b s
  | .maxuI32U d a b => Sys2Proof.Machine.execMaxuI32U d a b s
  | .andI32U d a b => Sys2Proof.Machine.execAndI32U d a b s
  | .andnI32U d a b => Sys2Proof.Machine.execAndnI32U d a b s
  | .orI32U d a b => Sys2Proof.Machine.execOrI32U d a b s
  | .xorI32U d a b => Sys2Proof.Machine.execXorI32U d a b s
  | .shlI32U d a b => Sys2Proof.Machine.execShlI32U d a b s
  | .shrI32U d a b => Sys2Proof.Machine.execShrI32U d a b s
  | .sraI32U d a b => Sys2Proof.Machine.execSraI32U d a b s
  | .rotlI32U d a b => Sys2Proof.Machine.execRotlI32U d a b s
  | .bfeI32 g d a b => Sys2Proof.Machine.execBfeI32 g d a b s
  | .bfesI32 g d a b => Sys2Proof.Machine.execBfesI32 g d a b s
  | .bfiI32 g d a b => Sys2Proof.Machine.execBfiI32 g d a b s
  | .cmp g p c a b => Sys2Proof.Machine.execCmp g p c a b s
  | .cmpa g p c a b => Sys2Proof.Machine.execCmpa g p c a b s
  | .cmpU p c a b => Sys2Proof.Machine.execCmpU p c a b s
  | .cmpaU p c a b => Sys2Proof.Machine.execCmpaU p c a b s
  | .cmpi g p c a im => Sys2Proof.Machine.execCmpi g p c a im s
  | .movI32 g d a => Sys2Proof.Machine.execMovI32 g d a s
  | .notI32 g d a => Sys2Proof.Machine.execNotI32 g d a s
  | .negI32 g d a => Sys2Proof.Machine.execNegI32 g d a s
  | .absI32 g d a => Sys2Proof.Machine.execAbsI32 g d a s
  | .popcI32 g d a => Sys2Proof.Machine.execPopcI32 g d a s
  | .clzI32 g d a => Sys2Proof.Machine.execClzI32 g d a s
  | .ctzI32 g d a => Sys2Proof.Machine.execCtzI32 g d a s
  | .brevI32 g d a => Sys2Proof.Machine.execBrevI32 g d a s
  | .sext8I32 g d a => Sys2Proof.Machine.execSext8I32 g d a s
  | .sext16I32 g d a => Sys2Proof.Machine.execSext16I32 g d a s
  | .zext8I32 g d a => Sys2Proof.Machine.execZext8I32 g d a s
  | .zext16I32 g d a => Sys2Proof.Machine.execZext16I32 g d a s
  | .movI32U d a => Sys2Proof.Machine.execMovI32U d a s
  | .notI32U d a => Sys2Proof.Machine.execNotI32U d a s
  | .negI32U d a => Sys2Proof.Machine.execNegI32U d a s
  | .absI32U d a => Sys2Proof.Machine.execAbsI32U d a s
  | .popcI32U d a => Sys2Proof.Machine.execPopcI32U d a s
  | .clzI32U d a => Sys2Proof.Machine.execClzI32U d a s
  | .ctzI32U d a => Sys2Proof.Machine.execCtzI32U d a s
  | .brevI32U d a => Sys2Proof.Machine.execBrevI32U d a s
  | .sext8I32U d a => Sys2Proof.Machine.execSext8I32U d a s
  | .sext16I32U d a => Sys2Proof.Machine.execSext16I32U d a s
  | .zext8I32U d a => Sys2Proof.Machine.execZext8I32U d a s
  | .zext16I32U d a => Sys2Proof.Machine.execZext16I32U d a s
  | .addi g d a im => Sys2Proof.Machine.execAddi g d a im s
  | .movi g d im => Sys2Proof.Machine.execMovi g d im s
  | .moviU d im => Sys2Proof.Machine.execMoviU d im s
  | .addiU d a im => Sys2Proof.Machine.execAddiU d a im s
  | .addiI64 d a im => Sys2Proof.Machine.execAddiI64 d a im s
  | .shli g d a n => Sys2Proof.Machine.execShli g d a n s
  | .shri g d a n => Sys2Proof.Machine.execShri g d a n s
  | .srai g d a n => Sys2Proof.Machine.execSrai g d a n s
  | .rotli g d a n => Sys2Proof.Machine.execRotli g d a n s
  | .shliU d a n => Sys2Proof.Machine.execShliU d a n s
  | .shriU d a n => Sys2Proof.Machine.execShriU d a n s
  | .sraiU d a n => Sys2Proof.Machine.execSraiU d a n s
  | .rotliU d a n => Sys2Proof.Machine.execRotliU d a n s
  | .pand g d a b => Sys2Proof.Machine.execPand g d a b s
  | .por g d a b => Sys2Proof.Machine.execPor g d a b s
  | .pxor g d a b => Sys2Proof.Machine.execPxor g d a b s
  | .pandn g d a b => Sys2Proof.Machine.execPandn g d a b s
  | .br p o => Sys2Proof.Machine.execBr p o s
  | .jmp o => Sys2Proof.Machine.execJmp o s
  | .brd p t r => Sys2Proof.Machine.execBrd p t r s
  | .call d im => Sys2Proof.Machine.execCall d im s
  | .jmpi a => Sys2Proof.Machine.execJmpi a s
  | .calli d a => Sys2Proof.Machine.execCalli d a s
  | .regang => Sys2Proof.Machine.execRegang s
  | .exit g => Sys2Proof.Machine.execExit g s
  | .nop g => Sys2Proof.Machine.execNop g s
  | .wait l sn c t => Sys2Proof.Machine.execWait l sn c t s
  | .lea g d a b => Sys2Proof.Machine.execLea g d a b s
  | .leau g d a b => Sys2Proof.Machine.execLeau g d a b s
  | .movVg g d a => Sys2Proof.Machine.execMovVg g d a s
  | .movPg d a => Sys2Proof.Machine.execMovPg d a s
  | .movGp d a => Sys2Proof.Machine.execMovGp d a s
  | .movVp g d a => Sys2Proof.Machine.execMovVp g d a s
  | .movPv g d a => Sys2Proof.Machine.execMovPv g d a s
  | .laneid g d => Sys2Proof.Machine.execLaneid g d s
  | .movGv d a l => Sys2Proof.Machine.execMovGv d a l s
  | .faddF32 g d a b => Sys2Proof.Machine.execFaddF32 g d a b s
  | .fsubF32 g d a b => Sys2Proof.Machine.execFsubF32 g d a b s
  | .fmulF32 g d a b => Sys2Proof.Machine.execFmulF32 g d a b s
  | .fdivF32 g d a b => Sys2Proof.Machine.execFdivF32 g d a b s
  | .fminF32 g d a b => Sys2Proof.Machine.execFminF32 g d a b s
  | .fmaxF32 g d a b => Sys2Proof.Machine.execFmaxF32 g d a b s
  | .ffmaF32 g d a b => Sys2Proof.Machine.execFfmaF32 g d a b s
  | .ffmsF32 g d a b => Sys2Proof.Machine.execFfmsF32 g d a b s
  | .faddF16x2 g d a b => Sys2Proof.Machine.execFaddF16x2 g d a b s
  | .fsubF16x2 g d a b => Sys2Proof.Machine.execFsubF16x2 g d a b s
  | .fmulF16x2 g d a b => Sys2Proof.Machine.execFmulF16x2 g d a b s
  | .ffmaF16x2 g d a b => Sys2Proof.Machine.execFfmaF16x2 g d a b s
  | .faddBf16x2 g d a b => Sys2Proof.Machine.execFaddBf16x2 g d a b s
  | .fsubBf16x2 g d a b => Sys2Proof.Machine.execFsubBf16x2 g d a b s
  | .fmulBf16x2 g d a b => Sys2Proof.Machine.execFmulBf16x2 g d a b s
  | .ffmaBf16x2 g d a b => Sys2Proof.Machine.execFfmaBf16x2 g d a b s
  | .fminF16x2 g d a b => Sys2Proof.Machine.execFminF16x2 g d a b s
  | .fmaxF16x2 g d a b => Sys2Proof.Machine.execFmaxF16x2 g d a b s
  | .fminBf16x2 g d a b => Sys2Proof.Machine.execFminBf16x2 g d a b s
  | .fmaxBf16x2 g d a b => Sys2Proof.Machine.execFmaxBf16x2 g d a b s
  | .fcmp g p c a b => Sys2Proof.Machine.execFcmp g p c a b s
  | .fcmpa g p c a b => Sys2Proof.Machine.execFcmpa g p c a b s
  | .fneg g d a t => Sys2Proof.Machine.execFneg g d a t s
  | .fabs g d a t => Sys2Proof.Machine.execFabs g d a t s
  | .fsqrt g d a t => Sys2Proof.Machine.execFsqrt g d a t s
  | .frsq g d a t => Sys2Proof.Machine.execFrsq g d a t s
  | .frcp g d a t => Sys2Proof.Machine.execFrcp g d a t s
  | .fexp2 g d a t => Sys2Proof.Machine.execFexp2 g d a t s
  | .flog2 g d a t => Sys2Proof.Machine.execFlog2 g d a t s
  | .fsinpi g d a t => Sys2Proof.Machine.execFsinpi g d a t s
  | .fcospi g d a t => Sys2Proof.Machine.execFcospi g d a t s
  | .frint g d a t => Sys2Proof.Machine.execFrint g d a t s
  | .fclass g d a t => Sys2Proof.Machine.execFclass g d a t s
  | .fcpsgnF32 g d a b => Sys2Proof.Machine.execFcpsgnF32 g d a b s
  | .fcpsgnH g d a b => Sys2Proof.Machine.execFcpsgnH g d a b s
  | .pk16F16 g d a b => Sys2Proof.Machine.execPk16F16 g d a b s
  | .pk16Bf16 g d a b => Sys2Proof.Machine.execPk16Bf16 g d a b s
  | .pk8E4m3 g d a sn b => Sys2Proof.Machine.execPk8E4m3 g d a sn b s
  | .pk8E5m2 g d a sn b => Sys2Proof.Machine.execPk8E5m2 g d a sn b s
  | .srnd g d a sn b => Sys2Proof.Machine.execSrnd g d a sn b s
  | .pk4E2m1 g d a sn b => Sys2Proof.Machine.execPk4E2m1 g d a sn b s
  | .prng g d sn b => Sys2Proof.Machine.execPrng g d sn b s
  | .upk16F16 g d sn b => Sys2Proof.Machine.execUpk16F16 g d sn b s
  | .upk16Bf16 g d sn b => Sys2Proof.Machine.execUpk16Bf16 g d sn b s
  | .upk8E4m3 g d sn b => Sys2Proof.Machine.execUpk8E4m3 g d sn b s
  | .upk8E5m2 g d sn b => Sys2Proof.Machine.execUpk8E5m2 g d sn b s
  | .upk8I8 g d sn b => Sys2Proof.Machine.execUpk8I8 g d sn b s
  | .upk4E2m1 g d sn b => Sys2Proof.Machine.execUpk4E2m1 g d sn b s
  | .upk4I4 g d sn b => Sys2Proof.Machine.execUpk4I4 g d sn b s
  | .dot4 g d a b => Sys2Proof.Machine.execDot4 g d a b s
  | .dot4s g d a b => Sys2Proof.Machine.execDot4s g d a b s
  | .dot8 g d a b => Sys2Proof.Machine.execDot8 g d a b s
  | .dot8s g d a b => Sys2Proof.Machine.execDot8s g d a b s
  | .fscaleE3m5 g d a sn b => Sys2Proof.Machine.execFscaleE3m5 g d a sn b s
  | .cvtF32S32 g d a => Sys2Proof.Machine.execCvtF32S32 g d a s
  | .cvtF32U32 g d a => Sys2Proof.Machine.execCvtF32U32 g d a s
  | .cvtS32F32 g d a => Sys2Proof.Machine.execCvtS32F32 g d a s
  | .cvtU32F32 g d a => Sys2Proof.Machine.execCvtU32F32 g d a s
  | .cvtS8F32 g d a => Sys2Proof.Machine.execCvtS8F32 g d a s
  | .cvtS4F32 g d a => Sys2Proof.Machine.execCvtS4F32 g d a s
  | .cvtE3m5F32 g d a => Sys2Proof.Machine.execCvtE3m5F32 g d a s
  | .cvtF32E3m5 g d a => Sys2Proof.Machine.execCvtF32E3m5 g d a s
  | .ldB32 g d a im => Sys2Proof.Machine.execLdB32 g d a im s
  | .stB32 g d a im => Sys2Proof.Machine.execStB32 g d a im s
  | .ldB8 g d a => Sys2Proof.Machine.execLdB8 g d a s
  | .ldS8 g d a => Sys2Proof.Machine.execLdS8 g d a s
  | .ldB16 g d a => Sys2Proof.Machine.execLdB16 g d a s
  | .ldS16 g d a => Sys2Proof.Machine.execLdS16 g d a s
  | .ldB64 g d a => Sys2Proof.Machine.execLdB64 g d a s
  | .ldB128 g d a => Sys2Proof.Machine.execLdB128 g d a s
  | .ldpB32 g d a => Sys2Proof.Machine.execLdpB32 g d a s
  | .ldpB64 g d a => Sys2Proof.Machine.execLdpB64 g d a s
  | .stB8 g d a => Sys2Proof.Machine.execStB8 g d a s
  | .stB16 g d a => Sys2Proof.Machine.execStB16 g d a s
  | .stB64 g d a => Sys2Proof.Machine.execStB64 g d a s
  | .stB128 g d a => Sys2Proof.Machine.execStB128 g d a s
  | .lduB32 d a im => Sys2Proof.Machine.execLduB32 d a im s
  | .stuB32 d a im => Sys2Proof.Machine.execStuB32 d a im s
  | .lduB64 d a => Sys2Proof.Machine.execLduB64 d a s
  | .stuB64 d a => Sys2Proof.Machine.execStuB64 d a s
  | .gatherB32 g d a b => Sys2Proof.Machine.execGatherB32 g d a b s
  | .scatterB32 g d a b => Sys2Proof.Machine.execScatterB32 g d a b s
  | .cstoreB32 g d a => Sys2Proof.Machine.execCstoreB32 g d a s
  | .cstoreB64 g d a => Sys2Proof.Machine.execCstoreB64 g d a s
  | .atomAddI32 g d a n => Sys2Proof.Machine.execAtomAddI32 g d a n s
  | .atomAndB32 g d a n => Sys2Proof.Machine.execAtomAndB32 g d a n s
  | .atomOrB32 g d a n => Sys2Proof.Machine.execAtomOrB32 g d a n s
  | .atomXorB32 g d a n => Sys2Proof.Machine.execAtomXorB32 g d a n s
  | .atomMinI32 g d a n => Sys2Proof.Machine.execAtomMinI32 g d a n s
  | .atomMaxI32 g d a n => Sys2Proof.Machine.execAtomMaxI32 g d a n s
  | .atomMinuI32 g d a n => Sys2Proof.Machine.execAtomMinuI32 g d a n s
  | .atomMaxuI32 g d a n => Sys2Proof.Machine.execAtomMaxuI32 g d a n s
  | .atomXchgB32 g d a n => Sys2Proof.Machine.execAtomXchgB32 g d a n s
  | .atomCasB32 g d a n => Sys2Proof.Machine.execAtomCasB32 g d a n s
  | .atomAddF32 g d a n => Sys2Proof.Machine.execAtomAddF32 g d a n s
  | .atomAddI64 g d a n => Sys2Proof.Machine.execAtomAddI64 g d a n s
  | .atomCasB64 g d a n => Sys2Proof.Machine.execAtomCasB64 g d a n s
  | .adetFaddF32 g d a => Sys2Proof.Machine.execAdetFaddF32 g d a s
  | .adetFaddF16 g d a => Sys2Proof.Machine.execAdetFaddF16 g d a s
  | .adetFaddBf16 g d a => Sys2Proof.Machine.execAdetFaddBf16 g d a s
  | .adetAddI32 g d a => Sys2Proof.Machine.execAdetAddI32 g d a s
  | .adetAddI64 g d a => Sys2Proof.Machine.execAdetAddI64 g d a s
  | .adetMinI32 g d a => Sys2Proof.Machine.execAdetMinI32 g d a s
  | .adetMaxI32 g d a => Sys2Proof.Machine.execAdetMaxI32 g d a s
  | .adetMinuB64 g d a => Sys2Proof.Machine.execAdetMinuB64 g d a s
  | .adetMaxuB64 g d a => Sys2Proof.Machine.execAdetMaxuB64 g d a s
  | .adetXchgB32 g d a => Sys2Proof.Machine.execAdetXchgB32 g d a s
  | .adetCasB32 g d a => Sys2Proof.Machine.execAdetCasB32 g d a s
  | .adetAppB32 g d a => Sys2Proof.Machine.execAdetAppB32 g d a s
  | .aflush n => Sys2Proof.Machine.execAflush n s
  | .fence k sn => Sys2Proof.Machine.execFence k sn s
  | .xfence t f sn => Sys2Proof.Machine.execXfence t f sn s
  | .cpyIn d a b => Sys2Proof.Machine.execCpyIn d a b s
  | .cpyOut d a b => Sys2Proof.Machine.execCpyOut d a b s
  | .bst g d a im => Sys2Proof.Machine.execBst g d a im s
  | .movGc d a => Sys2Proof.Machine.execMovGc d a s
  | .cwpwait d a => Sys2Proof.Machine.execCwpwait d a s
  | .bankcfgCache a => Sys2Proof.Machine.execBankcfgCache a s
  | .bankcfgPad a => Sys2Proof.Machine.execBankcfgPad a s
  | .bankcfgFifo a => Sys2Proof.Machine.execBankcfgFifo a s
  | .bankSwitchCompletion core => Sys2Proof.Machine.execBankSwitchCompletion core s
  | .fpush g k a => Sys2Proof.Machine.execFpush g k a s
  | .fpop g d k => Sys2Proof.Machine.execFpop g d k s
  | .fcount d k => Sys2Proof.Machine.execFcount d k s
  | .fifoUnblock core slot split => Sys2Proof.Machine.execFifoUnblock core slot split s
  | .qunbind d => Sys2Proof.Machine.execQunbind d s
  | .qbindPeer d a => Sys2Proof.Machine.execQbindPeer d a s
  | .qbindGather d a => Sys2Proof.Machine.execQbindGather d a s
  | .qpush g d a => Sys2Proof.Machine.execQpush g d a s
  | .qpop g d a => Sys2Proof.Machine.execQpop g d a s
  | .queueUnblock core slot split => Sys2Proof.Machine.execQueueUnblock core slot split s
  | .gatherStreamResult core slot op => Sys2Proof.Machine.execGatherStreamResult core slot op s
  | .ldsB32 g d a b => Sys2Proof.Machine.execLdsB32 g d a b s
  | .stsB32 g d a b => Sys2Proof.Machine.execStsB32 g d a b s
  | .tset d a => Sys2Proof.Machine.execTset d a s
  | .tget d a => Sys2Proof.Machine.execTget d a s
  | .tclr d => Sys2Proof.Machine.execTclr d s
  | .tdescR d a b => Sys2Proof.Machine.execTdescR d a b s
  | .tdescW d a b => Sys2Proof.Machine.execTdescW d a b s
  | .tloadP d a b => Sys2Proof.Machine.execTloadP d a b s
  | .tloadR d a b => Sys2Proof.Machine.execTloadR d a b s
  | .tstore d a b => Sys2Proof.Machine.execTstore d a b s
  | .muster a => Sys2Proof.Machine.execMuster a s
  | .rdmst d => Sys2Proof.Machine.execRdmst d s
  | .mmj d a b => Sys2Proof.Machine.execMmj d a b s
  | .jointFormation core slot => Sys2Proof.Machine.execJointFormation core slot s
  | .mmc d a b => Sys2Proof.Machine.execMmc d a b s
  | .coopRendezvous ctx coopid => Sys2Proof.Machine.execCoopRendezvous ctx coopid s
  | .aclr d => Sys2Proof.Machine.execAclr d s
  | .amov d a => Sys2Proof.Machine.execAmov d a s
  | .aadd d a => Sys2Proof.Machine.execAadd d a s
  | .ald d a => Sys2Proof.Machine.execAld d a s
  | .ast d a => Sys2Proof.Machine.execAst d a s
  | .aget g d a b => Sys2Proof.Machine.execAget g d a b s
  | .aset g d a b => Sys2Proof.Machine.execAset g d a b s
  | .aepi d a b => Sys2Proof.Machine.execAepi d a b s
  | .aepiClr d a b => Sys2Proof.Machine.execAepiClr d a b s
  | .gwidth d => Sys2Proof.Machine.execGwidth d s
  | .gslices d => Sys2Proof.Machine.execGslices d s
  | .vballot d a => Sys2Proof.Machine.execVballot d a s
  | .vany d a => Sys2Proof.Machine.execVany d a s
  | .vall d a => Sys2Proof.Machine.execVall d a s
  | .shflIdx g d a v => Sys2Proof.Machine.execShflIdx g d a v s
  | .shflUp g d a v => Sys2Proof.Machine.execShflUp g d a v s
  | .shflDown g d a v => Sys2Proof.Machine.execShflDown g d a v s
  | .shflXor g d a v => Sys2Proof.Machine.execShflXor g d a v s
  | .shflIdxi g d a n => Sys2Proof.Machine.execShflIdxi g d a n s
  | .shflUpi g d a n => Sys2Proof.Machine.execShflUpi g d a n s
  | .shflDowni g d a n => Sys2Proof.Machine.execShflDowni g d a n s
  | .shflXori g d a n => Sys2Proof.Machine.execShflXori g d a n s
  | .bar => Sys2Proof.Machine.execBar s
  | .barCompletion queue index group => Sys2Proof.Machine.execBarCompletion queue index group s
  | .barrierDeadlock queue index group => Sys2Proof.Machine.execBarrierDeadlock queue index group s
  | .yield => Sys2Proof.Machine.execYield s
  | .pbinit d a => Sys2Proof.Machine.execPbinit d a s
  | .pbarrive d a => Sys2Proof.Machine.execPbarrive d a s
  | .pbwait d a => Sys2Proof.Machine.execPbwait d a s
  | .pbwaitPass core slot split => Sys2Proof.Machine.execPbwaitPass core slot split s
  | .wid g d => Sys2Proof.Machine.execWid g d s
  | .widf g d k => Sys2Proof.Machine.execWidf g d k s
  | .fetchw d a => Sys2Proof.Machine.execFetchw d a s
  | .fetchwAnswer core slot => Sys2Proof.Machine.execFetchwAnswer core slot s
  | .launch d a => Sys2Proof.Machine.execLaunch d a s
  | .qtokRel d a => Sys2Proof.Machine.execQtokRel d a s
  | .qtokAcq d a => Sys2Proof.Machine.execQtokAcq d a s
  | .qtokTry d a => Sys2Proof.Machine.execQtokTry d a s
  | .qtokAcqPass core slot split => Sys2Proof.Machine.execQtokAcqPass core slot split s
  | .wlpush g d a => Sys2Proof.Machine.execWlpush g d a s
  | .wlpop g d a p => Sys2Proof.Machine.execWlpop g d a p s
  | .wldone g => Sys2Proof.Machine.execWldone g s
  | .wlpushResume core slot split => Sys2Proof.Machine.execWlpushResume core slot split s
  | .wlpopResume core slot split => Sys2Proof.Machine.execWlpopResume core slot split s
  | .jrecTok d a => Sys2Proof.Machine.execJrecTok d a s
  | .jrecGen d a => Sys2Proof.Machine.execJrecGen d a s
  | .jrecRoute d a => Sys2Proof.Machine.execJrecRoute d a s
  | .jrecAcceptance core slot split => Sys2Proof.Machine.execJrecAcceptance core slot split s
  | .jemit a => Sys2Proof.Machine.execJemit a s
  | .jmark a => Sys2Proof.Machine.execJmark a s
  | .jtrunc a => Sys2Proof.Machine.execJtrunc a s
  | .trap im => Sys2Proof.Machine.execTrap im s
  | .brk im => Sys2Proof.Machine.execBrk im s
  | .hretRetry => Sys2Proof.Machine.execHretRetry s
  | .hretSkip => Sys2Proof.Machine.execHretSkip s
  | .hretEnd => Sys2Proof.Machine.execHretEnd s
  | .rdsr d sn => Sys2Proof.Machine.execRdsr d sn s
  | .wrsr d sn => Sys2Proof.Machine.execWrsr d sn s
  | .hintImm im => Sys2Proof.Machine.execHintImm im s
  | .hintImmtop im => Sys2Proof.Machine.execHintImmtop im s
  | .hintRnd sn m => Sys2Proof.Machine.execHintRnd sn m s
  | .hintCache b c l => Sys2Proof.Machine.execHintCache b c l s
  | .hintCtl t r => Sys2Proof.Machine.execHintCtl t r s
  | .hintMod m => Sys2Proof.Machine.execHintMod m s
  | .dictionarySlot im k => Sys2Proof.Machine.execDictionarySlot im k s
  | .trapEntry core slot split => Sys2Proof.Machine.execTrapEntry core slot split s
  | .reconvergenceResume core slot split => Sys2Proof.Machine.execReconvergenceResume core slot split s
  | .regangRelease core slot split => Sys2Proof.Machine.execRegangRelease core slot split s
  | .splitRefill core slot split => Sys2Proof.Machine.execSplitRefill core slot split s
  | .detPackSwitch core => Sys2Proof.Machine.execDetPackSwitch core s
  | .waitSatisfied core slot split => Sys2Proof.Machine.execWaitSatisfied core slot split s
  | .cwpwaitPass core slot split => Sys2Proof.Machine.execCwpwaitPass core slot split s
  | .loadCompletion core slot op lanes age => Sys2Proof.Machine.execLoadCompletion core slot op lanes age s
  | .storeCompletion core slot op lanes => Sys2Proof.Machine.execStoreCompletion core slot op lanes s
  | .atomicCompletion core slot op lanes => Sys2Proof.Machine.execAtomicCompletion core slot op lanes s
  | .copyCompletion core channel upto => Sys2Proof.Machine.execCopyCompletion core channel upto s
  | .tileOpCompletion core slot op => Sys2Proof.Machine.execTileOpCompletion core slot op s
  | .aflushFlush queue index group => Sys2Proof.Machine.execAflushFlush queue index group s
  | .packEnd core slot => Sys2Proof.Machine.execPackEnd core slot s
  | .bstEmission core slot op => Sys2Proof.Machine.execBstEmission core slot op s
  | .broadcastDelivery bus => Sys2Proof.Machine.execBroadcastDelivery bus s
  | .filterEntryWrite cluster mgroup byte size value => Sys2Proof.Machine.execFilterEntryWrite cluster mgroup byte size value s
  | .tableWalk core va => Sys2Proof.Machine.execTableWalk core va s
  | .hostHartAccess acc => Sys2Proof.Machine.execHostHartAccess acc s
  | .pcieEndpointWrite pa bytes => Sys2Proof.Machine.execPcieEndpointWrite pa bytes s
  | .create queue => Sys2Proof.Machine.execCreate queue s
  | .destroy queue => Sys2Proof.Machine.execDestroy queue s
  | .launchRecordConsume queue => Sys2Proof.Machine.execLaunchRecordConsume queue s
  | .launchDispatch queue => Sys2Proof.Machine.execLaunchDispatch queue s
  | .leaseWalk queue index => Sys2Proof.Machine.execLeaseWalk queue index s
  | .groupPlacement queue index group cluster positions => Sys2Proof.Machine.execGroupPlacement queue index group cluster positions s
  | .launchCompletion queue index => Sys2Proof.Machine.execLaunchCompletion queue index s
  | .queueAging queue => Sys2Proof.Machine.execQueueAging queue s
  | .quiescenceDeclared ctx => Sys2Proof.Machine.execQuiescenceDeclared ctx s
  | .preemption queue => Sys2Proof.Machine.execPreemption queue s
  | .victimStop queue index group => Sys2Proof.Machine.execVictimStop queue index group s
  | .closureSave queue index group => Sys2Proof.Machine.execClosureSave queue index group s
  | .closureRestore ctx save cluster positions => Sys2Proof.Machine.execClosureRestore ctx save cluster positions s
  | .reservationExpiry resv => Sys2Proof.Machine.execReservationExpiry resv s
  | .eventDelivery ctx => Sys2Proof.Machine.execEventDelivery ctx s
  | .semaphoreAcquire complex n => Sys2Proof.Machine.execSemaphoreAcquire complex n s
  | .semaphoreRelease complex n => Sys2Proof.Machine.execSemaphoreRelease complex n s
  | .hostComplexReset complex => Sys2Proof.Machine.execHostComplexReset complex s
  | .resume complex => Sys2Proof.Machine.execResume complex s
  | .retry complex => Sys2Proof.Machine.execRetry complex s
  | .revoke complex => Sys2Proof.Machine.execRevoke complex s
  | .unrevoke complex => Sys2Proof.Machine.execUnrevoke complex s
  | .migrate complex => Sys2Proof.Machine.execMigrate complex s
  | .query complex => Sys2Proof.Machine.execQuery complex s
  | .attest complex => Sys2Proof.Machine.execAttest complex s
  | .reserve complex => Sys2Proof.Machine.execReserve complex s
  | .release complex => Sys2Proof.Machine.execRelease complex s
  | .seqopen complex => Sys2Proof.Machine.execSeqopen complex s
  | .seqclose complex => Sys2Proof.Machine.execSeqclose complex s
  | .partner complex => Sys2Proof.Machine.execPartner complex s
  | .markdone complex => Sys2Proof.Machine.execMarkdone complex s
  | .jstore complex => Sys2Proof.Machine.execJstore complex s
  | .mapInstall complex => Sys2Proof.Machine.execMapInstall complex s
  | .islandPointWrite complex island point => Sys2Proof.Machine.execIslandPointWrite complex island point s
  | .islandPointChange island => Sys2Proof.Machine.execIslandPointChange island s
  | .islandThrottle island point temp => Sys2Proof.Machine.execIslandThrottle island point temp s
  | .islandThrottleEnd island temp => Sys2Proof.Machine.execIslandThrottleEnd island temp s
  | .timeExchange link t1 t2 t3 t4 => Sys2Proof.Machine.execTimeExchange link t1 t2 t3 t4 s
  | .timeStepWrite complex value => Sys2Proof.Machine.execTimeStepWrite complex value s
  | .powerOnReset => Sys2Proof.Machine.execPowerOnReset s
  | .moduleReset => Sys2Proof.Machine.execModuleReset s
  | .selftestDone failures => Sys2Proof.Machine.execSelftestDone failures s
  | .seamtrainDone extra failedLinks => Sys2Proof.Machine.execSeamtrainDone extra failedLinks s
  | .mergeDone fields west east => Sys2Proof.Machine.execMergeDone fields west east s
  | .verifyDone skewPs => Sys2Proof.Machine.execVerifyDone skewPs s
  | .mgmtQuery sender ports datagram => Sys2Proof.Machine.execMgmtQuery sender ports datagram s
  | .mgmtSubscribe sender ports datagram => Sys2Proof.Machine.execMgmtSubscribe sender ports datagram s
  | .mgmtBadDatagram sender ports datagram => Sys2Proof.Machine.execMgmtBadDatagram sender ports datagram s
  | .mgmtStatusPeriodic => Sys2Proof.Machine.execMgmtStatusPeriodic s
  | .settFrame bad => Sys2Proof.Machine.execSettFrame bad s
  | .ringFailure bus participant => Sys2Proof.Machine.execRingFailure bus participant s
  | .laserOnWrite complex laser value => Sys2Proof.Machine.execLaserOnWrite complex laser value s
  | .laserModuleLoss laser fault => Sys2Proof.Machine.execLaserModuleLoss laser fault s
  | .laserModuleInsert laser => Sys2Proof.Machine.execLaserModuleInsert laser s
  | .laserWarmDone laser => Sys2Proof.Machine.execLaserWarmDone laser s
  | .ioLaserLoss laser fault => Sys2Proof.Machine.execIoLaserLoss laser fault s
  | .portEnable complex port => Sys2Proof.Machine.execPortEnable complex port s
  | .portDisable complex port => Sys2Proof.Machine.execPortDisable complex port s
  | .portGate complex port => Sys2Proof.Machine.execPortGate complex port s
  | .portUngate complex port => Sys2Proof.Machine.execPortUngate complex port s
  | .portCalibrationDone port => Sys2Proof.Machine.execPortCalibrationDone port s
  | .portCarrierLock port => Sys2Proof.Machine.execPortCarrierLock port s
  | .portPolarisationLock port => Sys2Proof.Machine.execPortPolarisationLock port s
  | .portAlignDone port peer => Sys2Proof.Machine.execPortAlignDone port peer s
  | .portLockLost port => Sys2Proof.Machine.execPortLockLost port s
  | .planeDrain complex plane => Sys2Proof.Machine.execPlaneDrain complex plane s
  | .planeDark plane => Sys2Proof.Machine.execPlaneDark plane s
  | .planeResume complex plane => Sys2Proof.Machine.execPlaneResume complex plane s
  | .planeRetrainDone plane => Sys2Proof.Machine.execPlaneRetrainDone plane s
  | .collectiveChunkArrival resv chunk ethernet bytes => Sys2Proof.Machine.execCollectiveChunkArrival resv chunk ethernet bytes s
  | .resumeMarker resv plane => Sys2Proof.Machine.execResumeMarker resv plane s
  | .journalRecordReceive source bytes => Sys2Proof.Machine.execJournalRecordReceive source bytes s
  | .journalAckReceive peer ctx seq ackidx => Sys2Proof.Machine.execJournalAckReceive peer ctx seq ackidx s
  | .emissionRelease ctx seq => Sys2Proof.Machine.execEmissionRelease ctx seq s
  | .heartbeatSend peer => Sys2Proof.Machine.execHeartbeatSend peer s
  | .peerSilent peer => Sys2Proof.Machine.execPeerSilent peer s
  | .chipFailure cause => Sys2Proof.Machine.execChipFailure cause s
  | .hardwareError err => Sys2Proof.Machine.execHardwareError err s
  | .coreFailure core => Sys2Proof.Machine.execCoreFailure core s
  | .registerWrite complex offset size value => Sys2Proof.Machine.execRegisterWrite complex offset size value s
  | .illegalInstruction word reason => Sys2Proof.Machine.execIllegalInstruction word reason s
  | .migrateCommit complex => Sys2Proof.Machine.execMigrateCommit complex s
  | .receiveRingFailure bus participant => Sys2Proof.Machine.execReceiveRingFailure bus participant s
  | .portLightRestored port => Sys2Proof.Machine.execPortLightRestored port s
  | .heartbeatReceive peer => Sys2Proof.Machine.execHeartbeatReceive peer s
  | .standbyPowerOn => Sys2Proof.Machine.execStandbyPowerOn s

end Sys2Proof.Machine
end

