-- ==== Sys2Proof/Machine/Fetch.lean ====
section
/-!
DEFINITION. What an issue slot does before the instruction's own meaning: fetch, the address rules of 03 R71, the choice of the
meaning that carries an undecodable word, and the bytes a test places.
-/

namespace Sys2Proof.Machine

/-- Run the word in focus: the instruction it decodes to, or the ILLOP of 03 R81. -/
noncomputable def State.runWord (s : State) (f : Focus) : Out :=
  match decodeWord f.word with
  | .ok i => exec i { s with focus := some f }
  | .error r => exec (.illegalInstruction f.word r) { s with focus := some f }

/-- The word at a split's program counter, or the trap of its fetch (03 R71, R72). -/
noncomputable def State.issueWord (s : State) (c slot split : Nat) (k : Pack) (sp : Split) : Out :=
  let u := s.unitAt c k sp.pc
  let f : Focus := { core := c, slot := slot, split := split, addr := sp.pc, word := 0, next := nextAddr u.1 sp.pc }
  match u.1 with
  | .full w => u.2.runWord { f with word := w }
  | .slot w _ => u.2.runWord { f with word := w }
  | .none_ w =>
    let d := if isDict w && sp.pc.getLsbD 0 then 2 else 0
    exec (.illegalInstruction w 7) { u.2 with focus := some { f with word := w, dslot := d } }
  | .fault e va =>
    match ({ u.2 with focus := some f } : State).issuer with
    | some x => x.accessFault x.live e (memWord va 0 0 .lane false false 0)
    | none => .refused (.notEnabled "ISSUE")

/-- A split issues the word at its program counter, the dictionary entry that stands to issue, or carries out what it is stalled at (03 R71,
R78, 09 R239) (log entry 10); a broadcast store that it has issued ahead it passes over (log entry 98). -/
noncomputable def State.issueNow (s : State) (c slot split : Nat) : Out :=
  match s.pack c slot with
  | none => .refused (.notEnabled "ISSUE")
  | some k =>
    match k.split split with
    | none => .refused (.notEnabled "ISSUE")
    | some sp =>
      let s := s.takeTurn c slot split
      match sp.stall, sp.slot with
      | none, none =>
        match sp.ahead.filter fun b => b.1 == sp.pc && !sp.inh with
        | some b => .next (s.modPack c slot fun k => k.setSplit ({ sp with ahead := none }.goto b.2 s.clock))
        | none => s.issueWord c slot split k sp
      | some _, _ => (s.unstall c slot sp).getD (.refused (.notEnabled "ISSUE"))
      | none, some e =>
        s.runWord { core := c, slot := slot, split := split, addr := sp.pc, word := e.word,
                    next := if e.slot = 1 && e.lastSlot then sp.pc + 2 else sp.pc + 1, dslot := e.slot, dindex := e.index }

/-! ### The ports (09 R241) -/

/-- The issue did more than wait: it retired an instruction, or moved its split on some other way. -/
def State.wentOn (s t : State) (c slot split : Nat) : Bool :=
  let shown := fun (u : State) => ((u.pack c slot).bind (·.split split)).map fun sp =>
    (sp.pc, sp.status, sp.stall, sp.hints, sp.slot, sp.pending.isSome, sp.trap.cause, sp.suspended)
  t.clock != s.clock || shown t != shown s

/-- A port is given the first of some splits that can issue its word this cycle, and a split whose word only waits is passed over (09 R241).
Answers that split and what its issue leaves. -/
noncomputable def State.portGo (s : State) (c : Nat) : List (Nat × Split) → Option ((Nat × Split) × Out)
  | [] => none
  | p :: rest =>
    match s.issueNow c p.1 p.2.id with
    | .next t => if s.wentOn t c p.1 p.2.id then some (p, .next t) else s.portGo c rest
    | o => some (p, o)

/-- What a core's first port takes: the first split in rotation that can issue (09 R241). -/
noncomputable def State.firstPort (s : State) (c : Nat) : Option ((Nat × Split) × Out) :=
  s.portGo c (s.candidates c (s.core c).lastPack)

/-- The split is the one that issues now: the current one of a deterministic core (09 R251), the first port's on another (09 R241) (log entry
2). -/
noncomputable def State.picks (s : State) (c slot split : Nat) : Bool :=
  if s.detCore c then s.mayIssue c slot split
  else ((s.firstPort c).map fun r => (r.1.1, r.1.2.id)) == some (slot, split)

/-- A cycle of a core in which only this split issues (09 R241, R251) (log entry 2). -/
noncomputable def State.issueAt (s : State) (c slot split : Nat) : Out :=
  if s.picks c slot split then s.issueNow c slot split else .refused (.notEnabled "ISSUE")

/-- A split that waits at a `qtok.acq` issues the broadcast store behind it before the acquire reads its value, where that store takes no
register the acquire writes (11 R286, 14 R315): it waits on at the acquire, and passes over the store when it comes to it (log entry 98). -/
noncomputable def State.issueAhead (s : State) (c slot split : Nat) : Out :=
  let no : Out := .refused (.notEnabled "ahead")
  match s.stalled c slot split with
  | none => no
  | some x =>
    let b := x.f.next
    match x.sp.stall, (s.unitAt c x.k b).1 with
    | some (.acquire d _), .full w =>
      match decodeWord w with
      | .ok (.bst _ v a _) =>
        if s.detCore c || x.sp.ahead.isSome || x.sp.slot.isSome || !x.sp.hints.isEmpty || x.sp.stopsAt b || decide (120 ≤ v.toNat) ||
            d == a.toNat || d == a.toNat + 1 then no
        else
          match (s.setPack c slot (x.k.setSplit { x.sp with pc := b, stall := none })).issueAt c slot split with
          | .next t =>
            match t.pack c slot with
            | none => no
            | some k =>
              match k.split split with
              | none => no
              | some sp =>
                if sp.pc == b + 2 && sp.trap == x.sp.trap && sp.pending.isNone then
                  .next (t.setPack c slot (k.setSplit
                    { sp with pc := x.sp.pc, status := x.sp.status, stall := x.sp.stall, ahead := some (b, b + 2) }))
                else no
          | _ => no
      | _ => no
    | _, _ => no

/-! ### Turns (09 R241, R251) -/

/-- The split whose stalled instruction an event carries out: the event is an issue of that split (09 R239, R251). -/
def turnOf : Instr → Option (Nat × Nat × Nat)
  | .waitSatisfied c slot split => some (c, slot, split)
  | .fifoUnblock c slot split => some (c, slot, split)
  | .queueUnblock c slot split => some (c, slot, split)
  | .cwpwaitPass c slot split => some (c, slot, split)
  | .pbwaitPass c slot split => some (c, slot, split)
  | .qtokAcqPass c slot split => some (c, slot, split)
  | .wlpushResume c slot split => some (c, slot, split)
  | .wlpopResume c slot split => some (c, slot, split)
  | .jrecAcceptance c slot split => some (c, slot, split)
  | _ => none

/-- The host complex that makes an event (18 R380). -/
def complexOf : Instr → Option Nat
  | .hostHartAccess a => some a.complex
  | .registerWrite c .. => some c
  | .semaphoreAcquire c _ => some c
  | .semaphoreRelease c _ => some c
  | .resume c => some c
  | .retry c => some c
  | .revoke c => some c
  | .unrevoke c => some c
  | .migrate c => some c
  | .query c => some c
  | .attest c => some c
  | .reserve c => some c
  | .release c => some c
  | .seqopen c => some c
  | .seqclose c => some c
  | .partner c => some c
  | .markdone c => some c
  | .jstore c => some c
  | .mapInstall c => some c
  | .islandPointWrite c .. => some c
  | .timeStepWrite c _ => some c
  | .laserOnWrite c .. => some c
  | .portEnable c _ => some c
  | .portDisable c _ => some c
  | .portGate c _ => some c
  | .portUngate c _ => some c
  | .planeDrain c _ => some c
  | .planeResume c _ => some c
  | _ => none

/-- An event of the agenda: one that carries out a split's stalled instruction is the issue of that split (09 R241, R251), and one that a host
complex makes comes about only while that complex is in the fabric (18 R380). -/
noncomputable def State.strike (s : State) (i : Instr) : Out :=
  match turnOf i with
  | some (c, slot, split) =>
    if s.picks c slot split then exec i (s.takeTurn c slot split) else .refused (.notEnabled "ISSUE")
  | none => if (complexOf i).all fun c => bit s.hosts c then exec i s else .refused (.notEnabled "COMPLEX")

/-- The pack whose uniform registers, tile registers and `mst` read as another split of its cycle found them (04 R118, 01 R24). -/
def Pack.sharedOf (k old : Pack) : Pack := { k with g := old.g, t := old.t, mst := old.mst }

/-- Two writes of one cycle: where both changed what stood there, one of the two stays (01 R24). -/
def bothWrite {α : Type} [DecidableEq α] (old a b : α) (first : Bool) : α :=
  if b = old then a else if a = old then b else if first then a else b

/-- The pack after two words of one cycle, of which the second left `b` and the first `a`, beginning from `old`: of two writes of one register,
the free bit says which stays (04 R118, 01 R24) (log entry 89). -/
def Pack.bothOf (old a b : Pack) (first : Bool) : Pack :=
  let words := fun (n : Nat) (f : Pack → Words) =>
    (List.range n).foldl (fun w i => Words.set w i (bothWrite (Words.get (f old) i) (Words.get (f a) i) (Words.get (f b) i) first)) []
  { b with g := words 64 Pack.g, t := words 32 Pack.t, mst := bothWrite old.mst a.mst b.mst first }

/-- The second of two words that issue in one cycle, at the state the first left: a split of the same pack reads the pack's shared registers as
they stood before either (04 R118) (log entry 89). -/
noncomputable def State.issueBeside (s t : State) (c : Nat) (a b : Nat × Split) : Out :=
  match s.pack c b.1, t.pack c b.1 with
  | some old, some first =>
    if a.1 == b.1 then
      match (t.setPack c b.1 (first.sharedOf old)).issueNow c b.1 b.2.id with
      | .next u => .next (u.drawFree.2.modPack c b.1 fun k => old.bothOf first k (u.drawFree.1.getLsbD 0))
      | o => o
    else t.issueNow c b.1 b.2.id
  | _, _ => .next t

/-- One cycle of a core in normal mode: the first port takes the first split that can issue, the second the next, in rotation from the first's
pack, that shares no slice with it. Of two that issue in one cycle the one with the lower lowest lane is served first, and on equal lanes the
one of the lower slot (09 R241, R258, 04 R118). -/
noncomputable def State.bothPorts (s : State) (c : Nat) : Out :=
  match s.firstPort c with
  | none => .next s
  | some (p, out) =>
    match s.portGo c ((s.candidates c p.1).filter fun q => !sameSlice p q) with
    | none => out
    | some (q, _) =>
      let key := fun (x : Nat × Split) => lowLane x.2.mask * 16 + x.1
      let a := if key q < key p then q else p
      let b := if key q < key p then p else q
      match s.issueNow c a.1 a.2.id with
      | .next t =>
        match if t.mayIssue c b.1 b.2.id then s.issueBeside t c a b else .next t with
        | .next u => .next (u.setCore c { u.core c with lastPack := q.1 })
        | o => o
      | o => o

/-- One cycle of a core: on a deterministic core the pass to another pack or the word of the current split (09 R251–R253), else what its two
ports issue (09 R241). -/
noncomputable def State.cycle (s : State) (c : Nat) : Out :=
  if s.detCore c then
    if s.mustPass c then (if (s.nextPack c).isSome then exec (.detPackSwitch c) s else .next s)
    else
      match (s.core c).detCur.bind fun n => (s.pack c n).bind fun k => (s.current c n k).map fun i => (n, i) with
      | some (n, i) => if s.mayIssue c n i then s.issueNow c n i else .next s
      | none => .next s
  else s.bothPorts c

/-- The page tables of `withFetchWord`: one 4 KiB page, VA 0 at PA 0x6000, readable by the device (16 R348) (log entry 4). -/
def fetchTables (m : Bytes) : Bytes :=
  let ptr := fun m (l : Nat) => Bytes.writeLE m (l * 4096) 8 ((l + 1) * 1024 + 1)
  Bytes.writeLE (ptr (ptr (ptr (ptr m 1) 2) 3) 4) (5 * 4096) 8 (6 * 1024 + 0xD7)

/-- A launch resident on core 0 with its code section at VA 0x100 (log entry 4). -/
def fetchLaunch : Launch :=
  { tag := { queue := 0, index := 0 }, kind := 1, bytes := List.replicate 64 0, ctx := 1, phase := .placing
    hdr := { codeOff := 0x100, codeSize := 0x100, slices := 8, regs := (120, 64, 16) }
    groups := [(0, { x := 0, cluster := 0, packs := [(0, 0)] })] }

/-- The pack that issues the placed word: eight slices, the whole of every class, its root split at address 0 (09 R237) (log entry 4). -/
def fetchPack : Pack :=
  { ctx := 1, tag := { queue := 0, index := 0 }, group := 0, lpack := 0, role := 0, slices := 8, nv := 120, ng := 64, na := 16
    splits := [(0, { id := 0, pc := 0, mask := BitVec.allOnes 32, reconv := 0xFFFFFFFF, parent := none })], order := [0] }

/-- The context of `withFetchWord`: its table root in page 1, no attribute map (log entry 4). -/
def fetchContext : Context :=
  { num := 1, root := 0xA000000000000001, attrMap := 0, key0 := 0, key1 := 0, pool := 0, poolSize := 0, wlTable := 0, dormant := 0 }

/-- `s` with the instruction's word loaded as the first of a kernel that is resident and about to issue it: what CREATE, the
dispatch of a LAUNCH record and a placement do, done from outside (log entry 4). -/
def State.withFetch (s : State) (w : Word) : State :=
  { s with
    mem := Bytes.writeLE (fetchTables s.mem) 0x6100 4 w.toNat
    contexts := s.contexts.put 1 fetchContext
    launches := [fetchLaunch]
    cores := s.cores.put 0 { packs := [(0, fetchPack)] }
    phase := 5
    tlb := [], walkCache := [], focus := none
    agenda := [.issue 0 0 0] }

end Sys2Proof.Machine
end

