-- ==== Sys2Proof/Machine/Step.lean ====
section
/-!
DEFINITION. One step: the head of the agenda is carried out (log entry 2).
-/

namespace Sys2Proof.Machine

/-- Carry out one move (log entry 2). -/
noncomputable def State.move (s : State) : Move → Out
  | .event i => s.strike i
  | .issue c slot split => s.issueAt c slot split
  | .cycle c => s.cycle c
  | .elapse ns => .next (s.elapse ns)
  | .sense unit temp => .next (s.sense unit temp)
  | .chunk n => (s.sendChunk n).elim (.refused (.notEnabled "chunk")) .next
  | .landed n c => (s.landChunk n c).elim (.refused (.notEnabled "landed")) .next
  | .ahead c slot split => s.issueAhead c slot split

/-- One step of the machine. With an empty agenda it idles (log entries 2, 66, 68). -/
noncomputable def step (s : State) : Host.Outcome State Fault Refusal :=
  match s.agenda with
  | [] => .next s
  | m :: rest => settled (({ s with agenda := rest, focus := none } : State).move m)

/-- The instruction placed where `step` fetches next: one word of 32 bits (log entry 4). -/
def State.withFetchWord (s : State) (_nbits w : Nat) : State := s.withFetch (BitVec.ofNat 32 w)

end Sys2Proof.Machine
end

