-- ==== Sys2Proof/Safety.lean ====
section
/-!
DEFINITION. The terms in which statements about the machine are made: when an instruction word can have its own effect, the states
its results leave, what the next states keep, and what a safe run never does.
-/

namespace Sys2Proof.Machine

/-- The instruction in progress passes every check that is made before any lane executes: its hint group stands (03 R74), its
operands pass the decode-time checks (01 R14), and no earlier operation of its split is still to write one of them (06 R146). -/
def State.Ready (s : State) (os : List Operand) (x : Iss) : Prop :=
  s.issuer = some x ∧ x.groupTrap = none ∧ decodeCheck x.k x.sp os = none ∧ x.k.hazard x.live os = false

/-- The state after a vector-class result (01 R12, R27). -/
def Iss.vecNext (x : Iss) (d : VReg) (act : Mask) (f : Nat → Word) : State :=
  let r := writeV x.k x.sp d act f
  x.retire r.1 r.2

/-- The state after a vector pair result (01 R18). -/
def Iss.pairNext (x : Iss) (d : VReg) (act : Mask) (f : Nat → DWord) : State :=
  let r := writeV x.k x.sp d act fun i => (f i).extractLsb' 0 32
  let r := writeV r.1 r.2 (d + 1) act fun i => (f i).extractLsb' 32 32
  x.retire r.1 r.2

/-- The state after a uniform result. -/
def Iss.uniNext (x : Iss) (d : GReg) (v : Word) : State := x.retire (x.k.setG d.toNat v) x.sp

/-- The state after a predicate result in the lanes of `m`. -/
def Iss.predNext (x : Iss) (d : PReg) (m f : Mask) : State := x.retire (x.k.setP d m f) x.sp

/-- The pack and split of the instruction in progress, in a later state. -/
def Iss.now (x : Iss) (t : State) : Option (Pack × Split) :=
  match t.pack x.f.core x.f.slot with
  | none => none
  | some k => (k.split x.f.split).map fun sp => (k, sp)

/-- `t` differs from the state in which `x` issued only in the issuing core and in the model's order counter. -/
def Iss.onlyCore (x : Iss) (t : State) : Prop :=
  ({ t with cores := x.s.cores, clock := x.s.clock } : State) = x.s ∧ ∀ c, c ≠ x.f.core → t.core c = x.s.core c

/-- On the issuing core, `t` differs only in the issuing pack and the note of the pack last served (09 R241). -/
def Iss.onlyPack (x : Iss) (t : State) : Prop :=
  x.onlyCore t ∧
    ({ t.core x.f.core with packs := [], lastPack := 0 } : Core) = { x.s.core x.f.core with packs := [], lastPack := 0 } ∧
    ∀ slot, slot ≠ x.f.slot → t.pack x.f.core slot = x.s.pack x.f.core slot

/-- Every byte of device memory reads as before, on every path (11 R276, R285). -/
def sameBytes (s t : State) : Prop :=
  ∀ a, t.mem.get a = s.mem.get a ∧ ∀ seen age n, t.laneRead seen age a n = s.laneRead seen age a n

/-- Every byte of device memory outside `n` bytes from `a` holds what it held. -/
def sameOutside (s t : State) (a n : Nat) : Prop := ∀ b, b < a ∨ a + n ≤ b → t.mem.get b = s.mem.get b

/-- Device memory is in its one form: addresses rise and no listed byte is 0 (log entry 1). -/
def State.memOk (s : State) : Prop := Memory.wf s.mem = true

/-- A run is safe so long as each step answers a next state and memory keeps its form. -/
def SafeStep (s t : State) : Prop := step s = .next t ∧ (s.memOk → t.memOk)

end Sys2Proof.Machine
end

