-- ==== Sys2Proof/Certificates/Slice0/Obligations.lean ====
section
/-!
DEFINITION. The statements about this machine. Each family of the opcode table comes first with the table of what the spec gives its
instructions, then with the obligations that say it of the model.
-/

namespace Sys2Proof.Machine

/-! ### Integer instructions (spec 04) -/

/-- The vector integer instructions of two sources: guard, destination, sources, and the word of each active lane (R96, R97). -/
inductive VecTwo : Instr → PReg → VReg → VReg → VReg → (Word → Word → Word) → Prop
  | add g d a b : VecTwo (.addI32 g d a b) g d a b fun x y => x + y
  | adds g d a b : VecTwo (.addsI32 g d a b) g d a b fun x y => BitVec.ofInt 32 (max (-(2 ^ 31)) (min (2 ^ 31 - 1) (x.toInt + y.toInt)))
  | sub g d a b : VecTwo (.subI32 g d a b) g d a b fun x y => x - y
  | subs g d a b : VecTwo (.subsI32 g d a b) g d a b fun x y => BitVec.ofInt 32 (max (-(2 ^ 31)) (min (2 ^ 31 - 1) (x.toInt - y.toInt)))
  | mul g d a b : VecTwo (.mulI32 g d a b) g d a b fun x y => x * y
  | mulh g d a b : VecTwo (.mulhI32 g d a b) g d a b fun x y => BitVec.ofInt 32 (x.toInt * y.toInt / 2 ^ 32)
  | mulhu g d a b : VecTwo (.mulhuI32 g d a b) g d a b fun x y => BitVec.ofNat 32 (x.toNat * y.toNat / 2 ^ 32)
  | min g d a b : VecTwo (.minI32 g d a b) g d a b fun x y => if y.toInt < x.toInt then y else x
  | minu g d a b : VecTwo (.minuI32 g d a b) g d a b fun x y => if y.toNat < x.toNat then y else x
  | max g d a b : VecTwo (.maxI32 g d a b) g d a b fun x y => if x.toInt < y.toInt then y else x
  | maxu g d a b : VecTwo (.maxuI32 g d a b) g d a b fun x y => if x.toNat < y.toNat then y else x
  | and g d a b : VecTwo (.andI32 g d a b) g d a b fun x y => x &&& y
  | andn g d a b : VecTwo (.andnI32 g d a b) g d a b fun x y => x &&& ~~~y
  | or g d a b : VecTwo (.orI32 g d a b) g d a b fun x y => x ||| y
  | xor g d a b : VecTwo (.xorI32 g d a b) g d a b fun x y => x ^^^ y
  | shl g d a b : VecTwo (.shlI32 g d a b) g d a b fun x y => x <<< (y.toNat % 256)
  | shr g d a b : VecTwo (.shrI32 g d a b) g d a b fun x y => x >>> (y.toNat % 256)
  | sra g d a b : VecTwo (.sraI32 g d a b) g d a b fun x y => x.sshiftRight (y.toNat % 256)
  | rotl g d a b : VecTwo (.rotlI32 g d a b) g d a b fun x y => x.rotateLeft (y.toNat % 32)
  | bfe g d a b : VecTwo (.bfeI32 g d a b) g d a b Alu.bfe
  | bfes g d a b : VecTwo (.bfesI32 g d a b) g d a b Alu.bfes
  | cpsgn g d a b : VecTwo (.fcpsgnF32 g d a b) g d a b fun x y => (x &&& 0x7FFFFFFF) ||| (y &&& 0x80000000)
  | cpsgnH g d a b : VecTwo (.fcpsgnH g d a b) g d a b fun x y => (x &&& 0x7FFF7FFF) ||| (y &&& 0x80008000)

/-- The vector integer instructions of one source (R98, R100). -/
inductive VecOne : Instr → PReg → VReg → VReg → (Word → Word) → Prop
  | mov g d a : VecOne (.movI32 g d a) g d a fun x => x
  | not g d a : VecOne (.notI32 g d a) g d a fun x => ~~~x
  | neg g d a : VecOne (.negI32 g d a) g d a fun x => -x
  | abs g d a : VecOne (.absI32 g d a) g d a fun x => if x.toInt < 0 then -x else x
  | popc g d a : VecOne (.popcI32 g d a) g d a fun x => BitVec.ofNat 32 (popcount x)
  | clz g d a : VecOne (.clzI32 g d a) g d a fun x => BitVec.ofNat 32 (clz x)
  | ctz g d a : VecOne (.ctzI32 g d a) g d a fun x => BitVec.ofNat 32 (ctz x)
  | brev g d a : VecOne (.brevI32 g d a) g d a brev
  | sext8 g d a : VecOne (.sext8I32 g d a) g d a fun x => (x.setWidth 8).signExtend 32
  | sext16 g d a : VecOne (.sext16I32 g d a) g d a fun x => (x.setWidth 16).signExtend 32
  | zext8 g d a : VecOne (.zext8I32 g d a) g d a fun x => x &&& 0xFF
  | zext16 g d a : VecOne (.zext16I32 g d a) g d a fun x => x &&& 0xFFFF
  | shli g d a n : VecOne (.shli g d a n) g d a fun x => x <<< n.toNat
  | shri g d a n : VecOne (.shri g d a n) g d a fun x => x >>> n.toNat
  | srai g d a n : VecOne (.srai g d a n) g d a fun x => x.sshiftRight n.toNat
  | rotli g d a n : VecOne (.rotli g d a n) g d a fun x => x.rotateLeft n.toNat

/-- The uniform integer instructions of two sources (R96). -/
inductive UniTwo : Instr → GReg → GReg → GReg → (Word → Word → Word) → Prop
  | add d a b : UniTwo (.addI32U d a b) d a b fun x y => x + y
  | adds d a b : UniTwo (.addsI32U d a b) d a b fun x y => BitVec.ofInt 32 (max (-(2 ^ 31)) (min (2 ^ 31 - 1) (x.toInt + y.toInt)))
  | sub d a b : UniTwo (.subI32U d a b) d a b fun x y => x - y
  | subs d a b : UniTwo (.subsI32U d a b) d a b fun x y => BitVec.ofInt 32 (max (-(2 ^ 31)) (min (2 ^ 31 - 1) (x.toInt - y.toInt)))
  | mul d a b : UniTwo (.mulI32U d a b) d a b fun x y => x * y
  | mulh d a b : UniTwo (.mulhI32U d a b) d a b fun x y => BitVec.ofInt 32 (x.toInt * y.toInt / 2 ^ 32)
  | mulhu d a b : UniTwo (.mulhuI32U d a b) d a b fun x y => BitVec.ofNat 32 (x.toNat * y.toNat / 2 ^ 32)
  | min d a b : UniTwo (.minI32U d a b) d a b fun x y => if y.toInt < x.toInt then y else x
  | minu d a b : UniTwo (.minuI32U d a b) d a b fun x y => if y.toNat < x.toNat then y else x
  | max d a b : UniTwo (.maxI32U d a b) d a b fun x y => if x.toInt < y.toInt then y else x
  | maxu d a b : UniTwo (.maxuI32U d a b) d a b fun x y => if x.toNat < y.toNat then y else x
  | and d a b : UniTwo (.andI32U d a b) d a b fun x y => x &&& y
  | andn d a b : UniTwo (.andnI32U d a b) d a b fun x y => x &&& ~~~y
  | or d a b : UniTwo (.orI32U d a b) d a b fun x y => x ||| y
  | xor d a b : UniTwo (.xorI32U d a b) d a b fun x y => x ^^^ y
  | shl d a b : UniTwo (.shlI32U d a b) d a b fun x y => x <<< (y.toNat % 256)
  | shr d a b : UniTwo (.shrI32U d a b) d a b fun x y => x >>> (y.toNat % 256)
  | sra d a b : UniTwo (.sraI32U d a b) d a b fun x y => x.sshiftRight (y.toNat % 256)
  | rotl d a b : UniTwo (.rotlI32U d a b) d a b fun x y => x.rotateLeft (y.toNat % 32)

/-- The uniform integer instructions of one source (R98, R100). -/
inductive UniOne : Instr → GReg → GReg → (Word → Word) → Prop
  | mov d a : UniOne (.movI32U d a) d a fun x => x
  | not d a : UniOne (.notI32U d a) d a fun x => ~~~x
  | neg d a : UniOne (.negI32U d a) d a fun x => -x
  | abs d a : UniOne (.absI32U d a) d a fun x => if x.toInt < 0 then -x else x
  | popc d a : UniOne (.popcI32U d a) d a fun x => BitVec.ofNat 32 (popcount x)
  | clz d a : UniOne (.clzI32U d a) d a fun x => BitVec.ofNat 32 (clz x)
  | ctz d a : UniOne (.ctzI32U d a) d a fun x => BitVec.ofNat 32 (ctz x)
  | brev d a : UniOne (.brevI32U d a) d a brev
  | sext8 d a : UniOne (.sext8I32U d a) d a fun x => (x.setWidth 8).signExtend 32
  | sext16 d a : UniOne (.sext16I32U d a) d a fun x => (x.setWidth 16).signExtend 32
  | zext8 d a : UniOne (.zext8I32U d a) d a fun x => x &&& 0xFF
  | zext16 d a : UniOne (.zext16I32U d a) d a fun x => x &&& 0xFFFF
  | shli d a n : UniOne (.shliU d a n) d a fun x => x <<< n.toNat
  | shri d a n : UniOne (.shriU d a n) d a fun x => x >>> n.toNat
  | srai d a n : UniOne (.sraiU d a n) d a fun x => x.sshiftRight n.toNat
  | rotli d a n : UniOne (.rotliU d a n) d a fun x => x.rotateLeft n.toNat

/-- A condition code on two words (R101). -/
def conditionHolds (c : Nat) (x y : Word) : Bool :=
  match c with
  | 0 => x == y
  | 1 => x != y
  | 2 => x.slt y
  | 3 => !y.slt x
  | 4 => y.slt x
  | 5 => !x.slt y
  | 6 => x.ult y
  | 7 => !y.ult x
  | 8 => y.ult x
  | 9 => !x.ult y
  | _ => (x &&& y) != 0

end Sys2Proof.Machine

section
open Sys2Proof Sys2Proof.Machine

/-- R95, R96, R97, R127: every vector integer instruction of two sources, in every state in which it may issue, answers the state
with each active lane's result and nothing else written. -/
def Obligations.VectorTwoSourceResults : Prop :=
  ∀ i g d a b f, VecTwo i g d a b f → ∀ (s : State) (x : Iss), s.Ready [wrV 0 d, rdV 1 a, rdV 2 b] x →
    exec i s = .next (x.vecNext d (x.k.active x.sp g) fun n => f (x.v a n) (x.v b n))

/-- R97, R98, R99, R100: the vector integer instructions of one source, the immediates, and `bfi`, whose destination is read. -/
def Obligations.VectorOneSourceResults : Prop :=
  (∀ i g d a f, VecOne i g d a f → ∀ (s : State) (x : Iss), s.Ready [wrV 0 d, rdV 1 a] x →
    exec i s = .next (x.vecNext d (x.k.active x.sp g) fun n => f (x.v a n))) ∧
  (∀ g d a i (s : State) (x : Iss), s.Ready [wrV 0 d, rdV 1 a] x →
    exec (.addi g d a i) s = .next (x.vecNext d (x.k.active x.sp g) fun n => x.v a n + immS x.sp.hints i)) ∧
  (∀ g d i (s : State) (x : Iss), s.Ready [wrV 0 d] x →
    exec (.movi g d i) s = .next (x.vecNext d (x.k.active x.sp g) fun _ => immS x.sp.hints i)) ∧
  (∀ g d a b (s : State) (x : Iss), s.Ready [rdV 0 d, rdV 1 a, rdV 2 b] x →
    exec (.bfiI32 g d a b) s = .next (x.vecNext d (x.k.active x.sp g) fun n => Alu.bfi (x.v d n) (x.v a n) (x.v b n)))

/-- R95, R96, R98, R99, R100: the uniform integer instructions write one register and nothing else. -/
def Obligations.UniformResults : Prop :=
  (∀ i d a b f, UniTwo i d a b f → ∀ (s : State) (x : Iss), s.Ready [wrG 0 d, rdG 1 a, rdG 2 b] x →
    exec i s = .next (x.uniNext d (f (x.g a) (x.g b)))) ∧
  (∀ i d a f, UniOne i d a f → ∀ (s : State) (x : Iss), s.Ready [wrG 0 d, rdG 1 a] x → exec i s = .next (x.uniNext d (f (x.g a)))) ∧
  (∀ d i (s : State) (x : Iss), s.Ready [wrG 0 d] x → exec (.moviU d i) s = .next (x.uniNext d (immS x.sp.hints i))) ∧
  (∀ d a i (s : State) (x : Iss), s.Ready [wrG 0 d, rdG 1 a] x → exec (.addiU d a i) s = .next (x.uniNext d (x.g a + immS x.sp.hints i))) ∧
  (∀ d a i (s : State) (x : Iss), s.Ready [wrG 0 d 2, rdG 1 a 2] x →
    exec (.addiI64 d a i) s =
      .next (x.retire (x.k.setG64 d.toNat (x.k.readG64 a.toNat + (immS x.sp.hints i).signExtend 64)) x.sp))

/-- R97: a bit-field extract or insert moves exactly the field of length min(b[13:8], 32 − b[4:0]) at position b[4:0]. R98: the bit counts and the reversal. -/
def Obligations.BitFieldsAndCounts : Prop :=
  (∀ (d a b : Word) (n : Nat), n < 32 →
     (Alu.bfe a b).getLsbD n = (decide (n < Alu.bfLen b) && a.getLsbD (b.toNat % 32 + n)) ∧
     (Alu.bfi d a b).getLsbD n =
       (if b.toNat % 32 ≤ n ∧ n < b.toNat % 32 + Alu.bfLen b then a.getLsbD (n - b.toNat % 32) else d.getLsbD n) ∧
     (Alu.bfes a b).getLsbD n =
       (decide (0 < Alu.bfLen b) && a.getLsbD (b.toNat % 32 + min n (Alu.bfLen b - 1)))) ∧
  (∀ (x : Word),
     (∀ n, n < 32 → (brev x).getLsbD n = x.getLsbD (31 - n)) ∧
     clz x ≤ 32 ∧ (∀ n, n < clz x → x.getLsbD (31 - n) = false) ∧ (clz x < 32 → x.getLsbD (31 - clz x) = true) ∧
     ctz x ≤ 32 ∧ (∀ n, n < ctz x → x.getLsbD n = false) ∧ (ctz x < 32 → x.getLsbD (ctz x) = true) ∧
     popcount x + popcount (~~~x) = 32)

/-- R101, R102, R91: the comparisons. A vector comparison writes a bit for each active lane, a uniform one the same bit for each live
lane of the split; the A forms AND it into the predicate; `cmpi` sign-extends its immediate for codes 0–5. R103, R104, R105: predicate logic, the moves between classes and address formation. -/
def Obligations.ComparisonAndPredicateResults : Prop :=
  (∀ p c (s : State) (x : Iss), c.toNat < 11 →
     (∀ g a b, s.Ready [rdV 1 a, rdV 2 b] x →
       exec (.cmp g p c a b) s =
         .next (x.predNext p (x.k.active x.sp g) (maskWhere fun n => conditionHolds c.toNat (x.v a n) (x.v b n))) ∧
       exec (.cmpa g p c a b) s =
         .next (x.predNext p (x.k.active x.sp g)
           ((maskWhere fun n => conditionHolds c.toNat (x.v a n) (x.v b n)) &&& x.k.p.get p.toNat))) ∧
     (∀ a b, s.Ready [rdG 1 a, rdG 2 b] x →
       exec (.cmpU p c a b) s =
         .next (x.predNext p x.live (if conditionHolds c.toNat (x.g a) (x.g b) then BitVec.allOnes 32 else 0)) ∧
       exec (.cmpaU p c a b) s =
         .next (x.predNext p x.live
           ((if conditionHolds c.toNat (x.g a) (x.g b) then BitVec.allOnes 32 else 0) &&& x.k.p.get p.toNat))) ∧
     (∀ g a i, s.Ready [rdV 1 a] x →
       exec (.cmpi g p c a i) s =
         .next (x.predNext p (x.k.active x.sp g)
           (maskWhere fun n => conditionHolds c.toNat (x.v a n) (if c.toNat < 6 then immS x.sp.hints i else immZ x.sp.hints i))))) ∧
  ((∀ g d a b (s : State) (x : Iss), s.Ready [] x →
     exec (.pand g d a b) s = .next (x.predNext d (x.k.active x.sp g) (x.k.pred a &&& x.k.pred b)) ∧
     exec (.por g d a b) s = .next (x.predNext d (x.k.active x.sp g) (x.k.pred a ||| x.k.pred b)) ∧
     exec (.pxor g d a b) s = .next (x.predNext d (x.k.active x.sp g) (x.k.pred a ^^^ x.k.pred b)) ∧
     exec (.pandn g d a b) s = .next (x.predNext d (x.k.active x.sp g) (x.k.pred a &&& ~~~(x.k.pred b)))) ∧
   (∀ g d a (s : State) (x : Iss), s.Ready [wrV 0 d, rdG 1 a] x →
     exec (.movVg g d a) s = .next (x.vecNext d (x.k.active x.sp g) fun _ => x.g a)) ∧
   (∀ d a (s : State) (x : Iss), s.Ready [rdG 1 a] x → exec (.movPg d a) s = .next (x.predNext d x.live (x.g a))) ∧
   (∀ d a (s : State) (x : Iss), s.Ready [wrG 0 d] x →
     exec (.movGp d a) s = .next (x.uniNext d (x.k.pred a &&& presentMask x.k.slices))) ∧
   (∀ g d a (s : State) (x : Iss), s.Ready [wrV 0 d] x →
     exec (.movVp g d a) s = .next (x.vecNext d (x.k.active x.sp g) fun n => if (x.k.pred a).getLsbD n then 1 else 0)) ∧
   (∀ g d a (s : State) (x : Iss), s.Ready [rdV 1 a] x →
     exec (.movPv g d a) s = .next (x.predNext d (x.k.active x.sp g) (maskWhere fun n => x.v a n != 0))) ∧
   (∀ g d (s : State) (x : Iss), s.Ready [wrV 0 d] x →
     exec (.laneid g d) s = .next (x.vecNext d (x.k.active x.sp g) fun n => BitVec.ofNat 32 n)) ∧
   (∀ d a l (s : State) (x : Iss), s.Ready [wrG 0 d, rdV 1 a] x → exec (.movGv d a l) s = .next (x.uniNext d (x.v a l.toNat))) ∧
   (∀ g d a b (s : State) (x : Iss), s.Ready [wrV 0 d 2, rdG 1 a 2, rdV 2 b] x →
     exec (.lea g d a b) s =
       .next (x.pairNext d (x.k.active x.sp g) fun n =>
         x.k.readG64 a.toNat + ((x.v b n).signExtend 64 <<< (modBits x.sp.hints % 4))) ∧
     exec (.leau g d a b) s =
       .next (x.pairNext d (x.k.active x.sp g) fun n =>
         x.k.readG64 a.toNat + ((x.v b n).setWidth 64 <<< (modBits x.sp.hints % 4)))))

end

namespace Sys2Proof.Machine

/-! ### Control flow (spec 04) -/

/-- The split of the instruction in progress has divided: it waits at `join` with its mask, its parent and its own reconvergence address, and
for each of `kids` there is a child with those lanes at that address, which goes on to `join` and inherits the trap registers and the window,
but for a link register that the instruction wrote; the children stand in the list, in order, in its place (R107, R112). -/
def dividesInto (x : Iss) (u : State) (join : Word) (link : Option Nat) (kids : List (Mask × Word)) : Prop :=
  ∃ k parent ids, u.pack x.f.core x.f.slot = some k ∧ k.split x.f.split = some parent ∧ parent.status = .waiting ∧ parent.pc = join ∧
    parent.mask = x.sp.mask ∧ parent.reconv = x.sp.reconv ∧ parent.parent = x.sp.parent ∧
    k.order = replaceFirst x.k.order [x.f.split] ids ∧ ids.length = kids.length ∧
    ∀ p ∈ kids.zip ids, let e := p.1; let m := p.2
      ∃ c, m ≠ x.f.split ∧ k.split m = some c ∧ c.mask = e.1 ∧ c.pc = e.2 ∧ c.reconv = join ∧ c.parent = some x.f.split ∧
      c.trap = x.sp.trap ∧ ∀ w, some w.reg ≠ link → (w ∈ c.win ↔ w ∈ ageWindow x.sp.win)

/-- The lanes of a split that name call-table entry `n` (R112). -/
def callers (x : Iss) (a : VReg) (n : Nat) : Mask := x.live &&& maskWhere fun i => (x.v a i).toNat == n

/-! ### The split as a whole, work identifiers and system registers (spec 08) -/

/-- The shuffles by a register (R209): mode, guard, destination, source and validity predicate. -/
inductive Shuffles : Instr → Shfl → PReg → VReg → VReg → PReg → Prop
  | idx g d a v : Shuffles (.shflIdx g d a v) .idx g d a v
  | up g d a v : Shuffles (.shflUp g d a v) .up g d a v
  | down g d a v : Shuffles (.shflDown g d a v) .down g d a v
  | xor g d a v : Shuffles (.shflXor g d a v) .xor g d a v

/-- The shuffles by an immediate (R209). -/
inductive ShufflesBy : Instr → Shfl → PReg → VReg → VReg → BitVec 5 → Prop
  | idx g d a n : ShufflesBy (.shflIdxi g d a n) .idx g d a n
  | up g d a n : ShufflesBy (.shflUpi g d a n) .up g d a n
  | down g d a n : ShufflesBy (.shflDowni g d a n) .down g d a n
  | xor g d a n : ShufflesBy (.shflXori g d a n) .xor g d a n

/-- The lane that lane `i` of a shuffle reads under selector `n`, if it is one of the 32 (R209). -/
def shuffleLane (m : Shfl) (i n : Nat) : Option Nat :=
  match m with
  | .idx => if n < 32 then some n else none
  | .up => if n ≤ i ∧ i - n < 32 then some (i - n) else none
  | .down => if i + n < 32 then some (i + n) else none
  | .xor => if i ^^^ n < 32 then some (i ^^^ n) else none

/-! ### Exceptions (spec 08) -/

/-- Register `r` of class `c` is one of those an operand names (01 R17, R18). -/
def Operand.names (o : Operand) (c : RegClass) (r : Nat) : Prop := o.cls = c ∧ o.idx ≤ r ∧ r < o.idx + o.cnt

/-! ### Hint words and dictionary slots (spec 03) -/

/-- The hint instructions and their words (R73). -/
inductive Hints : Instr → Word → Prop
  | imm i : Hints (.hintImm i) (0xF9C00000 + i.setWidth 32)
  | immtop i : Hints (.hintImmtop i) (0xF9C80000 + i.setWidth 32)
  | rnd st m : Hints (.hintRnd st m) (0xF9D00000 + (st.setWidth 32 <<< 5) + m.setWidth 32)
  | cache b c l : Hints (.hintCache b c l) (0xF9D80000 + (b.setWidth 32 <<< 4) + (c.setWidth 32 <<< 2) + l.setWidth 32)
  | ctl t r : Hints (.hintCtl t r) (0xF9E00000 + (t.setWidth 32 <<< 10) + r.setWidth 32)
  | mod m : Hints (.hintMod m) (0xF9E80000 + m.setWidth 32)

end Sys2Proof.Machine

section
open Sys2Proof Sys2Proof.Machine

/-- R72, R106, R110, R111, R115: branches of the whole split. `br` is taken when every live lane holds its predicate; `call` writes the
address of the next instruction to the live lanes; `jmpi` goes where its live lanes agree. R112: a `calli` whose live lanes name one call-table entry that fits the pack's registers calls it like
`call`; one that does not fit raises REGBUDGET, and an index beyond the table HANDLE with REASON 0x1B for the lowest such lane. -/
def Obligations.BranchResults : Prop :=
  (∀ (s : State) (x : Iss),
     (s.Ready [] x →
       (∀ p o, exec (.br p o) s =
         .next (if x.live &&& ~~~(x.k.pred p) = 0 then
             x.retireTo (x.k.capture x.f.addr (x.f.addr + o.signExtend 32)) x.sp (x.f.addr + o.signExtend 32)
           else x.retire x.k x.sp)) ∧
       (∀ o, exec (.jmp o) s =
         .next (x.retireTo (x.k.capture x.f.addr (x.f.addr + o.signExtend 32)) x.sp (x.f.addr + o.signExtend 32))) ∧
       (∀ g, exec (.nop g) s = .next (x.retire x.k x.sp))) ∧
     (∀ d i, s.Ready [wrV 0 d] x →
       exec (.call d i) s =
         .next (x.retireTo (writeV x.k x.sp d x.live fun _ => x.f.next).1 (writeV x.k x.sp d x.live fun _ => x.f.next).2
           (x.f.addr + immS x.sp.hints i))) ∧
     (∀ a target, s.Ready [rdV 1 a] x → x.live ≠ 0 → (∀ n, x.live.getLsbD n → x.v a n = target) →
       exec (.jmpi a) s = .next (x.retireTo x.k x.sp target))) ∧
  (∀ d a (s : State) (x : Iss) n, s.Ready [wrV 0 d, rdV 1 a] x → x.live ≠ 0 → (∀ l, x.live.getLsbD l → (x.v a l).toNat = n) →
     (n < (s.header x.k).callCount → ∀ t e, x.s.callEntries x.f.core x.k [n] = (t, .ok [e]) →
       (e.fits x.k = true → exec (.calli d a) s =
         .next (({ x with s := t } : Iss).retireTo (writeV x.k x.sp d x.live fun _ => x.f.next).1
           (writeV x.k x.sp d x.live fun _ => x.f.next).2 e.target)) ∧
       (e.fits x.k = false → exec (.calli d a) s = ({ x with s := t } : Iss).raise x.live 0x04 (n + e.target.toNat * 2 ^ 32))) ∧
     ((s.header x.k).callCount ≤ n → ∃ l, x.live.getLsbD l = true ∧ (∀ j, j < l → x.live.getLsbD j = false) ∧
       exec (.calli d a) s = x.raise x.live 0x08 (0x1B + l * 2 ^ 45 + n * 2 ^ 64)))

/-- R107, R109: a `brd` on which the live lanes disagree leaves its split waiting at the join with its mask, and two children, the
taken one first in the list, with the taken lanes at the target and the others at the next address, both with the parent's window; memory and
the registers stay. R109, R243: where fewer than two entries are free, victims and, where these are too few, children go to spill records; with too few
records SPLITOVF names how many are needed. R112: a `calli` whose live lanes name two or more entries divides its split into a child for each, which goes
to its function with the return address in its lanes of the link, or stays at the `calli` to take REGBUDGET, its link unchanged. -/
def Obligations.DivergentBranchDivides : Prop :=
  (∀ p t r (s : State) (x : Iss), s.Ready [] x →
    let target := x.f.addr + brdTarget x.sp.hints t
    let join := x.f.addr + BitVec.ofNat 32 (brdJoin x.sp.hints r)
    let taken := x.live &&& x.k.pred p
    let rest := x.live &&& ~~~(x.k.pred p)
    brdJoin x.sp.hints r ≠ 0 → x.noUnit join = false →
    (rest = 0 → exec (.brd p t r) s = .next (x.retireTo (x.k.capture x.f.addr target) x.sp target)) ∧
    (rest ≠ 0 → taken = 0 → exec (.brd p t r) s = .next (x.retire x.k x.sp)) ∧
    (rest ≠ 0 → taken ≠ 0 → 2 ≤ (s.core x.f.core).reachable x.f.slot x.k.entries → x.sp.id = x.f.split → x.k.splits.length ≤ 62 →
      ∃ u, exec (.brd p t r) s = .next u ∧ dividesInto x u join none [(taken, target), (rest, x.f.next)] ∧ sameBytes s u ∧
        ∃ k, u.pack x.f.core x.f.slot = some k ∧ k.v = x.k.v ∧ k.g = x.k.g ∧ k.p = x.k.p) ∧
    (rest ≠ 0 → taken ≠ 0 → (s.core x.f.core).reachable x.f.slot x.k.entries < 2 →
      let lack := 2 - (s.core x.f.core).reachable x.f.slot x.k.entries
      ((s.freeRecords x.k).length < lack → exec (.brd p t r) s = x.raise x.live 0x06 (lack + (s.header x.k).spill * 2 ^ 32)) ∧
      (lack ≤ (s.freeRecords x.k).length → x.sp.id = x.f.split → x.k.splits.length ≤ 62 → (∀ i c, x.k.split i = some c → c.id = i) →
        ∃ u k, exec (.brd p t r) s = .next u ∧ dividesInto x u join none [(taken, target), (rest, x.f.next)] ∧
          u.pack x.f.core x.f.slot = some k ∧ k.v = x.k.v ∧ k.g = x.k.g ∧ k.p = x.k.p ∧
          ∀ i ∈ (x.k.victims x.f.split).take lack, ∃ c, k.split i = some c ∧ c.spill.isSome = true))) ∧
  ∀ d a (s : State) (x : Iss) xs t es, s.Ready [wrV 0 d, rdV 1 a] x → sortNats ((lanesOf x.live).map fun i => (x.v a i).toNat) = xs → 2 ≤ xs.length →
    (∀ n ∈ xs, n < (s.header x.k).callCount) → x.s.callEntries x.f.core x.k xs = (t, .ok es) →
    xs.length ≤ (t.core x.f.core).reachable x.f.slot x.k.entries → x.sp.id = x.f.split → x.k.splits.length + xs.length ≤ 64 →
    ∃ u, exec (.calli d a) s = .next u ∧
      dividesInto x u x.f.next (if d.toNat < 120 then none else some (d.toNat - 120))
        ((xs.zip es).map fun p => (callers x a p.1, if p.2.fits x.k then p.2.target else x.at_)) ∧
      ∃ k, u.pack x.f.core x.f.slot = some k ∧
        (d.toNat < 120 → ∀ l, l < 32 → k.v.get (32 * d.toNat + l) =
          if ((xs.zip es).any fun p => p.2.fits x.k && (callers x a p.1).getLsbD l) = true then x.f.next else x.k.v.get (32 * d.toNat + l)) ∧
        ∀ p ∈ xs.zip es, ∃ i c, k.split i = some c ∧ c.parent = some x.f.split ∧ c.mask = callers x a p.1 ∧
          (p.2.fits x.k = true → c.pending = none ∧ (120 ≤ d.toNat → ∃ w ∈ c.win, w.reg = d.toNat - 120 ∧
            ∀ l, l < 32 → (callers x a p.1).getLsbD l = true → w.vals.get l = x.f.next)) ∧
          (p.2.fits x.k = false → ∃ r, c.pending = some r ∧ r.code = 0x04 ∧ r.epc = x.at_ ∧ r.mask = callers x a p.1 ∧
            r.info = BitVec.ofNat 128 (p.1 + p.2.target.toNat * 2 ^ 32))

/-- R113: a root split alone in its pack passes a `regang` with an empty window; another split stops there. R116, R117: `wait` passes when the four counters are within its bounds; otherwise it stalls, and WAIT_SATISFIED carries it out
once they are. -/
def Obligations.RegangAndWaitResults : Prop :=
  (∀ (s : State) (x : Iss), s.Ready [] x →
     (x.sp.parent = none → x.k.splits.length = 1 → exec .regang s = .next (x.retire x.k { x.sp with win := [] })) ∧
     (x.sp.parent.isSome ∨ x.k.splits.length ≠ 1 → x.sp.id = x.f.split →
       ∃ t k sp, exec .regang s = .next t ∧ x.now t = some (k, sp) ∧ sp.status = .stoppedRegang ∧ sp.pc = x.f.next ∧ sp.win = [] ∧
         sp.mask = x.sp.mask)) ∧
  ((∀ l n c t (s : State) (x : Iss), s.Ready [] x →
     exec (.wait l n c t) s =
       .next (if x.k.counter .ld ≤ l.toNat ∧ x.k.counter .st ≤ n.toNat ∧ x.k.counter .cp ≤ c.toNat ∧ x.k.counter .tl ≤ t.toNat then
           x.retire x.k x.sp
         else x.put x.k.started { x.sp with stall := some (.wait l.toNat n.toNat c.toNat t.toNat) })) ∧
   (∀ core slot split (s : State) (x : Iss) l n c t, s.stalled core slot split = some x → x.sp.stall = some (.wait l n c t) →
     x.k.counter .ld ≤ l → x.k.counter .st ≤ n → x.k.counter .cp ≤ c → x.k.counter .tl ≤ t →
     exec (.waitSatisfied core slot split) s = .next (x.retire x.k x.sp)))

/-! ### What a retired instruction leaves -/

/-- R26, R72, R108: retiring makes the split go on at its next address with a window one instruction older, where it stops if
that is its reconvergence address; its mask, its parent and its trap registers stay. R26: a window keeps, one instruction older, exactly the results whose age was below 8. -/
def Obligations.RetiringAdvancesTheSplit : Prop :=
  (∀ (s : State) (x : Iss) (k : Pack) (sp : Split) pc, s.issuer = some x → sp.id = x.f.split →
     ∃ k' sp', x.now (x.retireTo k sp pc) = some (k', sp') ∧ sp'.pc = pc ∧ sp'.win = ageWindow sp.win ∧
       sp'.status = (if pc = sp.reconv ∧ sp.reconv ≠ 0xFFFFFFFF then .stoppedReconv else sp.status) ∧
       sp'.mask = sp.mask ∧ sp'.reconv = sp.reconv ∧ sp'.parent = sp.parent ∧ sp'.trap = sp.trap ∧ sp'.hints = [] ∧
       ({ k' with splits := k.splits, phase := k.phase } : Pack) = k ∧
       ∀ i, i ≠ sp.id → k'.split i = k.split i) ∧
  (∀ (w : List WinReg) e, e ∈ ageWindow w ↔ ∃ e₀ ∈ w, e₀.age < 8 ∧ e = { e₀ with age := e₀.age + 1 })

/-- The frame of every instruction that retires with a register result: no byte of memory, no other pack, no other core and nothing
else of the machine changes. -/
def Obligations.RegisterResultFrame : Prop :=
  ∀ (s : State) (x : Iss) (k : Pack) (sp : Split) pc, s.issuer = some x → x.onlyPack (x.retireTo k sp pc) ∧ sameBytes s (x.retireTo k sp pc)

/-- R12, R27: a vector result is read in the active lanes; a `v` register keeps its other lanes, an ephemeral register reads zero there,
and every other `v`, uniform, predicate, tile and accumulator register of the pack keeps its value. R13, R16, R91: a uniform result is read in its register, and a predicate result in its lanes, but for `p7`, which discards
it; every other uniform and predicate register keeps its value. -/
def Obligations.RegisterResultsAreRead : Prop :=
  (∀ (s : State) (x : Iss) d act f, s.issuer = some x → x.sp.id = x.f.split →
     ∃ k sp, x.now (x.vecNext d act f) = some (k, sp) ∧
       (∀ n, n < 32 → k.readV sp d.toNat n =
         if act.getLsbD n then f n else if d.toNat < 120 then x.k.readV x.sp d.toNat n else 0) ∧
       (∀ r n, n < 32 → r < 120 → r ≠ d.toNat → k.readV sp r n = x.k.readV x.sp r n) ∧
       k.g = x.k.g ∧ k.p = x.k.p ∧ k.t = x.k.t ∧ k.acc = x.k.acc ∧ k.queues = x.k.queues ∧ k.fpctl = x.k.fpctl ∧
       k.fpstat = x.k.fpstat ∧ sp.trap = x.sp.trap) ∧
  (∀ (s : State) (x : Iss), s.issuer = some x → x.sp.id = x.f.split →
     (∀ d v, ∃ k sp, x.now (x.uniNext d v) = some (k, sp) ∧ k.readG d.toNat = v ∧
       (∀ r, r ≠ d.toNat → k.readG r = x.k.readG r) ∧ k.v = x.k.v ∧ k.p = x.k.p) ∧
     (∀ d m f, ∃ k sp, x.now (x.predNext d m f) = some (k, sp) ∧
       (∀ n, d ≠ 7 → (k.pred d).getLsbD n = if m.getLsbD n then f.getLsbD n else (x.k.pred d).getLsbD n) ∧
       (∀ r, r ≠ d → k.pred r = x.k.pred r) ∧ (d = 7 → k.p = x.k.p) ∧ k.v = x.k.v ∧ k.g = x.k.g))

/-- R208, R215: width queries, votes and work identifiers. R209: each active lane gets the word its source lane held before the instruction where that lane is live in the split, with its
validity bit 1; otherwise it keeps its own, with validity 0. -/
def Obligations.GangResults : Prop :=
  (∀ (s : State) (x : Iss),
     (∀ d, s.Ready [wrG 0 d] x →
       exec (.gwidth d) s = .next (x.uniNext d (BitVec.ofNat 32 (popcount x.live))) ∧
       exec (.gslices d) s = .next (x.uniNext d (BitVec.ofNat 32 (slicesOf x.live).length)) ∧
       ∀ a, exec (.vballot d a) s = .next (x.uniNext d (x.k.pred a &&& x.live))) ∧
     (s.Ready [] x → ∀ d a,
       exec (.vany d a) s = .next (x.predNext d x.live (if x.k.pred a &&& x.live = 0 then 0 else BitVec.allOnes 32)) ∧
       exec (.vall d a) s = .next (x.predNext d x.live (if x.k.pred a &&& x.live = x.live then BitVec.allOnes 32 else 0))) ∧
     (∀ g d, s.Ready [wrV 0 d 2] x →
       exec (.wid g d) s = .next (x.pairNext d (x.k.active x.sp g) x.k.widOf) ∧
       ∀ n, exec (.widf g d n) s =
         .next (x.pairNext d (x.k.active x.sp g) fun l => widField (s.header x.k).widths (x.k.widOf l) n.toNat))) ∧
  ((∀ i m g d a v, Shuffles i m g d a v → ∀ (s : State) (x : Iss), s.Ready [rdV 0 d, rdV 1 a] x →
     exec i s = .next (x.retire
       ((writeV x.k x.sp d (x.k.active x.sp g) fun l =>
           x.v a (((shuffleLane m l (x.v d l).toNat).filter fun j => x.live.getLsbD j).getD l)).1.setP v (x.k.active x.sp g)
         (maskWhere fun l => ((shuffleLane m l (x.v d l).toNat).filter fun j => x.live.getLsbD j).isSome))
       (writeV x.k x.sp d (x.k.active x.sp g) fun l =>
           x.v a (((shuffleLane m l (x.v d l).toNat).filter fun j => x.live.getLsbD j).getD l)).2)) ∧
   (∀ i m g d a n, ShufflesBy i m g d a n → ∀ (s : State) (x : Iss), s.Ready [wrV 0 d, rdV 1 a] x →
     exec i s = .next (x.vecNext d (x.k.active x.sp g) fun l =>
       x.v a (((shuffleLane m l n.toNat).filter fun j => x.live.getLsbD j).getD l))))

/-- R227, R228, R230, 01 R32, R35: `rdsr` writes the register's value, and `wrsr` writes the registers that are not read-only and nothing else;
`sr.fpstat` is read and written once the split's earlier operations are complete. -/
def Obligations.SystemRegisterResults : Prop :=
  ∀ (s : State) (x : Iss),
    (∀ d n w sp, s.Ready [wrG 0 d] x → x.readSr n.toNat = some (w, sp) → ¬(n = 0x001 ∧ x.flagsOpen = true) →
      exec (.rdsr d n) s = .next (x.retire (x.k.setG d.toNat w) sp)) ∧
    (∀ d n, s.Ready [rdG 0 d] x → (x.readSr n.toNat).isSome → ¬(n = 0x001 ∧ x.flagsOpen = true) →
      exec (.wrsr d n) s = .next (x.retire (x.writeSr n.toNat (x.g d)).1 (x.writeSr n.toNat (x.g d)).2)) ∧
    (x.readSr 0x000 = some (x.k.fpctl, x.sp) ∧ x.readSr 0x001 = some (x.k.fpstat, x.sp) ∧ x.readSr 0x040 = some (x.sp.trap.cause, x.sp) ∧
      x.readSr 0x041 = some (x.sp.trap.epc, x.sp) ∧ x.readSr 0x044 = some (x.sp.trap.info0, x.sp) ∧
      x.readSr 0x048 = some (x.sp.trap.scratch0, x.sp)) ∧
    (∀ w, x.writeSr 0x001 w = ({ x.k with fpstat := w &&& 0x1F }, x.sp) ∧
      x.writeSr 0x041 w = (x.k, { x.sp with trap := { x.sp.trap with epc := w } }) ∧ x.writeSr 0x040 w = (x.k, x.sp) ∧
      x.writeSr 0x020 w = (x.k, x.sp))

/-- R17: an operand raises REGRANGE exactly when a register it names, of a pair or group too, lies beyond the pack's allocation of its class. R14, R18, R27: ALIGN
stands before it and EWMISS after it; the check that fails is raised at issue, whatever the guard holds, with the word and the lowest field
that fails it, and nothing else happens. -/
def Obligations.DecodeChecksTrap : Prop :=
  (∀ k sp (os : List Operand), (∀ o ∈ os, o.cnt ∈ [1, 2, 4, 8] ∧ o.idx < 128) →
    ((∃ n, decodeCheck k sp os = some (0x02, n)) ↔ ∃ o ∈ os, o.idx % o.cnt ≠ 0) ∧
    ((∃ n, decodeCheck k sp os = some (0x03, n)) ↔ (∀ o ∈ os, o.idx % o.cnt = 0) ∧ ∃ o ∈ os, ∃ r,
      (o.names .v r ∧ r < 120 ∧ k.nv ≤ r) ∨ (o.names .g r ∧ k.ng ≤ r) ∨ (o.names .a r ∧ k.na ≤ r)) ∧
    (decodeCheck k sp os = none → ∀ o ∈ os, ∀ e, o.read = true → o.names .v (120 + e) → ∃ w ∈ sp.win, w.reg = e)) ∧
  (∀ i g d a b f, VecTwo i g d a b f → ∀ (s : State) (x : Iss) code field, s.issuer = some x → x.groupTrap = none →
    decodeCheck x.k x.sp [wrV 0 d, rdV 1 a, rdV 2 b] = some (code, field) →
    exec i s = x.raise (x.k.active x.sp g) code (x.f.word.toNat + field * 2 ^ 32)) ∧
  (∀ i d a b f, UniTwo i d a b f → ∀ (s : State) (x : Iss) code field, s.issuer = some x → x.groupTrap = none →
    decodeCheck x.k x.sp [wrG 0 d, rdG 1 a, rdG 2 b] = some (code, field) →
    exec i s = x.raise (x.k.active x.sp 7) code (x.f.word.toNat + field * 2 ^ 32))

/-- R229, R230, R233: taking a trap with a handler writes the trap registers, sets INH, saves the window and empties it, and starts the split at
HANDLER with its mask unchanged; the split's scratch registers keep their values. -/
def Obligations.TrapEntersHandler : Prop :=
  ∀ (s : State) core slot (k : Pack) (sp : Split) (r : TrapRec), (s.header k).noHandler = false → sp.inh = false → r.code ≠ 0x0B → r.code ≠ 0x0D →
    ¬(r.code = 0x08 ∧ r.info.extractLsb' 0 8 = 0x1D) →
    ∃ k' sp', (s.takeTrap core slot k sp r).pack core slot = some k' ∧ k'.split sp.id = some sp' ∧
      sp'.pc = BitVec.ofNat 32 (s.header k).handler ∧ sp'.mask = sp.mask ∧ sp'.win = [] ∧ sp'.saved = sp.win ∧
      sp'.trap.cause = causeWord r false (s.header k).det true ∧ sp'.inh = true ∧ sp'.trap.epc = r.epc ∧ sp'.trap.mask = r.mask ∧
      sp'.trap.active = r.active ∧ sp'.trap.info3 ++ sp'.trap.info2 ++ sp'.trap.info1 ++ sp'.trap.info0 = r.info ∧
      sp'.trap.scratch0 = sp.trap.scratch0 ∧ sp'.trap.scratch3 = sp.trap.scratch3 ∧
      sameBytes s (s.takeTrap core slot k sp r)

/-- R231, R232, R233: `trap` and `brk` raise SYSCALL and BRK with their immediate; with no earlier operation outstanding the trap is
taken at once. R234: a BRK or SYSCALL with no handler suspends the split at the instruction and raises a SUSPEND event for its context. -/
def Obligations.TrapInstructionsTrap : Prop :=
  (∀ i (s : State) (x : Iss), s.Ready [] x → x.k.busyFor x.live = false →
     exec (.trap i) s = .next (x.commit.s.takeTrap x.f.core x.f.slot x.k x.sp (x.trap x.live 0x0F (immZ x.sp.hints i).toNat)) ∧
     exec (.brk i) s = .next (x.commit.s.takeTrap x.f.core x.f.slot x.k x.sp (x.trap x.live 0x0E (immZ x.sp.hints i).toNat))) ∧
  (∀ (s : State) core slot (k : Pack) (sp : Split) (r : TrapRec), (s.header k).noHandler = true → sp.inh = false → r.code = 0x0E ∨ r.code = 0x0F →
     ∃ k' sp' ev, (s.takeTrap core slot k sp r).pack core slot = some k' ∧ k'.split sp.id = some sp' ∧ sp'.suspended = true ∧
       sp'.inh = false ∧ sp'.pc = r.epc ∧ sp'.trap.epc = r.epc ∧ (s.takeTrap core slot k sp r).events = s.events ++ [ev] ∧ ev.ctx = k.ctx ∧
       ev.bytes.head? = some 2)

/-- R233, R235: `hret.retry` returns to `sr.tepc` and `hret.skip` past the unit there, with the saved window and INH clear; outside a
handler both raise SYNC with REASON 4. R234, R235: `hret.end` in a handler reports the task's end to its context and ends the task. -/
def Obligations.HandlerReturns : Prop :=
  (∀ (s : State) (x : Iss), s.Ready [] x →
     (x.sp.inh = true → x.sp.id = x.f.split →
       (∃ t k sp, exec .hretRetry s = .next t ∧ x.now t = some (k, sp) ∧ sp.pc = x.sp.trap.epc ∧ sp.inh = false ∧
         sp.win = x.sp.saved ∧ sp.mask = x.sp.mask) ∧
       (∃ t k sp, exec .hretSkip s = .next t ∧ x.now t = some (k, sp) ∧
         sp.pc = x.s.skipFrom x.f.core x.k x.sp.trap.epc ∧ sp.inh = false ∧ sp.win = x.sp.saved ∧ sp.mask = x.sp.mask)) ∧
     (x.sp.inh = false →
       exec .hretRetry s = x.raise x.live 0x15 4 ∧ exec .hretSkip s = x.raise x.live 0x15 4 ∧
       exec .hretEnd s = x.raise x.live 0x15 4)) ∧
  (∀ (s : State) (x : Iss), s.Ready [] x → x.sp.inh = true →
     exec .hretEnd s =
       .next ((x.s.trapEvent 1 x.f.core x.k x.sp.id x.sp.lastRecord true true).endTask x.k.tag 2 x.k.group))

/-- R81, R230, R233: an undecodable word raises ILLOP with its REASON at the issuing split. The lanes it shows as active are those under the
word's guard where its primary names an instruction with one; every live lane of a word that names none is the model's choice (log entry 88). -/
def Obligations.UndecodableWordTraps : Prop :=
  ∀ w reason (s : State) (x : Iss), s.issuer = some x → primary w ≠ 0x7C → x.sp.hints = [] → x.f.word = w → x.k.busyFor x.live = false →
    exec (.illegalInstruction w reason) s =
      .next (x.s.takeTrap x.f.core x.f.slot x.k x.sp
        (x.trap (if reason = 7 then x.live else x.wordActive w) 0x01 (illopWord w reason x.f.dslot x.f.dindex)))

/-- R73, R76: a hint after another of its group, or the first of a group that stands, takes an issue slot, joins the group and changes
nothing else of the split but its program counter. R77, R78: a slot of a dictionary word makes the split stand at the entry its index names. That
the entry issues from a slot which the split has latched is the model's choice (log entry 10). -/
def Obligations.HintAndDictionarySlotResults : Prop :=
  (∀ i w, Hints i w → ∀ (s : State) (x : Iss), s.issuer = some x → x.sp.id = x.f.split →
     (x.sp.hints ≠ [] ∨ groupReason (w :: (x.s.hintRun x.f.core x.k ((x.s.header x.k).codeSize / 4 + 1) x.f.addr).1.tail)
       (x.s.hintRun x.f.core x.k ((x.s.header x.k).codeSize / 4 + 1) x.f.addr).2 = none) →
     ∃ t k sp, exec i s = .next t ∧ x.now t = some (k, sp) ∧ sp.hints = x.sp.hints ++ [w] ∧ sp.pc = x.f.next ∧ sp.win = x.sp.win ∧
       sp.mask = x.sp.mask ∧ k.v = x.k.v ∧ k.g = x.k.g ∧ k.p = x.k.p ∧ x.onlyPack t ∧ sameBytes s t) ∧
  (∀ i k (s : State) (x : Iss) d, s.issuer = some x → x.sp.id = x.f.split → x.sp.hints = [] → x.s.dict x.f.core x.k = some d →
    let two := k.toNat / 1024 = 0x3F ∧ k.toNat % 1024 < d.count
    (x.f.addr.getLsbD 0 = false → i.toNat < d.count → k = 0 ∨ two → entryIllegal (Words.get d.words i.toNat) = false →
      ∃ t k' sp, exec (.dictionarySlot i k) s = .next t ∧ x.now t = some (k', sp) ∧
        sp.slot = some { word := Words.get d.words i.toNat, index := i.toNat, slot := 1, lastSlot := k == 0 } ∧ sp.pc = x.sp.pc) ∧
    (x.f.addr.getLsbD 0 = true → two → entryIllegal (Words.get d.words (k.toNat % 1024)) = false →
      ∃ t k' sp, exec (.dictionarySlot i k) s = .next t ∧ x.now t = some (k', sp) ∧
        sp.slot = some { word := Words.get d.words (k.toNat % 1024), index := k.toNat % 1024, slot := 2, lastSlot := false } ∧
        sp.pc = x.sp.pc))

/-! ### What the hardware does to splits (spec 04, 08, 09) -/

/-- R113, R244, R253: a stopped family is released: where it stands at one `regang` its splits merge into one with all their lanes, at that address,
with an empty window, and the merged split takes the parent's place when it holds all the parent's live lanes. That lanes of a nested division
count for a family is the model's choice (log entry 77). A spilled split whose turn it is takes a free entry; a deterministic core passes
to the next pack. R233: TRAP_ENTRY takes a raised trap once the split's earlier operations are complete. R108: the waiting parent whose live lanes are all in children stopped at its reconvergence address resumes there with their
lanes and an empty window, and their entries are free. -/
def Obligations.SplitEventResults : Prop :=
  (((∀ core slot split (s : State) (k : Pack) (sp : Split), State.pack s core slot = some k → k.split split = some sp → k.familyStopped sp = true →
      exec (.regangRelease core slot split) s =
        .next { s.setPack core slot (k.releaseRegang sp s.clock) with clock := s.clock + 1 }) ∧
    (∀ core slot split (s : State) (k : Pack) (sp : Split), State.pack s core slot = some k → k.split split = some sp → k.familyStopped sp = true →
      split ∈ k.order → (∀ i c, k.split i = some c → c.id = i) →
      let ms := (k.order.filterMap k.split).filter fun c => c.status == .stoppedRegang && c.parent == sp.parent
      (∀ c ∈ ms, c.pc = sp.pc) →
      ∃ t k' c, exec (.regangRelease core slot split) s = .next t ∧ sameBytes s t ∧ t.pack core slot = some k' ∧ k'.split c.id = some c ∧
        c.pc = sp.pc ∧ c.win = [] ∧ c.mask = k.lanesIn ms ∧ c.demoted = false ∧
        c.status = (if c.pc = c.reconv ∧ c.reconv ≠ 0xFFFFFFFF then .stoppedReconv else .ready) ∧
        (∀ m ∈ ms, m.id ≠ c.id → k'.split m.id = none) ∧
        match sp.parent.bind k.split with
        | some q => if k.live q &&& ~~~c.mask = 0 then c.id = q.id ∧ c.parent = q.parent ∧ c.reconv = q.reconv ∧ c.trap = q.trap
            else c.id ∈ ms.map (·.id) ∧ c.parent = sp.parent
        | none => c.id ∈ ms.map (·.id) ∧ c.parent = sp.parent) ∧
    (∀ core slot split (s : State) (k : Pack) (sp : Split) r, State.pack s core slot = some k → k.split split = some sp → sp.spill = some r →
      sp.id = split → k.refillTurn sp = true → s.mem.readList (k.spillAt + 1152 * r) 1152 = sp.spillImage →
      0 < (s.core core).reachable slot k.entries → s.outranked core slot k sp = false →
      exec (.splitRefill core slot split) s = .next (s.setPack core slot (k.setSplit { sp with spill := none, spillImage := [] }))) ∧
    (∀ core (s : State) n, s.detCore core = true → s.mustPass core = true → s.nextPack core = some n →
      ∃ t, exec (.detPackSwitch core) s = .next t ∧ (t.core core).detCur = some n ∧ (t.core core).detPass = false ∧ sameBytes s t)) ∧
   (∀ core slot split (s : State) (k : Pack) (sp : Split) r, State.pack s core slot = some k → k.split split = some sp → sp.pending = some r → sp.spill = none →
      k.busyFor (k.live sp) = false →
      exec (.trapEntry core slot split) s = .next (s.takeTrap core slot k sp r))) ∧
  (∀ core slot split (s : State) (k : Pack) (sp : Split), State.pack s core slot = some k → k.split split = some sp → k.resumable split = true →
     sp.spill = none → sp.id = split →
     ∃ t k' sp', exec (.reconvergenceResume core slot split) s = .next t ∧ t.pack core slot = some k' ∧ k'.split split = some sp' ∧
       sp'.pc = sp.pc ∧ sp'.win = [] ∧ sp'.reconv = sp.reconv ∧ sp'.parent = sp.parent ∧
       sp'.mask = k.lanesIn ((k.kids (some split)).filter fun c => c.status == .stoppedReconv) ∧
       ∀ c ∈ (k.kids (some split)).filter (fun c => c.status == .stoppedReconv), c.id ≠ split → k'.split c.id = none)

end

namespace Sys2Proof.Machine

/-! ### Floating point and narrow types (spec 01, 02, 05) -/

/-- A two-operand operation on FP32 lanes. -/
def lanes32 (f : Nat → Fp → Fp → FRes) (a b : VReg) (x : Iss) (n : Nat) : LaneRes :=
  res32 (f (x.k.rm x.sp.hints) (f32Of (x.v a n)) (f32Of (x.v b n)))

/-- A two-operand operation on pairs of 16-bit elements. -/
def lanes16 (t : Fmt) (f : Nat → Fp → Fp → FRes) (a b : VReg) (x : Iss) (n : Nat) : LaneRes :=
  res16 (f (x.k.rm x.sp.hints) (t.decode (half (x.v a n) 0)) (t.decode (half (x.v b n) 0)))
    (f (x.k.rm x.sp.hints) (t.decode (half (x.v a n) 1)) (t.decode (half (x.v b n) 1)))

/-- A one-operand operation on the element type of FN[6:5] (R129). -/
def lanesOne (f : Fmt → Nat → Nat → FRes) (t : BitVec 2) (a : VReg) (x : Iss) (n : Nat) : LaneRes :=
  if t = 0 then res32 (f Fmt.f32 (x.k.rm x.sp.hints) (x.v a n).toNat)
  else
    let h := if t = 1 then Fmt.f16 else Fmt.bf16
    res16 (f h (x.k.rm x.sp.hints) (half (x.v a n) 0)) (f h (x.k.rm x.sp.hints) (half (x.v a n) 1))

/-- The floating instructions with a vector result: guard, destination, operands, and each lane's result with its flags (R124–R126,
R129–R137). -/
inductive FloatOp : Instr → PReg → VReg → List Operand → (Iss → Nat → LaneRes) → Prop
  | add g d a b : FloatOp (.faddF32 g d a b) g d [wrV 0 d, rdV 1 a, rdV 2 b] (lanes32 Fmt.f32.add a b)
  | sub g d a b : FloatOp (.fsubF32 g d a b) g d [wrV 0 d, rdV 1 a, rdV 2 b] (lanes32 (fun m p q => Fmt.f32.add m p q.flip) a b)
  | mul g d a b : FloatOp (.fmulF32 g d a b) g d [wrV 0 d, rdV 1 a, rdV 2 b] (lanes32 Fmt.f32.mul a b)
  | div g d a b : FloatOp (.fdivF32 g d a b) g d [wrV 0 d, rdV 1 a, rdV 2 b] (lanes32 Fmt.f32.div a b)
  | min g d a b : FloatOp (.fminF32 g d a b) g d [wrV 0 d, rdV 1 a, rdV 2 b] fun x n =>
      res32 (Fmt.f32.minmax true (x.v a n).toNat (x.v b n).toNat)
  | max g d a b : FloatOp (.fmaxF32 g d a b) g d [wrV 0 d, rdV 1 a, rdV 2 b] fun x n =>
      res32 (Fmt.f32.minmax false (x.v a n).toNat (x.v b n).toNat)
  | fma g d a b : FloatOp (.ffmaF32 g d a b) g d [rdV 0 d, rdV 1 a, rdV 2 b] fun x n =>
      res32 (Fmt.f32.fma (x.k.rm x.sp.hints) (f32Of (x.v a n)) (f32Of (x.v b n)) (f32Of (x.v d n)))
  | fms g d a b : FloatOp (.ffmsF32 g d a b) g d [rdV 0 d, rdV 1 a, rdV 2 b] fun x n =>
      res32 (Fmt.f32.fma (x.k.rm x.sp.hints) (f32Of (x.v a n)).flip (f32Of (x.v b n)) (f32Of (x.v d n)))
  | addF g d a b : FloatOp (.faddF16x2 g d a b) g d [wrV 0 d, rdV 1 a, rdV 2 b] (lanes16 Fmt.f16 Fmt.f16.add a b)
  | subF g d a b : FloatOp (.fsubF16x2 g d a b) g d [wrV 0 d, rdV 1 a, rdV 2 b]
      (lanes16 Fmt.f16 (fun m p q => Fmt.f16.add m p q.flip) a b)
  | mulF g d a b : FloatOp (.fmulF16x2 g d a b) g d [wrV 0 d, rdV 1 a, rdV 2 b] (lanes16 Fmt.f16 Fmt.f16.mul a b)
  | fmaF g d a b : FloatOp (.ffmaF16x2 g d a b) g d [rdV 0 d, rdV 1 a, rdV 2 b] fun x n =>
      let e := fun j => Fmt.f16.fma (x.k.rm x.sp.hints) (Fmt.f16.decode (half (x.v a n) j)) (Fmt.f16.decode (half (x.v b n) j))
        (Fmt.f16.decode (half (x.v d n) j))
      res16 (e 0) (e 1)
  | minF g d a b : FloatOp (.fminF16x2 g d a b) g d [wrV 0 d, rdV 1 a, rdV 2 b] fun x n =>
      res16 (Fmt.f16.minmax true (half (x.v a n) 0) (half (x.v b n) 0)) (Fmt.f16.minmax true (half (x.v a n) 1) (half (x.v b n) 1))
  | maxF g d a b : FloatOp (.fmaxF16x2 g d a b) g d [wrV 0 d, rdV 1 a, rdV 2 b] fun x n =>
      res16 (Fmt.f16.minmax false (half (x.v a n) 0) (half (x.v b n) 0)) (Fmt.f16.minmax false (half (x.v a n) 1) (half (x.v b n) 1))
  | addB g d a b : FloatOp (.faddBf16x2 g d a b) g d [wrV 0 d, rdV 1 a, rdV 2 b] (lanes16 Fmt.bf16 Fmt.bf16.add a b)
  | subB g d a b : FloatOp (.fsubBf16x2 g d a b) g d [wrV 0 d, rdV 1 a, rdV 2 b]
      (lanes16 Fmt.bf16 (fun m p q => Fmt.bf16.add m p q.flip) a b)
  | mulB g d a b : FloatOp (.fmulBf16x2 g d a b) g d [wrV 0 d, rdV 1 a, rdV 2 b] (lanes16 Fmt.bf16 Fmt.bf16.mul a b)
  | fmaB g d a b : FloatOp (.ffmaBf16x2 g d a b) g d [rdV 0 d, rdV 1 a, rdV 2 b] fun x n =>
      let e := fun j => Fmt.bf16.fma (x.k.rm x.sp.hints) (Fmt.bf16.decode (half (x.v a n) j)) (Fmt.bf16.decode (half (x.v b n) j))
        (Fmt.bf16.decode (half (x.v d n) j))
      res16 (e 0) (e 1)
  | minB g d a b : FloatOp (.fminBf16x2 g d a b) g d [wrV 0 d, rdV 1 a, rdV 2 b] fun x n =>
      res16 (Fmt.bf16.minmax true (half (x.v a n) 0) (half (x.v b n) 0)) (Fmt.bf16.minmax true (half (x.v a n) 1) (half (x.v b n) 1))
  | maxB g d a b : FloatOp (.fmaxBf16x2 g d a b) g d [wrV 0 d, rdV 1 a, rdV 2 b] fun x n =>
      res16 (Fmt.bf16.minmax false (half (x.v a n) 0) (half (x.v b n) 0))
        (Fmt.bf16.minmax false (half (x.v a n) 1) (half (x.v b n) 1))
  | neg g d a t : FloatOp (.fneg g d a t) g d [wrV 0 d, rdV 1 a]
      (lanesOne (fun h _ e => { bits := e ^^^ h.signBit, flags := 0 }) t a)
  | abs g d a t : FloatOp (.fabs g d a t) g d [wrV 0 d, rdV 1 a]
      (lanesOne (fun h _ e => { bits := e % h.signBit, flags := 0 }) t a)
  | sqrt g d a t : FloatOp (.fsqrt g d a t) g d [wrV 0 d, rdV 1 a] (lanesOne (fun h m e => h.sqrt m (h.decode e)) t a)
  | rsq g d a t : FloatOp (.frsq g d a t) g d [wrV 0 d, rdV 1 a] (lanesOne (fun h m e => h.rsq m (h.decode e)) t a)
  | rcp g d a t : FloatOp (.frcp g d a t) g d [wrV 0 d, rdV 1 a] (lanesOne (fun h m e => h.rcp m (h.decode e)) t a)
  | exp2 g d a t : FloatOp (.fexp2 g d a t) g d [wrV 0 d, rdV 1 a] (lanesOne (fun h m e => h.exp2 m (h.decode e)) t a)
  | log2 g d a t : FloatOp (.flog2 g d a t) g d [wrV 0 d, rdV 1 a] (lanesOne (fun h m e => h.log2 m (h.decode e)) t a)
  | sinpi g d a t : FloatOp (.fsinpi g d a t) g d [wrV 0 d, rdV 1 a] (lanesOne (fun h m e => h.sinpi m (h.decode e)) t a)
  | cospi g d a t : FloatOp (.fcospi g d a t) g d [wrV 0 d, rdV 1 a] (lanesOne (fun h m e => h.cospi m (h.decode e)) t a)
  | rint g d a t : FloatOp (.frint g d a t) g d [wrV 0 d, rdV 1 a] (lanesOne (fun h m e => h.rint m (h.decode e)) t a)
  | class_ g d a t : FloatOp (.fclass g d a t) g d [wrV 0 d, rdV 1 a]
      (lanesOne (fun h _ e => { bits := h.classMask e, flags := 0 }) t a)
  | pkF g d a b : FloatOp (.pk16F16 g d a b) g d [wrV 0 d, rdV 1 a, rdV 2 b] fun x n =>
      res16 (Fmt.f16.convert (x.k.rm x.sp.hints) (bit (modBits x.sp.hints) 0) (f32Of (x.v a n)))
        (Fmt.f16.convert (x.k.rm x.sp.hints) (bit (modBits x.sp.hints) 0) (f32Of (x.v b n)))
  | pkB g d a b : FloatOp (.pk16Bf16 g d a b) g d [wrV 0 d, rdV 1 a, rdV 2 b] fun x n =>
      res16 (Fmt.bf16.convert (x.k.rm x.sp.hints) (bit (modBits x.sp.hints) 0) (f32Of (x.v a n)))
        (Fmt.bf16.convert (x.k.rm x.sp.hints) (bit (modBits x.sp.hints) 0) (f32Of (x.v b n)))
  | pk8e4 g d a e b : FloatOp (.pk8E4m3 g d a e b) g d [wrV 0 d, rdV 1 a, rdV 2 (baseReg b)] fun x n =>
      let r := Fmt.e4m3.convert (x.k.rm x.sp.hints) true (f32Of (x.v a n))
      { word := putElement (x.v (baseReg b) n) 8 e.toNat r.bits, flags := [(e.toNat, r.flags)] }
  | pk8e5 g d a e b : FloatOp (.pk8E5m2 g d a e b) g d [wrV 0 d, rdV 1 a, rdV 2 (baseReg b)] fun x n =>
      let r := Fmt.e5m2.convert (x.k.rm x.sp.hints) (bit (modBits x.sp.hints) 0) (f32Of (x.v a n))
      { word := putElement (x.v (baseReg b) n) 8 e.toNat r.bits, flags := [(e.toNat, r.flags)] }
  | pk4 g d a e b : FloatOp (.pk4E2m1 g d a e b) g d [wrV 0 d, rdV 1 a, rdV 2 (baseReg b)] fun x n =>
      let r := Fmt.e2m1.convert (x.k.rm x.sp.hints) true (f32Of (x.v a n))
      { word := putElement (x.v (baseReg b) n) 4 e.toNat r.bits, flags := [(e.toNat, r.flags)] }
  | srnd g d a e b : FloatOp (.srnd g d a e b) g d [wrV 0 d, rdV 1 a, rdV 2 (baseReg b)] fun x n =>
      res32 (srndValue (srndFmt e) (f32Of (x.v a n)) (x.s.generator x.k (x.k.widOf n) x.site 0 (x.v (baseReg b) n).toNat))
  | upF g d e b : FloatOp (.upk16F16 g d e b) g d [wrV 0 d, rdV 2 (baseReg b)] fun x n =>
      res32 (Fmt.f32.convert 0 false (Fmt.f16.decode (cut (x.v (baseReg b) n).toNat (16 * e.toNat) 16)))
  | upB g d e b : FloatOp (.upk16Bf16 g d e b) g d [wrV 0 d, rdV 2 (baseReg b)] fun x n =>
      res32 (Fmt.f32.convert 0 false (Fmt.bf16.decode (cut (x.v (baseReg b) n).toNat (16 * e.toNat) 16)))
  | up8e4 g d e b : FloatOp (.upk8E4m3 g d e b) g d [wrV 0 d, rdV 2 (baseReg b)] fun x n =>
      res32 (Fmt.f32.convert 0 false (Fmt.e4m3.decode (cut (x.v (baseReg b) n).toNat (8 * e.toNat) 8)))
  | up8e5 g d e b : FloatOp (.upk8E5m2 g d e b) g d [wrV 0 d, rdV 2 (baseReg b)] fun x n =>
      res32 (Fmt.f32.convert 0 false (Fmt.e5m2.decode (cut (x.v (baseReg b) n).toNat (8 * e.toNat) 8)))
  | up8i g d e b : FloatOp (.upk8I8 g d e b) g d [wrV 0 d, rdV 2 (baseReg b)] fun x n =>
      res32 (Fmt.f32.convert 0 false (ofInteger (signedOf 8 (cut (x.v (baseReg b) n).toNat (8 * e.toNat) 8))))
  | up4e g d e b : FloatOp (.upk4E2m1 g d e b) g d [wrV 0 d, rdV 2 (baseReg b)] fun x n =>
      res32 (Fmt.f32.convert 0 false (Fmt.e2m1.decode (cut (x.v (baseReg b) n).toNat (4 * e.toNat) 4)))
  | up4i g d e b : FloatOp (.upk4I4 g d e b) g d [wrV 0 d, rdV 2 (baseReg b)] fun x n =>
      res32 (Fmt.f32.convert 0 false (ofInteger (signedOf 4 (cut (x.v (baseReg b) n).toNat (4 * e.toNat) 4))))
  | scale g d a e b : FloatOp (.fscaleE3m5 g d a e b) g d [wrV 0 d, rdV 1 a, rdV 2 (baseReg b)] fun x n =>
      res32 (Fmt.f32.mul (x.k.rm x.sp.hints) (f32Of (x.v a n)) (Fmt.e3m5.decode (cut (x.v (baseReg b) n).toNat (8 * e.toNat) 8)))
  | fromS g d a : FloatOp (.cvtF32S32 g d a) g d [wrV 0 d, rdV 1 a] fun x n =>
      res32 (Fmt.f32.convert (x.k.rm x.sp.hints) false (ofInteger (x.v a n).toInt))
  | fromU g d a : FloatOp (.cvtF32U32 g d a) g d [wrV 0 d, rdV 1 a] fun x n =>
      res32 (Fmt.f32.convert (x.k.rm x.sp.hints) false (ofInteger (x.v a n).toNat))
  | toS g d a : FloatOp (.cvtS32F32 g d a) g d [wrV 0 d, rdV 1 a] fun x n =>
      res32 (cvtInt (-2 ^ 31) (2 ^ 31 - 1) (x.k.rm x.sp.hints) (x.v a n))
  | toU g d a : FloatOp (.cvtU32F32 g d a) g d [wrV 0 d, rdV 1 a] fun x n =>
      res32 (cvtInt 0 (2 ^ 32 - 1) (x.k.rm x.sp.hints) (x.v a n))
  | toS8 g d a : FloatOp (.cvtS8F32 g d a) g d [wrV 0 d, rdV 1 a] fun x n =>
      res32 (cvtInt (-128) 127 (x.k.rm x.sp.hints) (x.v a n))
  | toS4 g d a : FloatOp (.cvtS4F32 g d a) g d [wrV 0 d, rdV 1 a] fun x n =>
      res32 (cvtInt (-8) 7 (x.k.rm x.sp.hints) (x.v a n))
  | toScale g d a : FloatOp (.cvtE3m5F32 g d a) g d [wrV 0 d, rdV 1 a] fun x n =>
      res32 (Fmt.e3m5.convert (x.k.rm x.sp.hints) true (f32Of (x.v a n)))
  | fromScale g d a : FloatOp (.cvtF32E3m5 g d a) g d [wrV 0 d, rdV 1 a] fun x n =>
      res32 (Fmt.f32.convert 0 false (Fmt.e3m5.decode (cut (x.v a n).toNat 0 8)))

/-- The `n` elements of width `w` of a register's lane in a format. -/
def elementsOf (t : Fmt) (n w : Nat) (r : Word) : List Fp := (List.range n).map fun j => t.decode (cut r.toNat (w * j) w)

/-- The dot products: their sources' formats, elements and scales (R136). -/
inductive DotOp : Instr → PReg → VReg → List Operand → (Iss → Nat → LaneRes) → Prop
  | dot4 g d a b : DotOp (.dot4 g d a b) g d [rdV 0 d, rdV 1 a, rdV 2 b] fun x n =>
      res32 (dotValue (x.k.rm x.sp.hints) (.fin false 1 0) (.fin false 1 0) (elementsOf (fp8Of 0 x) 4 8 (x.v a n))
        (elementsOf (fp8Of 1 x) 4 8 (x.v b n)) (f32Of (x.v d n)))
  | dot4s g d a b : DotOp (.dot4s g d a b) g d [rdV 0 d 2, rdV 1 a, rdV 2 b] fun x n =>
      res32 (dotValue (x.k.rm x.sp.hints) (Fmt.e3m5.decode (cut (x.v (d + 1) n).toNat 0 8))
        (Fmt.e3m5.decode (cut (x.v (d + 1) n).toNat 8 8)) (elementsOf (fp8Of 0 x) 4 8 (x.v a n))
        (elementsOf (fp8Of 1 x) 4 8 (x.v b n)) (f32Of (x.v d n)))
  | dot8 g d a b : DotOp (.dot8 g d a b) g d [rdV 0 d, rdV 1 a, rdV 2 b] fun x n =>
      res32 (dotValue (x.k.rm x.sp.hints) (.fin false 1 0) (.fin false 1 0) (elementsOf Fmt.e2m1 8 4 (x.v a n))
        (elementsOf Fmt.e2m1 8 4 (x.v b n)) (f32Of (x.v d n)))
  | dot8s g d a b : DotOp (.dot8s g d a b) g d [rdV 0 d 2, rdV 1 a, rdV 2 b] fun x n =>
      res32 (dotValue (x.k.rm x.sp.hints) (Fmt.e3m5.decode (cut (x.v (d + 1) n).toNat 0 8))
        (Fmt.e3m5.decode (cut (x.v (d + 1) n).toNat 8 8)) (elementsOf Fmt.e2m1 8 4 (x.v a n))
        (elementsOf Fmt.e2m1 8 4 (x.v b n)) (f32Of (x.v d n)))

/-- The lanes' results of a floating instruction. -/
def resultsOf (x : Iss) (g : PReg) (f : Iss → Nat → LaneRes) : List (Nat × LaneRes) :=
  (lanesOf (x.k.active x.sp g)).map fun n => (n, f x n)

/-- The state after a floating instruction: its flags are ORed into `sr.fpstat` and its results written (R34). -/
def floatNext (x : Iss) (g : PReg) (d : VReg) (f : Iss → Nat → LaneRes) : State :=
  let rs := resultsOf x g f
  let r := writeV (x.k.orFlags (BitVec.ofNat 32 (raisedFlags (elements rs)))) x.sp d (x.k.active x.sp g) (resultAt rs)
  x.retire r.1 r.2

end Sys2Proof.Machine

section
open Sys2Proof Sys2Proof.Machine

/-- 01 R32–R34, 02 R65, R66: a floating instruction whose flags are not enabled ORs them into `sr.fpstat` and writes its results; one with an
enabled flag raised takes FPX with the record of R66 instead. -/
def Obligations.FloatResults : Prop :=
  ∀ i g d os f, FloatOp i g d os f ∨ DotOp i g d os f → ∀ (s : State) (x : Iss), s.Ready os x →
    (raisedFlags (elements (resultsOf x g f)) &&& x.k.te = 0 → exec i s = .next (floatNext x g d f)) ∧
    (raisedFlags (elements (resultsOf x g f)) &&& x.k.te ≠ 0 →
      exec i s = x.raise (x.k.active x.sp g) 0x0C (fpxWord x.k (elements (resultsOf x g f))))

/-- 05 R128, R139: the FP32 comparisons, whose only flag is NV, and the generator's raw words. -/
def Obligations.FloatComparisonAndGeneratorResults : Prop :=
  (∀ g p c a b (s : State) (x : Iss), c.toNat < 11 → s.Ready [rdV 1 a, rdV 2 b] x →
    let act := x.k.active x.sp g
    let r := fun n => fcond c.toNat (f32Of (x.v a n)) (f32Of (x.v b n))
    let nv := (lanesOf act).any fun n => (r n).2
    let k := x.k.orFlags (if nv then BitVec.ofNat 32 fNV else 0)
    let bits := maskWhere fun n => act.getLsbD n && (r n).1
    (nv = false ∨ x.k.te &&& fNV = 0) →
      exec (.fcmp g p c a b) s = .next (x.retire (k.setP p act bits) x.sp) ∧
      exec (.fcmpa g p c a b) s = .next (x.retire (k.setP p act (bits &&& k.p.get p.toNat)) x.sp)) ∧
  (∀ g d e b (s : State) (x : Iss), s.Ready [wrV 0 d, rdV 2 (baseReg b)] x →
    exec (.prng g d e b) s = .next (x.vecNext d (x.k.active x.sp g) fun n =>
      BitVec.ofNat 32 (x.s.generator x.k (x.k.widOf n) x.site e.toNat (x.v (baseReg b) n).toNat)))

end

namespace Sys2Proof.Machine

/-! ### Memory access (spec 06, 11) -/

/-- The memory instructions that issue as one access: guard, operands, the access, the requests of the active lanes, and whether the split
waits for it (R148–R150, R153, R154). A uniform access has one request, whatever its lanes. -/
inductive MemoryOp : Instr → PReg → List Operand → Acc → (Iss → Mask → List Req) → Bool → Prop
  | ldB32 g d a i : MemoryOp (.ldB32 g d a i) g [wrV 0 d, rdV 1 a 2]
      { cls := .ld, use := .load, size := 4, align := 4, kind := .load d.toNat 4 false }
      (fun x act => x.laneReqs act a (offI x.sp.hints i) (fun _ => 0) fun _ => 0) false
  | ldB8 g d a : MemoryOp (.ldB8 g d a) g [wrV 0 d, rdV 1 a 2]
      { cls := .ld, use := .load, size := 1, align := 1, kind := .load d.toNat 1 false }
      (fun x act => x.laneReqs act a (offF x.sp.hints) (fun _ => 0) fun _ => 0) false
  | ldS8 g d a : MemoryOp (.ldS8 g d a) g [wrV 0 d, rdV 1 a 2]
      { cls := .ld, use := .load, size := 1, align := 1, kind := .load d.toNat 1 true }
      (fun x act => x.laneReqs act a (offF x.sp.hints) (fun _ => 0) fun _ => 0) false
  | ldB16 g d a : MemoryOp (.ldB16 g d a) g [wrV 0 d, rdV 1 a 2]
      { cls := .ld, use := .load, size := 2, align := 2, kind := .load d.toNat 2 false }
      (fun x act => x.laneReqs act a (offF x.sp.hints) (fun _ => 0) fun _ => 0) false
  | ldS16 g d a : MemoryOp (.ldS16 g d a) g [wrV 0 d, rdV 1 a 2]
      { cls := .ld, use := .load, size := 2, align := 2, kind := .load d.toNat 2 true }
      (fun x act => x.laneReqs act a (offF x.sp.hints) (fun _ => 0) fun _ => 0) false
  | ldB64 g d a : MemoryOp (.ldB64 g d a) g [wrV 0 d 2, rdV 1 a 2]
      { cls := .ld, use := .load, size := 8, align := 8, kind := .load d.toNat 8 false }
      (fun x act => x.laneReqs act a (offF x.sp.hints) (fun _ => 0) fun _ => 0) false
  | ldB128 g d a : MemoryOp (.ldB128 g d a) g [wrV 0 d 4, rdV 1 a 2]
      { cls := .ld, use := .load, size := 16, align := 16, kind := .load d.toNat 16 false }
      (fun x act => x.laneReqs act a (offF x.sp.hints) (fun _ => 0) fun _ => 0) false
  | ldpB32 g d a : MemoryOp (.ldpB32 g d a) g [wrV 0 d, rdV 1 a 2]
      { cls := .ld, use := .load, size := 4, align := 4, kind := .poll d.toNat 4 }
      (fun x act => x.laneReqs act a (offF x.sp.hints) (fun _ => 0) (x.laneData d.toNat 1)) true
  | ldpB64 g d a : MemoryOp (.ldpB64 g d a) g [wrV 0 d 2, rdV 1 a 2]
      { cls := .ld, use := .load, size := 8, align := 8, kind := .poll d.toNat 8 }
      (fun x act => x.laneReqs act a (offF x.sp.hints) (fun _ => 0) (x.laneData d.toNat 2)) true
  | stB32 g d a i : MemoryOp (.stB32 g d a i) g [rdV 0 d, rdV 1 a 2]
      { cls := .st, use := .store, size := 4, align := 4, kind := .store 4 }
      (fun x act => x.laneReqs act a (offI x.sp.hints i) (x.laneData d.toNat 1) fun _ => 0) false
  | stB8 g d a : MemoryOp (.stB8 g d a) g [rdV 0 d, rdV 1 a 2]
      { cls := .st, use := .store, size := 1, align := 1, kind := .store 1 }
      (fun x act => x.laneReqs act a (offF x.sp.hints) (x.laneData d.toNat 1) fun _ => 0) false
  | stB16 g d a : MemoryOp (.stB16 g d a) g [rdV 0 d, rdV 1 a 2]
      { cls := .st, use := .store, size := 2, align := 2, kind := .store 2 }
      (fun x act => x.laneReqs act a (offF x.sp.hints) (x.laneData d.toNat 1) fun _ => 0) false
  | stB64 g d a : MemoryOp (.stB64 g d a) g [rdV 0 d 2, rdV 1 a 2]
      { cls := .st, use := .store, size := 8, align := 8, kind := .store 8 }
      (fun x act => x.laneReqs act a (offF x.sp.hints) (x.laneData d.toNat 2) fun _ => 0) false
  | stB128 g d a : MemoryOp (.stB128 g d a) g [rdV 0 d 4, rdV 1 a 2]
      { cls := .st, use := .store, size := 16, align := 16, kind := .store 16 }
      (fun x act => x.laneReqs act a (offF x.sp.hints) (x.laneData d.toNat 4) fun _ => 0) false
  | lduB32 d a i : MemoryOp (.lduB32 d a i) 7 [wrG 0 d, rdG 1 a 2]
      { cls := .ld, use := .load, size := 4, align := 4, kind := .loadU d.toNat 4 }
      (fun x _ => [{ lane := 0, va := x.k.readG64 a.toNat + offI x.sp.hints i }]) false
  | lduB64 d a : MemoryOp (.lduB64 d a) 7 [wrG 0 d 2, rdG 1 a 2]
      { cls := .ld, use := .load, size := 8, align := 8, kind := .loadU d.toNat 8 }
      (fun x _ => [{ lane := 0, va := x.k.readG64 a.toNat + offF x.sp.hints }]) false
  | stuB32 d a i : MemoryOp (.stuB32 d a i) 7 [rdG 0 d, rdG 1 a 2]
      { cls := .st, use := .store, size := 4, align := 4, kind := .store 4 }
      (fun x _ => [{ lane := 0, va := x.k.readG64 a.toNat + offI x.sp.hints i, data := (x.k.readG64 d.toNat).toNat }]) false
  | stuB64 d a : MemoryOp (.stuB64 d a) 7 [rdG 0 d 2, rdG 1 a 2]
      { cls := .st, use := .store, size := 8, align := 8, kind := .store 8 }
      (fun x _ => [{ lane := 0, va := x.k.readG64 a.toNat + offF x.sp.hints, data := (x.k.readG64 d.toNat).toNat }]) false
  | gather g d a b : MemoryOp (.gatherB32 g d a b) g [wrV 0 d, rdG 1 a 2, rdV 2 b]
      { cls := .ld, path := .gather, use := .load, size := 4, align := 4, kind := .load d.toNat 4 false }
      (fun x act => (lanesOf act).map fun n => { lane := n, va := x.k.readG64 a.toNat + (x.v b n).setWidth 64 * 4 }) false
  | scatter g d a b : MemoryOp (.scatterB32 g d a b) g [rdV 0 d, rdG 1 a 2, rdV 2 b]
      { cls := .st, path := .gather, use := .store, size := 4, align := 4, kind := .store 4 }
      (fun x act => (lanesOf act).map fun n =>
        { lane := n, va := x.k.readG64 a.toNat + (x.v b n).setWidth 64 * 4, data := (x.v d n).toNat }) false

/-- The atomics: FN, guard, operand register, address pair and the `nr` bit (R150). -/
inductive AtomicOp : Instr → Nat → PReg → VReg → VReg → BitVec 1 → Prop
  | add g d a n : AtomicOp (.atomAddI32 g d a n) 0 g d a n
  | and g d a n : AtomicOp (.atomAndB32 g d a n) 1 g d a n
  | or g d a n : AtomicOp (.atomOrB32 g d a n) 2 g d a n
  | xor g d a n : AtomicOp (.atomXorB32 g d a n) 3 g d a n
  | min g d a n : AtomicOp (.atomMinI32 g d a n) 4 g d a n
  | max g d a n : AtomicOp (.atomMaxI32 g d a n) 5 g d a n
  | minu g d a n : AtomicOp (.atomMinuI32 g d a n) 6 g d a n
  | maxu g d a n : AtomicOp (.atomMaxuI32 g d a n) 7 g d a n
  | xchg g d a n : AtomicOp (.atomXchgB32 g d a n) 8 g d a n
  | cas g d a n : AtomicOp (.atomCasB32 g d a n) 9 g d a n
  | addF g d a n : AtomicOp (.atomAddF32 g d a n) 10 g d a n
  | add64 g d a n : AtomicOp (.atomAddI64 g d a n) 11 g d a n
  | cas64 g d a n : AtomicOp (.atomCasB64 g d a n) 12 g d a n

/-- The access of an atomic: `nr` counts in STC and writes no register (R141, R150). -/
def atomicAcc (fn : Nat) (d : VReg) (nr : BitVec 1) : Acc :=
  { cls := if nr = 1 then .st else .ld, use := .atomic, size := if fn = 11 ∨ fn = 12 then 8 else 4
    align := if fn = 11 ∨ fn = 12 then 8 else 4, kind := .atomic fn (if nr = 1 then none else some d.toNat) }

/-- The requests of an atomic: the address pair without an offset, the operand, and the new value of a `cas` (R150). -/
def atomicReqs (fn : Nat) (d a : VReg) (x : Iss) (act : Mask) : List Req :=
  let w := if fn = 11 ∨ fn = 12 then 2 else 1
  x.laneReqs act a 0 (x.laneData d.toNat w) (if fn = 9 ∨ fn = 12 then x.laneData (d.toNat + w) w else fun _ => 0)

/-- The registers an atomic reads from D (R150). -/
def atomicRegs (fn : Nat) : Nat := if fn = 12 then 4 else if fn = 9 ∨ fn = 11 then 2 else 1

/-- The requests of an access all pass their checks, and nothing ahead of it makes it wait (04 R116, 06 R144, R147, R162). -/
def accessReady (x : Iss) (a : Acc) (reqs : List Req) : Prop :=
  let t := x.s.checkAll x.f.core x.k.ctx a.path a.size a.align a.use reqs
  reqs ≠ [] ∧ x.mustWait a = false ∧ failures t.2 = [] ∧
    ((x.pend a (laneAccs t.2)).sc = false ∨ x.unperformed = false)

/-- An instruction that writes has issued: its group is committed (15 R334). -/
def Iss.issuedAs (x : Iss) (a : Acc) : Iss := if a.use.writes then x.commit else x

/-- The state after an access has issued: one more operation is outstanding. -/
def accessNext (x : Iss) (a : Acc) (reqs : List Req) (hold : Bool) : State :=
  let t := x.s.checkAll x.f.core x.k.ctx a.path a.size a.align a.use reqs
  (({ x with s := t.1 } : Iss).issuedAs a).retire (x.k.addOp (x.pend a (laneAccs t.2)))
    (if hold then { x.sp with await := some x.k.nextOp } else x.sp)

/-- The state after an access without an active lane has issued: its operation is done at once, and counted in its turn (04 R116, 06 R141). -/
def idleNext (x : Iss) (a : Acc) : State := (x.issuedAs a).retire (x.k.addIdle (x.pend a [])) x.sp

/-- What a failed access raises: its own code with the cause word of R145, or, where the byte stands in a DRAM channel that is lost, ECC at its
granule with WHERE 3 and the ERRSEQ of the record then reported (20 R421, R424). -/
def raisedFor (y : Iss) (act : Mask) (e : XErr) (word : BitVec 128) (out : Out) : Prop :=
  ((∀ pa, e ≠ .ecc pa) → out = y.raiseRec (y.trap act e.code word.toNat false e.walk)) ∧
  ∀ pa, e = .ecc pa → ∃ u seq, y.s.reportError (dramError pa y.f.core y.f.slot) (some y.sp.id) = (u, seq) ∧
    out = ({ y with s := u } : Iss).raiseRec (y.trap act 0x0D (eccWord (pa / 64 * 64) 3 seq))

/-- Where a lane's check of an access fails, the lowest failing lane's first failing check is raised with the number of other failing lanes;
nothing is accessed, and what the walks did stays (R144, R145, 16 R349). -/
def trapsFor (i : Instr) (g : PReg) (a : Acc) (reqs : Iss → Mask → List Req) (s : State) (x : Iss) : Prop :=
  let act := x.k.active x.sp g
  let t := x.s.checkAll x.f.core x.k.ctx a.path a.size a.align a.use (reqs x act)
  reqs x act ≠ [] → x.mustWait a = false → ∀ r e rest, failures t.2 = (r, e) :: rest →
    raisedFor { x with s := t.1 } act e (memWord r.va r.lane 0 a.path a.use.writes false rest.length) (exec i s)

/-- The deterministic atomics: FN, guard, operand register and address pair (R157). -/
inductive DetAtomicOp : Instr → Nat → PReg → VReg → VReg → Prop
  | faddF32 g d a : DetAtomicOp (.adetFaddF32 g d a) 0 g d a
  | faddF16 g d a : DetAtomicOp (.adetFaddF16 g d a) 1 g d a
  | faddBf16 g d a : DetAtomicOp (.adetFaddBf16 g d a) 2 g d a
  | addI32 g d a : DetAtomicOp (.adetAddI32 g d a) 3 g d a
  | addI64 g d a : DetAtomicOp (.adetAddI64 g d a) 4 g d a
  | minI32 g d a : DetAtomicOp (.adetMinI32 g d a) 5 g d a
  | maxI32 g d a : DetAtomicOp (.adetMaxI32 g d a) 6 g d a
  | minuB64 g d a : DetAtomicOp (.adetMinuB64 g d a) 7 g d a
  | maxuB64 g d a : DetAtomicOp (.adetMaxuB64 g d a) 8 g d a
  | xchg g d a : DetAtomicOp (.adetXchgB32 g d a) 16 g d a
  | cas g d a : DetAtomicOp (.adetCasB32 g d a) 17 g d a
  | app g d a : DetAtomicOp (.adetAppB32 g d a) 18 g d a

/-- The access of a deterministic atomic (R157, R160). -/
def detAcc (fn : Nat) : Acc :=
  { cls := .st, use := if fn = 17 ∨ fn = 18 then .atomic else .store, size := adetSize fn, align := adetSize fn, kind := .adet }

/-- An accumulator but for the set and way that it holds in the L2 (10 R263). -/
def placeless (a : Accum) : Accum := { a with set := 0, way := 0 }

/-- Its requests (R157): `cas` takes the compare value from the first register and the new one from the second. -/
def detReqs (fn : Nat) (d a : VReg) (x : Iss) (act : Mask) : List Req :=
  x.laneReqs act a 0
    (fun n => if fn = 17 then x.laneData (d.toNat + 1) 1 n else x.laneData d.toNat (adetRegs fn) n % 2 ^ (8 * adetSize fn))
    (if fn = 17 then x.laneData d.toNat 1 else fun _ => 0)

/-- The value that a load's lane finds: on the lane path one of those 11 R285 allows it, in the scratchpad the bytes there, and on another path
the present ones of device memory (R146, R164, 11 R285). -/
def loadedFor (s : State) (core : Nat) (k : Pack) (o : PendOp) (age : Nat) (l : LaneAcc) : Nat :=
  match o.kind with
  | .loadS _ => (s.core core).sram.readLE l.pa 4
  | .load _ n _ => if o.path = .lane then (s.laneRead (k.seenBy o) age l.pa n).1 else s.physRead l.pa n
  | .loadU _ n => if o.path = .lane then (s.laneRead (k.seenBy o) age l.pa n).1 else s.physRead l.pa n
  | .poll _ n => if o.path = .lane then (s.laneRead (k.seenBy o) age l.pa n).1 else s.physRead l.pa n
  | _ => 0

/-- The words of registers `d` up, in lane `i`, after a load of `n` bytes with value `v`: a short one extends to a word (R148). -/
def loadedWords (k k' : Pack) (d i n v : Nat) (sext : Bool) : Prop :=
  (∀ j, j < (n + 3) / 4 → k'.v.get (32 * (d + j) + i) =
    if sext = true ∧ n < 4 then (BitVec.ofNat (8 * n) v).signExtend 32 else BitVec.ofNat 32 (v / 2 ^ (32 * j))) ∧
  ∀ key, (∀ j, j < (n + 3) / 4 → key ≠ 32 * (d + j) + i) → k'.v.get key = k.v.get key

/-- The split `i`, and no other, awaits the operation (R152, R153). -/
def awaitedBy (k : Pack) (o : PendOp) (i : Nat) (sp : Split) : Prop :=
  k.split i = some sp ∧ sp.id = i ∧ sp.await = some o.id ∧ ∀ e ∈ k.splits, e.2.await = some o.id → e = (i, sp)

/-- No split-table entry has to be won by a spill for this operation (09 R243). -/
def spillsNothing (s : State) (core slot : Nat) (k : Pack) (o : PendOp) : Prop :=
  ∀ e ∈ k.splits, e.2.await = some o.id → e.2.id = e.1 ∧ 1 ≤ (s.core core).reachable slot k.entries

/-- What becomes of the split `i` when the `cas` or `ldp` it awaits is done for the lanes `act` (R152, R153, 09 R240): with no failing lane it is
not demoted; where all its active lanes fail, or no entry can be had, it is demoted whole and goes to the end of the list, and after an `ldp` on a
deterministic core its turn ends (09 R252); else the failing lanes become a demoted split of their own at the same address, and the rest is not
demoted. -/
def votedFor (s t : State) (core slot i : Nat) (k : Pack) (sp : Split) (act fail : Mask) (polls : Bool) : Prop :=
  let lose := fail &&& k.live sp
  let keep := act &&& k.live sp &&& ~~~lose
  let k₀ := k.setSplit { sp with await := none }
  let room := 1 ≤ (s.core core).reachable slot k₀.entries
  ∃ k' sp', t.pack core slot = some k' ∧ k'.split i = some sp' ∧ sp'.pc = sp.pc ∧ sp'.await = none ∧
    (lose = 0 → sp'.mask = sp.mask ∧ sp'.demoted = false) ∧
    (lose ≠ 0 → keep = 0 ∨ (¬room ∧ s.freeRecords k₀ = []) → sp'.mask = sp.mask ∧ sp'.demoted = true ∧
      k'.order = k.order.filter (· != i) ++ [i] ∧
      (keep = 0 → polls = true → s.detCore core = true → sp.status = .ready → sp'.stall = some .yielded)) ∧
    (lose ≠ 0 → keep ≠ 0 → room → k.split k.freshId = none → sp'.mask = sp.mask &&& ~~~lose ∧ sp'.demoted = false ∧
      ∃ c, k'.split k.freshId = some c ∧ c.mask = lose ∧ c.demoted = true ∧ c.pc = sp.pc ∧ c.await = none ∧ c.parent = sp.parent ∧
        c.reconv = sp.reconv ∧ c.spill = none)

/-- An event performs an operation whole: every lane of it, each once. -/
def wholeAtOnce (o : PendOp) (lanes : Mask) : Prop :=
  (∀ l ∈ o.lanes, l.done = false ∧ lanes.getLsbD l.lane = true) ∧ (o.lanes.map (·.lane)).Nodup

/-- The compress-stores and the bytes of an element (R155). -/
inductive CompressStore : Instr → Nat → PReg → GReg → VReg → Prop
  | b32 g d a : CompressStore (.cstoreB32 g d a) 4 g d a
  | b64 g d a : CompressStore (.cstoreB64 g d a) 8 g d a

/-- The elements of a compress-store: the active lanes in ascending order at consecutive addresses (R155). -/
def storeElements (size : Nat) (d : GReg) (a : VReg) (x : Iss) (act : Mask) : List Req :=
  (lanesOf act).zipIdx.map fun p =>
    { lane := p.1, va := x.k.readG64 d.toNat + BitVec.ofNat 64 (p.2 * size), data := x.laneData a.toNat (size / 4) p.1 }

/-- The access of a compress-store (R155). -/
def elementAcc (size : Nat) : Acc := { cls := .st, use := .store, size := size, align := size, kind := .store size }

/-- What an atomic leaves where `m` stood (R150). -/
def atomicLeaves (fn m b n : Nat) : Nat :=
  match fn with
  | 0 => (m + b) % 2 ^ 32
  | 1 => m &&& b
  | 2 => m ||| b
  | 3 => m ^^^ b
  | 4 => if (BitVec.ofNat 32 b).slt (BitVec.ofNat 32 m) then b else m
  | 5 => if (BitVec.ofNat 32 m).slt (BitVec.ofNat 32 b) then b else m
  | 6 => if b < m then b else m
  | 7 => if m < b then b else m
  | 8 => b
  | 9 => if m = b then n else m
  | 10 => (Fmt.f32.add 0 (Fmt.f32.decode m) (Fmt.f32.decode b)).bits
  | 11 => (m + b) % 2 ^ 64
  | _ => if m = b then n else m

/-- Atomics on `w` bytes at the lanes of a list, each after the one before: memory afterwards, and what each lane found (R151). -/
def atomicRun (fn w : Nat) : Bytes → List LaneAcc → Bytes × List (LaneAcc × Nat)
  | m, [] => (m, [])
  | m, l :: r =>
    let t := atomicRun fn w (m.writeLE l.pa w (atomicLeaves fn (m.readLE l.pa w) l.data l.aux)) r
    (t.1, (l, m.readLE l.pa w) :: t.2)

/-- A split stopped at the barrier goes on where it stands. -/
def leftBarrier (t : State) (core slot i : Nat) (old : Split) : Prop :=
  ∃ k sp, t.pack core slot = some k ∧ k.split i = some sp ∧ sp.pc = old.pc ∧ sp.mask = old.mask ∧
    sp.status = if old.pc = old.reconv ∧ old.reconv ≠ 0xFFFFFFFF then .stoppedReconv else .ready

/-- What the flush leaves in a group's packs (R161 step 3): no entry, the flags of the roundings in those whose `aflush` asked for them, and every
split that stood at the barrier on its way. -/
def flushed (t : State) (gr : Group) (p : Nat × Nat × Pack) : Prop :=
  ∃ k, t.pack p.1 p.2.1 = some k ∧ k.det = [] ∧ k.wantFlags = false ∧
    k.fpstat = (if p.2.2.wantFlags then
        p.2.2.fpstat ||| (BitVec.ofNat 32 (gr.accs.foldl (fun f a => f ||| a.result.flags) 0) &&& 0x1F) else p.2.2.fpstat) ∧
    ∀ i sp, p.2.2.split i = some sp → sp.status = .barrier → leftBarrier t p.1 p.2.1 i sp

end Sys2Proof.Machine

section
open Sys2Proof Sys2Proof.Machine

/-- R141, R143, R146, R148–R150, R153, R154: a memory instruction whose requests pass leaves one outstanding operation and goes on; with no
active lane its operation is done at once and counted like any; one that writes has committed its group either way (15 R334). -/
def Obligations.MemoryAccessesIssue : Prop :=
  (∀ i g os a reqs hold, MemoryOp i g os a reqs hold → ∀ (s : State) (x : Iss), s.Ready os x →
    (reqs x (x.k.active x.sp g) = [] → x.mustWait a = false → exec i s = .next (idleNext x a)) ∧
    (accessReady x a (reqs x (x.k.active x.sp g)) → exec i s = .next (accessNext x a (reqs x (x.k.active x.sp g)) hold))) ∧
  (∀ i fn g d a n, AtomicOp i fn g d a n → ∀ (s : State) (x : Iss), s.Ready [rdV 0 d (atomicRegs fn), rdV 1 a 2] x →
    (atomicReqs fn d a x (x.k.active x.sp g) = [] → x.mustWait (atomicAcc fn d n) = false →
      exec i s = .next (idleNext x (atomicAcc fn d n))) ∧
    (accessReady x (atomicAcc fn d n) (atomicReqs fn d a x (x.k.active x.sp g)) →
      exec i s = .next (accessNext x (atomicAcc fn d n) (atomicReqs fn d a x (x.k.active x.sp g)) (decide (fn = 9 ∨ fn = 12)))))

/-- R144, R145, R150, R157: every memory instruction, atomic and deterministic atomic traps so. R156: a compress-store whose element at place `n`
is the first to fail leaves its earlier elements, if there are any, as an outstanding store, moves the address past them, clears their guard bits
and raises the trap with ELEM n, and with PARTIAL only where an element was stored. -/
def Obligations.FailingAccessTraps : Prop :=
  (∀ i g os a reqs hold, MemoryOp i g os a reqs hold → ∀ (s : State) (x : Iss), s.Ready os x → trapsFor i g a reqs s x) ∧
  (∀ i fn g d a n, AtomicOp i fn g d a n → ∀ (s : State) (x : Iss), s.Ready [rdV 0 d (atomicRegs fn), rdV 1 a 2] x →
    trapsFor i g (atomicAcc fn d n) (atomicReqs fn d a) s x) ∧
  (∀ i fn g d a, DetAtomicOp i fn g d a → ∀ (s : State) (x : Iss), s.Ready [rdV 0 d (adetRegs fn), rdV 1 a 2] x →
    trapsFor i g (detAcc fn) (detReqs fn d a) s x) ∧
  (∀ i size g d a, CompressStore i size g d a → ∀ (s : State) (x : Iss), s.Ready [rdG 0 d 2, rdV 1 a (size / 4)] x →
    let act := x.k.active x.sp g
    let reqs := storeElements size d a x act
    let t := x.s.checkAll x.f.core x.k.ctx .lane size size .store reqs
    x.mustWait (elementAcc size) = false → x.unperformed = false →
    ∀ n r e rest, (∀ j, j < n → ∃ q u, t.2[j]? = some (q, .ok u)) → t.2[n]? = some (r, .error e) →
      failures t.2 = (r, e) :: rest →
      ∃ y : Iss, raisedFor y act e (memWord r.va r.lane n .lane true (decide (0 < n)) rest.length) (exec i s) ∧
        y.f = x.f ∧ y.sp = x.sp ∧ y.live = x.live ∧ y.k.readG64 d.toNat = x.k.readG64 d.toNat + BitVec.ofNat 64 (n * size) ∧
        (g = 7 → y.k.p = x.k.p) ∧
        (g ≠ 7 → ∀ l, (y.k.pred g).getLsbD l = ((x.k.pred g).getLsbD l && !((reqs.take n).map (·.lane)).contains l)) ∧
        (n = 0 → y.k.ops = x.k.ops) ∧ (0 < n → ∃ o, y.k.ops = x.k.ops ++ [o] ∧ o.cls = .st ∧ o.kind = .store size ∧ o.done = false ∧
          o.lanes.map (·.lane) = (reqs.take n).map (·.lane)))

/-- R146, 04 R116: what an issued access leaves: every register as before, and one operation more, with its requests' lanes. -/
def Obligations.IssuedAccessLeavesOneOperation : Prop :=
  ∀ (s : State) (x : Iss) a reqs hold, s.issuer = some x → x.sp.id = x.f.split → accessReady x a reqs →
    ∃ k sp o, x.now (accessNext x a reqs hold) = some (k, sp) ∧ k.ops = x.k.ops ++ [o] ∧ o.id = x.k.nextOp ∧ o.cls = a.cls ∧
      o.kind = a.kind ∧ o.path = a.path ∧ o.done = false ∧ o.lanes.map (·.lane) = reqs.map (·.lane) ∧
      o.lanes.map (·.data) = reqs.map (·.data) ∧ k.v = x.k.v ∧ k.g = x.k.g ∧ k.p = x.k.p ∧ sp.pc = x.f.next

/-- R157–R160: a commutative contribution is accepted at its group's accumulators and an order-sensitive one at its core's buffer of the
pack; either leaves one operation counted by STC. -/
def Obligations.DeterministicAtomicsIssue : Prop :=
  ∀ i fn g d a, DetAtomicOp i fn g d a → ∀ (s : State) (x : Iss), s.Ready [rdV 0 d (adetRegs fn), rdV 1 a 2] x →
    let act := x.k.active x.sp g
    let reqs := detReqs fn d a x act
    let t := x.s.checkAll x.f.core x.k.ctx .lane (adetSize fn) (adetSize fn) (detAcc fn).use reqs
    let ls := laneAccs t.2
    let accs := (x.s.group x.k.tag x.k.group).elim [] (·.accs)
    let op := x.pend (detAcc fn) ls
    (reqs = [] → x.mustWait (detAcc fn) = false → exec i s = .next (idleNext x (detAcc fn))) ∧
    (accessReady x (detAcc fn) reqs → fn < 9 → (∀ l ∈ ls, ∀ b ∈ accs, b.clash fn l.pa = false) →
      accs.length + newDests accs (ls.map (·.pa)) ≤ 4096 →
      ∃ u, exec i s = .next (({ x with s := u } : Iss).commit.retire (x.k.addOp op) x.sp) ∧ u.mem = t.1.mem ∧
        (∀ c n, u.pack c n = t.1.pack c n) ∧
        ∀ gr, t.1.group x.k.tag x.k.group = some gr → ∃ gr', u.group x.k.tag x.k.group = some gr' ∧
          gr'.accs.map placeless = ((ls.zip (reqs.map (·.va))).foldl (fun r p => contribute r fn p.1 p.2 (0, 0)) gr.accs).map placeless) ∧
    (accessReady x (detAcc fn) reqs → 9 ≤ fn → x.k.det.length + ls.length ≤ 64 →
      exec i s = .next (({ x with s := t.1 } : Iss).commit.retire
        (((ls.zip (reqs.map (·.va))).foldl (fun k p => k.addEntry fn p.1 p.2) x.k).addOp op) x.sp))

/-- R162, R163, R169: a fence makes what it covers gate the split's later accesses; a cross-path fence at cluster scope or wider makes the pack's
writes on its path lane-visible; a broadcast store whose window address passes is counted and left for emission, and one without an active lane is
counted and done. R155: a compress-store whose elements all pass stores its active lanes in ascending order at consecutive addresses and moves the
address past them. Holding a fenced split at its next access, and not at the fence, is the model's choice (log entry 17). -/
def Obligations.FencesAndOtherStoresIssue : Prop :=
  (∀ (s : State) (x : Iss),
     (s.Ready [] x → ∀ k sc,
       (k = 2 → exec (.fence k sc) s =
         .next (x.retire x.k { x.sp with gateSt := x.sp.gateSt ++ (x.covered 2).filter fun o => !x.sp.gateSt.contains o })) ∧
       (k ≠ 2 → exec (.fence k sc) s =
         .next (x.retire x.k { x.sp with gateAll := x.sp.gateAll ++ (x.covered k.toNat).filter fun o => !x.sp.gateAll.contains o }))) ∧
     (s.Ready [] x → ∀ t f sc, x.pathBusy (pathOf f.toNat) = false →
       exec (.xfence t f sc) s =
         .next (({ x with s := if sc.toNat < 2 then x.s else x.s.showPath (pathOf f.toNat) x.k } : Iss).retire x.k x.sp)) ∧
     (s.Ready [] x → ∀ t f sc, x.pathBusy (pathOf f.toNat) = true → exec (.xfence t f sc) s = .next x.s) ∧
     (∀ g d a i, s.Ready [rdV 0 d, rdG 1 a 2] x → x.k.active x.sp g = 0 → x.k.full .st = false → x.k.scBusy = false →
       exec (.bst g d a i) s = .next (x.commit.retire
         (x.k.addIdle (x.engineOp .st .broadcast (.bst 0 (x.k.readG64 a.toNat + offI x.sp.hints i) 0 []))) x.sp)) ∧
     (∀ g d a i t, s.Ready [rdV 0 d, rdG 1 a 2] x → x.k.active x.sp g ≠ 0 → x.k.full .st = false → x.k.scBusy = false →
       x.s.access x.f.core false x.k.ctx .broadcast (x.k.readG64 a.toNat + offI x.sp.hints i) 128 128 .store = .ok t →
       exec (.bst g d a i) s =
         .next (({ x with s := t.s } : Iss).commit.retire
           (x.k.addOp (x.engineOp .st .broadcast
             (.bst (cut t.pa 7 8) (x.k.readG64 a.toNat + offI x.sp.hints i) (x.k.active x.sp g)
               (wordsOf (x.k.active x.sp g) fun n => x.v d n)))) x.sp))) ∧
  (∀ i size g d a, CompressStore i size g d a → ∀ (s : State) (x : Iss), s.Ready [rdG 0 d 2, rdV 1 a (size / 4)] x →
     let acc := elementAcc size
     let reqs := storeElements size d a x (x.k.active x.sp g)
     let t := x.s.checkAll x.f.core x.k.ctx .lane size size .store reqs
     (reqs = [] → x.mustWait acc = false → exec i s = .next (idleNext x acc)) ∧
     (accessReady x acc reqs →
       exec i s = .next (({ x with s := t.1 } : Iss).commit.retire
         ((x.k.addOp (x.pend acc (laneAccs t.2))).setG64 d.toNat (x.k.readG64 d.toNat + BitVec.ofNat 64 (reqs.length * size))) x.sp)))

/-- R146, R148, R149, R152, R153, R154, R164: a load completes for lanes that may be performed; memory is unchanged, and what is loaded for one
lane is the value its path finds there, in the registers of that lane; a uniform load writes its uniform register; an exited lane writes nothing.
A polling load fails in the lanes whose value is the one their destination held, and its split then divides or is demoted. Holding accesses to the
same scratchpad bytes on a deterministic core in issue order is the model's choice (log entry 91). -/
def Obligations.LoadsComplete : Prop :=
  ∀ core slot op lanes age s (k : Pack) (o : PendOp), State.pack s core slot = some k → k.ops.find? (fun p => p.id == op) = some o →
    o.kind.loads = true → k.mayPerform o lanes = true → s.detHeld core o = false →
    ∃ t, exec (.loadCompletion core slot op lanes age) s = .next t ∧
      (spillsNothing s core slot k o → t.mem = s.mem) ∧
      (∀ l, o.picked lanes = [l] → ∃ k', t.pack core slot = some k' ∧
        let v := loadedFor s core k o age l
        (∀ d n sx, o.kind = .load d n sx ∧ (sx = true → n < 4) ∨ (o.kind = .poll d n ∧ sx = false) ∨ (o.kind = .loadS d ∧ n = 4 ∧ sx = false) →
          (k.exited.getLsbD l.lane = false → loadedWords k k' d l.lane n v sx) ∧ (k.exited.getLsbD l.lane = true → k'.v = k.v)) ∧
        (∀ d, (o.kind = .loadU d 4 → k'.readG d = BitVec.ofNat 32 v) ∧ (o.kind = .loadU d 8 → k'.readG64 d = BitVec.ofNat 64 v))) ∧
      (∀ d n i sp, o.kind = .poll d n → age = 0 → wholeAtOnce o lanes → awaitedBy k o i sp →
        votedFor s t core slot i k sp (maskOf (o.lanes.map (·.lane)))
          (maskOf ((o.lanes.filter fun l => loadedFor s core k o 0 l == l.aux).map (·.lane))) true)

/-- R146, R148, R149, R154, R155, R164: a store completes for a lane, on whatever path: its bytes hold the low bytes of its data, and every other
byte of memory holds what it held; a scratchpad store writes its word there and no memory, and a deterministic atomic's completion neither. Holding
accesses to the same scratchpad bytes on a deterministic core in issue order is the model's choice (log entry 91). -/
def Obligations.StoresComplete : Prop :=
  ∀ core slot op lanes s (k : Pack) (o : PendOp), State.pack s core slot = some k → k.ops.find? (fun p => p.id == op) = some o →
    (∃ n, o.kind = .store n) ∨ o.kind = .storeS ∨ o.kind = .adet → k.mayPerform o lanes = true → s.detHeld core o = false →
    ∃ t, exec (.storeCompletion core slot op lanes) s = .next t ∧
      (∀ n l, o.kind = .store n → o.picked lanes = [l] → bit l.attr 1 = false →
        t.mem.readLE l.pa n = l.data % 256 ^ n ∧ sameOutside s t l.pa n) ∧
      (∀ l, o.kind = .storeS → o.picked lanes = [l] → t.mem = s.mem ∧ (t.core core).sram.readLE l.pa 4 = l.data % 2 ^ 32 ∧
        ∀ a, a < l.pa ∨ l.pa + 4 ≤ a → (t.core core).sram.get a = (s.core core).sram.get a) ∧
      (o.kind = .adet → t.mem = s.mem ∧ (t.core core).sram = (s.core core).sram)

/-- R150–R152: an atomic completes for a lane: its bytes hold the new value and its register, if it names one, the value that stood there. Performed
whole, its lanes follow each other in the order in which it holds them, which is ascending (`IssuedAccessLeavesOneOperation`), and a `cas` fails in
the lanes that did not find their compare value, with its split then divided or demoted. -/
def Obligations.AtomicsComplete : Prop :=
  ∀ core slot op lanes s (k : Pack) (o : PendOp) fn dst, State.pack s core slot = some k →
    k.ops.find? (fun p => p.id == op) = some o → o.kind = .atomic fn dst → k.mayPerform o lanes = true →
    ∃ t, exec (.atomicCompletion core slot op lanes) s = .next t ∧
      (∀ l, fn < 13 → o.picked lanes = [l] → bit l.attr 1 = false →
        let w := if fn = 11 ∨ fn = 12 then 8 else 4
        l.data < 256 ^ w → l.aux < 256 ^ w →
        (spillsNothing s core slot k o →
          t.mem.readLE l.pa w = atomicLeaves fn (s.mem.readLE l.pa w) l.data l.aux % 256 ^ w ∧ sameOutside s t l.pa w) ∧
        ∀ d, dst = some d → k.exited.getLsbD l.lane = false →
          ∃ k', t.pack core slot = some k' ∧ loadedWords k k' d l.lane w (s.mem.readLE l.pa w) false) ∧
      (fn < 13 → wholeAtOnce o lanes →
        let w := if fn = 11 ∨ fn = 12 then 8 else 4
        (∀ l ∈ o.lanes, bit l.attr 1 = false ∧ l.data < 256 ^ w ∧ l.aux < 256 ^ w) →
        let run := atomicRun fn w s.mem o.lanes
        (spillsNothing s core slot k o → t.mem = run.1) ∧
        (∀ d, dst = some d → ∃ k', t.pack core slot = some k' ∧ ∀ e ∈ run.2, k.exited.getLsbD e.1.lane = false →
          ∀ j, j < w / 4 → k'.v.get (32 * (d + j) + e.1.lane) = BitVec.ofNat 32 (e.2 / 2 ^ (32 * j))) ∧
        ∀ i sp, awaitedBy k o i sp →
          votedFor s t core slot i k sp (maskOf (o.lanes.map (·.lane)))
            (maskOf ((run.2.filter fun e => (fn == 9 || fn == 12) && e.2 != e.1.data).map (·.1.lane))) false)

/-- R161, R210, 11 R288: `aflush` stops its split at the group's flush, and the flush, once every lane has arrived and every lane-path access and
every write, broadcast payloads in flight among them, is performed, empties the group's buffers and accumulators and releases its splits; a sole accumulator leaves its rounded result at its
destination, a sole exchange or compare-and-swap entry what an atomic there would. -/
def Obligations.FlushResults : Prop :=
  (∀ n (s : State) (x : Iss), s.Ready [] x → x.sp.id = x.f.split →
    ∃ t k sp, exec (.aflush n) s = .next t ∧ x.now t = some (k, sp) ∧ sp.status = .barrier ∧ sp.atFlush = true ∧ sp.pc = x.f.next ∧
      k.wantFlags = (x.k.wantFlags || n == 0)) ∧
  (∀ queue index group (s : State) gr l, State.launch s { queue := queue, index := index } = some l → l.groups.get group = some gr → gr.x = group →
    s.barrierFull gr true = true →
    (∀ b ∈ s.inflight, ¬(b.tag = { queue := queue, index := index } ∧ b.group = group)) →
    (∀ p ∈ s.groupPacks gr, ∀ o ∈ p.2.2.ops, o.done = true ∨ (o.path ≠ .lane ∧ o.kind.stores = false)) →
    ∃ t, exec (.aflushFlush queue index group) s = .next t ∧ (∀ p ∈ s.groupPacks gr, flushed t gr p) ∧
      (∀ g, t.group { queue := queue, index := index } group = some g → g.accs = []) ∧
      ((∀ p ∈ s.groupPacks gr, p.2.2.det = []) → gr.accs = [] → t.mem = s.mem) ∧
      (∀ a, (∀ p ∈ s.groupPacks gr, p.2.2.det = []) → gr.accs = [a] → bit (s.attrNow l.ctx a.dest) 1 = false →
        t.mem.readLE a.dest (adetSize a.fn) = a.result.bits % 256 ^ adetSize a.fn ∧ sameOutside s t a.dest (adetSize a.fn)) ∧
      (∀ p e, s.groupPacks gr = [p] → p.2.2.det = [e] → e.fn = 16 ∨ e.fn = 17 → gr.accs = [] → bit (s.attrNow p.2.2.ctx e.addr) 1 = false →
        let old := s.mem.readLE e.addr 4
        t.mem.readLE e.addr 4 = (if e.fn = 16 ∨ old = e.compare then e.operand else old) % 2 ^ 32 ∧ sameOutside s t e.addr 4))

/-- 02 R62, R63: an accumulator's result is the exact sum rounded once: contributions of opposite sign cancel exactly whatever their
order, and one contribution is left as it is. -/
def Obligations.AccumulatorsAreExact : Prop :=
  (∀ a : Accum, ∀ v w, a.fn < 9 → v < 2 ^ (8 * adetSize a.fn) → w < 2 ^ (8 * adetSize a.fn) →
    (a.add v).add w = (a.add w).add v) ∧
  (({ dest := 0, va := 0, fn := 0 } : Accum).add 0x3F800000).result = { bits := 0x3F800000, flags := 0 } ∧
  ((({ dest := 0, va := 0, fn := 0 } : Accum).add 0x7149F2CA).add 0x3F800000 |>.add 0xF149F2CA).result = { bits := 0x3F800000, flags := 0 }

end

namespace Sys2Proof.Machine

/-! ### Copies and banks (spec 06, 10) -/

/-- The state of a split that stalls at its instruction (09 R239). -/
def Iss.stalledAt (x : Iss) (st : Stall) : State := x.put x.k.started { x.sp with stall := some st }

/-- `new` holds the bytes of `bs` from `a` up, and elsewhere what `old` holds. -/
def wrote (old new : Bytes) (a : Nat) (bs : List Byte) : Prop :=
  ∀ b, new.get b = if a ≤ b ∧ b < a + bs.length then bs.getD (b - a) 0 else old.get b

/-- A memory after `bs` is written over some runs, in order. -/
def runsWritten (m : Bytes) : Runs → List Byte → Bytes
  | [], _ => m
  | (pa, n, _) :: r, bs => runsWritten (Bytes.writeList m pa (bs.take n)) r (bs.drop n)

/-- None of the runs lies in a page that a migration has armed (16 R354). -/
def unarmed (rs : Runs) : Prop := ∀ r ∈ rs, bit r.2.2 1 = false

/-- The forms of `bankcfg` and their modes (R170). -/
inductive BankConfig : Instr → BankMode → GReg → Prop
  | cache a : BankConfig (.bankcfgCache a) .cache a
  | pad a : BankConfig (.bankcfgPad a) .pad a
  | fifo a : BankConfig (.bankcfgFifo a) .fifo a

/-! ### Queues and the scratchpad (spec 06) -/

/-- A push of the lanes `act` where it does not block (R172, R173): the entry joins the queue of the bound peer, of another pack or of its own; one
for a peer that has ended is lost (log entry 18); a push to a stream issues a gather. -/
def pushes (x : Iss) (act : Mask) (q : Nat) (a : VReg) (out : Out) : Prop :=
  let e : QEntry := { mask := act, vals := wordsOf act fun n => x.v a n }
  (∀ slot r k, (x.k.queue q).bind = .peer slot r → x.peerIn slot = true → slot ≠ x.f.slot → x.s.pack x.f.core slot = some k →
    (k.queue r).entries.length + k.streaming r < 8 →
    out = .next (({ x with s := x.s.setPack x.f.core slot (k.setQueue r ((k.queue r).push e)) } : Iss).retire x.k x.sp)) ∧
  (∀ r, (x.k.queue q).bind = .peer x.f.slot r → x.peerIn x.f.slot = true → (x.k.queue r).entries.length + x.k.streaming r < 8 →
    out = .next (x.retire (x.k.setQueue r ((x.k.queue r).push e)) x.sp)) ∧
  (∀ slot r, (x.k.queue q).bind = .peer slot r → x.peerIn slot = false → out = .next (x.retire x.k x.sp)) ∧
  (∀ base, (x.k.queue q).bind = .gather base → (x.k.queue q).entries.length + x.k.streaming q < 8 →
    let t := x.s.checkAll x.f.core x.k.ctx .gather 4 4 .load (x.gatherReqs act base a fun _ => 0)
    failures t.2 = [] →
      out = .next (({ x with s := t.1 } : Iss).retire (x.k.addOp { x.engineOp .none_ .gather (.stream q act) with lanes := laneAccs t.2 }) x.sp))

/-! ### Tiles and accumulators (spec 07) -/

/-- What a tile operation leaves at its issue: one operation more, counted by TLC, and nothing of memory or the scratchpad changed. -/
def tileIssued (x : Iss) (t u : State) (kind : OpKind) : Prop :=
  u.mem = t.mem ∧ (u.core x.f.core).sram = (t.core x.f.core).sram ∧
    ∃ k sp o, x.now u = some (k, sp) ∧ sp.pc = x.f.next ∧ k.ops = x.k.ops ++ [o] ∧ o.cls = .tl ∧ o.kind = kind ∧ o.done = false ∧
      k.v = x.k.v ∧ k.g = x.k.g ∧ k.acc = x.k.acc

/-- The header and the layout that a tile load of the source bytes `src` leaves at `base` (R184–R187): in a parallel layout the elements as they
stand, the block scales and the band scales; in a planed one the bits of the aligned integers, the blocks' exponents with their scales, and the band
scales; zeros for padding. -/
def tileLoaded (m : Bytes) (planed : Bool) (planes base fmt smode k rows : Nat) (src : List Byte) : Prop :=
  let t : TileSrc := { bytes := fun n => (src.getD n 0).toNat, fmt := fmt, smode := smode, k := k, rows := rows }
  let z := fmtBits fmt
  let nb := 8 * ((k + 63) / 64)
  let rp := (rows + 31) / 32 * 32
  let second := if planed then 128 + rp * nb * planes else 128 + rp * nb * z
  let third := if planed then second + rp * nb * 4 else second + rp * nb
  (m.readLE base 1 = fmt % 256 ∧ m.readLE (base + 1) 1 = (if planed then planes % 256 else 0) ∧ m.readLE (base + 2) 1 = smode % 256 ∧
    m.readLE (base + 3) 1 = 0 ∧ m.readLE (base + 4) 2 = rows % 65536 ∧ m.readLE (base + 6) 2 = 0 ∧ m.readLE (base + 8) 4 = k % 2 ^ 32 ∧
    ∀ n, 12 ≤ n → n < (if planed then 128 else 64) → m.get (base + n) = 0) ∧
  (planed = false → ∀ i o, i < rp → o < nb * z → m.get (base + 128 + i * (nb * z) + o) =
    if i < rows ∧ o < k * z / 8 then src.getD (i * (k * z / 8) + o) 0 else 0) ∧
  (planed = false → ∀ i j, i < rp → j < nb → (m.get (base + second + i * nb + j)).toNat = t.scale i j % 256) ∧
  (planed = true → ∀ i j c p, i < rp → j < nb → c < 8 → p < planes →
    (m.get (base + 128 + ((i / 32 * nb + j) * planes + p) * 32 + 4 * c + i % 32 / 8)).getLsbD (i % 8) =
      (BitVec.ofInt planes ((t.aligned planes i j).q.getD c 0)).getLsbD p) ∧
  (planed = true → ∀ i j, i < rp → j < nb →
    let at_ := base + second + 4 * (i * nb + j)
    m.readLE at_ 2 = (if (t.aligned planes i j).nan then 0x8000 else (BitVec.ofInt 16 (t.aligned planes i j).u).toNat) ∧
      m.readLE (at_ + 2) 1 = t.scale i j % 256 ∧ m.readLE (at_ + 3) 1 = 0) ∧
  (∀ b, b < (rp + 63) / 64 → m.readLE (base + third + 2 * b) 2 = t.band b % 65536)

end Sys2Proof.Machine

section
open Sys2Proof Sys2Proof.Machine

/-- R165–R168: a copy whose handles, record and pages pass is queued on its channel and counted by CPC; the write pointer is read by
`mov` and awaited by `cwpwait`, which stalls below its target until CWPWAIT_PASS. A copy's next bytes move between its region and the next
part of its runs, in their order (to memory, where no page of it is armed for a migration), and the write pointer then holds the copy's number
and the bytes written. The model's choices: a part's source bytes are those that stand when it is written (log entry 22; R166 allows any time from
issue to completion); targets far from the pointer compare by the same difference (log entry 90); accesses to the same scratchpad bytes keep their
order of issue on a deterministic core (log entry 91); a tile of more than 512 pages issues once the pool has room for its page list (log entry 29). -/
def Obligations.CopyResults : Prop :=
  (∀ (into : Bool) d a b (s : State) (x : Iss) (r : Tsr) (t : State × Runs) v, s.Ready [opT 0 d, opT 1 a, rdG 2 b] x → x.sp.id = x.f.split →
    x.badHandle d.toNat [1] = false → x.badHandle a.toNat [3] = false → (x.s.core x.f.core).copyQ.length < 128 →
    x.k.full .cp = false → x.k.scBusy = false → x.storing = false → x.recordBusy a.toNat (x.g b) = false →
    x.record a.toNat (x.g b) 11 (.elements !into) (fun _ => false) = (r, 0) → r.elementBytes ≤ hBytes (x.k.readT d.toNat) →
    x.s.checkRuns x.f.core x.k.ctx .copy (if into then .load else .store) (pagePieces r.elementRuns) = .ok t →
    t.1.listPages x.f.core x.f.slot x.k.nextOp x.k.ctx (pagePieces r.elementRuns) = some v →
    ∃ u k sp o, exec (if into then .cpyIn d a b else .cpyOut d a b) s = .next u ∧ x.now u = some (k, sp) ∧ sp.pc = x.f.next ∧
      k.ops = x.k.ops ++ [o] ∧ o.cls = .cp ∧ o.id = x.k.nextOp ∧
      o.kind = .copy (cut (x.g b).toNat 8 3) ((x.s.core x.f.core).copySeq.getD (cut (x.g b).toNat 8 3) 0) into
        (hByte (x.k.readT d.toNat)) r.elementBytes 0 t.2 ∧
      (u.core x.f.core).copyQ = (v.core x.f.core).copyQ ++ [(cut (x.g b).toNat 8 3, x.f.slot, x.k.nextOp)] ∧
      u.mem = v.mem) ∧
  (∀ d a (s : State) (x : Iss), x.k.scBusy = false →
    (s.Ready [wrG 0 d] x → exec (.movGc d a) s = .next (x.uniNext d (Words.get (x.s.core x.f.core).cwp a.toNat))) ∧
    (s.Ready [rdG 0 d] x → exec (.cwpwait d a) s =
      .next (if ((Words.get (x.s.core x.f.core).cwp a.toNat) - x.g d).toNat < 2 ^ 31 then x.retire x.k x.sp
        else x.stalledAt (.cwpwait d.toNat a.toNat)))) ∧
  (∀ core slot split (s : State) (x : Iss) d a, s.stalled core slot split = some x → x.sp.stall = some (.cwpwait d a) → x.k.scBusy = false →
    (Words.get (x.s.core core).cwp a - x.k.readG d).toNat < 2 ^ 31 →
    exec (.cwpwaitPass core slot split) s = .next (x.retire x.k x.sp)) ∧
  (∀ core channel upto (s : State) (k : Pack) (o : PendOp) slot op ch seq into base n lo runs,
    (s.core core).copyQ.find? (fun e => e.1 == channel) = some (channel, slot, op) → State.pack s core slot = some k →
    k.ops.find? (fun p => p.id == op) = some o → o.kind = .copy ch seq into base n lo runs → lo ≤ upto → upto ≤ n → s.detHeld core o = false →
    ∃ t, exec (.copyCompletion core channel upto) s = .next t ∧
      Words.get (t.core core).cwp ch = BitVec.ofNat 32 (seq * 2 ^ 21 + upto) ∧
      (into = true → t.mem = s.mem ∧
        wrote (s.core core).sram (t.core core).sram (base + lo) (s.runBytes (sliceRuns runs lo upto))) ∧
      (into = false → (t.core core).sram = (s.core core).sram ∧ (unarmed (sliceRuns runs lo upto) →
        t.mem = runsWritten s.mem (sliceRuns runs lo upto) ((s.core core).sram.readList (base + lo) (upto - lo)))) ∧
      (upto = n → (channel, slot, op) ∉ (t.core core).copyQ))

/-- R170, R171: `bankcfg` starts its switch and stalls; once nothing in flight touches the banks named, they enter its mode and
the split goes on. `fpush` and `fpop` put words at the end of a FIFO bank and take them from its front, at once or, by FIFO_UNBLOCK,
once there is room or an entry; `fcount` counts the entries. R268 promises entries to broadcast payloads; that an `fpush` counts a promised entry
as taken, and that `fpush` and `fpop` with no active lane only go on, is the model's choice (log entry 18), and so is which banks a switch waits
for (log entry 26). -/
def Obligations.BankResults : Prop :=
  (∀ i m a, BankConfig i m a → ∀ (s : State) (x : Iss), s.Ready [rdG 1 a] x → (x.g a).toNat < 2 ^ 16 →
    (∀ p ∈ (x.s.core x.f.core).packs, p.2.tag = x.k.tag) → (x.s.core x.f.core).switching = none →
    exec i s = .next (({ x with s := x.s.setCore x.f.core { x.s.core x.f.core with
      switching := some { slot := x.f.slot, split := x.sp.id, banks := x.g a, mode := m } } } : Iss).stalledAt .bankcfg)) ∧
  (∀ core (s : State) w x, (s.core core).switching = some w → (s.core core).touching (banksOf w.banks) = false →
    (∀ p ∈ (s.core core).packs, ∀ e ∈ p.2.splits, e.2.blockedOn ((s.core core).changing w) = false) →
    s.stalled core w.slot w.split = some x → x.sp.stall = some .bankcfg → x.sp.id = w.split →
    ∃ t k sp, exec (.bankSwitchCompletion core) s = .next t ∧ t.pack core w.slot = some k ∧ k.split w.split = some sp ∧ sp.stall = none ∧
      (t.core core).switching = none ∧
      (∀ b, b < 16 → (t.core core).bank b = if w.banks.getLsbD b then w.mode else (s.core core).bank b) ∧
      (∀ b, b < 16 → w.banks.getLsbD b = true → (s.core core).bank b ≠ w.mode → ∀ a, a < 65536 →
        (t.core core).sram.get (65536 * b + a) = 0) ∧ t.mem = s.mem) ∧
  (∀ g a (b : Bank) s x, x.k.active x.sp g = 0 → x.k.scBusy = false →
    (s.Ready [rdV 1 a] x → exec (.fpush g b a) s = .next (x.retire x.k x.sp)) ∧
    (s.Ready [wrV 0 a] x → exec (.fpop g a b) s = .next (x.retire x.k x.sp))) ∧
  (∀ g a (b : Bank) s x, s.Ready [rdV 1 a] x → x.k.active x.sp g ≠ 0 → x.k.scBusy = false →
    (x.s.core x.f.core).bank b.toNat = .fifo →
    let f := (x.s.core x.f.core).fifo b.toNat
    (f.entries.length + f.promised < 512 → exec (.fpush g b a) s =
      .next (({ x with s := x.s.setCore x.f.core ((x.s.core x.f.core).setFifo b.toNat
        { f with entries := f.entries ++ [wordsOf (x.k.active x.sp g) fun n => x.v a n] }) } : Iss).retire x.k x.sp)) ∧
    (512 ≤ f.entries.length + f.promised → exec (.fpush g b a) s = .next (x.stalledAt (.fpush g b.toNat a.toNat)))) ∧
  (∀ g d (b : Bank) s x, s.Ready [wrV 0 d] x → x.k.active x.sp g ≠ 0 → x.k.scBusy = false →
    (x.s.core x.f.core).bank b.toNat = .fifo →
    let f := (x.s.core x.f.core).fifo b.toNat
    (∀ e rest, f.entries = e :: rest → exec (.fpop g d b) s =
      .next (({ x with s := x.s.setCore x.f.core ((x.s.core x.f.core).setFifo b.toNat
        { f with entries := rest, head := (f.head + 1) % 512 }) } : Iss).retire
          (x.k.setLanes d.toNat (x.k.active x.sp g) fun n => Words.get e n) x.sp)) ∧
    (f.entries = [] → exec (.fpop g d b) s = .next (x.stalledAt (.fpop g d.toNat b.toNat)))) ∧
  (∀ d (b : Bank) s x, s.Ready [wrG 0 d] x → x.k.scBusy = false → (x.s.core x.f.core).bank b.toNat = .fifo →
    exec (.fcount d b) s = .next (x.uniNext d (BitVec.ofNat 32 ((x.s.core x.f.core).fifo b.toNat).entries.length))) ∧
  (∀ core slot split (s : State) (x : Iss), s.stalled core slot split = some x → x.k.scBusy = false →
    (∀ g b a, x.sp.stall = some (.fpush g b a) → ((x.s.core x.f.core).fifo b).full = false →
      ∃ t, exec (.fifoUnblock core slot split) s = .next t ∧
        ((t.core x.f.core).fifo b).entries = ((x.s.core x.f.core).fifo b).entries ++ [wordsOf (x.k.active x.sp g) fun n => x.k.readV x.sp a n]) ∧
    (∀ g d b e rest, x.sp.stall = some (.fpop g d b) → ((x.s.core x.f.core).fifo b).entries = e :: rest →
      ∃ t, exec (.fifoUnblock core slot split) s = .next t ∧ ((t.core x.f.core).fifo b).entries = rest))

/-- R172, R173: a binding of a queue that holds nothing; a push appends an entry with the active lanes' words and their mask to the bound peer's
queue, or issues a gather whose words enter the queue; a pop takes the oldest entry, zero in lanes it lacks; QUEUE_UNBLOCK carries
out an operation that blocked. The model's choices: a DRAINING pack still counts as a resident peer (log entry 78), and a push or pop with no
active lane only goes on (log entry 18). -/
def Obligations.QueueResults : Prop :=
  (∀ (d : QReg) (s : State) (x : Iss), x.k.holds d.toNat = false →
    (s.Ready [] x → exec (.qunbind d) s = .next (x.retire (x.k.bindQueue d.toNat .unbound) x.sp)) ∧
    (∀ a, s.Ready [rdG 1 a] x → (x.g a).toNat < 128 → x.peerIn ((x.g a).toNat % 16) = true → exec (.qbindPeer d a) s =
      .next (x.retire (x.k.bindQueue d.toNat (.peer ((x.g a).toNat % 16) (cut (x.g a).toNat 4 3))) x.sp)) ∧
    (∀ a, s.Ready [rdG 1 a 2] x → exec (.qbindGather d a) s =
      .next (x.retire (x.k.bindQueue d.toNat (.gather (x.k.readG64 a.toNat))) x.sp))) ∧
  (∀ g (q : QReg) a s x, x.k.active x.sp g = 0 → x.k.scBusy = false →
    (s.Ready [rdV 1 a] x → exec (.qpush g q a) s = .next (x.retire x.k x.sp)) ∧
    (s.Ready [wrV 0 a] x → exec (.qpop g a q) s = .next (x.retire x.k x.sp))) ∧
  (∀ g (d : QReg) a s x, s.Ready [rdV 1 a] x → x.k.active x.sp g ≠ 0 → x.k.scBusy = false →
    pushes x (x.k.active x.sp g) d.toNat a (exec (.qpush g d a) s) ∧
    (∀ slot r k, (x.k.queue d.toNat).bind = .peer slot r → x.peerIn slot = true → slot ≠ x.f.slot → x.s.pack x.f.core slot = some k →
      8 ≤ (k.queue r).entries.length + k.streaming r → exec (.qpush g d a) s = .next (x.stalledAt (.qpush g d.toNat a.toNat)))) ∧
  (∀ core slot split (s : State) (x : Iss) g q (a : VReg), s.stalled core slot split = some x → x.sp.stall = some (.qpush g q a.toNat) →
    x.k.scBusy = false → pushes x (x.k.active x.sp g) q a (exec (.queueUnblock core slot split) s)) ∧
  (∀ g d (a : QReg) s x e rest, s.Ready [wrV 0 d] x → x.k.active x.sp g ≠ 0 → x.k.scBusy = false → (x.k.queue a.toNat).bind ≠ .unbound →
    (x.k.queue a.toNat).entries = e :: rest →
    exec (.qpop g d a) s = .next (x.retire ((x.k.setQueue a.toNat { x.k.queue a.toNat with entries := rest }).setLanes d.toNat
      (x.k.active x.sp g) fun n => if e.mask.getLsbD n then Words.get e.vals n else 0) x.sp)) ∧
  (∀ core slot split (s : State) (x : Iss) g d q e rest, s.stalled core slot split = some x → x.sp.stall = some (.qpop g d q) →
    x.k.scBusy = false → (x.k.queue q).bind ≠ .unbound → (x.k.queue q).entries = e :: rest →
    exec (.queueUnblock core slot split) s = .next (x.retire ((x.k.setQueue q { x.k.queue q with entries := rest }).setLanes d
      (x.k.active x.sp g) fun n => if e.mask.getLsbD n then Words.get e.vals n else 0) x.sp)) ∧
  (∀ core slot op (s : State) (k : Pack) (o : PendOp) q m, State.pack s core slot = some k → k.ops.find? (fun p => p.id == op) = some o →
    o.kind = .stream q m → (∀ p ∈ k.ops.takeWhile fun p => p.id != o.id, p.done = true ∨ ∀ m', p.kind ≠ .stream q m') →
    ∃ t k', exec (.gatherStreamResult core slot op) s = .next t ∧ t.pack core slot = some k' ∧ t.mem = s.mem ∧
      ∃ vals, (k'.queue q).entries = (k.queue q).entries ++ [{ mask := m, vals := vals }] ∧
        ∀ l, o.lanes = [l] → Words.get vals l.lane = BitVec.ofNat 32 (s.physRead l.pa 4))

/-- R164: scratchpad loads and stores of lanes whose offsets are multiples of 4 inside the handle's region leave one outstanding operation
with the bytes each lane names; with no active lane it is done at once and counted like any (04 R116, 06 R141). -/
def Obligations.ScratchpadAccessesIssue : Prop :=
  ∀ (writes : Bool) g d a b s x, s.Ready [if writes then rdV 0 d else wrV 0 d, opT 1 a, rdV 2 b] x →
    (x.k.active x.sp g = 0 ∨ x.badHandle a.toNat [1, 2, 3] = false) →
    (∀ n, (x.k.active x.sp g).getLsbD n → (x.v b n).toNat % 4 = 0 ∧ (x.v b n).toNat < hBytes (x.k.readT a.toNat)) →
    x.k.full (if writes then .st else .ld) = false → x.k.scBusy = false → x.k.gated x.sp writes = false →
    exec (if writes then .stsB32 g d a b else .ldsB32 g d a b) s =
      .next (x.retire ((if x.k.active x.sp g = 0 then x.k.addIdle else x.k.addOp)
        { id := 0, cls := if writes then .st else .ld, path := .lane, lineage := x.live, split := x.sp.id
          kind := if writes then .storeS else .loadS d.toNat
          lanes := (lanesOf (x.k.active x.sp g)).map fun n =>
            { lane := n, pa := hByte (x.k.readT a.toNat) + (x.v b n).toNat, data := if writes then (x.v d n).toNat else 0 }
          stamp := x.s.clock }) x.sp)

/-- R177, R184–R188, R198: tile loads and stores and granule operations that pass their checks leave one operation under TLC; completed in the
core's order, a load leaves its layout at the region, a store the region's bytes over its runs (where no page of them is armed for a migration), and
a granule operation its granule or, for `ast`, the granule's words in the region; the parts of a joint complete together (R193, R197). R178, R182:
`tset`, `tget` and `tclr` move a tile register's word; `tdesc` reports the code of the record, or of its pages, and traps for its handle alone. The
model's choices: a `tstore`'s bytes all appear at its completion (log entry 81; R188 lets any part of them be visible before); `tdesc` reports code
0x09 alone for an index beyond the region (log entry 80); a tile of more than 512 pages issues once the pool has room for its page list (log
entry 29); the order among accesses to the same scratchpad bytes on a deterministic core (log entry 91). -/
def Obligations.TileOperationResults : Prop :=
  ((∀ (planed : Bool) d a b (s : State) (x : Iss) (r : Tsr) (t : State × Runs) v, s.Ready [opT 0 d, opT 1 a, rdG 2 b] x → x.sp.id = x.f.split →
     let h := x.k.readT d.toNat
     let planes := if planed then hPlanes h else 0
     let size := (layoutOf planed planes r.fmt r.ext1 r.ext0).size
     x.badHandle d.toNat [if planed then 2 else 1] = false → x.badHandle a.toNat [3] = false → x.tileWait = false →
     x.recordBusy a.toNat (x.g b) = false →
     (x.record a.toNat (x.g b) 8 .load fun r =>
       r.ext2 != 1 || decide (2048 < r.ext1) || r.fmt == 8 || (planed && decide (planes < minPlanes r.fmt))) = (r, 0) →
     size ≤ hBytes h → x.s.checkRuns x.f.core x.k.ctx .matrix .load (pagePieces (r.elementRuns ++ r.scaleRuns)) = .ok t →
     t.1.listPages x.f.core x.f.slot x.k.nextOp x.k.ctx (pagePieces (r.elementRuns ++ r.scaleRuns)) = some v →
     ∃ u, exec (if planed then .tloadP d a b else .tloadR d a b) s = .next u ∧
       tileIssued x v u (.tload planed planes (hByte h) r.fmt r.smode r.ext0 r.ext1 size t.2)) ∧
   (∀ d a b (s : State) (x : Iss) (r : Tsr) (t : State × Runs) v, s.Ready [opT 0 d, opT 1 a, rdG 2 b] x → x.sp.id = x.f.split →
     x.badHandle d.toNat [1] = false → x.badHandle a.toNat [3] = false → x.tileWait = false → x.recordBusy a.toNat (x.g b) = false →
     x.record a.toNat (x.g b) 8 (.elements true) (fun _ => false) = (r, 0) → r.elementBytes ≤ hBytes (x.k.readT d.toNat) →
     x.s.checkRuns x.f.core x.k.ctx .matrix .store (pagePieces r.elementRuns) = .ok t →
     t.1.listPages x.f.core x.f.slot x.k.nextOp x.k.ctx (pagePieces r.elementRuns) = some v →
     ∃ u, exec (.tstore d a b) s = .next u ∧ tileIssued x v u (.tstore (hByte (x.k.readT d.toNat)) r.elementBytes t.2)) ∧
   (∀ (s : State) (x : Iss), x.tileWait = false → x.sp.id = x.f.split →
     (∀ d, s.Ready [opA 0 d] x → ∃ u, exec (.aclr d) s = .next u ∧ tileIssued x x.s u (.acc 0 d.toNat 0 0)) ∧
     (∀ d a, s.Ready [opA 0 d, opA 1 a] x → ∃ u, exec (.amov d a) s = .next u ∧ tileIssued x x.s u (.acc 1 d.toNat a.toNat 0)) ∧
     (∀ d a, s.Ready [opA 0 d, opT 1 a] x → x.badHandle a.toNat [1] = false →
       ∃ u, exec (.ald d a) s = .next u ∧ tileIssued x x.s u (.acc 3 d.toNat 0 (hByte (x.k.readT a.toNat)))) ∧
     (∀ d a, s.Ready [opT 0 d, opA 1 a] x → x.badHandle d.toNat [1] = false →
       ∃ u, exec (.ast d a) s = .next u ∧ tileIssued x x.s u (.acc 4 0 a.toNat (hByte (x.k.readT d.toNat))))) ∧
   (∀ core slot op (s : State) (k : Pack) (o : PendOp), State.pack s core slot = some k → k.ops.find? (fun p => p.id == op) = some o →
     o.done = false → (s.core core).tileBusy slot o.kind.spans o.kind.grans o.stamp = false → s.detHeld core o = false →
     (∀ d a base, o.kind = .acc 0 d a base → d < 16 →
       ∃ t k', exec (.tileOpCompletion core slot op) s = .next t ∧ t.pack core slot = some k' ∧
         ∀ e i j, e < 16 → i < 32 → j < 32 → k'.readAcc e i j = if e = d then 0 else k.readAcc e i j) ∧
     (∀ d a base, o.kind = .acc 1 d a base → d < 16 → a < 16 →
       ∃ t k', exec (.tileOpCompletion core slot op) s = .next t ∧ t.pack core slot = some k' ∧
         ∀ e i j, e < 16 → i < 32 → j < 32 → k'.readAcc e i j = if e = d then k.readAcc a i j else k.readAcc e i j) ∧
     (∀ d a base, o.kind = .acc 3 d a base → d < 16 →
       ∃ t k', exec (.tileOpCompletion core slot op) s = .next t ∧ t.pack core slot = some k' ∧
         ∀ e i j, e < 16 → i < 32 → j < 32 → k'.readAcc e i j =
           if e = d then BitVec.ofNat 32 ((s.core core).sram.readLE (base + 128 * i + 4 * j) 4) else k.readAcc e i j) ∧
     (∀ d a base, o.kind = .acc 4 d a base →
       ∃ t, exec (.tileOpCompletion core slot op) s = .next t ∧ t.mem = s.mem ∧
         (∀ i j, i < 32 → j < 32 → (t.core core).sram.readLE (base + 128 * i + 4 * j) 4 = (k.readAcc a i j).toNat) ∧
         ∀ b, b < base ∨ base + 4096 ≤ b → (t.core core).sram.get b = (s.core core).sram.get b) ∧
     (∀ planed planes base fmt smode ext0 ext1 size runs, o.kind = .tload planed planes base fmt smode ext0 ext1 size runs →
       ∃ t, exec (.tileOpCompletion core slot op) s = .next t ∧ t.mem = s.mem ∧
         tileLoaded (t.core core).sram planed planes base fmt smode ext0 ext1 (s.runBytes runs) ∧
         ∀ b, b < base ∨ base + (layoutOf planed planes fmt ext1 ext0).size ≤ b → (t.core core).sram.get b = (s.core core).sram.get b) ∧
     (∀ base n runs, o.kind = .tstore base n runs →
       ∃ t, exec (.tileOpCompletion core slot op) s = .next t ∧ (t.core core).sram = (s.core core).sram ∧
         (unarmed runs → t.mem = runsWritten s.mem runs ((s.core core).sram.readList base n))) ∧
     (∀ spans grans bytes words flags, o.kind = .tile spans grans bytes words flags 0 →
       ∃ t k', exec (.tileOpCompletion core slot op) s = .next t ∧ t.pack core slot = some k' ∧ t.mem = s.mem ∧ k'.v = k.v ∧ k'.g = k.g ∧
         (t.core core).sram = bytes.foldl (fun m b => Bytes.writeList m b.1 b.2) (s.core core).sram ∧
         k'.acc = words.foldl (fun m w => Words.set m w.1 w.2) k.acc) ∧
     (∀ spans grans bytes words flags j, o.kind = .tile spans grans bytes words flags (j + 1) →
       (∀ p ∈ s.jointOps (j + 1), (s.core p.1).tileBusy p.2.1 p.2.2.kind.spans p.2.2.kind.grans p.2.2.stamp = false) →
       ∃ t, exec (.tileOpCompletion core slot op) s = .next t ∧ t.mem = s.mem ∧
         ((s.jointOps (j + 1)).Nodup → ∀ p ∈ s.jointOps (j + 1), ∀ q, s.pack p.1 p.2.1 = some q →
           (∀ r ∈ s.jointOps (j + 1), r.1 = p.1 → r.2.1 = p.2.1 → r = p) →
           ∃ q', t.pack p.1 p.2.1 = some q' ∧ (∀ r ∈ q'.ops, r.id = p.2.2.id → r.done = true) ∧
             ∀ sp gr bs ws fl, p.2.2.kind = .tile sp gr bs ws fl (j + 1) → q'.acc = ws.foldl (fun m w => Words.set m w.1 w.2) q.acc)))) ∧
  ((∀ d a (s : State) (x : Iss), s.Ready [opT 0 d, rdG 1 a] x → exec (.tset d a) s = .next (x.retire { x.k with t := x.k.t.set d.toNat (x.g a) } x.sp)) ∧
   (∀ d a (s : State) (x : Iss), s.Ready [wrG 0 d, opT 1 a] x → exec (.tget d a) s = .next (x.uniNext d (x.k.readT a.toNat))) ∧
   (∀ d (s : State) (x : Iss), s.Ready [opT 0 d] x → exec (.tclr d) s = .next (x.retire { x.k with t := x.k.t.set d.toNat 0 } x.sp)) ∧
   (∀ (write : Bool) d a b s x, s.Ready [wrG 0 d, opT 1 a, rdG 2 b] x → x.badHandle a.toNat [3] = false → x.storing = false →
     x.recordBusy a.toNat (x.g b) = false →
     let r := x.record a.toNat (x.g b) 8 (.general write) fun _ => false
     let pages := x.s.soundDram.checkRuns x.f.core x.k.ctx .matrix (if write then .store else .load)
       (pagePieces (r.1.elementRuns ++ r.1.scaleRuns))
     ∃ n, exec (if write then .tdescW d a b else .tdescR d a b) s = .next (x.uniNext d (BitVec.ofNat 32 n)) ∧ (r.2 ≠ 0 → n = r.2) ∧
       (r.2 = 0 → (∀ t, pages = .ok t → n = 0) ∧
         ∀ e va, pages = .error (e, va) → n = match e with
           | .lease _ => 0x22
           | .perm => 0x23
           | _ => 0x21)))

/-- R198–R201: an accumulator's element is the rounded sum, its row moves to and from a vector register, and an epilogue leaves the rounded elements
packed at its offset in the region; with no flag trapping, each goes on. -/
def Obligations.AccumulatorResults : Prop :=
  (∀ d a (s : State) (x : Iss), s.Ready [opA 0 d, opA 1 a] x → x.sp.id = x.f.split → x.tileWait = false →
    (x.s.core x.f.core).tileBusy x.f.slot [] [d.toNat, a.toNat] x.s.clock = false → x.k.te = 0 →
    ∃ u words flags, exec (.aadd d a) s = .next u ∧ tileIssued x x.s u (.tile [] [d.toNat, a.toNat] [] words flags 0) ∧
      words = elements1024.map fun e => (accKey d.toNat e.1 e.2,
        BitVec.ofNat 32 (Fmt.f32.add 0 (f32Of (x.k.readAcc d.toNat e.1 e.2)) (f32Of (x.k.readAcc a.toNat e.1 e.2))).bits)) ∧
  (∀ g d a b (s : State) (x : Iss), x.k.active x.sp g = 0 →
    (s.Ready [wrV 0 d, opA 1 a, rdG 2 b] x → exec (.aget g d a b) s = .next (x.vecNext d 0 fun _ => 0)) ∧
    (s.Ready [rdV 0 d, opA 1 a, rdG 2 b] x → exec (.aset g d a b) s = .next (x.retire x.k x.sp))) ∧
  (∀ g d a b (s : State) (x : Iss), x.k.active x.sp g ≠ 0 → (x.g b).toNat < 32 → x.k.accBusy a.toNat = false →
    (s.Ready [wrV 0 d, opA 1 a, rdG 2 b] x → exec (.aget g d a b) s =
      .next (x.vecNext d (x.k.active x.sp g) fun n => x.k.readAcc a.toNat (x.g b).toNat n)) ∧
    (s.Ready [rdV 0 d, opA 1 a, rdG 2 b] x → exec (.aset g d a b) s =
      .next (x.retire ((lanesOf (x.k.active x.sp g)).foldl (fun k n => k.setAcc a.toNat (x.g b).toNat n (x.v d n)) x.k) x.sp))) ∧
  (∀ (clr : Bool) d a b s x, s.Ready [opT 0 d, opA 1 a, rdG 2 b 8] x → x.sp.id = x.f.split →
    let e := x.epi b.toNat
    let h := x.k.readT d.toNat
    let bias := hByte (x.k.readT e.biasTile) + e.biasOff
    let spans := (hByte h + e.doff, e.outBytes) :: if e.bias then [(bias, 128)] else []
    fwCheck e.fmt = 0 → x.badHandle d.toNat [1] = false → e.bad = false → e.doff + e.outBytes ≤ hBytes h →
    (e.bias = true → x.badHandle e.biasTile [1, 2, 3] = false ∧ e.biasOff + 128 ≤ hBytes (x.k.readT e.biasTile)) →
    x.tileWait = false → (x.s.core x.f.core).tileBusy x.f.slot spans [a.toNat] x.s.clock = false → x.k.te = 0 →
    ∃ u flags, exec (if clr then .aepiClr d a b else .aepi d a b) s = .next u ∧
      tileIssued x x.s u (.tile spans [a.toNat]
        [(hByte h + e.doff, packBits (fmtBits (fwOut e.fmt)) (elements1024.map fun p =>
          (epiElement e (x.k.readAcc a.toNat p.1 p.2) ((x.s.core x.f.core).sram.readLE (bias + 4 * p.2) 4)
            (if fwRnd e.fmt = 5 then
              x.s.generator x.k (x.k.widOf 0) (cut e.p2 16 11) ((cut e.p6 0 11 + p.1) * 1024 + (cut e.p6 16 10 + p.2)) e.call
            else 0)).bits))]
        (if clr then elements1024.map fun p => (accKey a.toNat p.1 p.2, 0) else []) flags 0))

/-! ### Joint and cooperative multiplies (spec 07) -/

/-- R189–R197: `muster` and `rdmst`; an arrival that passes its own checks waits at the rendezvous; when every pack named has arrived and the checks of
the joint pass, each pack gets its granule's elements, the exact chunk sums accumulated in order, and goes on; when every rank of
a cooperative set has arrived, each gets its share. The model's choices: the tile handles and headers are read again when the joint or set is
complete (log entry 83), a joint counts as one tile operation of each of its packs from then on (log entry 20), and the arrivals of a cooperative
set are told apart by context (log entry 65). -/
def Obligations.JointResults : Prop :=
  (∀ (s : State) (x : Iss), (∀ a, s.Ready [rdG 1 a] x → exec (.muster a) s = .next (x.retire { x.k with mst := x.g a } x.sp)) ∧
    (∀ d, s.Ready [wrG 0 d] x → exec (.rdmst d) s = .next (x.uniNext d x.k.mst))) ∧
  (∀ d a b (s : State) (x : Iss), s.Ready [opA 0 d, rdV 1 a, opT 2 b 2] x →
    let c := x.s.core x.f.core
    let head := fun n => headerAt c.sram (hByte (x.k.readT (b.toNat + n)))
    (∀ r ∈ c.latch, r.coop = [] → r.slot ≠ x.f.slot ∧ (r.mst = x.k.mst ∨ (r.mst.getLsbD x.f.slot = false ∧ x.k.mst.getLsbD r.slot = false))) →
    x.tileWait = false → c.tileBusy x.f.slot (x.pairSpans b.toNat) [d.toNat] x.s.clock = false → x.badMuster = false →
    x.badHandle b.toNat [2] = false → x.badHandle (b.toNat + 1) [1] = false →
    (∀ n, n < 2 → (head n).rows ≤ 32 ∧ (head n).rsv = false) →
    exec (.mmj d a b) s = .next (({ x with s := x.s.setCore x.f.core { c with latch := c.latch ++
      [{ slot := x.f.slot, split := x.sp.id, mst := x.k.mst, acc := d.toNat, tile := b.toNat, voters := x.live
         words := x.formatWords a, coop := [] }] } } : Iss).stalledAt .joint)) ∧
  (∀ core slot (s : State) a0 ps, (s.core core).latch.find? (fun a => a.coop.isEmpty && a.slot == slot) = some a0 →
    ((slotsOf a0.mst).map fun i => (s.core core).latch.find? fun a => a.coop.isEmpty && a.slot == i && a.mst == a0.mst).mapM
      (fun a => a.bind (s.part core)) = some ps →
    (∀ p ∈ ps, p.x.sp.id = p.a.split ∧ p.x.k.full .tl = false ∧ p.x.k.te = 0 ∧
      (s.core core).tileBusy p.x.f.slot (p.x.pairSpans p.a.tile) [p.a.acc] s.clock = false) → (jointFail ps).isNone →
    ∃ t, exec (.jointFormation core slot) s = .next t ∧ t.mem = s.mem ∧
      ∀ p ∈ ps, ∃ k sp o flags, t.pack core p.a.slot = some k ∧ k.split p.a.split = some sp ∧ sp.stall = none ∧ o ∈ k.ops ∧
        o.kind = .tile (p.x.pairSpans p.a.tile) [p.a.acc] []
          ((p.granule (votedWord ps)).map fun e => (accKey p.a.acc e.1 e.2.1, BitVec.ofNat 32 e.2.2.bits)) flags (s.clock + 1)) ∧
  (∀ d a b (s : State) (x : Iss), s.Ready [rdG 0 d 8, rdV 1 a, opT 2 b 2, { field := 3, cls := .a, idx := 0, cnt := 16 }] x →
    let c := x.s.core x.f.core
    let words := (List.range 8).map fun j => x.k.readG (d.toNat + j)
    let head := fun n => headerAt c.sram (hByte (x.k.readT (b.toNat + n)))
    x.tileWait = false → c.tileBusy x.f.slot (x.pairSpans b.toNat) (List.range 16) x.s.clock = false → (coopOf words).bad = false →
    x.badHandle b.toNat [2] = false → x.badHandle (b.toNat + 1) [1] = false → (∀ n, n < 2 → (head n).rows ≤ 128) →
    (∀ r ∈ x.s.coopSet x.k.ctx (coopOf words).id, (coopOf r.2.coop).rank ≠ (coopOf words).rank) →
    exec (.mmc d a b) s = .next (({ x with s := x.s.setCore x.f.core { c with latch := c.latch ++
      [{ slot := x.f.slot, split := x.sp.id, mst := 0, acc := 0, tile := b.toNat, voters := x.live
         words := x.formatWords a, coop := words }] } } : Iss).stalledAt .joint)) ∧
  (∀ ctx coopid (s : State) ps, (s.coopSet ctx coopid).mapM (fun e => s.part e.1 e.2) = some ps →
    (∃ e ∈ s.coopSet ctx coopid, ∀ r, r < (coopOf e.2.coop).ranks → ∃ f ∈ s.coopSet ctx coopid, (coopOf f.2.coop).rank = r) →
    (∀ p ∈ ps, p.x.sp.id = p.a.split ∧ p.x.k.full .tl = false ∧ p.x.k.te = 0 ∧
      (s.core p.x.f.core).tileBusy p.x.f.slot (p.x.pairSpans p.a.tile) (List.range 16) s.clock = false) →
    let rs := sortBy (fun p : Part => p.coop.rank) ps
    (coopFail rs).isNone →
    ∃ t, exec (.coopRendezvous ctx coopid) s = .next t ∧ t.mem = s.mem ∧
      ∀ p ∈ ps, (∀ q ∈ ps, q.x.f.core = p.x.f.core → q.a.slot = p.a.slot → q = p) →
        ∃ k sp o flags, t.pack p.x.f.core p.a.slot = some k ∧ k.split p.a.split = some sp ∧ sp.stall = none ∧ o ∈ k.ops ∧
          o.kind = .tile (p.x.pairSpans p.a.tile) (List.range 16) (p.received rs)
            (share.map fun e => (shareKey e.1 e.2, BitVec.ofNat 32 (p.final rs (votedWord rs) e.1 e.2).bits)) flags (s.clock + 1))

end

namespace Sys2Proof.Machine

/-! ### Barriers, `yield` and `exit` (spec 04, 08) -/

/-- The bits that gb must leave zero, and the byte of the barrier word it names: an aligned offset inside the handle's region (R213). -/
def phaseOk (x : Iss) (d : TReg) (a : GReg) (mbz : Nat) : Prop :=
  x.badHandle d.toNat [1, 2, 3] = false ∧ offsetBad (x.k.readT d.toNat) (x.g a) mbz 8 = false

/-! ### Work for packs (spec 08, 15) -/

/-- The high word of a token after a release by the pack of a slot of a core: KIND widened to cover it, and the location that KIND gives (R218,
R219). -/
def locationAfter (hi core slot : Nat) : Nat :=
  let near := cut hi 4 15 / 128 = core / 128
  if cut hi 30 2 = 0 ∨ (cut hi 30 2 = 1 ∧ cut hi 0 4 = slot ∧ cut hi 4 15 = core) then 2 ^ 30 + 16 * core + slot
  else if cut hi 30 2 < 3 ∧ near then 2 * 2 ^ 30 + 16 * (core / 128 * 128)
  else 3 * 2 ^ 30

/-- What a `wlpop` of list `l` leaves (R221): the oldest items, one for each of the lowest active lanes, in `d`; its other registers as they were;
the list without them; the predicate over the active lanes; and the items counted as held. With the context quiescent it takes none. -/
def popped (x : Iss) (act : Mask) (d l : Nat) (p : PReg) (w : WorkList) (t : State) : Prop :=
  let n := if x.quiet then 0 else min w.count (popcount act)
  ∃ k sp, x.now t = some (k, sp) ∧ k.wlhold = x.k.wlhold + n ∧ sp.pc = x.f.next ∧
    (p ≠ 7 → ∀ i, (k.pred p).getLsbD i = if act.getLsbD i then decide (i ∈ (lanesOf act).take n) else (x.k.pred p).getLsbD i) ∧
    (∀ j i, j < n → (lanesOf act)[j]? = some i →
      k.v.get (32 * d + i) = BitVec.ofNat 32 (x.s.mem.readLE (w.ring + 4 * ((w.head + j) % w.cap)) 4)) ∧
    (∀ r, (∀ j i, j < n → (lanesOf act)[j]? = some i → r ≠ 32 * d + i) → k.v.get r = x.k.v.get r) ∧
    (0 < n → ∃ c, t.context x.k.ctx = some c ∧ c.lists.get l = some { w with head := (w.head + n) % w.cap, count := w.count - n })

end Sys2Proof.Machine

section
open Sys2Proof Sys2Proof.Machine

/-- 04 R114, R210–R212: `bar` stops its split; BAR_COMPLETION, once every lane of the group that has not exited is there and their
lane-path accesses are performed, lets every split go on; in a deadlock each split at a barrier is given SYNC, and no flush is asked for its
flags any more; `yield` retires, and in
deterministic mode passes the turn on; `exit` takes its active lanes out of every split, and a pack with no lane left has ended, or drains
while a counter of its operations is nonzero. R213, R214: `pbinit` writes a word that expects its count; an arrival counts up, and the last one flips the phase, clears the count and raises GEN;
`pbwait` passes while the phase differs from gb's, and otherwise stalls until it does. What a completion waits for is log entry 27, and a stalled
`pbwait` reading its registers again log entry 42: the model's choices. -/
def Obligations.BarrierResults : Prop :=
  ((∀ (s : State) (x : Iss), s.Ready [] x → x.sp.id = x.f.split →
     (∃ t k sp, exec .bar s = .next t ∧ x.now t = some (k, sp) ∧ sp.status = .barrier ∧ sp.atFlush = false ∧ sp.pc = x.f.next ∧
       sp.hintAt = x.at_ ∧ sp.mask = x.sp.mask ∧ sp.win = x.sp.win) ∧
     (∃ t k sp, exec .yield s = .next t ∧ x.now t = some (k, sp) ∧ sp.pc = x.f.next ∧ sp.mask = x.sp.mask ∧
       (s.detCore x.f.core = false → t = x.retire x.k x.sp)) ∧
     ∀ g, ∃ t k, exec (.exit g) s = .next t ∧ t.pack x.f.core x.f.slot = some k ∧ k.exited = x.k.exited ||| x.k.active x.sp g ∧
       (∀ i sp, k.split i = some sp → sp.mask &&& x.k.active x.sp g = 0) ∧
       k.phase = if x.k.remaining &&& ~~~(x.k.active x.sp g) = 0 then if x.k.drained then .ended else .draining else x.k.started.phase) ∧
   (∀ queue index group (s : State) gr, s.group { queue := queue, index := index } group = some gr → s.barrierFull gr false = true →
     s.groupDone gr = true →
     ∃ t, exec (.barCompletion queue index group) s = .next t ∧ sameBytes s t ∧
       ∀ p ∈ s.groupPacks gr, ∀ i sp, p.2.2.split i = some sp → sp.status = .barrier → leftBarrier t p.1 p.2.1 i sp) ∧
   (∀ queue index group (s : State) gr, s.group { queue := queue, index := index } group = some gr → s.deadlocked gr = true →
     exec (.barrierDeadlock queue index group) s =
       .next (gr.packs.foldl (fun s p => s.modPack p.1 p.2 fun k => { k with wantFlags := false })
         ((s.groupPacks gr).foldl (fun s p => p.2.2.splits.foldl (fun s e => s.syncAtBarrier p.1 p.2.1 e.1) s) s)))) ∧
  ((∀ d a (s : State) (x : Iss), s.Ready [opT 0 d, rdG 1 a] x → x.sp.id = x.f.split →
     let at_ := phaseByte (x.k.readT d.toNat) (x.g a)
     let p := phaseAt (x.s.core x.f.core).sram at_
     (phaseOk x d a 0xF00E0000 → cut (x.g a).toNat 20 8 ≠ 0 → x.storing = false →
       ∃ t, exec (.pbinit d a) s = .next t ∧ phaseAt (t.core x.f.core).sram at_ =
         { expect := cut (x.g a).toNat 20 8, arrived := 0, phase := false, gen := 0, reserved := false }) ∧
     (phaseOk x d a 0xFFFE0000 → x.k.working = false → p.bad = false →
       ∃ t, exec (.pbarrive d a) s = .next t ∧ phaseAt (t.core x.f.core).sram at_ =
         if p.arrived + 1 = p.expect then { p with arrived := 0, phase := !p.phase, gen := (p.gen + 1) % 2 ^ 32 }
         else { p with arrived := p.arrived + 1 }) ∧
     (phaseOk x d a 0xFFFE0000 → x.storing = false → p.bad = false → exec (.pbwait d a) s =
       .next (if p.phase = bit (x.g a).toNat 16 then x.stalledAt (.pbwait d.toNat a.toNat) else x.retire x.k x.sp))) ∧
   (∀ core slot split (s : State) (x : Iss) t a, s.stalled core slot split = some x → x.sp.stall = some (.pbwait t a) →
     (phaseAt (x.s.core core).sram (phaseByte (x.k.readT t) (x.k.readG a))).phase ≠ bit (x.k.readG a).toNat 16 →
     exec (.pbwaitPass core slot split) s = .next (x.retire x.k x.sp)))

/-- R216, R217: `fetchw` clears READY in its mailbox and is outstanding; the answer of the distributor writes WID, STATUS and READY; `launch` reports
0 for a record put in its queue, 1 for a full queue and 2 for a record that may not be queued (which those are, where 15 R319 leaves it, is the
model's choice: log entry 40; so is the answer's one step: log entry 39). -/
def Obligations.FetchAndLaunchResults : Prop :=
  (∀ d a (s : State) (x : Iss), s.Ready [opT 0 d, rdG 1 a] x → x.sp.id = x.f.split → x.badHandle d.toNat [1, 2, 3] = false →
    offsetBad (x.k.readT d.toNat) (x.g a) 0xFFFF0000 16 = false → x.k.fetch = none → x.storing = false →
    let b := phaseByte (x.k.readT d.toNat) (x.g a)
    ∃ t k sp, exec (.fetchw d a) s = .next t ∧ x.now t = some (k, sp) ∧ k.fetch = some { mailbox := b } ∧
      (t.core x.f.core).sram.readLE (b + 12) 4 = 0 ∧ sp.pc = x.f.next ∧ t.mem = s.mem) ∧
  (∀ core slot (s : State) (k : Pack) f l, State.pack s core slot = some k → k.fetch = some f → s.launch k.tag = some l →
    ∃ t k', exec (.fetchwAnswer core slot) s = .next t ∧ t.pack core slot = some k' ∧ k'.fetch = none ∧
      (t.core core).sram.readLE (f.mailbox + 12) 4 = 1 ∧ t.mem = s.mem ∧
      (t.core core).sram.readLE (f.mailbox + 8) 4 = (if l.hdr.persist then if l.unplaced.isSome then 1 else 2 else 3) ∧
      ∀ n, l.hdr.persist = true → l.unplaced = some n →
        (t.core core).sram.readLE f.mailbox 8 = (l.groupBase n).toNat ∧ k'.granted = k.granted ++ [n]) ∧
  (∀ d a (s : State) (x : Iss) (t : Xlated), s.Ready [wrG 0 d, rdG 1 a 2] x → x.k.scBusy = false → x.k.gated x.sp true = false →
    (∀ o ∈ x.k.ops, o.done = true ∨ o.path ≠ .lane) →
    x.s.access x.f.core false x.k.ctx .lane (x.k.readG64 a.toNat) 64 64 .load = .ok t →
    (bit t.attr 0 = true → x.unperformed = false) →
    let bs := t.s.mem.readList t.pa 64
    let q := recField bs 2 2
    let y : Iss := { x with s := (t.s.enqueue x.k.ctx bs).1 }
    ∃ n, exec (.launch d a) s = .next (y.commit.retire (x.k.setG d.toNat (BitVec.ofNat 32 n)) (x.saw t.pa 64)) ∧
      (t.s.launchRefused x.k.ctx bs = true → n = 2 ∧ y.s = t.s) ∧
      (t.s.launchRefused x.k.ctx bs = false → (t.s.qReserve q + 2 ^ 32 - t.s.qHead q) % 2 ^ 32 < t.s.qSlots q → n = 0) ∧
      (t.s.launchRefused x.k.ctx bs = false → t.s.qSlots q ≤ (t.s.qReserve q + 2 ^ 32 - t.s.qHead q) % 2 ^ 32 → n = 1 ∧ y.s = t.s))

/-- R218, R219: a release adds gd to COUNT and widens the location; a try reads COUNT; an acquire reads it once it has reached gd, and stalls
below it until QTOK_ACQ_PASS. R220–R222: a push whose items all fit appends them in lane order, or stalls; a pop takes the oldest items for the
lowest active lanes, which leave the list and count as held, and with the context quiescent takes none; WLPUSH_RESUME and WLPOP_RESUME carry out what
stalled; `wldone` gives holds back. The model's choices: the fields of a location that R219 leaves (log entry 24), instructions with no active lane,
which go on whether or not the context has lists (log entry 18), and registers read again when a stall ends (log entry 42). -/
def Obligations.TokenAndWorkListResults : Prop :=
  ((∀ d a (s : State) (x : Iss) (t : Xlated), x.tokenAt a.toNat = some (.ok t) → t.s.mem = s.mem →
     let y : Iss := { x with s := t.s }
     (s.Ready [rdG 0 d, rdG 1 a 2] x →
       ((∀ o ∈ x.k.ops, o.done = true ∨ o.path ≠ .lane) → bit t.attr 1 = false →
         ∃ u, exec (.qtokRel d a) s = .next u ∧ sameOutside s u t.pa 8 ∧
           u.mem.readLE t.pa 4 = (s.mem.readLE t.pa 4 + (x.g d).toNat) % 2 ^ 32 ∧
           (x.f.slot < 16 → x.f.core < 20480 →
             u.mem.readLE (t.pa + 4) 4 = locationAfter (s.mem.readLE (t.pa + 4) 4) x.f.core x.f.slot)) ∧
       exec (.qtokAcq d a) s = .next (if (s.mem.readLE t.pa 4 + 2 ^ 32 - (x.g d).toNat) % 2 ^ 32 < 2 ^ 31 then
           y.retire (x.k.setG d.toNat (BitVec.ofNat 32 (s.mem.readLE t.pa 4))) (y.saw t.pa 8)
         else x.stalledAt (.acquire d.toNat a.toNat))) ∧
     (s.Ready [wrG 0 d, rdG 1 a 2] x → exec (.qtokTry d a) s =
       .next (y.retire (x.k.setG d.toNat (BitVec.ofNat 32 (s.mem.readLE t.pa 4))) (y.saw t.pa 8)))) ∧
   (∀ core slot split (s : State) (x : Iss) (t : Xlated) d a, s.stalled core slot split = some x → x.sp.stall = some (.acquire d a) →
     x.tokenAt a = some (.ok t) → (t.s.mem.readLE t.pa 4 + 2 ^ 32 - (x.k.readG d).toNat) % 2 ^ 32 < 2 ^ 31 →
     let y : Iss := { x with s := t.s }
     exec (.qtokAcqPass core slot split) s =
       .next (y.retire (x.k.setG d (BitVec.ofNat 32 (t.s.mem.readLE t.pa 4))) (y.saw t.pa 8)))) ∧
  ((∀ g d a (s : State) (x : Iss), s.Ready [rdV 0 d, rdV 1 a] x → x.lists ≠ [] → x.k.active x.sp g ≠ 0 →
     (∀ n, (x.k.active x.sp g).getLsbD n → (x.lists.get (x.v d n).toNat).isSome) →
     (x.fits (x.k.active x.sp g) d.toNat = true →
       let y := (lanesOf (x.k.active x.sp g)).foldl (fun y n => pushItem y (x.v d n).toNat (x.v a n)) x
       exec (.wlpush g d a) s = .next (y.commit.retire y.k y.sp) ∧ y.k = x.k) ∧
     (x.fits (x.k.active x.sp g) d.toNat = false → exec (.wlpush g d a) s = .next (x.commit.stalledAt (.wlpush g d.toNat a.toNat)))) ∧
   (∀ g d a p (w : WorkList) s x, s.Ready [wrV 0 d, rdG 1 a] x → x.sp.id = x.f.split → x.lists ≠ [] → x.k.active x.sp g ≠ 0 →
     x.lists.get (x.g a).toNat = some w →
     (w.count = 0 → x.quiet = false → exec (.wlpop g d a p) s = .next (x.commit.stalledAt (.wlpop g d.toNat a.toNat p))) ∧
     (w.count ≠ 0 ∨ x.quiet = true →
       ∃ t, exec (.wlpop g d a p) s = .next t ∧ popped x (x.k.active x.sp g) d.toNat (x.g a).toNat p w t)) ∧
   (∀ g (s : State) (x : Iss), x.k.active x.sp g = 0 →
     (∀ d a, s.Ready [rdV 0 d, rdV 1 a] x → exec (.wlpush g d a) s = .next (x.commit.retire x.k x.sp)) ∧
     (∀ d a p, s.Ready [wrV 0 d, rdG 1 a] x → exec (.wlpop g d a p) s = .next (x.commit.retire x.k x.sp)) ∧
     (s.Ready [] x → exec (.wldone g) s = .next (x.retire x.k x.sp))) ∧
   (∀ g (s : State) (x : Iss), s.Ready [] x → x.lists ≠ [] → popcount (x.k.active x.sp g) ≤ x.k.wlhold →
     exec (.wldone g) s = .next (x.retire { x.k with wlhold := x.k.wlhold - popcount (x.k.active x.sp g) } x.sp)) ∧
   (∀ core slot split (s : State) (x : Iss), s.stalled core slot split = some x →
     (∀ g d a, x.sp.stall = some (.wlpush g d a) → x.fits (x.k.active x.sp g) d = true →
       ∃ t, exec (.wlpushResume core slot split) s = .next t ∧
         t = (let y := (lanesOf (x.k.active x.sp g)).foldl (fun y n => pushItem y (x.k.readV x.sp d n).toNat (x.k.readV x.sp a n)) x
              y.commit.retire x.k x.sp)) ∧
     (∀ g d a p w, x.sp.stall = some (.wlpop g d a p) → x.lists.get (x.k.readG a).toNat = some w → w.count ≠ 0 ∨ x.quiet = true →
       x.sp.id = split →
       ∃ t, exec (.wlpopResume core slot split) s = .next t ∧ popped x (x.k.active x.sp g) d (x.k.readG a).toNat p w t)))

end

namespace Sys2Proof.Machine

/-! ### The Trail (spec 08, 20) -/

/-- The forms of `jrec` and their kinds (08 R224). -/
inductive JournalRecord : Instr → Nat → GReg → GReg → Prop
  | tok d a : JournalRecord (.jrecTok d a) 1 d a
  | gen d a : JournalRecord (.jrecGen d a) 2 d a
  | route d a : JournalRecord (.jrecRoute d a) 3 d a

/-- A record of a kind passes its checks and can be accepted: the kernel journals, the position is the sequence's next, REPLAY only in
deterministic mode, fewer than 256 of the kind there, and room in the pool in the split's turn (08 R223, R224, 20 R412). -/
def canRecord (x : Iss) (a kind : Nat) (q : Seq) : Prop :=
  (x.s.header x.k).journal = true ∧ x.s.seq x.k.ctx (x.jseq a) = some q ∧ x.jpos a = q.next ∧
    (q.replay = true → (x.s.header x.k).det = true) ∧ q.ordinal kind q.next ≤ 255 ∧ x.s.recordTurn x.k.ctx (some x.asker) 1 = true

/-- What an accepted record leaves (08 R224, 20 R418): the payload in force in gd; in REPLAY a journalled record is returned and nothing
appended, otherwise the record is the stream's last; a token moves NEXT on. -/
def recorded (x : Iss) (d a kind : Nat) (q : Seq) (t : State) : Prop :=
  ∃ k sp q', x.now t = some (k, sp) ∧ sp.pc = x.f.next ∧ t.seq x.k.ctx (x.jseq a) = some q' ∧
    q'.next = (if kind = 1 then q.next + 1 else q.next) ∧ q'.emit = q.emit ∧ q'.held = q.held ∧
    match q.journalled kind q.next with
    | some j => k.readG64 d = j.payload ∧ q'.stream = q.stream ∧ (j.payload ≠ x.jpayload a → q'.forced = true)
    | none => k.readG64 d = x.jpayload a ∧
        ∃ r, q'.stream = q.stream ++ [r] ∧ r.kind = kind ∧ r.pos = q.next ∧ r.ord = q.ordinal kind q.next ∧ r.payload = x.jpayload a ∧
          r.sidx = q.sidx

/-! ### Placement and pre-emption (spec 15) -/

/-- 01 R19, 15 R322, R328: a pack as it is placed: one root split at its entry with every present lane, the argument words in its
first uniform registers, and every other register zero. -/
def freshPack (l : Launch) (x lpack : Nat) (sh : Nat × Nat × Nat × Nat) (spillAt : Nat) : Prop :=
  let k := l.newPack x lpack sh spillAt
  (∀ r n, k.v.get (32 * r + n) = 0) ∧ (∀ r, r < min 16 sh.2.2.1 → k.readG r = l.args.getD r 0) ∧ (∀ r, min 16 sh.2.2.1 ≤ r → k.readG r = 0) ∧
    k.p = [] ∧ k.t = [] ∧ k.acc = [] ∧ k.fpstat = 0 ∧ k.mst = 0 ∧ k.exited = 0 ∧ k.wlhold = (if l.flag 4 then 1 else 0) ∧ k.wid = l.groupBase x ∧
    k.order = [0] ∧ ∃ sp, k.splits = [(0, sp)] ∧ sp.mask = presentMask l.hdr.slices ∧ sp.parent = none ∧ sp.win = [] ∧ sp.status = .ready ∧
      (l.hdr.hasRoles = false → sp.pc = BitVec.ofNat 32 l.hdr.entry)

end Sys2Proof.Machine

section
open Sys2Proof Sys2Proof.Machine

/-- R224–R226, R411–R418: records, emissions, marks and truncations that pass their checks; a `jrec` that has waited in
its core's port is accepted by JREC_ACCEPTANCE once the pool has room in its turn. The model's choices: an ordinal counts the records of one kind and
position, and a `jrec` is accepted in one step (log entry 28); the order in which room is given (log entry 29); when a suppressed `jemit` does not
wait (log entry 97); registers read again when a stall ends (log entry 42). -/
def Obligations.JournalInstructionResults : Prop :=
  (∀ i kind d a, JournalRecord i kind d a → ∀ (s : State) (x : Iss) q, s.Ready [wrG 0 d 2, rdG 1 a 4] x → x.sp.id = x.f.split →
    canRecord x a.toNat kind q → (x.s.core x.f.core).portRecords < 64 → ∃ t, exec i s = .next t ∧ recorded x d.toNat a.toNat kind q t) ∧
  (∀ core slot split (s : State) (x : Iss) kind d a q, s.stalled core slot split = some x → x.sp.id = split → x.sp.stall = some (.jrec kind d a) →
    canRecord x a kind q → ∃ t, exec (.jrecAcceptance core slot split) s = .next t ∧ recorded x d a kind q t) ∧
  (∀ (a : GReg) (s : State) (x : Iss) q, s.Ready [rdG 1 a 4] x → (x.s.header x.k).journal = true →
    x.s.seq x.k.ctx (x.jseq a.toNat) = some q →
    let p := x.jpos a.toNat
    (p = q.emit → p < q.next → x.jpayload a.toNat = 0 → (posLe p q.leftMax = true ∨ x.s.heldEmissions < 4096) →
      ∃ t q', exec (.jemit a) s = .next t ∧ t.seq x.k.ctx (x.jseq a.toNat) = some q' ∧ q'.emit = q.emit + 1 ∧ q'.stream = q.stream ∧
        (posLe p q.leftMax = true → q'.held = q.held) ∧
        (posLe p q.leftMax = false → ∃ e, q'.held = q.held ++ [e] ∧ e.pos = p ∧ e.token = Words.get q.toks p ∧ e.resent = posLe p q.lastJ)) ∧
    (p < q.next → x.s.recordTurn x.k.ctx (some x.asker) 1 = true →
      ∃ t q' r, exec (.jmark a) s = .next t ∧ t.seq x.k.ctx (x.jseq a.toNat) = some q' ∧ q'.marks = q.marks ++ [(p, x.jpayload a.toNat)] ∧
        q'.stream = q.stream ++ [r] ∧ r.kind = 4 ∧ r.pos = p ∧ r.payload = x.jpayload a.toNat) ∧
    (posLe p q.durable = true → x.jpayload a.toNat = 0 → p < q.next → q.left = [] →
      x.s.truncRoom (x.s.modSeq x.k.ctx (x.jseq a.toNat) fun q => q.truncate p) x.k.ctx x.asker = true →
      ∃ t q' r, exec (.jtrunc a) s = .next t ∧ t.seq x.k.ctx (x.jseq a.toNat) = some q' ∧
        q'.stream = (q.stream.filter fun e => decide (p < e.pos)) ++ [r] ∧ r.kind = 6 ∧ r.pos = p))

/-- R413–R416: an acknowledged emission leaves as a frame, and its LEFT record follows as soon as the pool has room; a partner's acknowledgement
raises ACKIDX and no other module's does; a record for a store with room is stored and acknowledged up to it, whatever indexes its stream lacks, but
never past a record that was not stored; one without room is not stored and nothing is sent; heartbeats and silence after 100 µs and 1 ms. What a
store acknowledges is the model's reading (log entry 31), and so is a LEFT record that waits (log entry 72). -/
def Obligations.PartnerResults : Prop :=
  (∀ ctx seq (s : State) (c : Context) q e rest, s.context ctx = some c → c.seqs.get seq = some q → q.held = e :: rest → s.failSilent = false →
    (∀ p, c.partner = some p → p.silent = false) → (∀ i, e.tokIdx = some i → c.partner.isSome ∧ i < q.ackIdx) →
    ∃ t q' out, exec (.emissionRelease ctx seq) s = .next t ∧ t.seq ctx seq = some q' ∧ q'.held = rest ∧
      t.outbox = s.outbox ++ .emission q.port q.dmac q.client seq e.pos e.token e.resent q.forced :: out ∧
      (q.left = [] → s.recordTurn ctx (some (.left seq)) 1 = true → q'.left = [] ∧ ∃ r, q'.stream = q.stream ++ [r] ∧ r.kind = 7 ∧ r.pos = e.pos) ∧
      (q.left = [] → s.recordTurn ctx (some (.left seq)) 1 = false → q'.left = [e.pos] ∧ q'.stream = q.stream)) ∧
  (∀ peer ctx seq ackidx (s : State) (c : Context) p q, s.context ctx = some c → c.partner = some p → c.seqs.get seq = some q →
    ∃ t q', exec (.journalAckReceive peer ctx seq ackidx) s = .next t ∧ t.seq ctx seq = some q' ∧
      q'.ackIdx = if p.peer = peer then max q.ackIdx (min ackidx q.sidx) else q.ackIdx) ∧
  (∀ source bytes (s : State) j, s.stores.get source = some j → bytes.length = 32 → j.used + 32 ≤ j.size → s.failSilent = false →
    let ctx := recField bytes 12 4
    let seq := recField bytes 4 4
    let top := max ((j.next ctx seq).getD 0) (recField bytes 16 8 + 1)
    let gaps := s.unstored.filter fun u => u.1 == source && u.2.1 == ctx && u.2.2.1 == seq && u.2.2.2 != recField bytes 16 8
    ∃ t j' n, exec (.journalRecordReceive source bytes) s = .next t ∧ t.mem.readList (j.base + j.used) 32 = bytes ∧
      sameOutside s t (j.base + j.used) 32 ∧ t.stores.get source = some j' ∧ j'.used = j.used + 32 ∧ j'.next ctx seq = some top ∧
      t.outbox = s.outbox ++ [.ack source ctx seq n] ∧ (gaps = [] → n = top) ∧ n ≤ top ∧ ∀ u ∈ gaps, n ≤ u.2.2.2) ∧
  (∀ source bytes (s : State), bytes.length = 32 → (∀ j, s.stores.get source = some j → j.size < j.used + 32) →
    ∃ t, exec (.journalRecordReceive source bytes) s = .next t ∧ t.mem = s.mem ∧ t.stores = s.stores ∧ t.outbox = s.outbox ∧
      (source, recField bytes 12 4, recField bytes 4 4, recField bytes 16 8) ∈ t.unstored) ∧
  (∀ peer (s : State) p, s.peers.get peer = some p →
    (∃ t, exec (.heartbeatReceive peer) s = .next t ∧ t.peers.get peer = some { p with heard := s.now, silent := false }) ∧
    (s.failSilent = false → p.sent + 100000 ≤ s.now → ∃ t, exec (.heartbeatSend peer) s = .next t ∧
      t.outbox = s.outbox ++ [.heartbeat peer] ∧ t.peers.get peer = some { p with sent := s.now }) ∧
    (p.silent = false → p.heard + 1000000 ≤ s.now → ∃ t, exec (.peerSilent peer) s = .next t ∧
      t.peers.get peer = some { p with silent := true } ∧
      ∀ n c q, s.context n = some c → c.partner = some q → q.peer = peer →
        ∃ c', t.context n = some c' ∧ c'.partner = some { q with silent := true }))

/-! ### Broadcasts (spec 10, 19) -/

/-- 10 R267–R269, 19 R395: a broadcast store with room granted everywhere and a free cell of this frame's slot goes out and completes; a
payload that every cluster can apply is delivered: at the end of the FIFO bank of each core of a MODE 1 entry with room there, and, where a MODE 2
entry names a ring, as its active lanes' words in the next slot with ARRIVED raised; an entry of a filter is written alone; a frame ends. -/
def Obligations.BroadcastResults : Prop :=
  (∀ core slot op (s : State) (k : Pack) (o : PendOp) mgroup va lanes vals owner, State.pack s core slot = some k →
    k.ops.find? (fun p => p.id == op) = some o → o.kind = .bst mgroup va lanes vals → o.done = false → k.bstAhead o mgroup = false →
    s.slotOwner (mgroup % 8) (clusterOf core) s.frame = some owner → (∀ c, c < Config.clusters → s.grants c mgroup = true) →
    s.slotFree (mgroup % 8) owner s.frame (clusterOf core) = true →
    ∃ t k' p, exec (.bstEmission core slot op) s = .next t ∧ t.inflight = s.inflight ++ [p] ∧ p.mgroup = mgroup ∧ p.bus = mgroup % 8 ∧
      p.lanes = lanes ∧ p.vals = vals ∧ p.frame = s.frame ∧ p.participant = owner ∧ t.mem = s.mem ∧ t.pack core slot = some k' ∧
      ∀ q ∈ k'.ops, q.id = op → q.done = true) ∧
  (∀ bus (s : State) p, s.nextPayload bus = some p → (∀ c ∈ p.waiting, s.canApply p c = true ∧ s.behindAt p c = false) →
    ∃ t, exec (.broadcastDelivery bus) s = .next t ∧ (∀ q ∈ t.inflight, q.serial ≠ p.serial) ∧
      (p.waiting.Nodup → p.mgroup < 256 → (∀ c ∈ p.waiting, c < Config.clusters) → ∀ c ∈ p.waiting,
        let f := s.filter c p.mgroup
        (f.mode = 1 → ∀ n ∈ f.cores, (s.core (128 * c + n)).bank f.bank = .fifo → ((s.core (128 * c + n)).fifo f.bank).full = false →
          ((t.core (128 * c + n)).fifo f.bank).entries = ((s.core (128 * c + n)).fifo f.bank).entries ++ [p.vals]) ∧
        (f.mode = 2 → f.slots ≠ 0 → (∀ d ∈ p.waiting, d ≠ c → (s.filter d p.mgroup).mode ≠ 2 ∨ (s.filter d p.mgroup).slots = 0) →
          (∀ g, s.group p.tag p.group = some g → ∃ e ∈ s.groupPacks g, e.2.2.reaped = false) →
          let at_ := f.ring + 128 + 128 * (s.ringArrived f.ring % f.slots)
          t.mem.readLE f.ring 8 = (s.ringArrived f.ring + 1) % 2 ^ 64 ∧
            (∀ i, p.lanes.getLsbD i = true → t.mem.readLE (at_ + 4 * i) 4 = (Words.get p.vals i).toNat) ∧
            ∀ a, (a < f.ring ∨ f.ring + 8 ≤ a) → (∀ i, p.lanes.getLsbD i = true → a < at_ + 4 * i ∨ at_ + 4 * i + 4 ≤ a) →
              t.mem.get a = s.mem.get a))) ∧
  (∀ (s : State) p cluster b c, (s.core c).bank b = .fifo → ((s.core c).fifo b).full = false →
    (((s.intoFifo p cluster b c).core c).fifo b).entries = ((s.core c).fifo b).entries ++ [p.vals]) ∧
  (∀ cluster mgroup byte size value (s : State), cluster < Config.clusters → mgroup < 256 → byte + size ≤ 32 → size = 4 ∨ size = 8 →
    byte % size = 0 → ∃ t, exec (.filterEntryWrite cluster mgroup byte size value) s = .next t ∧
      (byte = 0 → (t.filter cluster mgroup).mode = value % 4 ∧ t.win (filterAt cluster mgroup + 4) 4 = 0) ∧
      ∀ c g, g < 256 → (c ≠ cluster ∨ g ≠ mgroup) → t.filter c g = s.filter c g) ∧
  (∀ bad (s : State), s.frame ≠ 0 ∨ bad = [] → ∃ t, exec (.settFrame bad) s = .next t ∧ t.frame = s.frame + 1 ∧
    ((∀ r ∈ bad, r.vetoes = 0) → t.inflight = s.inflight))

/-! ### Contexts and launches (spec 15, 16) -/

/-- R316, R319, R324–R326, R329, R332, R348: a record is consumed at HEAD; CREATE makes its context; a launch is made resident and, its conditions met, dispatched;
its leases are walked; it completes once every group has; a pack has ended with its registers released, and its group's packs leave their
cores with the last of them; waiting queues age; an idle context is declared
quiescent; a walk fills the TLB. R317, R343: DESTROY of a context ends its work and, once that has left the device and its sequences are closed,
frees it with its cached translations and what it owned on cores; a second DESTROY meanwhile finds no such context. That DESTROY waits so is the
model's choice (log entry 58; R317 gives no wait), and so are what a walk of the TABLE_WALK event leaves and when quiescence is declared (log entry
59). -/
def Obligations.LaunchResults : Prop :=
  ((∀ queue (s : State), 5 ≤ s.phase → s.queueServed queue = true →
     let a := s.qRing queue + 64 * (s.qHead queue % s.qSlots queue)
     s.mem.readLE a 1 ≠ 0 →
     ∃ t l, exec (.launchRecordConsume queue) s = .next t ∧ t.qHead queue = (s.qHead queue + 1) % 2 ^ 32 ∧ l ∈ t.launches ∧
       l.tag = { queue := queue, index := s.qHead queue % 2 ^ 22 } ∧ l.bytes = s.mem.readList a 64) ∧
   (∀ queue (s : State) l lists, s.headRecord queue = some l → l.kind = 2 → createFault l.bytes = none → s.context l.ctx = none →
     s.readLists (recField l.bytes 48 8) (recField l.bytes 56 2) = lists.map some →
     ∃ t, exec (.create queue) s = .next t ∧ t.context (recField l.bytes 4 4) = some (createContext l.bytes lists)) ∧
   (∀ queue (s : State) l c, s.headRecord queue = some l → l.kind = 1 → 5 ≤ s.phase → l.failedPages = [] → launchFault l.bytes = none →
     s.context l.ctx = some c →
     (∀ t, l.phase = .consumed → s.makeResident l c = some t → exec (.launchDispatch queue) s = .next t) ∧
     (l.phase ≠ .consumed → s.dispatchReady l = true → exec (.launchDispatch queue) s = .next (s.dispatch c l)) ∧
     (l.phase ≠ .consumed → s.dispatchReady l = true →
       let words := fun va n => (List.range n).map fun k => recField (s.residentBytes c (va + 4 * k) 4) 0 4
       let l₀ := { l with hdr := parseHeader (s.residentBytes c l.image.toNat 256) }
       let l' := { l₀ with
         phase := .placing, args := if l.args_ = 0 then [] else (words l.args_ 16).map (BitVec.ofNat 32)
         places := if l.flag 1 then words (l.args_ + 64) l.count else [], leases := s.leasesOf c l₀ }
       ∃ t, exec (.launchDispatch queue) s = .next t ∧ (s.dispatchFault c l' = none → s.launch l.tag = some l → t.launch l.tag = some l') ∧
         ∀ status detail, s.dispatchFault c l' = some (status, detail) →
           let a := s.qCpl l.tag.queue + 16 * (l.tag.index % s.qSlots l.tag.queue)
           inDevice a 16 = true → t.mem.readLE a 4 = status % 2 ^ 32 ∧ t.mem.readLE (a + 4) 4 = detail % 2 ^ 32)) ∧
   (∀ queue index (s : State) l c, s.launch { queue := queue, index := index } = some l → s.context l.ctx = some c → l.phase = .placing →
     l.leased = false → l.failedPages = [] → (∀ va ∈ l.leasePages, s.armedPage c va = false) →
     (s.walkAll c false (l.leasePages.map fun p => (p, false))).2 = [] →
     exec (.leaseWalk queue index) s =
       .next ((s.walkAll c false (l.leasePages.map fun p => (p, false))).1.modLaunch l.tag fun l => { l with leased := true })) ∧
   (∀ queue index (s : State) l, s.launch { queue := queue, index := index } = some l → l.phase = .placing → l.allOut = true →
     l.count ≤ l.completed → (∀ p ∈ s.inflight, p.tag ≠ l.tag) →
     let a := s.qCpl l.tag.queue + 16 * (l.tag.index % s.qSlots l.tag.queue)
     ∃ t l', exec (.launchCompletion queue index) s = .next t ∧ t.launch { queue := queue, index := index } = some l' ∧ l'.phase = .closed ∧
       l'.leased = false ∧
       (inDevice a 16 = true → l.sigTok = 0 → t.mem.readLE a 4 = 1 ∧ t.mem.readLE (a + 4) 4 = 0 ∧ t.mem.readLE (a + 8) 8 = s.now % 2 ^ 64)) ∧
   (∀ core slot (s : State) (k : Pack), State.pack s core slot = some k → k.remaining = 0 → (∀ o ∈ k.ops, o.cls = .none_) → k.reaped = false →
     ∃ t, exec (.packEnd core slot) s = .next t ∧ (∀ k', t.pack core slot = some k' → k'.phase = .ended ∧ k'.v = [] ∧ k'.g = [] ∧ k'.ops = []) ∧
       ∀ g, s.group k.tag k.group = some g → g.ended = false → (core, slot) ∈ g.packs → (s.core core).latch = [] →
         (∀ p ∈ s.groupPacks g, p.1 = core ∧ p.2.1 = slot ∨ p.2.2.reaped = true) → (∀ p ∈ s.inflight, p.tag ≠ k.tag) →
         ∀ p ∈ g.packs, t.pack p.1 p.2 = none) ∧
   (∀ queue (s : State) w, s.waits.get queue = some w → (w.2 + 1) * 1000000 ≤ w.1 →
     ∃ t, exec (.queueAging queue) s = .next t ∧ t.effective queue = min 7 (s.qPrio queue + w.2 + 1)) ∧
   (∀ ctx (s : State) c, s.context ctx = some c → c.quiescent = false → s.quiet c = true →
     exec (.quiescenceDeclared ctx) s = .next (s.setContext { c with quiescent := true })) ∧
   (∀ core va (s : State) ctx, s.residentCtx core = some ctx → s.tlbHit core false ctx va.toNat = none →
     exec (.tableWalk core va) s = .next (s.reach core false ctx va .load).1 ∧
       ∀ t c pa attr, s.reach core false ctx va .load = (t, .ok (pa, attr, true)) → s.context ctx = some c →
         ∃ e, t.tlbHit core false c.num va.toNat = some e ∧ leafBase e.leaf e.size + va.toNat % e.size = pa ∧ bit e.leaf 6 = true)) ∧
  (∀ queue (s : State) l c, s.headRecord queue = some l → l.kind = 3 → destroyFault l.bytes = none → s.context l.ctx = some c →
     (∀ tag, c.ending = some tag → tag ≠ l.tag → exec (.destroy queue) s = .next (s.finish l.tag 20 l.ctx)) ∧
     ((∀ tag, c.ending = some tag → tag = l.tag) →
       let u := s.endContext l.ctx l.tag
       ∃ t, exec (.destroy queue) s = .next t ∧
         (u.contextBusy l.ctx = false → u.seqsClosed l.ctx = true → t.context c.num = none ∧ (∀ e ∈ t.tlb, e.ctx ≠ c.num) ∧
           (∀ e ∈ t.walkCache, e.ctx ≠ c.num) ∧ ∀ k, (t.core k).owner ≠ some c.num) ∧
         (u.contextBusy l.ctx = true ∨ u.seqsClosed l.ctx = false → t = u)))

/-- R327, R333–R342: a group placed at the cores given, or the groups of a COOP launch; PREEMPTION begins its actions, which takes no pack away and
changes no byte; a flushed group returns to its launch, and a closure that has stopped is marked so, written to the pool and lifted off its cores; a
closure whose record still holds its bytes is placed again with every pack's registers and splits; a dormant reservation is released at its EXPIRY.
The model's choices: the order of a placement's cores (log entry 34), when victims stop (log entry 37), a released reservation's flag and its request
anew (log entry 38), and the blocks' places in a restore (log entries 35, 36). -/
def Obligations.PlacementResults : Prop :=
  (∀ l n lpack sh spillAt, freshPack l n lpack sh spillAt) ∧
  (∀ queue index group cluster positions (s : State) l, s.launch { queue := queue, index := index } = some l → s.phase = 5 →
    s.placeable l (List.range Config.clusters) = true → l.unplaced = some group → s.chosenQueue = some queue →
    let cores := positions.map fun p => 128 * cluster + p
    (∀ t, l.flag 2 = false → s.placeGroup l group cores = some t →
      exec (.groupPlacement queue index group cluster positions) s = .next ((t.servedQueue queue).wakeResvs l.ctx)) ∧
    (∀ t, l.flag 2 = true → l.twoClusters (cores.map clusterOf) = true → s.placeAll l l.together cores = some t →
      exec (.groupPlacement queue index group cluster positions) s = .next ((t.servedQueue queue).wakeResvs l.ctx))) ∧
  (∀ queue (s : State) l vs, s.launches.find? (fun l => l.tag.queue == queue && l.wantsPlace) = some l →
    l.latBound ≠ 0 → l.leased = true → (s.withoutAll s.inHand).canPlace l = false →
    (s.withoutAll s.inHand).enough l [] (s.victims l) = some vs →
    ∃ t, exec (.preemption queue) s = .next t ∧ t.mem = s.mem ∧
      ∀ core slot, (t.pack core slot).isSome = (s.pack core slot).isSome) ∧
  (∀ queue index group (s : State) l g, s.launch { queue := queue, index := index } = some l →
    s.group { queue := queue, index := index } group = some g → g.stopped = false →
    let quiet := fun ps : List (Nat × Nat × Pack) =>
      (∀ p ∈ ps, p.2.2.quiet = true ∧ ∀ f ∈ (s.core p.1).fifos, f.2.promised = 0) ∧ s.flushDue ps = false
    let closure := s.packsOn l.ctx (s.closureOf l.ctx g)
    (g.victim = some .flush → g.committed = false → quiet (s.ownPacks g) →
      ∃ t l', exec (.victimStop queue index group) s = .next t ∧ t.launch { queue := queue, index := index } = some l' ∧
        g.x ∈ l'.returned ∧ l'.groups.get g.x = none) ∧
    (g.victim = some .save → s.saveFits l.ctx g = true → quiet closure →
      (∀ p ∈ closure, p.2.2.stopping = true ∧ ∀ h, s.group p.2.2.tag p.2.2.group = some h → h.victim = some .save) →
      ∃ t, exec (.victimStop queue index group) s = .next t ∧ t.mem = s.mem ∧
        ∀ u ∈ groupsOf closure, ∀ h, t.group u.1 u.2 = some h → h.stopped = true)) ∧
  (∀ queue index group (s : State) l g a c, s.launch { queue := queue, index := index } = some l →
    s.group { queue := queue, index := index } group = some g → g.victim = some .save → g.stopped = true →
    (∀ p ∈ s.packsOn l.ctx (s.closureOf l.ctx g),
      p.2.2.stopping = true ∧ ∀ h, s.group p.2.2.tag p.2.2.group = some h → h.victim = some .save) →
    s.carve l.ctx (ceilDiv (s.saveBytes (s.closure l.ctx g)).length 4096) = some (a, c) →
    ∃ t, exec (.closureSave queue index group) s = .next t ∧
      t.mem.readList (c.pool + 4096 * a) (s.saveBytes (s.closure l.ctx g)).length = s.saveBytes (s.closure l.ctx g) ∧
      sameOutside s t (c.pool + 4096 * a) (s.saveBytes (s.closure l.ctx g)).length ∧
      ∀ p ∈ (s.closure l.ctx g).packs, t.pack p.1 p.2.1 = none) ∧
  (∀ ctx save cluster positions (s : State) c v, s.context ctx = some c → c.saves.find? (fun v => v.id == save) = some v → s.phase = 5 →
    let cores := positions.map fun p => 128 * cluster + p % 128
    cores.length = v.cores.length → cores.eraseDups.length = cores.length →
    (∀ p ∈ v.cores.zip cores, s.blockFits p.2 p.1.2 = true) → (∃ g ∈ v.groups, s.chosenQueue = some g.1.queue) →
    ∃ t, exec (.closureRestore ctx save cluster positions) s = .next t ∧
      (∀ c', t.context ctx = some c' → ∀ w ∈ c'.saves, w.id ≠ save) ∧
      (s.mem.readList v.base v.size = v.bytes → ∀ p ∈ v.cores.zip cores, (p.1.2.packs.map (·.1)).Nodup →
        (∀ q ∈ v.cores, ∀ e ∈ q.2.packs, e.2.reaped = false) → ∀ e ∈ p.1.2.packs,
        ∃ k, t.pack p.2 e.1 = some k ∧ k.v = e.2.v ∧ k.g = e.2.g ∧ k.p = e.2.p ∧ k.t = e.2.t ∧ k.acc = e.2.acc ∧ k.splits = e.2.splits ∧
          k.ops = e.2.ops ∧ k.stopping = false ∧
          k.phase = if e.2.phase = .ended then .ended else if e.2.splits = [] then .draining else .placed)) ∧
  (∀ resv (s : State) r e, s.resvs.get resv = some r → r.dormant = some e → e ≤ s.now →
    ∃ t, exec (.reservationExpiry resv) s = .next t ∧ t.resvs.get resv = some { r with dormant := none, released := true })

end

namespace Sys2Proof.Machine

/-! ### The host complexes (spec 11, 16) -/

/-- An event can be delivered: its context's routing entry is valid and names an interrupt, and the ring there is enabled, well formed, in
device memory and not full; an ERROR record is no longer open (16 R357, R363, R364, 20 R420). -/
def deliverable (s : State) (ctx : Nat) (e : Event) : Prop :=
  let r := s.win (0x200000 + 8 * ctx) 8
  let g := ringAt (cut r 1 1)
  bit r 0 = true ∧ cut r 10 11 ≠ 0 ∧ s.win (g + 12) 1 % 2 = 1 ∧ slotsOk (s.win (g + 8) 4) = true ∧
    (s.win (g + 20) 4 + 2 ^ 32 - s.win (g + 16) 4) % 2 ^ 32 < s.win (g + 8) 4 ∧
    inDevice (s.win g 8 + 64 * (s.win (g + 20) 4 % s.win (g + 8) 4)) 64 = true ∧ s.stillOpen e = false

/-- What a host hart's access to device memory writes, if it writes: a store-conditional where the hart's reservation stands (11 R290, 16
R355). -/
def hartStores (s : State) (a : HostAccess) : Option Nat :=
  match a.op with
  | .sc => if s.reserved a then some a.value else none
  | op => hartResult op a.size (s.mem.readLE a.pa a.size) a.value

/-! ### Commands (spec 16, 18, 19, 20) -/

/-- The commands and their KIND (16 R358, 18 R388, R391, 19 R403, 20 R410). -/
inductive Command : Instr → Nat → Nat → Prop
  | resume c : Command (.resume c) 1 c
  | retry c : Command (.retry c) 2 c
  | revoke c : Command (.revoke c) 3 c
  | unrevoke c : Command (.unrevoke c) 4 c
  | migrate c : Command (.migrate c) 5 c
  | query c : Command (.query c) 6 c
  | attest c : Command (.attest c) 7 c
  | reserve c : Command (.reserve c) 8 c
  | release c : Command (.release c) 9 c
  | seqopen c : Command (.seqopen c) 10 c
  | seqclose c : Command (.seqclose c) 11 c
  | partner c : Command (.partner c) 12 c
  | markdone c : Command (.markdone c) 13 c
  | jstore c : Command (.jstore c) 15 c

/-- A command has ended with a STATUS, and a COMMAND event is the last raised (16 R358, R364). -/
def ended (s t : State) (complex status : Nat) : Prop :=
  t.cmdStatus.getD complex 0 = status ∧ t.cmdHeld.get complex = none ∧ ∃ l e, t.events = s.events ++ l ++ [e] ∧ e.bytes.head? = some 4

/-- The bytes of a command block that a command of a kind names; the others are reserved (16 R358, 18 R388, R391, 19 R403, 20 R410). -/
def commandFields : Nat → List (Nat × Nat)
  | 1 => [(0, 1), (4, 16)]
  | 2 => [(0, 1), (4, 4)]
  | 3 | 4 => [(0, 1), (4, 4), (8, 16)]
  | 5 => [(0, 1), (4, 4), (8, 17)]
  | 6 => [(0, 1), (8, 12)]
  | 7 => [(0, 1), (8, 24)]
  | 8 => [(0, 1), (4, 7), (16, 32)]
  | 9 => [(0, 1), (4, 4), (8, 8)]
  | 10 => [(0, 1), (4, 44)]
  | 11 => [(0, 1), (4, 8)]
  | 12 => [(0, 1), (4, 7), (12, 6)]
  | 13 => [(0, 1), (4, 20)]
  | _ => [(0, 1), (4, 6), (16, 16)]

/-- A command's own operands are well formed (16 R358, 20 R410, R415). -/
def wellPut (s : State) (c : Nat) : Nat → Prop
  | 3 | 4 => s.cmd c 8 8 % 4096 = 0 ∧ s.cmd c 16 8 % 4096 = 0
  | 5 => s.cmd c 24 1 ≤ 2
  | 12 => s.cmd c 10 1 ≤ 1 ∧ s.cmd c 8 2 < 1024
  | _ => True

/-- What a MIGRATE may move (16 R354): a page that the context maps with a leaf of the size asked for, to a page of that size in device memory
that the context maps nowhere else. -/
def movable (s : State) (x : Context) (va new size : Nat) (l : Leaf) : Prop :=
  canonical (BitVec.ofNat 64 va) = true ∧ s.walkFrom va 5 x.table [] = .ok l ∧ leafSize l.entry l.level = size ∧ new % size = 0 ∧
    inDevice new size = true ∧ attrOut x.attrMap (leafBase l.entry size) size = false ∧ s.mapsOther x (leafBase l.entry size) size new = false

/-- R354, R358: a REVOKE is done once no placed group of the context holds a lease over its range; a MIGRATE is LEASED where a launch holds the
page, and else arms each granule, notes its WVER and goes on. -/
def revokesAndMigrates : Prop :=
  (∀ c (s : State), c < 2 → s.rangeOk c = true → (s.context (s.cmdCtx c)).isSome → s.cmd c 0 1 = 3 → s.cmdBusy c = false →
    (∀ l ∈ s.launches, l.ctx = s.cmdCtx c → (∃ g ∈ l.groups, g.2.packs ≠ []) → ∀ e ∈ l.leases,
      overlap e.base e.len (s.cmd c 8 8) (s.cmd c 16 8) = false) → ∃ t, exec (.revoke c) s = .next t ∧ ended s t c 2) ∧
  (∀ c (s : State) x l, c < 2 → s.cmd c 0 1 = 5 → s.cmdBusy c = false → s.cmdClean c (commandFields 5) = true → s.cmd c 24 1 ≤ 2 →
    s.context (s.cmdCtx c) = some x →
    let size := [4096, 65536, 2097152].getD (s.cmd c 24 1) 0
    let page := s.cmd c 8 8 / size * size
    movable s x (s.cmd c 8 8) (s.cmd c 16 8) size l →
    (s.pageLeased x.num page size = true → ∃ t, exec (.migrate c) s = .next t ∧ ended s t c 4) ∧
    (s.pageLeased x.num page size = false → ∃ t m, exec (.migrate c) s = .next t ∧ t.migrations.get c = some m ∧ t.cmdBusy c = true ∧
      m.ctx = x.num ∧ m.va = page ∧ m.newPa = s.cmd c 16 8 ∧ m.size = size ∧ m.oldPa = leafBase l.entry size ∧ m.leafAt = l.at_ ∧
      m.armed = (attrBytes x.attrMap m.oldPa size).map (fun a => (a, (s.mem.get a).toNat / 16)) ∧
      (∀ a ∈ attrBytes x.attrMap m.oldPa size, t.mem.get a = s.mem.get a ||| 2) ∧
      ∀ a, a ∉ attrBytes x.attrMap m.oldPa size → t.mem.get a = s.mem.get a))

/-! ### Rings, lasers, ports, planes and collectives (spec 19) -/

/-- A write of a port by a complex, and the port it leaves (R402). -/
inductive PortWrite (s : State) : Instr → Nat → Nat → Port → Prop
  | enable c k : PortWrite s (.portEnable c k) c k
      { s.port k with enable := true, state := if (s.port k).state = .down then (if s.portLit k then .cal else .laserWait) else (s.port k).state }
  | disable c k : PortWrite s (.portDisable c k) c k { s.port k with enable := false, state := .down }
  | gate c k : PortWrite s (.portGate c k) c k
      { s.port k with gate := true, state := if (s.port k).state ∈ [.carrier, .pol, .align, .up, .divert] then .gated else (s.port k).state }
  | ungate c k : PortWrite s (.portUngate c k) c k
      { s.port k with gate := false, state := if (s.port k).state = .gated then .carrier else (s.port k).state }

/-- A move of a port's own training, where its condition holds, and the port it leaves (R402). -/
inductive PortMove (s : State) : Instr → Nat → Port → Prop
  | calibrated k (h : (s.port k).state = .cal ∨ ((s.port k).state = .laserAbsent ∧ s.portLit k = true)) :
      PortMove s (.portCalibrationDone k) k { s.port k with state := if (s.port k).gate then .gated else .carrier }
  | carrier k (h : (s.port k).state = .carrier) : PortMove s (.portCarrierLock k) k { s.port k with state := .pol }
  | pol k (h : (s.port k).state = .pol) : PortMove s (.portPolarisationLock k) k { s.port k with state := .align }
  | align k peer (h : (s.port k).state = .align ∧ peer < 1024 ∧ (s.plane (planeOf k)).state ≠ .dark) :
      PortMove s (.portAlignDone k peer) k { s.port k with state := .up, peer := peer }
  | lost k (h : (s.port k).state = .up) : PortMove s (.portLockLost k) k { s.port k with state := .divert }
  | light k (h : (s.port k).state = .divert ∧ (s.plane (planeOf k)).state ≠ .dark) :
      PortMove s (.portLightRestored k) k { s.port k with state := .carrier }

end Sys2Proof.Machine

section
open Sys2Proof Sys2Proof.Machine

/-- R8, R290, R345, R356, R359, R360, R364: an event's record is written in its ring's next slot, EVTAIL moves on and the MSI goes out; semaphores; the reset of a
complex releases what it held; a register write that is not a naturally aligned one of 4 or 8 bytes does nothing, one to a queue's ring or
to a semaphore sets it, and one to ECAM goes out; host harts and endpoints write the bytes of device memory that they name and no other, a
hart's load of a register gives its value, and an AMO or an LR/SC pair has no effect on a register but those of R356. That SC gives 1 where it
fails is the model's choice (log entry 60), and so is that a write to ECAM goes out as a message (log entry 92). -/
def Obligations.HostResults : Prop :=
  (∀ ctx (s : State) e, s.events.find? (fun e => e.ctx == ctx) = some e → deliverable s ctx e →
    let r := s.win (0x200000 + 8 * ctx) 8
    let g := ringAt (cut r 1 1)
    let at_ := s.win g 8 + 64 * (s.win (g + 20) 4 % s.win (g + 8) 4)
    let b := s.finalBytes e
    ∃ t, exec (.eventDelivery ctx) s = .next t ∧ t.mem.readList at_ b.length = b ∧ sameOutside s t at_ b.length ∧
      t.win (g + 20) 4 = (s.win (g + 20) 4 + 1) % 2 ^ 32 ∧ t.events = s.events.erase e ∧
      t.outbox = s.outbox ++ [.msi (msiAddr (cut r 1 1) (cut r 2 5) (cut r 7 3)) (cut r 10 11)]) ∧
  (∀ complex n (s : State), complex < 2 → n < 64 →
    (∃ t, exec (.semaphoreAcquire complex n) s = .next t ∧ (∀ m, m ≠ n → t.sem m = s.sem m) ∧
      t.sem n = if (s.sem n).held then s.sem n else { held := true, owner := complex, count := ((s.sem n).count + 1) % 2 ^ 16 }) ∧
    (∃ t, exec (.semaphoreRelease complex n) s = .next t ∧ (∀ m, m ≠ n → t.sem m = s.sem m) ∧
      t.sem n = if (s.sem n).held ∧ (s.sem n).owner = complex then { s.sem n with held := false } else s.sem n)) ∧
  (∀ complex (s : State), complex < 2 → ∃ t, exec (.hostComplexReset complex) s = .next t ∧ t.win (ringAt complex + 12) 4 = 0 ∧
    t.mem = s.mem ∧ ∀ n m, t.sems.get n = some m → ¬(m.held = true ∧ m.owner = complex)) ∧
  (∀ complex offset size value (s : State), complex < 2 → offset < 2 ^ 30 →
    ∃ t, exec (.registerWrite complex offset size value) s = .next t ∧
      ((size ≠ 4 ∧ size ≠ 8) ∨ offset % size ≠ 0 → t = s) ∧
      (size = 4 ∨ size = 8 → offset % size = 0 → 0x10000000 ≤ offset → offset < 0x10000000 + 8 * 2 ^ 25 →
        t = s.send (.pcie (0x00F1000000000000 + offset) size .store value)) ∧
      (∀ q, q < 1024 → offset = queueAt q → size = 8 → t.qRing q = value % 2 ^ 64) ∧
      (∀ n, n < 64 → offset = 0x1000 + 4 * n → size = 4 → t = s.writeSem complex n value)) ∧
  (∀ (a : HostAccess) (s : State), a.complex < 2 → a.hart < 32 →
    (inDevice a.pa a.size = true → ∃ t, exec (.hostHartAccess a) s = .next t ∧
      (match hartStores s a with
       | some v => t.mem.readLE a.pa a.size = v % 256 ^ a.size ∧ sameOutside s t a.pa a.size
       | none => t.mem = s.mem) ∧
      (a.op ≠ .store → ∃ v, t.outbox = s.outbox ++ [.hartData a.complex a.hart v] ∧ (a.op ≠ .sc → v = s.mem.readLE a.pa a.size) ∧
        (a.op = .sc → v = if s.reserved a then 0 else 1))) ∧
    (∀ off, a.pa = 0x00F1000000000000 + off → off < 2 ^ 30 → atomicOp a.op = true → atomicWindow off a.size = false →
      ∃ v, exec (.hostHartAccess a) s = .next (s.send (.hartData a.complex a.hart v))) ∧
    (∀ off, a.pa = 0x00F1000000000000 + off → off < 0x10000000 → a.op = .load →
      ∃ t, exec (.hostHartAccess a) s = .next t ∧ t.mem = s.mem ∧ t.window = s.window ∧
        t.outbox = s.outbox ++ [.hartData a.complex a.hart (s.windowRead off a.size)]) ∧
    (inDevice a.pa a.size = false → inSett a.pa a.size = false → a.pa < 0x00F1000000000000 →
      exec (.hostHartAccess a) s = .fault (.noSuchAddress a.pa))) ∧
  (∀ pa bytes (s : State), (inDevice pa bytes.length = true → ∃ t, exec (.pcieEndpointWrite pa bytes) s = .next t ∧
      t.mem.readList pa bytes.length = bytes ∧ sameOutside s t pa bytes.length) ∧
    (inDevice pa bytes.length = false → exec (.pcieEndpointWrite pa bytes) s = .fault (.noSuchAddress pa)))

/-- R354, R358, R391, R403, R410, R415: the commands: a complex's command block holding one is always answered; one whose reserved bytes are not zero
is INVALID, and one that names no context NOTFOUND; one whose operands hold has the effect stated here
and ends DONE; a migration arms its page, and commits, or ends CHANGED. UNREVOKE drops every hold equal to its own (log entry 45), and the new
page is the old one as it stands at the commit (log entry 46): both are the model's choices. -/
def Obligations.CommandResults : Prop :=
  (∀ i kind c (s : State), Command i kind c → c < 2 → s.cmd c 0 1 = kind → ∃ t, exec i s = .next t) ∧
  (∀ i kind c (s : State), Command i kind c → c < 2 → s.cmd c 0 1 = kind → (kind = 3 ∨ kind = 5 → s.cmdBusy c = false) →
    (s.cmdClean c (commandFields kind) = false → (kind = 10 → (s.context (s.cmdCtx c)).isSome) → ∃ t, exec i s = .next t ∧ ended s t c 5) ∧
    (s.context (s.cmdCtx c) = none → kind ∈ [2, 3, 4, 5, 10, 11, 12, 13] → s.cmdClean c (commandFields kind) = true → wellPut s c kind →
      ∃ t, exec i s = .next t ∧ ended s t c 6)) ∧
  revokesAndMigrates ∧
  (∀ c (s : State) core slot k sp, c < 2 → s.cmd c 0 1 = 1 → s.cmdClean c [(0, 1), (4, 16)] = true → s.cmd c 15 1 = 0 →
    s.suspendedAt (s.cmdCtx c) (s.cmd c 16 4) (s.cmd c 8 4) (s.cmd c 12 2) (s.cmd c 14 1) = some (core, slot, k, sp) →
    ∃ t k' sp', exec (.resume c) s = .next t ∧ ended s t c 2 ∧ t.pack core slot = some k' ∧ k'.split sp.id = some sp' ∧
      sp'.suspended = false ∧ sp'.inh = false ∧ sp'.pc = s.skipFrom core k sp.trap.epc ∧ sp'.win = sp.saved) ∧
  (∀ c (s : State), c < 2 → s.cmd c 0 1 = 2 → s.cmdClean c [(0, 1), (4, 4)] = true → (s.context (s.cmdCtx c)).isSome →
    ∃ t, exec (.retry c) s = .next t ∧ ended s t c 2 ∧ ∀ l ∈ t.launches, l.ctx = s.cmdCtx c → l.failedPages = []) ∧
  (∀ c (s : State) x, c < 2 → s.rangeOk c = true → s.context (s.cmdCtx c) = some x →
    (s.cmd c 0 1 = 3 → s.cmdBusy c = false → ∃ t x', exec (.revoke c) s = .next t ∧ t.context x.num = some x' ∧
      (s.cmd c 8 8, s.cmd c 16 8) ∈ x'.holds) ∧
    (s.cmd c 0 1 = 4 → ∃ t x', exec (.unrevoke c) s = .next t ∧ ended s t c 2 ∧ t.context x.num = some x' ∧
      (s.cmd c 8 8, s.cmd c 16 8) ∉ x'.holds)) ∧
  (∀ c (s : State), c < 2 → s.cmd c 0 1 = 6 → s.cmdClean c [(0, 1), (8, 12)] = true → s.cmd c 8 8 % 8 = 0 →
    inDevice (s.cmd c 8 8) (8 + 8 * min s.bindings.length (s.cmd c 16 4)) = true →
    ∃ t, exec (.query c) s = .next t ∧ ended s t c 2 ∧ t.mem.readLE (s.cmd c 8 8) 4 = s.bindings.length % 2 ^ 32 ∧
      t.mem.readLE (s.cmd c 8 8 + 4) 4 = s.bindGen % 2 ^ 32) ∧
  (∀ c (s : State), c < 2 → s.cmd c 0 1 = 7 → s.cmdClean c [(0, 1), (8, 24)] = true → s.cmd c 24 8 % 64 = 0 → inDevice (s.cmd c 24 8) 512 = true →
    ∃ t, exec (.attest c) s = .next t ∧ ended s t c 2 ∧ t.mem.readLE (s.cmd c 24 8) 4 = 0x54455441) ∧
  (∀ c (s : State), c < 2 → s.cmd c 0 1 = 8 → s.cmdClean c [(0, 1), (4, 7), (16, 32)] = true → s.cmd c 10 1 ≠ 0 → s.cmd c 10 1 ≤ 15 →
    s.cmd c 32 8 % 65536 = 0 → s.cmd c 16 8 % 8 = 0 → inDevice (s.cmd c 16 8) 8 = true → inDevice (s.cmd c 24 8) (s.cmd c 32 8) = true →
    (s.context (s.cmdCtx c)).isSome → (∀ j ∈ planesOf (s.cmd c 10 1), s.planeUp j (s.cmd c 8 2) = true) →
    ∃ t r, exec (.reserve c) s = .next t ∧ ended s t c 2 ∧ t.resvs.get s.nextResv = some r ∧ r.ctx = s.cmdCtx c ∧ r.peer = s.cmd c 8 2 ∧
      r.planes = s.cmd c 10 1 ∧ r.contiguous = 0 ∧ t.nextResv = s.nextResv + 1 ∧ t.win (cmdAt c + 40) 8 = s.nextResv % 2 ^ 64) ∧
  (∀ c (s : State) r, c < 2 → s.cmd c 0 1 = 9 → s.cmdClean c [(0, 1), (4, 4), (8, 8)] = true → s.resvs.get (s.cmd c 8 8) = some r →
    r.ctx = s.cmdCtx c → ∃ t, exec (.release c) s = .next t ∧ ended s t c 2 ∧ t.resvs.get (s.cmd c 8 8) = none) ∧
  (∀ c (s : State), c < 2 → s.cmd c 0 1 = 10 → (s.context (s.cmdCtx c)).isSome → s.seqopenOk c = true →
    let given := if s.cmd c 16 1 = 1 then s.givenRecords (s.cmd c 32 8) (s.cmd c 40 4) else []
    s.recordTurn (s.cmdCtx c) none given.length = true →
    ∃ t q, exec (.seqopen c) s = .next t ∧ ended s t c 2 ∧ t.seq (s.cmdCtx c) (s.cmd c 8 4) = some q ∧ q.next = s.cmd c 12 4 ∧
      q.emit = s.cmd c 12 4 ∧ q.stream = given ∧ q.held = [] ∧ q.marks = []) ∧
  (∀ c (s : State) x q, c < 2 → s.cmd c 0 1 = 11 → s.cmdClean c [(0, 1), (4, 8)] = true → s.context (s.cmdCtx c) = some x →
    s.seq (s.cmdCtx c) (s.cmd c 8 4) = some q → s.releasing x q = false →
    s.recordTurn (s.cmdCtx c) (some (.left (s.cmd c 8 4))) (q.left.length + 1) = true →
    ∃ t, exec (.seqclose c) s = .next t ∧ ended s t c 2 ∧ t.seq (s.cmdCtx c) (s.cmd c 8 4) = none) ∧
  (∀ c (s : State) x, c < 2 → s.cmd c 0 1 = 12 → s.cmdClean c [(0, 1), (4, 7), (12, 6)] = true → s.cmd c 10 1 ≤ 1 → s.cmd c 8 2 < 1024 →
    s.context (s.cmdCtx c) = some x →
    ∃ t x' p, exec (.partner c) s = .next t ∧ ended s t c 2 ∧ t.context x.num = some x' ∧ x'.partner = some p ∧ p.peer = s.cmd c 8 2 ∧
      p.ethernet = (s.cmd c 10 1 == 1) ∧ p.pmac = s.cmd c 12 6 ∧ ((s.peers.getD p.peer {}).silent = false → p.silent = false) ∧
      ((∀ o, x.partner = some o → o.peer ≠ p.peer) → p.silent = false)) ∧
  (∀ c (s : State) q, c < 2 → s.cmd c 0 1 = 13 → s.cmdClean c [(0, 1), (4, 20)] = true → s.seq (s.cmdCtx c) (s.cmd c 8 4) = some q →
    (s.cmd c 12 4, BitVec.ofNat 64 (s.cmd c 16 8)) ∈ q.marks → s.recordTurn (s.cmdCtx c) none 1 = true →
    ∃ t q' d, exec (.markdone c) s = .next t ∧ ended s t c 2 ∧ t.seq (s.cmdCtx c) (s.cmd c 8 4) = some q' ∧ q'.durable = some d ∧
      s.cmd c 12 4 ≤ d ∧ ∀ e, q.durable = some e → e ≤ d) ∧
  (∀ c (s : State), c < 2 → s.cmd c 0 1 = 15 → s.cmdClean c [(0, 1), (4, 6), (16, 16)] = true → s.cmd c 8 2 < 1024 →
    inDevice (s.cmd c 16 8) (s.cmd c 24 8) = true →
    ∃ t, exec (.jstore c) s = .next t ∧ ended s t c 2 ∧ t.stores.get (s.cmd c 8 2) = some { base := s.cmd c 16 8, size := s.cmd c 24 8 }) ∧
  (∀ c (s : State) m, s.migrations.get c = some m → (s.context m.ctx).isSome → s.pageBusy m.oldPa m.size = false →
    ∃ t, exec (.migrateCommit c) s = .next t ∧ t.migrations.get c = none ∧
      (s.undisturbed m = false → ended s t c 3) ∧
      (s.undisturbed m = true → ended s t c 2 ∧ (s.memOk → m.size = 4096 → m.leafAt + 8 ≤ m.newPa ∨ m.newPa + 4096 ≤ m.leafAt →
        (∀ e ∈ m.armed, e.1 < m.newPa ∨ m.newPa + 4096 ≤ e.1) → ∀ j, j < 4096 → t.mem.get (m.newPa + j) = s.mem.get (m.oldPa + j))))

/-! ### Islands, time and bring-up (spec 18) -/

/-- R375–R379: points and throttling of the islands, the offset measured for a region, and the step of global time; neither the root's count
nor a region's ever runs back. That a hot sensor lowers CURRENT to one below POINT is the model's choice (log entry 56), and so are the parents
that a region may take in the tree (log entry 23). -/
def Obligations.IslandAndTimeResults : Prop :=
  (∀ complex i point (s : State), i < 48 → point < 8 →
    (s.guarded complex (islandSem i) = false → exec (.islandPointWrite complex i point) s = .next s) ∧
    (s.guarded complex (islandSem i) = true → ∃ t, exec (.islandPointWrite complex i point) s = .next t ∧
      (t.island i).point = (if 4 < point ∨ (42 ≤ i ∧ point ≠ 2) then (s.island i).point else point) ∧
      (t.island i).current = (s.island i).current ∧ ∀ j, j ≠ i → t.island j = s.island j)) ∧
  (∀ i (s : State), i < 48 →
    (∃ t, exec (.islandPointChange i) s = .next t ∧
      (t.island i).current = if (s.island i).throttled then min (s.island i).current (s.island i).point else (s.island i).point) ∧
    (∀ point temp, point < (s.island i).current → ∃ t, exec (.islandThrottle i point temp) s = .next t ∧ (t.island i).current = point ∧
      (t.island i).point = (s.island i).point ∧ (t.island i).throttled = true) ∧
    (∀ temp rest, 105 ≤ temp → s.agenda = .sense i temp :: rest → ∃ t, step s = .next t ∧ (t.island i).throttled = true ∧
      (t.island i).point = (s.island i).point ∧ (t.island i).current = min (s.island i).current ((s.island i).point - 1)) ∧
    (∀ temp, (s.island i).throttled = true → temp ≤ 95 → ∃ t, exec (.islandThrottleEnd i temp) s = .next t ∧
      (t.island i).current = (s.island i).point ∧ (t.island i).throttled = false)) ∧
  (∀ region parent t1 t2 t3 t4 (s : State), 4 ≤ s.phase → region ≠ (if s.hosts % 2 = 1 then 160 else 164) → region < 256 →
    s.regionIn region = true → s.regionIn parent = true → s.takesParent region parent = true → s.exchanged.getD region 0 + 4096 ≤ s.now →
    s.timestamps region parent t1 t2 t3 t4 = true →
    let off : Int := (((t2 : Int) - t1) - ((t4 : Int) - t3)) * 65536 / 2
    ({ s with corr := putInt s.corr region off } : State).spreadPs < 2 ^ 31 →
    ∃ t, exec (.timeExchange (region + 256 * parent) t1 t2 t3 t4) s = .next t ∧ t.gtime = s.gtime ∧ t.dev = s.dev ∧
      t.corr.getD region 0 = off ∧ t.exchanged.getD region 0 = s.now ∧ t.parents.get region = some parent) ∧
  (∀ complex v (s : State), (s.guarded complex 42 = false → exec (.timeStepWrite complex v) s = .next s) ∧
    (s.guarded complex 42 = true → ∃ t, exec (.timeStepWrite complex v) s = .next t ∧ t.step = v ∧
      (0 ≤ v.toInt → (t.gtime : Int) = s.gtime + v.toInt * 65536 ∧ t.slew = 0) ∧
      (v.toInt < 0 → t.gtime = s.gtime ∧ (t.slew : Int) = -v.toInt * 65536))) ∧
  (∀ (s : State) ns rest, s.agenda = .elapse ns :: rest → ∃ t, step s = .next t ∧ s.gtime ≤ t.gtime ∧
    ((s.corr.map (·.1)).Nodup → ∀ r, s.regionTime r ≤ t.regionTime r))

/-- R380–R391: the phases of bring-up from reset to READY, the installation of a defect map, and the management interface. What a module reset
keeps, that BINDGEN begins at 1 and which fabric stays where islands do not join are the model's choices (log entry 52), and so is the installation of a map in two steps (log entry 53). -/
def Obligations.BringUpResults : Prop :=
  (∀ (s : State), ∃ t u, exec .powerOnReset s = .next t ∧ t.phase = 1 ∧ t.mem = [] ∧ t.cores = [] ∧ t.contexts = [] ∧ t.launches = [] ∧
    t.window = [] ∧ t.sems = [] ∧ t.maps.copy1 = s.maps.copy1 ∧ t.maps.copy2 = s.maps.copy2 ∧
    exec .moduleReset s = .next u ∧ u.phase = 1 ∧ u.mem = s.mem ∧ u.cores = [] ∧ u.contexts = [] ∧ u.launches = [] ∧ u.window = [] ∧
    u.gtime = s.gtime ∧ u.errSeq = s.errSeq ∧ u.stores = s.stores) ∧
  (∀ failures (s : State), s.phase = 1 → (∀ u ∈ failures, DefectUnit.ok u = true) → ∃ t, exec (.selftestDone failures) s = .next t ∧ t.phase = 2 ∧
    t.maps.test = failures ∧ t.errSeq = s.errSeq + failures.length) ∧
  (∀ extra failedLinks (s : State), s.phase = 2 → extra.length = 11 → (∀ e ∈ extra, e ≤ 2) →
    ∃ t, exec (.seamtrainDone extra failedLinks) s = .next t ∧ t.phase = 3 ∧
      ∀ k, k < 11 → t.seams.getD k 0 = (if k < 5 then 4 else 3) + extra.getD k 0) ∧
  (∀ fields west east (s : State), s.phase = 3 →
    (west = false → east = false → ∃ t, exec (.mergeDone fields west east) s = .next t ∧ t.phase = 3 ∧ t.failSilent = true) ∧
    (west = true ∨ east = true → sortNats fields = sortNats ((s.fabric west east).filterMap gridField) →
      ∃ t, exec (.mergeDone fields west east) s = .next t ∧ t.phase = 4 ∧ t.fieldMap = sortNats fields ∧ bit t.hosts 0 = west ∧
        bit t.hosts 1 = (east && (s.fabric west east).contains 23))) ∧
  (∀ skewPs (s : State), s.phase = 4 → skewPs < 2 ^ 31 → ∃ t, exec (.verifyDone skewPs) s = .next t ∧ t.phase = 5 ∧ t.bindGen = 1 ∧ t.skew = skewPs ∧
    (t.sheltered = true ↔ s.maps.passing = none) ∧
    ∀ b ∈ t.bindings, b.retired = false ∧ b.position < 128 ∧ 128 * b.cluster + b.position ∉ t.maps.force.filterMap DefectUnit.core?) ∧
  (∀ complex (s : State), (s.maps.stat = 1 → ∃ t, exec (.mapInstall complex) s = .next t ∧ t.maps.stat = mapVerdict s.newMap ∧
      (mapVerdict s.newMap = 2 → t.maps.copy1 = s.newMap ∧ t.maps.copy2 = s.newMap) ∧
      (mapVerdict s.newMap ≠ 2 → t.maps.copy1 = s.maps.copy1 ∧ t.maps.copy2 = s.maps.copy2)) ∧
    (s.maps.stat ≠ 1 → s.guarded complex 0 = true → ∃ t, exec (.mapInstall complex) s = .next t ∧ t.maps.stat = 1) ∧
    (s.maps.stat ≠ 1 → s.guarded complex 0 = false → exec (.mapInstall complex) s = .next s)) ∧
  (∀ (s : State), s.mgmt.standby = false → ∃ t, exec .standbyPowerOn s = .next t ∧ t.mgmt.standby = true ∧ t.mgmt.collectors = []) ∧
  (∀ sender ports d (s : State), mgmtType d = none ∨ ports / 65536 ≠ mgmtPort → exec (.mgmtBadDatagram sender ports d) s = .next s) ∧
  (∀ sender port d (s : State), port < 65536 → s.mgmt.standby = true →
    (mgmtType d = some 3 → ∃ t, exec (.mgmtQuery sender (port + 65536 * mgmtPort) d) s = .next t ∧ t.mgmt.mseq = s.mgmt.mseq + 1 ∧
        t.outbox = s.outbox ++
          [.datagram mgmtMac mgmtAddress mgmtPort sender port (mgmtHeader 1 s.mgmt.mseq s.statusBody.length ++ s.statusBody)]) ∧
    (mgmtType d = some 4 → ∃ t, exec (.mgmtSubscribe sender (port + 65536 * mgmtPort) d) s = .next t ∧ t.mgmt.collectors.getLast? = some (sender, port) ∧
        (s.mgmt.collectors.length ≤ 4 → t.mgmt.collectors.length ≤ 4)) ∧
    (1000000000 ≤ s.mgmt.wait → ∃ t, exec .mgmtStatusPeriodic s = .next t ∧ t.mgmt.wait = 0 ∧ t.outbox.length = s.outbox.length + max 1 s.mgmt.collectors.length))

/-- 10 R271, R397–R407, 20 R424: ring failures take a spare group or enter relay and request replacement; laser modules, ports and planes move
between their states; a collective's chunk goes out by its plane or on Ethernet, and is stored and counted once. The states from which a port is
gated and enabled, the chunk that comes again and the plane's marker are the model's choices (log entry 54), and so is the module seated in
place of one in FAULT (log entry 55). -/
def Obligations.OpticsResults : Prop :=
  (∀ bus p (s : State), bus < 8 → p < 162 → (s.link p bus).state < 2 →
    let l := s.link p bus
    ((4 ≤ l.unread ∨ 4 ≤ l.vetoed) → (∀ g, s.nextSpare bus l.wg p = some g → ∀ q, s.ringDead bus l.wg g q true = false) →
      ∃ t, exec (.ringFailure bus p) s = .next t ∧ (t.link p bus).word / 65536 = min (l.moves + 1) 65535 ∧
        match s.nextSpare bus l.wg p with
        | none => (t.link p bus).state = 2 ∧ t.settRelay = true ∧ t.replReq = true
        | some g => (t.link p bus).state = 1 ∧ (t.link p bus).group = g ∧
            t.sparesOf bus l.wg = (s.sparesOf bus l.wg).filter (· != g)) ∧
    ∃ t, exec (.receiveRingFailure bus p) s = .next t ∧ (t.link p bus).word / 65536 = min (l.moves + 1) 65535 ∧ (t.link p bus).state = 2 ∧ t.settRelay = true ∧ t.replReq = true) ∧
  (∀ complex m value (s : State), m < 24 → (s.guarded complex (5 + m) = false → exec (.laserOnWrite complex m value) s = .next s) ∧
    (s.guarded complex (5 + m) = true → ∃ t, exec (.laserOnWrite complex m value) s = .next t ∧
      (value % 2 = 1 → (t.laser m).on = true) ∧
      (value % 2 = 0 → m < 16 → (s.laser (partnerOf m)).state ≠ .lit → t = s) ∧
      (value % 2 = 0 → m < 16 → (s.laser (partnerOf m)).state = .lit → (t.laser m).on = false) ∧
      (value % 2 = 0 → 16 ≤ m → (t.laser m).on = false))) ∧
  (∀ m fault (s : State), (s.laser m).present = true →
    (m < 16 → ∃ t, exec (.laserModuleLoss m fault) s = .next t ∧ (t.laser m).present = fault ∧
      (t.laser m).state = (if fault then .fault else .absent) ∧ t.replReq = true) ∧
    (16 ≤ m → m < 24 → ∃ t, exec (.ioLaserLoss m fault) s = .next t ∧ (t.laser m).present = fault ∧ t.replReq = true ∧
      ((s.laser m).state = .lit → ∀ k ∈ fedBy m, (t.port k).state = if (s.port k).state = .down then .down else .laserAbsent))) ∧
  (∀ m (s : State), m < 24 →
    ((s.laser m).present = false ∨ (s.laser m).state = .fault → ∃ t, exec (.laserModuleInsert m) s = .next t ∧ (t.laser m).present = true ∧
      (t.laser m).state = if (s.laser m).on then .warm else .off) ∧
    ((s.laser m).state = .warm → ∃ t, exec (.laserWarmDone m) s = .next t ∧ (t.laser m).state = .lit ∧
      (16 ≤ m → ∀ k ∈ fedBy m, (s.port k).state = .laserWait → (t.port k).state = .cal))) ∧
  (∀ i c k p (s : State), PortWrite s i c k p → k < portCount →
    (s.guarded c (1 + planeOf k) = false → exec i s = .next s) ∧
    (s.guarded c (1 + planeOf k) = true → ∃ t, exec i s = .next t ∧ t.port k = p ∧ ∀ j, j ≠ k → t.port j = s.port j)) ∧
  (∀ i k p (s : State), PortMove s i k p → k < portCount → ∃ t, exec i s = .next t ∧ t.port k = p ∧ ∀ j, j ≠ k → t.port j = s.port j) ∧
  (∀ c j (s : State), j < 4 →
    (s.guarded c (1 + j) = false → exec (.planeDrain c j) s = .next s ∧ exec (.planeResume c j) s = .next s) ∧
    (s.guarded c (1 + j) = true → (∀ n, n < 4 → (s.plane n).state = .active) → ∃ t, exec (.planeDrain c j) s = .next t ∧
      (t.plane j).state = .draining ∧ ∀ n, n ≠ j → t.plane n = s.plane n) ∧
    (s.guarded c (1 + j) = true → (s.plane j).state = .dark → ∃ t, exec (.planeResume c j) s = .next t ∧ (t.plane j).state = .retrain) ∧
    ((s.plane j).state = .draining → s.planeIdle j = true → ∃ t, exec (.planeDark j) s = .next t ∧ (t.plane j).state = .dark ∧
      ∀ k ∈ portsOf j, (s.port k).state = .up → (t.port k).state = .divert) ∧
    ((s.plane j).state = .retrain → ((s.plane j).wasUp.all fun k => (s.port k).state == .up) = true ∨ (s.plane j).since + 1000000 ≤ s.now →
      ∃ t, exec (.planeRetrainDone j) s = .next t ∧ t.plane j = {})) ∧
  (∀ n chunk ethernet bytes (s : State) r, s.resvs.get n = some r → r.released = false → r.dormant = none → bytes.length = 65536 →
    65536 * (chunk + 1) ≤ r.len → r.contiguous ≤ chunk → chunk ∉ r.arrived →
    ethernet = true ∨ (r.turn chunk ∉ r.diverted ∧ s.chunkShares (r.turn chunk) r.peer ≠ []) →
    ∃ t r', exec (.collectiveChunkArrival n chunk ethernet bytes) s = .next t ∧ t.resvs.get n = some r' ∧
      (chunk = r.contiguous → r.contiguous < r'.contiguous) ∧ (r.contiguous < chunk → r'.contiguous = r.contiguous ∨ r.contiguous ∈ r.arrived) ∧
      ((r.token + 8 ≤ r.dest + 65536 * chunk ∨ r.dest + 65536 * (chunk + 1) ≤ r.token) →
        t.mem.readList (r.dest + 65536 * chunk) 65536 = bytes ∧
        t.mem.readLE r.token 4 = (s.mem.readLE r.token 4 + (r'.contiguous - r.contiguous)) % 2 ^ 32)) ∧
  (∀ n chunk ethernet bytes (s : State) r, s.resvs.get n = some r → r.released = false → r.dormant = none → bytes.length = 65536 →
    65536 * (chunk + 1) ≤ r.len → chunk < r.contiguous ∨ chunk ∈ r.arrived →
    ethernet = true ∨ (r.turn chunk ∉ r.diverted ∧ s.chunkShares (r.turn chunk) r.peer ≠ []) →
    exec (.collectiveChunkArrival n chunk ethernet bytes) s = .next s) ∧
  (∀ n rest (s : State) r, s.agenda = .chunk n :: rest → s.resvs.get n = some r → r.released = false → r.dormant = none →
    65536 * (r.next + 1) ≤ r.len →
    let eth := r.turn r.next ∈ r.away ∨ (s.plane (r.turn r.next)).state ≠ .active ∨ s.chunkShares (r.turn r.next) r.peer = []
    ∃ t, step s = .next t ∧
      (eth → t.outbox = s.outbox ++ [.chunk n r.next none 0 65536] ∧
        t.resvs.get n = some { r with next := r.next + 1, flying := r.flying ++ [(r.next, true)] }) ∧
      (¬eth → t.outbox = s.outbox ++ partMsgs n r.next 0 (s.chunkShares (r.turn r.next) r.peer) ∧
        ((s.chunkShares (r.turn r.next) r.peer).map (·.2)).sum = 65536 ∧
        t.resvs.get n = some { r with next := r.next + 1, flying := r.flying ++ [(r.next, false)] })) ∧
  (∀ n plane (s : State) r, s.resvs.get n = some r →
    ∃ t, exec (.resumeMarker n plane) s = .next t ∧ t.resvs.get n = some { r with diverted := r.diverted.filter (· != plane) })

/-! ### Faults of the hardware (spec 18, 20) -/

/-- R390, R417, R420, R423: a chip failure makes the module fail-silent; a fault gives an ERROR record with the next ERRSEQ; a failed
core is no longer used, and its handle goes to a spare position or is retired. -/
def Obligations.FailureResults : Prop :=
  (∀ cause (s : State), ∃ t, exec (.chipFailure cause) s = .next t ∧ t.failSilent = true ∧ t.mem = s.mem ∧
    (s.failSilent = false → (∀ k, k < portCount → (t.port k).state = .gated) ∧ t.errSeq = s.errSeq + 1)) ∧
  (∀ e (s : State), 1 ≤ e.cls → e.cls ≤ 14 → e.cls ≠ 13 → e.severity ≤ 4 →
    (e.severity = 2 → 1 ≤ e.whereCode ∧ e.whereCode ≤ 7) → ∃ t, exec (.hardwareError e) s = .next t ∧
    (e.severity = 3 ∨ (e.severity ≤ 1 ∧ s.openError e = none) → t.errSeq = s.errSeq + 1 ∧
      ∃ v, t.events = s.events ++ [v] ∧ v.bytes.head? = some 5) ∧
    (e.severity ≤ 1 → (s.openError e).isSome → t.errSeq = s.errSeq ∧ t.events.length = s.events.length) ∧
    (e.severity = 4 → t.failSilent = true) ∧ ((s.completed e).replaced = true → t.replReq = true)) ∧
  (∀ core (s : State), core < 20480 → (s.core core).failed = false →
    let here := fun b : Binding => b.cluster = core / 128 ∧ b.position = core % 128 ∧ b.retired = false
    ∃ t, exec (.coreFailure core) s = .next t ∧ (t.core core).failed = true ∧
      (∀ b ∈ s.bindings, here b →
        match (s.spares.getD (core / 128) []).filter (· != core % 128) with
        | q :: _ => { b with position := q } ∈ t.bindings ∧ t.bindGen = s.bindGen + 1
        | [] => { b with retired := true } ∈ t.bindings ∧ t.replReq = true))

end

namespace Sys2Proof.Machine

/-! ### Decoding and the step (spec 03) -/

/-- Words that the spec writes out, beside its encodings (04 R118, 05 R140, 06 R174, 07 R205, 08 R236), with what they stand for. -/
noncomputable def sampleWords : List (Word × Instr) :=
  [(0x03C2860E, .addI32 7 5 6 7), (0x1A890206, .cmp 2 1 2 2 3), (0x25C20547, .shriU 4 5 3), (0x48C00006, .exit 3),
   (0x4BC0FFFF, .wait 0 63 63 15), (0x45C84040, .brd 1 32 64), (0x51C2860E, .faddF32 7 5 6 7), (0x56450206, .ffmaF32 1 10 2 3),
   (0x65D1040A, .fcmp 7 2 2 4 5), (0x6DC30446, .pk8E4m3 7 6 4 2 6), (0x81C20640, .ldB32 7 4 6 0x40), (0x824188FC, .stB32 1 3 8 0xFC),
   (0x93C50C12, .atomCasB32 7 10 12 0), (0x95C28600, .adetFaddF32 7 5 6), (0x97C90002, .fence 2 2), (0x97C08104, .xfence 0 1 1),
   (0xB1C28300, .tset 5 3), (0xBBC1280C, .mmj 2 40 6), (0xC0418208, .aget 1 3 2 4), (0xD1C28204, .vballot 5 2),
   (0xD3C483A0, .shflDown 7 9 3 4), (0xD7C00000, .bar), (0xE1C00806, .jemit 8), (0xE3C00021, .trap 0x21), (0xE7C00002, .hretSkip),
   (0xE9C18008, .rdsr 3 1)]

/-- The state in which a step carries out the first move of the agenda. -/
def State.begin (s : State) (rest : List Move) : State := { s with agenda := rest, focus := none }

/-- The pack and split that a step is to issue from, where the split is the one that issues. -/
def State.Issues (s : State) (c slot split : Nat) (k : Pack) (sp : Split) : Prop :=
  s.picks c slot split = true ∧ s.pack c slot = some k ∧ k.split split = some sp

/-- The word at byte offset `off` of the code section, with the state after its translation: the offset is inside the section, its page may
be fetched, and the word is the four bytes there, lowest first. -/
def State.WordAt (s : State) (c : Nat) (k : Pack) (off : Nat) (w : Word) (t : State) : Prop :=
  off < (s.header k).codeSize ∧ ∃ pa attr, s.translate c false k.ctx (s.imageOf k + BitVec.ofNat 64 ((s.header k).codeOff + off)) .fetch =
    .ok { pa := pa, attr := attr, s := t } ∧ pa + 4 ≤ Config.deviceMemory ∧ w = BitVec.ofNat 32 (t.mem.readLE pa 4)

/-- The state in which a split's word is issued: the move's agenda is spent, and on a deterministic core the split has the turn (09 R252). -/
def State.turn (s : State) (rest : List Move) (c slot split : Nat) : State := (s.begin rest).takeTurn c slot split

/-- R241, R247, R251–R253, R258: a cycle of a core. On a deterministic core it passes to the next pack, or issues the current split's word; in
normal mode each port issues the first split of its list that can issue, the second beside the first in no common slice, and of the two the
one with the lower lowest lane is served first. A split that issues alone is one the first port takes, or the current one. -/
def cyclesBySchedule : Prop :=
  (∀ (s : State) c rest, s.agenda = .cycle c :: rest → (s.begin rest).detCore c = true →
    ((s.begin rest).mustPass c = true →
      step s = if ((s.begin rest).nextPack c).isSome then settled (exec (.detPackSwitch c) (s.begin rest)) else
        .next (s.begin rest).settleTurns) ∧
    (∀ n k i, (s.begin rest).mustPass c = false → ((s.begin rest).core c).detCur = some n → (s.begin rest).pack c n = some k →
      (s.begin rest).current c n k = some i →
      step s = if (s.begin rest).mayIssue c n i then step { s with agenda := .issue c n i :: rest } else .next (s.begin rest).settleTurns)) ∧
  (∀ (y : State) c l p out, y.portGo c l = some (p, out) → ∃ before after, l = before ++ p :: after ∧ out = y.issueNow c p.1 p.2.id ∧
    ∀ q ∈ before, ∃ t, y.issueNow c q.1 q.2.id = .next t ∧ y.wentOn t c q.1 q.2.id = false) ∧
  (∀ (y : State) c slot split, (y.detCore c = true → y.picks c slot split = y.mayIssue c slot split) ∧
    (y.detCore c = false → (y.picks c slot split = true ↔
      ∃ p out, y.portGo c (y.candidates c (y.core c).lastPack) = some (p, out) ∧ p.1 = slot ∧ p.2.id = split))) ∧
  (∀ (s : State) c rest, s.agenda = .cycle c :: rest → (s.begin rest).detCore c = false →
    let y := s.begin rest
    let first := y.portGo c (y.candidates c (y.core c).lastPack)
    (first = none → step s = .next y.settleTurns) ∧
    (∀ p out, first = some (p, out) →
      let second := y.portGo c ((y.candidates c p.1).filter fun q => !sameSlice p q)
      (second = none → step s = settled out) ∧
      (∀ q o, second = some (q, o) →
        let swap := lowLane q.2.mask * 16 + q.1 < lowLane p.2.mask * 16 + p.1
        let a := if swap then q else p
        let b := if swap then p else q
        (a.1 ≠ b.1 → ∀ t u, y.issueNow c a.1 a.2.id = .next t → t.mayIssue c b.1 b.2.id = true → (y.pack c b.1).isSome →
          (t.pack c b.1).isSome → t.issueNow c b.1 b.2.id = .next u →
          step s = .next (u.setCore c { u.core c with lastPack := q.1 }).settleTurns) ∧
        ∀ t, y.issueNow c a.1 a.2.id = .next t → t.mayIssue c b.1 b.2.id = false →
          step s = .next (t.setCore c { t.core c with lastPack := q.1 }).settleTurns)))

end Sys2Proof.Machine

section
open Sys2Proof Sys2Proof.Machine

/-- The words the spec writes out decode to the instructions it gives for them, and those are well formed. -/
def Obligations.SampleWordsDecode : Prop :=
  ∀ p ∈ sampleWords, decodeWord p.1 = .ok p.2 ∧ p.2.wf = true ∧ encode p.2 = some p.1

/-- Decoding undoes encoding, for every well-formed instruction and every operand; a word that decodes is the encoding of one
well-formed instruction, so no two words that execute stand for one instruction and no bit of a word is ignored. -/
def Obligations.DecodeEncodeRoundTrip : Prop :=
  (∀ i w, i.wf = true → encode i = some w → decodeWord w = .ok i) ∧
  (∀ w i, decodeWord w = .ok i → i.wf = true ∧ encode i = some w)

/-- R13, R71, R72, R78: a step that issues runs the instruction its word decodes to, at that word's address and with the next address in
sequence; a word without an instruction raises ILLOP, and so does a fetch outside the section; a slot runs the dictionary's entry; a stalled
split runs what it is stalled at. An event runs as itself, one of a split's stalled instruction in that split's turn, one of a host complex
where that complex is in the fabric. After each, every turn that has ended is given up (09 R252). R241,
R247, R251–R253, R258: a cycle of a core issues what its ports or its current split have. The agenda is the model's own (log entry 2), and so is
a broadcast store issued ahead of the `qtok.acq` in front of it, which the split then passes over (log entry 98). -/
def Obligations.StepRunsDecodedInstruction : Prop :=
  (∀ (s : State) i rest, s.agenda = .event i :: rest →
    (turnOf i = none → (∀ c, complexOf i = some c → bit s.hosts c = true) → step s = settled (exec i (s.begin rest))) ∧
    (∀ c, turnOf i = none → complexOf i = some c → bit s.hosts c = false → step s = .refused (.notEnabled "COMPLEX")) ∧
    (∀ c slot split, turnOf i = some (c, slot, split) →
      step s = if (s.begin rest).picks c slot split then settled (exec i (s.turn rest c slot split)) else .refused (.notEnabled "ISSUE"))) ∧
  (∀ (s : State) ns rest, s.agenda = .elapse ns :: rest → step s = .next ((s.begin rest).elapse ns).settleTurns) ∧
  (∀ (s : State) unit temp rest, s.agenda = .sense unit temp :: rest → step s = .next ((s.begin rest).sense unit temp).settleTurns) ∧
  (∀ (s : State) n rest t, s.agenda = .chunk n :: rest → (s.begin rest).sendChunk n = some t → step s = .next t.settleTurns) ∧
  (∀ (s : State) n c rest t, s.agenda = .landed n c :: rest → (s.begin rest).landChunk n c = some t → step s = .next t.settleTurns) ∧
  (∀ (s : State) c slot split rest, s.agenda = .ahead c slot split :: rest → step s = settled ((s.begin rest).issueAhead c slot split)) ∧
  (∀ (s : State), s.agenda = [] → step s = .next s) ∧
  (∀ (s : State) c slot split rest, s.agenda = .issue c slot split :: rest → (s.begin rest).picks c slot split = false →
    step s = .refused (.notEnabled "ISSUE")) ∧
  (∀ (s : State) c slot split rest k sp, s.agenda = .issue c slot split :: rest → (s.begin rest).Issues c slot split k sp →
    let f : Focus := { core := c, slot := slot, split := split, addr := sp.pc, word := 0, next := sp.pc + 2 }
    let y := s.turn rest c slot split
    (∀ st g t, sp.stall = some st → st.event c slot split = some g → sp.id = split → g y = .next t → step s = .next t.settleTurns) ∧
    (∀ e, sp.stall = none → sp.slot = some e → step s = settled (y.runWord
      { f with word := e.word, next := if e.slot = 1 ∧ e.lastSlot = true then sp.pc + 2 else sp.pc + 1, dslot := e.slot, dindex := e.index })) ∧
    (∀ b, sp.stall = none → sp.slot = none → sp.ahead = some (sp.pc, b) → sp.inh = false →
      step s = .next (y.modPack c slot fun k => k.setSplit ({ sp with ahead := none }.goto b y.clock)).settleTurns) ∧
    (sp.stall = none → sp.slot = none → (∀ b, sp.ahead = some (sp.pc, b) → sp.inh = true) →
      (∀ w t, sp.pc.toNat % 2 = 0 → y.WordAt c k (2 * sp.pc.toNat) w t →
        (∀ i, decodeWord w = .ok i → w.toNat < 0xFC000000 → step s = settled (exec i { t with focus := some { f with word := w } })) ∧
        (∀ i, decodeWord w = .ok i → 0xFC000000 ≤ w.toNat → step s = settled (exec i
          { t with focus := some { f with word := w, next := if w.toNat % 65536 = 0 then sp.pc + 2 else sp.pc + 1 } })) ∧
        (∀ r, decodeWord w = .error r → step s = settled (exec (.illegalInstruction w r) { t with focus := some { f with word := w } }))) ∧
      (∀ w t, sp.pc.toNat % 2 = 1 → y.WordAt c k (2 * (sp.pc.toNat - 1)) w t → w.toNat < 0xFC000000 →
        step s = settled (exec (.illegalInstruction w 7) { t with focus := some { f with word := w } })) ∧
      (∀ w t, sp.pc.toNat % 2 = 1 → y.WordAt c k (2 * (sp.pc.toNat - 1)) w t → 0xFC000000 ≤ w.toNat →
        (w.toNat % 65536 ≠ 0 → ∀ i, decodeWord w = .ok i →
          step s = settled (exec i { t with focus := some { f with word := w, next := sp.pc + 1 } })) ∧
        (w.toNat % 65536 = 0 → step s = settled (exec (.illegalInstruction w 7)
          { t with focus := some { f with word := w, dslot := 2 } }))) ∧
      ((y.header k).codeSize ≤ 2 * (sp.pc.toNat - sp.pc.toNat % 2) →
        step s = settled (exec (.illegalInstruction 0 7) { y with focus := some f })))) ∧
  cyclesBySchedule

/-! ### What every step keeps, and reset -/

/-- Every move that answers a next state keeps device memory in its one form: addresses rise, and no listed byte equals what an unlisted one
reads. The form is the model's own (log entry 1). -/
def Obligations.StepKeepsMemoryCanonical : Prop := ∀ (s : State) t, step s = .next t → s.memOk → t.memOk

/-- Device memory has its form at reset, and every byte reads 0, which is the model's choice (log entry 1). -/
def Obligations.ResetMemoryIsCanonical : Prop := State.reset.memOk ∧ ∀ a n, State.reset.mem.get a = 0 ∧ State.reset.physRead a n = 0

/-- 16 R359, 18 R375, R379, R381, R387, 19 R399, R402, R405, 10 R271: the registers of the device window at reset. -/
def Obligations.ResetRegisters : Prop :=
  (∀ i, State.reset.island i = { point := 2, current := 2, throttled := false, temp := 0 }) ∧
  (∀ m, State.reset.laser m = { on := true, present := false, state := .absent, sole := false, temp := 0 }) ∧
  (∀ k, State.reset.port k = { enable := false, gate := false, state := .down, peer := 0 }) ∧
  (∀ j, (State.reset.plane j).state = .active) ∧
  (∀ n, State.reset.sem n = { held := false, owner := 0, count := 0 }) ∧
  (∀ p b, (State.reset.link p b).word = 0) ∧
  State.reset.idstat = 0 ∧ State.reset.step = 0 ∧ State.reset.slew = 0 ∧ State.reset.maps.addr = 0 ∧ State.reset.maps.stat = 0 ∧
  (∀ c slot, State.reset.pack c slot = none) ∧ (∀ c, State.reset.context c = none)

end

namespace Sys2Proof.Machine

/-! ### Instructions that go on, and events that come about -/

/-- The issuing split goes on at `pc`, stalled at nothing. -/
def wentOn (x : Iss) (t : State) (pc : Word) : Prop := ∃ k sp, x.now t = some (k, sp) ∧ sp.pc = pc ∧ sp.stall = none

/-- A tile record passes its checks with no tile operation in its way, and so do the pages of `pieces`, whose list finds room (07 R181, R183, 16
R351). -/
def recordPasses (x : Iss) (a : TReg) (b : GReg) (bits : Nat) (use : TsrUse) (shape : Tsr → Bool) (path : Path) (use' : Use)
    (pieces : Tsr → List (Nat × Nat)) (r : Tsr) : Prop :=
  x.recordBusy a.toNat (x.g b) = false ∧ x.record a.toNat (x.g b) bits use shape = (r, 0) ∧
    ∃ t, x.s.checkRuns x.f.core x.k.ctx path use' (pagePieces (pieces r)) = .ok t ∧
      (t.1.listPages x.f.core x.f.slot x.k.nextOp x.k.ctx (pagePieces (pieces r))).isSome = true

/-- The shape a tile load asks of its record (07 R187). -/
def loadShape (planed : Bool) (planes : Nat) (r : Tsr) : Bool :=
  r.ext2 != 1 || decide (2048 < r.ext1) || r.fmt == 8 || (planed && decide (planes < minPlanes r.fmt))

/-- The planes of a tile load's handle (07 R187). -/
def loadPlanes (x : Iss) (planed : Bool) (d : TReg) : Nat := if planed then hPlanes (x.k.readT d.toNat) else 0

/-- An epilogue's parameters pass its checks, and no tile operation is in its way (07 R200). -/
def epilogueReady (x : Iss) (d : TReg) (a : AReg) (e : Epi) : Prop :=
  let h := x.k.readT d.toNat
  let spans := (hByte h + e.doff, e.outBytes) :: if e.bias then [(hByte (x.k.readT e.biasTile) + e.biasOff, 128)] else []
  fwCheck e.fmt = 0 ∧ x.badHandle d.toNat [1] = false ∧ e.bad = false ∧ e.doff + e.outBytes ≤ hBytes h ∧
    (e.bias = true → x.badHandle e.biasTile [1, 2, 3] = false ∧ e.biasOff + 128 ≤ hBytes (x.k.readT e.biasTile)) ∧
    x.tileWait = false ∧ (x.s.core x.f.core).tileBusy x.f.slot spans [a.toNat] x.s.clock = false

/-- When an instruction word, its operands read and its decode-time checks passed, has its own effect and goes on at an address: where it raises
no trap and nothing makes it wait. -/
inductive Passes (x : Iss) : Instr → List Operand → Word → Prop
  | brdTaken p t r : brdJoin x.sp.hints r ≠ 0 → x.noUnit (x.f.addr + BitVec.ofNat 32 (brdJoin x.sp.hints r)) = false →
      x.live &&& ~~~(x.k.pred p) = 0 → Passes x (.brd p t r) [] (x.f.addr + brdTarget x.sp.hints t)
  | brdPassed p t r : brdJoin x.sp.hints r ≠ 0 → x.noUnit (x.f.addr + BitVec.ofNat 32 (brdJoin x.sp.hints r)) = false →
      x.live &&& ~~~(x.k.pred p) ≠ 0 → x.live &&& x.k.pred p = 0 → Passes x (.brd p t r) [] x.f.next
  | copy (into : Bool) d a b r : x.badHandle d.toNat [1] = false → x.badHandle a.toNat [3] = false →
      (x.s.core x.f.core).copyQ.length < 128 → x.k.full .cp = false → x.k.scBusy = false → x.storing = false →
      recordPasses x a b 11 (.elements !into) (fun _ => false) .copy (if into then .load else .store) Tsr.elementRuns r →
      r.elementBytes ≤ hBytes (x.k.readT d.toNat) →
      Passes x (if into then .cpyIn d a b else .cpyOut d a b) [opT 0 d, opT 1 a, rdG 2 b] x.f.next
  | movGc d a : x.k.scBusy = false → Passes x (.movGc d a) [wrG 0 d] x.f.next
  | cwpwait d a : x.k.scBusy = false → (Words.get (x.s.core x.f.core).cwp a.toNat - x.g d).toNat < 2 ^ 31 → Passes x (.cwpwait d a) [rdG 0 d] x.f.next
  | tset d a : Passes x (.tset d a) [opT 0 d, rdG 1 a] x.f.next
  | tget d a : Passes x (.tget d a) [wrG 0 d, opT 1 a] x.f.next
  | tclr d : Passes x (.tclr d) [opT 0 d] x.f.next
  | tdesc (write : Bool) d a b : x.badHandle a.toNat [3] = false → x.storing = false → x.recordBusy a.toNat (x.g b) = false →
      Passes x (if write then .tdescW d a b else .tdescR d a b) [wrG 0 d, opT 1 a, rdG 2 b] x.f.next
  | tload (planed : Bool) d a b r : x.badHandle d.toNat [if planed then 2 else 1] = false → x.badHandle a.toNat [3] = false →
      x.tileWait = false →
      recordPasses x a b 8 .load (loadShape planed (loadPlanes x planed d)) .matrix .load (fun r => r.elementRuns ++ r.scaleRuns) r →
      (layoutOf planed (loadPlanes x planed d) r.fmt r.ext1 r.ext0).size ≤ hBytes (x.k.readT d.toNat) →
      Passes x (if planed then .tloadP d a b else .tloadR d a b) [opT 0 d, opT 1 a, rdG 2 b] x.f.next
  | tstore d a b r : x.badHandle d.toNat [1] = false → x.badHandle a.toNat [3] = false → x.tileWait = false →
      recordPasses x a b 8 (.elements true) (fun _ => false) .matrix .store Tsr.elementRuns r →
      r.elementBytes ≤ hBytes (x.k.readT d.toNat) → Passes x (.tstore d a b) [opT 0 d, opT 1 a, rdG 2 b] x.f.next
  | muster a : Passes x (.muster a) [rdG 1 a] x.f.next
  | rdmst d : Passes x (.rdmst d) [wrG 0 d] x.f.next
  | aclr d : x.tileWait = false → Passes x (.aclr d) [opA 0 d] x.f.next
  | amov d a : x.tileWait = false → Passes x (.amov d a) [opA 0 d, opA 1 a] x.f.next
  | ald d a : x.tileWait = false → x.badHandle a.toNat [1] = false → Passes x (.ald d a) [opA 0 d, opT 1 a] x.f.next
  | ast d a : x.tileWait = false → x.badHandle d.toNat [1] = false → Passes x (.ast d a) [opT 0 d, opA 1 a] x.f.next
  | aadd d a : x.tileWait = false → (x.s.core x.f.core).tileBusy x.f.slot [] [d.toNat, a.toNat] x.s.clock = false → x.k.te = 0 →
      Passes x (.aadd d a) [opA 0 d, opA 1 a] x.f.next
  | aget g d a b : x.k.active x.sp g = 0 ∨ ((x.g b).toNat < 32 ∧ x.k.accBusy a.toNat = false) →
      Passes x (.aget g d a b) [wrV 0 d, opA 1 a, rdG 2 b] x.f.next
  | aset g d a b : x.k.active x.sp g = 0 ∨ ((x.g b).toNat < 32 ∧ x.k.accBusy a.toNat = false) →
      Passes x (.aset g d a b) [rdV 0 d, opA 1 a, rdG 2 b] x.f.next
  | aepi (clr : Bool) d a b : epilogueReady x d a (x.epi b.toNat) → x.k.te = 0 →
      Passes x (if clr then .aepiClr d a b else .aepi d a b) [opT 0 d, opA 1 a, rdG 2 b 8] x.f.next
  | yield : x.s.detCore x.f.core = false → Passes x .yield [] x.f.next
  | pbinit d a : phaseOk x d a 0xF00E0000 → cut (x.g a).toNat 20 8 ≠ 0 → x.storing = false →
      Passes x (.pbinit d a) [opT 0 d, rdG 1 a] x.f.next
  | pbarrive d a : phaseOk x d a 0xFFFE0000 → x.k.working = false →
      (phaseAt (x.s.core x.f.core).sram (phaseByte (x.k.readT d.toNat) (x.g a))).bad = false →
      Passes x (.pbarrive d a) [opT 0 d, rdG 1 a] x.f.next
  | pbwait d a : phaseOk x d a 0xFFFE0000 → x.storing = false →
      (phaseAt (x.s.core x.f.core).sram (phaseByte (x.k.readT d.toNat) (x.g a))).bad = false →
      (phaseAt (x.s.core x.f.core).sram (phaseByte (x.k.readT d.toNat) (x.g a))).phase ≠ bit (x.g a).toNat 16 →
      Passes x (.pbwait d a) [opT 0 d, rdG 1 a] x.f.next
  | fetchw d a : x.badHandle d.toNat [1, 2, 3] = false → offsetBad (x.k.readT d.toNat) (x.g a) 0xFFFF0000 16 = false →
      x.k.fetch = none → x.storing = false → Passes x (.fetchw d a) [opT 0 d, rdG 1 a] x.f.next
  | launch d a t : x.k.scBusy = false → x.k.gated x.sp true = false → (∀ o ∈ x.k.ops, o.done = true ∨ o.path ≠ .lane) →
      x.s.access x.f.core false x.k.ctx .lane (x.k.readG64 a.toNat) 64 64 .load = .ok t → (bit t.attr 0 = true → x.unperformed = false) →
      Passes x (.launch d a) [wrG 0 d, rdG 1 a 2] x.f.next
  | qtokRel d a t : x.tokenAt a.toNat = some (.ok t) → (∀ o ∈ x.k.ops, o.done = true ∨ o.path ≠ .lane) →
      Passes x (.qtokRel d a) [rdG 0 d, rdG 1 a 2] x.f.next
  | qtokAcq d a t : x.tokenAt a.toNat = some (.ok t) → countReached (t.s.mem.readLE t.pa 4) (x.g d).toNat = true →
      Passes x (.qtokAcq d a) [rdG 0 d, rdG 1 a 2] x.f.next
  | qtokTry d a t : x.tokenAt a.toNat = some (.ok t) → Passes x (.qtokTry d a) [wrG 0 d, rdG 1 a 2] x.f.next
  | wlpush g d a : (x.k.active x.sp g ≠ 0 → x.lists ≠ [] ∧ (∀ n ∈ lanesOf (x.k.active x.sp g), (x.lists.get (x.v d n).toNat).isSome) ∧
        x.fits (x.k.active x.sp g) d.toNat = true) → Passes x (.wlpush g d a) [rdV 0 d, rdV 1 a] x.f.next
  | wlpop g d a p : (x.k.active x.sp g ≠ 0 → ∃ w, x.lists.get (x.g a).toNat = some w ∧ (w.count ≠ 0 ∨ x.quiet = true)) →
      Passes x (.wlpop g d a p) [wrV 0 d, rdG 1 a] x.f.next
  | wldone g : (x.k.active x.sp g ≠ 0 → x.lists ≠ [] ∧ popcount (x.k.active x.sp g) ≤ x.k.wlhold) → Passes x (.wldone g) [] x.f.next
  | jrec i kind d a q : JournalRecord i kind d a → canRecord x a.toNat kind q → (x.s.core x.f.core).portRecords < 64 →
      Passes x i [wrG 0 d 2, rdG 1 a 4] x.f.next
  | jemit a q : (x.s.header x.k).journal = true → x.s.seq x.k.ctx (x.jseq a.toNat) = some q → x.jpos a.toNat = q.emit →
      x.jpos a.toNat < q.next → x.jpayload a.toNat = 0 → x.s.heldEmissions < 4096 → Passes x (.jemit a) [rdG 1 a 4] x.f.next
  | jmark a q : (x.s.header x.k).journal = true → x.s.seq x.k.ctx (x.jseq a.toNat) = some q → x.jpos a.toNat < q.next →
      x.s.recordTurn x.k.ctx (some x.asker) 1 = true → Passes x (.jmark a) [rdG 1 a 4] x.f.next
  | jtrunc a q : (x.s.header x.k).journal = true → x.s.seq x.k.ctx (x.jseq a.toNat) = some q → x.jpos a.toNat < q.next →
      posLe (x.jpos a.toNat) q.durable = true → x.jpayload a.toNat = 0 →
      x.s.truncRoom (x.s.modSeq x.k.ctx (x.jseq a.toNat) fun q => q.truncate (x.jpos a.toNat)) x.k.ctx x.asker = true →
      Passes x (.jtrunc a) [rdG 1 a 4] x.f.next

/-- When the instruction at which a split is stalled can be carried out, and the event that does so (09 R239). -/
inductive Resumes (x : Iss) (core slot split : Nat) : Stall → Instr → Prop
  | wait l n c t : x.k.counter .ld ≤ l → x.k.counter .st ≤ n → x.k.counter .cp ≤ c → x.k.counter .tl ≤ t →
      Resumes x core slot split (.wait l n c t) (.waitSatisfied core slot split)
  | cwpwait d a : x.k.scBusy = false → (Words.get (x.s.core core).cwp a - x.k.readG d).toNat < 2 ^ 31 →
      Resumes x core slot split (.cwpwait d a) (.cwpwaitPass core slot split)
  | pbwait t a : (phaseAt (x.s.core core).sram (phaseByte (x.k.readT t) (x.k.readG a))).phase ≠ bit (x.k.readG a).toNat 16 →
      Resumes x core slot split (.pbwait t a) (.pbwaitPass core slot split)
  | acquire d a t : x.tokenAt a = some (.ok t) → countReached (t.s.mem.readLE t.pa 4) (x.k.readG d).toNat = true →
      Resumes x core slot split (.acquire d a) (.qtokAcqPass core slot split)
  | wlpush g d a : x.fits (x.k.active x.sp g) d = true → Resumes x core slot split (.wlpush g d a) (.wlpushResume core slot split)
  | wlpop g d a p w : x.lists.get (x.k.readG a).toNat = some w → w.count ≠ 0 ∨ x.quiet = true →
      Resumes x core slot split (.wlpop g d a p) (.wlpopResume core slot split)
  | jrec kind d a q : canRecord x a kind q → Resumes x core slot split (.jrec kind d a) (.jrecAcceptance core slot split)

/-- Words that pass their checks and stop their split, at the group's barrier or at its joint (07 R192, R195, 08 R210). -/
inductive Stops (x : Iss) : Instr → List Operand → Prop
  | bar : Stops x .bar []
  | aflush n : Stops x (.aflush n) []
  | mmj d a b : (∀ r ∈ (x.s.core x.f.core).latch, r.coop = [] → r.slot ≠ x.f.slot ∧
        (r.mst = x.k.mst ∨ (r.mst.getLsbD x.f.slot = false ∧ x.k.mst.getLsbD r.slot = false))) → x.tileWait = false →
      (x.s.core x.f.core).tileBusy x.f.slot (x.pairSpans b.toNat) [d.toNat] x.s.clock = false → x.badMuster = false →
      x.badHandle b.toNat [2] = false → x.badHandle (b.toNat + 1) [1] = false →
      (∀ n, n < 2 → (headerAt (x.s.core x.f.core).sram (hByte (x.k.readT (b.toNat + n)))).rows ≤ 32 ∧
        (headerAt (x.s.core x.f.core).sram (hByte (x.k.readT (b.toNat + n)))).rsv = false) →
      Stops x (.mmj d a b) [opA 0 d, rdV 1 a, opT 2 b 2]
  | mmc d a b co : co = coopOf ((List.range 8).map fun j => x.k.readG (d.toNat + j)) → x.tileWait = false →
      (x.s.core x.f.core).tileBusy x.f.slot (x.pairSpans b.toNat) (List.range 16) x.s.clock = false → co.bad = false →
      x.badHandle b.toNat [2] = false → x.badHandle (b.toNat + 1) [1] = false →
      (∀ n, n < 2 → (headerAt (x.s.core x.f.core).sram (hByte (x.k.readT (b.toNat + n)))).rows ≤ 128) →
      (∀ r ∈ x.s.coopSet x.k.ctx co.id, (coopOf r.2.coop).rank ≠ co.rank) →
      Stops x (.mmc d a b) [rdG 0 d 8, rdV 1 a, opT 2 b 2, { field := 3, cls := .a, idx := 0, cnt := 16 }]

/-- The operation of an identifier in a resident pack. -/
def State.opAt (s : State) (core slot op : Nat) (k : Pack) (o : PendOp) : Prop :=
  s.pack core slot = some k ∧ k.ops.find? (fun p => p.id == op) = some o

/-- The engine of an operation has nothing before it: a load or store of a tile, a granule operation, or each part of a joint (07 R177, R193). -/
def tileGoes (s : State) : OpKind → Prop
  | .tload .. | .tstore .. | .acc .. => True
  | .tile _ _ _ _ _ joint => joint = 0 ∨
      ∀ p ∈ s.jointOps joint, (s.core p.1).tileBusy p.2.1 p.2.2.kind.spans p.2.2.kind.grans p.2.2.stamp = false
  | _ => False

/-- A stopping group's packs are quiet and it has no flush to make first (15 R333, R336). -/
def canHalt (s : State) (ps : List (Nat × Nat × Pack)) : Prop :=
  (∀ p ∈ ps, p.2.2.quiet = true ∧ ∀ f ∈ (s.core p.1).fifos, f.2.promised = 0) ∧ s.flushDue ps = false

/-- When an event of the engines, the launches, the Trail and the broadcasts comes about (06 R161, R167, 07 R177, R192, R195, 08 R210, R211,
R216, 15 R316–R342, 19 R395, R396, 20 R413–R416). -/
inductive Happens (s : State) : Instr → Prop
  | copyPart core channel upto k o e ch seq into base n lo runs : (s.core core).copyQ.find? (fun e => e.1 == channel) = some e →
      s.opAt core e.2.1 e.2.2 k o → o.kind = .copy ch seq into base n lo runs → lo ≤ upto → upto ≤ n →
      s.detHeld core o = false → Happens s (.copyCompletion core channel upto)
  | tileOp core slot op k o : s.opAt core slot op k o → o.done = false →
      (s.core core).tileBusy slot o.kind.spans o.kind.grans o.stamp = false → s.detHeld core o = false → tileGoes s o.kind →
      Happens s (.tileOpCompletion core slot op)
  | flush queue index group g : s.group { queue := queue, index := index } group = some g → s.barrierFull g true = true →
      (∀ p ∈ s.groupPacks g, ∀ o ∈ p.2.2.ops, o.done = true ∨ (o.path ≠ .lane ∧ o.kind.stores = false)) →
      (∀ b ∈ s.inflight, ¬(b.tag = { queue := queue, index := index } ∧ b.group = group)) →
      Happens s (.aflushFlush queue index group)
  | barrier queue index group g : s.group { queue := queue, index := index } group = some g → s.barrierFull g false = true →
      s.groupDone g = true → Happens s (.barCompletion queue index group)
  | deadlock queue index group g : s.group { queue := queue, index := index } group = some g → s.deadlocked g = true →
      Happens s (.barrierDeadlock queue index group)
  | joint core slot a0 ps : (s.core core).latch.find? (fun a => a.coop.isEmpty && a.slot == slot) = some a0 →
      ((slotsOf a0.mst).map fun i => (s.core core).latch.find? fun a => a.coop.isEmpty && a.slot == i && a.mst == a0.mst).mapM
        (fun a => a.bind (s.part core)) = some ps →
      (∀ p ∈ ps, p.x.k.full .tl = false ∧
        (s.core core).tileBusy p.x.f.slot (p.x.pairSpans p.a.tile) [p.a.acc] s.clock = false) → Happens s (.jointFormation core slot)
  | coop ctx coopid ps : (s.coopSet ctx coopid).mapM (fun e => s.part e.1 e.2) = some ps →
      (∃ e ∈ s.coopSet ctx coopid, ∀ r, r < (coopOf e.2.coop).ranks → ∃ f ∈ s.coopSet ctx coopid, (coopOf f.2.coop).rank = r) →
      (∀ p ∈ ps, p.x.k.full .tl = false ∧
        (s.core p.x.f.core).tileBusy p.x.f.slot (p.x.pairSpans p.a.tile) (List.range 16) s.clock = false) → Happens s (.coopRendezvous ctx coopid)
  | fetched core slot k f l : s.pack core slot = some k → k.fetch = some f → s.launch k.tag = some l → Happens s (.fetchwAnswer core slot)
  | emission ctx seq c q e rest : s.context ctx = some c → c.seqs.get seq = some q → q.held = e :: rest → s.failSilent = false →
      (∀ p, c.partner = some p → p.silent = false) → (∀ i, e.tokIdx = some i → c.partner.isSome ∧ i < q.ackIdx) →
      Happens s (.emissionRelease ctx seq)
  | ack peer ctx seq ackidx : Happens s (.journalAckReceive peer ctx seq ackidx)
  | record source bytes : Happens s (.journalRecordReceive source bytes)
  | heard peer : Happens s (.heartbeatReceive peer)
  | beat peer p : s.peers.get peer = some p → s.failSilent = false → p.sent + 100000 ≤ s.now → Happens s (.heartbeatSend peer)
  | silent peer p : s.peers.get peer = some p → (p.silent = false ∨ ∃ c ∈ s.contexts, ∃ q, c.2.partner = some q ∧ q.peer = peer ∧ q.silent = false) →
      p.heard + 1000000 ≤ s.now → Happens s (.peerSilent peer)
  | emitted core slot op k o mgroup va lanes vals owner : s.opAt core slot op k o → o.kind = .bst mgroup va lanes vals → o.done = false →
      k.bstAhead o mgroup = false → s.slotOwner (mgroup % 8) (clusterOf core) s.frame = some owner →
      (∀ c, c < Config.clusters → s.grants c mgroup = true) → s.slotFree (mgroup % 8) owner s.frame (clusterOf core) = true →
      Happens s (.bstEmission core slot op)
  | delivered bus p : s.nextPayload bus = some p → Happens s (.broadcastDelivery bus)
  | filtered cluster mgroup byte size value : cluster < Config.clusters → mgroup < 256 → byte + size ≤ 32 →
      Happens s (.filterEntryWrite cluster mgroup byte size value)
  | frame bad : s.frame ≠ 0 ∨ bad = [] → Happens s (.settFrame bad)
  | consumed queue : 5 ≤ s.phase → s.queueServed queue = true →
      s.mem.readLE (s.qRing queue + 64 * (s.qHead queue % s.qSlots queue)) 1 ≠ 0 → Happens s (.launchRecordConsume queue)
  | create queue l : s.headRecord queue = some l → l.kind = 2 → Happens s (.create queue)
  | destroy queue l : s.headRecord queue = some l → l.kind = 3 → Happens s (.destroy queue)
  | dispatch queue l : s.headRecord queue = some l → l.kind = 1 → 5 ≤ s.phase → l.failedPages = [] →
      (∀ c, launchFault l.bytes = none → s.context l.ctx = some c →
        if l.phase = .consumed then (s.makeResident l c).isSome else s.dispatchReady l = true) → Happens s (.launchDispatch queue)
  | walked queue index l c : s.launch { queue := queue, index := index } = some l → s.context l.ctx = some c → l.phase = .placing →
      l.leased = false → l.failedPages = [] → (∀ va ∈ l.leasePages, s.armedPage c va = false) → Happens s (.leaseWalk queue index)
  | completed queue index l : s.launch { queue := queue, index := index } = some l → l.phase = .placing → l.allOut = true →
      l.count ≤ l.completed → (∀ p ∈ s.inflight, p.tag ≠ l.tag) → Happens s (.launchCompletion queue index)
  | packEnd core slot k : s.pack core slot = some k → k.remaining = 0 → (∀ o ∈ k.ops, o.cls = .none_) → k.reaped = false →
      Happens s (.packEnd core slot)
  | aged queue w : s.waits.get queue = some w → (w.2 + 1) * 1000000 ≤ w.1 → Happens s (.queueAging queue)
  | quiescent ctx c : s.context ctx = some c → c.quiescent = false → s.quiet c = true → Happens s (.quiescenceDeclared ctx)
  | tableWalk core va ctx : s.residentCtx core = some ctx → s.tlbHit core false ctx va.toNat = none → Happens s (.tableWalk core va)
  | placed queue index group cluster positions l t : s.launch { queue := queue, index := index } = some l → s.phase = 5 →
      s.placeable l (List.range Config.clusters) = true → l.unplaced = some group → s.chosenQueue = some queue → l.flag 2 = false →
      s.placeGroup l group (positions.map fun p => 128 * cluster + p) = some t → Happens s (.groupPlacement queue index group cluster positions)
  | placedAll queue index group cluster positions l t : s.launch { queue := queue, index := index } = some l → s.phase = 5 →
      s.placeable l (List.range Config.clusters) = true → l.unplaced = some group → s.chosenQueue = some queue → l.flag 2 = true →
      l.twoClusters ((positions.map fun p => 128 * cluster + p).map clusterOf) = true →
      s.placeAll l l.together (positions.map fun p => 128 * cluster + p) = some t → Happens s (.groupPlacement queue index group cluster positions)
  | preempted queue l vs : s.launches.find? (fun l => l.tag.queue == queue && l.wantsPlace) = some l → l.latBound ≠ 0 → l.leased = true →
      (s.withoutAll s.inHand).canPlace l = false → (s.withoutAll s.inHand).enough l [] (s.victims l) = some vs → Happens s (.preemption queue)
  | flushed queue index group l g : s.launch { queue := queue, index := index } = some l →
      s.group { queue := queue, index := index } group = some g → g.stopped = false → g.victim = some .flush →
      (g.committed = false → canHalt s (s.ownPacks g)) → Happens s (.victimStop queue index group)
  | stopped queue index group l g : s.launch { queue := queue, index := index } = some l →
      s.group { queue := queue, index := index } group = some g → g.stopped = false → g.victim = some .save →
      (s.saveFits l.ctx g = true → canHalt s (s.packsOn l.ctx (s.closureOf l.ctx g))) → Happens s (.victimStop queue index group)
  | saved queue index group l g : s.launch { queue := queue, index := index } = some l →
      s.group { queue := queue, index := index } group = some g → g.victim = some .save → g.stopped = true →
      Happens s (.closureSave queue index group)
  | restored ctx save cluster positions c v cores : s.context ctx = some c → c.saves.find? (fun v => v.id == save) = some v → s.phase = 5 →
      cores = positions.map (fun p => 128 * cluster + p % 128) → cores.length = v.cores.length → cores.eraseDups.length = cores.length →
      (∀ p ∈ v.cores.zip cores, s.blockFits p.2 p.1.2 = true) → (∃ g ∈ v.groups, s.chosenQueue = some g.1.queue) →
      Happens s (.closureRestore ctx save cluster positions)
  | expired resv r e : s.resvs.get resv = some r → r.dormant = some e → e ≤ s.now → Happens s (.reservationExpiry resv)
  | migrated c m : s.migrations.get c = some m → s.pageBusy m.oldPa m.size = false → Happens s (.migrateCommit c)

/-- When an event of a host complex, of bring-up, of the islands, of the optics or of a fault comes about (10 R271, 16 R345–R364, 18 R375–R391, 19
R397–R407, 20 R410, R417, R420, R423). -/
inductive Occurs (s : State) : Instr → Prop
  | event ctx e : s.events.find? (fun e => e.ctx == ctx) = some e → deliverable s ctx e → Occurs s (.eventDelivery ctx)
  | acquire complex n : complex < 2 → n < 64 → Occurs s (.semaphoreAcquire complex n)
  | release complex n : complex < 2 → n < 64 → Occurs s (.semaphoreRelease complex n)
  | complexReset complex : complex < 2 → Occurs s (.hostComplexReset complex)
  | register complex offset size value : complex < 2 → offset < 2 ^ 30 →
      Occurs s (.registerWrite complex offset size value)
  | hart a : a.complex < 2 → a.hart < 32 → inDevice a.pa a.size = true ∨ inSett a.pa a.size = true ∨
      (0x00F1000000000000 ≤ a.pa ∧ a.pa < 0x00F1000000000000 + 2 ^ 30) ∨ (0x00F4000000000000 ≤ a.pa ∧ a.pa < 0x00F4000002000000) ∨
      (0x00F8000000000000 ≤ a.pa ∧ a.pa < 0x00FC000000000000) → Occurs s (.hostHartAccess a)
  | endpoint pa bytes : inDevice pa bytes.length = true → Occurs s (.pcieEndpointWrite pa bytes)
  | command i kind c : Command i kind c → c < 2 → s.cmd c 0 1 = kind → Occurs s i
  | mapInstall complex : Occurs s (.mapInstall complex)
  | point complex i p : i < 48 → p < 8 → Occurs s (.islandPointWrite complex i p)
  | pointChange i : i < 48 → Occurs s (.islandPointChange i)
  | throttle i p temp : i < 48 → p < (s.island i).current → Occurs s (.islandThrottle i p temp)
  | throttleEnd i temp : i < 48 → (s.island i).throttled = true → temp ≤ 95 → Occurs s (.islandThrottleEnd i temp)
  | timeStep complex v : Occurs s (.timeStepWrite complex v)
  | powerOn : Occurs s .powerOnReset
  | moduleReset : Occurs s .moduleReset
  | selftest failures : s.phase = 1 → (∀ u ∈ failures, DefectUnit.ok u = true) → Occurs s (.selftestDone failures)
  | seamtrain extra failedLinks : s.phase = 2 → extra.length = 11 → (∀ e ∈ extra, e ≤ 2) → Occurs s (.seamtrainDone extra failedLinks)
  | merge fields west east : s.phase = 3 → (west = true ∨ east = true → sortNats fields = sortNats ((s.fabric west east).filterMap gridField)) →
      Occurs s (.mergeDone fields west east)
  | verify skewPs : s.phase = 4 → skewPs < 2 ^ 31 → Occurs s (.verifyDone skewPs)
  | standby : s.mgmt.standby = false → Occurs s .standbyPowerOn
  | query sender port d : s.mgmt.standby = true → port < 65536 → mgmtType d = some 3 → Occurs s (.mgmtQuery sender (port + 65536 * mgmtPort) d)
  | subscribe sender port d : s.mgmt.standby = true → port < 65536 → mgmtType d = some 4 →
      Occurs s (.mgmtSubscribe sender (port + 65536 * mgmtPort) d)
  | badDatagram sender ports d : mgmtType d = none ∨ ports / 65536 ≠ mgmtPort → Occurs s (.mgmtBadDatagram sender ports d)
  | status : s.mgmt.standby = true → 1000000000 ≤ s.mgmt.wait → Occurs s .mgmtStatusPeriodic
  | ring bus p : bus < 8 → p < 162 → (s.link p bus).sound = true → (s.link p bus).failed = true → Occurs s (.ringFailure bus p)
  | receiveRing bus p : bus < 8 → p < 162 → (s.link p bus).state ≠ 3 → Occurs s (.receiveRingFailure bus p)
  | laserOn complex m v : m < 24 → Occurs s (.laserOnWrite complex m v)
  | laserLoss m fault : m < 16 → (s.laser m).present = true → Occurs s (.laserModuleLoss m fault)
  | ioLoss m fault : 16 ≤ m → m < 24 → (s.laser m).present = true → Occurs s (.ioLaserLoss m fault)
  | laserInsert m : m < 24 → (s.laser m).present = false ∨ (s.laser m).state = .fault → Occurs s (.laserModuleInsert m)
  | laserWarm m : m < 24 → (s.laser m).state = .warm → Occurs s (.laserWarmDone m)
  | portWrite i c k p : PortWrite s i c k p → k < portCount → Occurs s i
  | portMove i k p : PortMove s i k p → k < portCount → Occurs s i
  | planeDrain c j : j < 4 → Occurs s (.planeDrain c j)
  | planeResume c j : j < 4 → Occurs s (.planeResume c j)
  | planeDark j : j < 4 → (s.plane j).state = .draining → s.planeIdle j = true → Occurs s (.planeDark j)
  | planeBack j : j < 4 → (s.plane j).state = .retrain →
      ((s.plane j).wasUp.all fun k => (s.port k).state == .up) = true ∨ (s.plane j).since + 1000000 ≤ s.now → Occurs s (.planeRetrainDone j)
  | chunk n c ethernet bytes r : s.resvs.get n = some r → r.released = false → r.dormant = none → bytes.length = 65536 →
      65536 * (c + 1) ≤ r.len →
      ethernet = true ∨ (r.turn c ∉ r.diverted ∧ s.chunkShares (r.turn c) r.peer ≠ []) → Occurs s (.collectiveChunkArrival n c ethernet bytes)
  | marker n plane r : s.resvs.get n = some r → Occurs s (.resumeMarker n plane)
  | chip cause : Occurs s (.chipFailure cause)
  | error e : 1 ≤ e.cls → e.cls ≤ 14 → e.severity ≤ 4 → (e.severity = 2 → 1 ≤ e.whereCode ∧ e.whereCode ≤ 7) → Occurs s (.hardwareError e)
  | core c : c < 20480 → (s.core c).failed = false → Occurs s (.coreFailure c)

end Sys2Proof.Machine

section
open Sys2Proof Sys2Proof.Machine

/-- An instruction that passes its checks and has nothing to wait for has its own effect and goes on (04 R107, 06 R165, R168, R169, 07 R178,
R182, R187–R189, R198–R201, 08 R212–R226), and so does one that has waited, once its condition holds (09 R239). A word that stops its split
at the barrier or at a joint leaves it there (07 R192, R195, 08 R210); `exit` takes its active lanes out of the pack (04 R114). An event whose
condition holds comes about. -/
def Obligations.FormsGoOn : Prop :=
  (∀ (s : State) (x : Iss) i os pc, s.Ready os x → x.sp.id = x.f.split → Passes x i os pc → ∃ t, exec i s = .next t ∧ wentOn x t pc) ∧
  (∀ core slot split (s : State) (x : Iss) st i, s.stalled core slot split = some x → x.sp.id = split → x.sp.stall = some st →
    Resumes x core slot split st i → ∃ t, exec i s = .next t ∧ wentOn x t x.f.next) ∧
  (∀ (s : State) (x : Iss) i os, s.Ready os x → x.sp.id = x.f.split → Stops x i os →
    ∃ t k sp, exec i s = .next t ∧ x.now t = some (k, sp) ∧ (sp.status = .barrier ∨ sp.stall = some .joint)) ∧
  (∀ g (s : State) (x : Iss), s.Ready [] x → x.sp.id = x.f.split →
    ∃ t k, exec (.exit g) s = .next t ∧ t.pack x.f.core x.f.slot = some k ∧ k.exited = x.k.exited ||| x.k.active x.sp g) ∧
  (∀ (s : State) i, Happens s i ∨ Occurs s i → ∃ t, exec i s = .next t)

end
end

