-- ==== Sys2Proof/Laws/Store.lean ====
section
/-!
SUPPORT. Laws of sparse data: reading after writing, in tables, stores and memory, and the one form that every write keeps.
-/

namespace Sys2Proof.Machine

section
variable {α : Type}

/-! ### Tables -/

theorem mem_eraseKey {m : List (Nat × α)} {k : Nat} {e : Nat × α} : e ∈ eraseKey m k ↔ e ∈ m ∧ e.1 ≠ k := by
  simp [eraseKey]

/-- What a key reads as once key `k` is dropped. -/
theorem get_eraseKey (m : List (Nat × α)) (k j : Nat) :
    Table.get (eraseKey m k) j = if j = k then none else Table.get m j := by
  induction m <;> grind [eraseKey, Table.get]

theorem get_eraseKey_self (m : List (Nat × α)) (k : Nat) : Table.get (eraseKey m k) k = none := by simp [get_eraseKey]

theorem get_eraseKey_of_ne (m : List (Nat × α)) {k j : Nat} (h : j ≠ k) : Table.get (eraseKey m k) j = Table.get m j := by
  simp [get_eraseKey, h]

/-- What a key reads as once an absent key is inserted. -/
theorem get_insertKey (m : List (Nat × α)) (k : Nat) (v : α) (hm : ∀ e ∈ m, e.1 ≠ k) (j : Nat) :
    Table.get (insertKey m k v) j = if j = k then some v else Table.get m j := by
  induction m <;> grind [insertKey, Table.get]

theorem Table.get_put (m : Table α) (k : Nat) (v : α) (j : Nat) :
    Table.get (Table.put m k v) j = if j = k then some v else Table.get m j := by
  rw [Table.put, get_insertKey _ _ _ fun e he => (mem_eraseKey.1 he).2]
  split
  · rfl
  · rename_i h; exact get_eraseKey_of_ne m h

@[simp] theorem Table.get_put_self (m : Table α) (k : Nat) (v : α) : Table.get (Table.put m k v) k = some v := by
  simp [Table.get_put]

theorem Table.get_put_of_ne (m : Table α) {k j : Nat} (v : α) (h : j ≠ k) : Table.get (Table.put m k v) j = Table.get m j := by
  simp [Table.get_put, h]

@[simp] theorem Table.getD_put_self (m : Table α) (k : Nat) (v d : α) : Table.getD (Table.put m k v) k d = v := by
  simp [Table.getD]

theorem Table.getD_put_of_ne (m : Table α) {k j : Nat} (v d : α) (h : j ≠ k) :
    Table.getD (Table.put m k v) j d = Table.getD m j d := by
  simp [Table.getD, Table.get_put_of_ne m v h]

@[simp] theorem Table.get_del_self (m : Table α) (k : Nat) : Table.get (Table.del m k) k = none := get_eraseKey_self m k

theorem Table.get_del_of_ne (m : Table α) {k j : Nat} (h : j ≠ k) : Table.get (Table.del m k) j = Table.get m j :=
  get_eraseKey_of_ne m h

theorem Table.get_update_self (m : Table α) (k : Nat) (f : α → α) :
    Table.get (Table.update m k f) k = (Table.get m k).map f := by
  unfold Table.update
  cases h : Table.get m k <;> simp [h]

theorem Table.get_update_of_ne (m : Table α) {k j : Nat} (f : α → α) (h : j ≠ k) :
    Table.get (Table.update m k f) j = Table.get m j := by
  unfold Table.update
  cases Table.get m k <;> simp [Table.get_put_of_ne _ _ h]

/-! ### Rising keys -/

/-- Rising keys, as a relation of every two entries. -/
theorem sortedKeys_iff {m : List (Nat × α)} : sortedKeys m = true ↔ m.Pairwise (·.1 < ·.1) := by
  induction m using sortedKeys.induct with
  | case1 => simp [sortedKeys]
  | case2 => simp [sortedKeys]
  | case3 a b m ih => grind [sortedKeys, List.pairwise_cons]

theorem sortedKeys_filter {m : List (Nat × α)} (p : Nat × α → Bool) (h : sortedKeys m = true) :
    sortedKeys (m.filter p) = true :=
  sortedKeys_iff.2 ((sortedKeys_iff.1 h).filter p)

theorem mem_insertKey {m : List (Nat × α)} {k : Nat} {v : α} {e : Nat × α} : e ∈ insertKey m k v ↔ e = (k, v) ∨ e ∈ m := by
  induction m <;> grind [insertKey]

theorem sortedKeys_insertKey {m : List (Nat × α)} {k : Nat} (v : α) (hk : ∀ e ∈ m, e.1 ≠ k) (h : sortedKeys m = true) :
    sortedKeys (insertKey m k v) = true := by
  rw [sortedKeys_iff] at *
  induction m with
  | nil => simp [insertKey]
  | cons e m ih => grind [insertKey, mem_insertKey, List.pairwise_cons]

end

/-! ### Stores -/

theorem Store.wf_iff {α : Type} [DecidableEq α] {d : α} {m : List (Nat × α)} :
    Store.wf d m = true ↔ sortedKeys m = true ∧ ∀ e ∈ m, e.2 ≠ d := by
  simp [Store.wf]

theorem Store.wf_filter {α : Type} [DecidableEq α] {d : α} {m : List (Nat × α)} (p : Nat × α → Bool)
    (h : Store.wf d m = true) : Store.wf d (m.filter p) = true := by
  obtain ⟨hs, hd⟩ := Store.wf_iff.1 h
  exact Store.wf_iff.2 ⟨sortedKeys_filter p hs, fun e he => hd e (List.mem_filter.1 he).1⟩

/-- A write keeps the form of a store. -/
theorem Store.wf_write {α : Type} [DecidableEq α] {d : α} {m : List (Nat × α)} (k : Nat) (v : α)
    (h : Store.wf d m = true) : Store.wf d (Store.write d m k v) = true := by
  unfold Store.write
  split
  · exact Store.wf_filter _ h
  · rename_i hv
    obtain ⟨hs, hd⟩ := Store.wf_iff.1 h
    refine Store.wf_iff.2 ⟨sortedKeys_insertKey v (fun e he => (mem_eraseKey.1 he).2) (sortedKeys_filter _ hs), ?_⟩
    intro e he
    rcases mem_insertKey.1 he with rfl | he
    · exact hv
    · exact hd e (mem_eraseKey.1 he).1

/-- A read after a write: the value written at its key, what was there at another. -/
theorem Store.read_write {α : Type} [DecidableEq α] (d : α) (m : List (Nat × α)) (k : Nat) (v : α) (j : Nat) :
    Store.read d (Store.write d m k v) j = if j = k then v else Store.read d m j := by
  unfold Store.read Store.write
  split
  · rename_i hv
    by_cases h : j = k
    · subst h; simp [get_eraseKey_self, hv]
    · simp [h, get_eraseKey_of_ne m h]
  · rw [get_insertKey _ _ _ fun e he => (mem_eraseKey.1 he).2]
    by_cases h : j = k
    · simp [h]
    · simp [h, get_eraseKey_of_ne m h]

theorem Words.get_set (m : Words) (k : Nat) (v : Word) (j : Nat) :
    Words.get (Words.set m k v) j = if j = k then v else Words.get m j := Store.read_write 0 m k v j

@[simp] theorem Words.get_set_self (m : Words) (k : Nat) (v : Word) : Words.get (Words.set m k v) k = v := by
  simp [Words.get_set]

@[simp] theorem Words.get_nil (k : Nat) : Words.get [] k = 0 := rfl

/-! ### Memory -/

theorem Bytes.get_set (m : Bytes) (a : Nat) (v : Byte) (j : Nat) :
    Bytes.get (Bytes.set m a v) j = if j = a then v else Bytes.get m j := Store.read_write 0 m a v j

@[simp] theorem Bytes.get_nil (a : Nat) : Bytes.get [] a = 0 := rfl

theorem Bytes.get_writeLE (m : Bytes) (a n v j : Nat) :
    Bytes.get (Bytes.writeLE m a n v) j =
      if a ≤ j ∧ j < a + n then BitVec.ofNat 8 (v / 256 ^ (j - a)) else Bytes.get m j := by
  induction n generalizing m a v with
  | zero => simp [Bytes.writeLE]
  | succ n ih =>
    rw [Bytes.writeLE, ih, Bytes.get_set]
    by_cases h1 : a + 1 ≤ j ∧ j < a + 1 + n
    · have h2 : a ≤ j ∧ j < a + (n + 1) := by omega
      have h3 : j - a = (j - (a + 1)) + 1 := by omega
      simp [h1, h2, h3, Nat.pow_succ, Nat.div_div_eq_div_mul, Nat.mul_comm]
    · by_cases h2 : j = a
      · subst h2
        have h3 : ¬(j + 1 ≤ j ∧ j < j + 1 + n) := by omega
        have h4 : j ≤ j ∧ j < j + (n + 1) := by omega
        simp [h4]
      · have h3 : ¬(a ≤ j ∧ j < a + (n + 1)) := by omega
        rw [if_neg h1, if_neg h2, if_neg h3]

/-- A write leaves every byte outside it alone. -/
theorem Bytes.get_writeLE_of_outside (m : Bytes) {a n j : Nat} (v : Nat) (h : j < a ∨ a + n ≤ j) :
    Bytes.get (Bytes.writeLE m a n v) j = Bytes.get m j := by
  have : ¬(a ≤ j ∧ j < a + n) := by omega
  simp [Bytes.get_writeLE, this]

theorem Bytes.get_writeList_of_outside (m : Bytes) {a j : Nat} (l : List Byte) (h : j < a ∨ a + l.length ≤ j) :
    Bytes.get (Bytes.writeList m a l) j = Bytes.get m j := by
  induction l generalizing m a with
  | nil => rfl
  | cons b l ih =>
    simp only [List.length_cons] at h
    have hj : j ≠ a := by omega
    rw [Bytes.writeList, ih _ (by omega), Bytes.get_set]
    simp [hj]

/-- A read of what was just written gives the low `n` bytes of the value. -/
theorem Bytes.readLE_writeLE (m : Bytes) (a n v : Nat) : Bytes.readLE (Bytes.writeLE m a n v) a n = v % 256 ^ n := by
  suffices h : ∀ n m' a v, (∀ j, j < n → Bytes.get m' (a + j) = BitVec.ofNat 8 (v / 256 ^ j)) →
      Bytes.readLE m' a n = v % 256 ^ n by
    refine h n _ a v fun j hj => ?_
    have h1 : a ≤ a + j ∧ a + j < a + n := by omega
    rw [Bytes.get_writeLE, if_pos h1, Nat.add_sub_cancel_left]
  intro n
  induction n with
  | zero => intro m' a v _; simp [Bytes.readLE, Nat.mod_one]
  | succ n ih =>
    intro m' a v h
    have h0 := h 0 (by omega)
    have hr := ih m' (a + 1) (v / 256) fun j hj => by
      have := h (j + 1) (by omega)
      rw [show a + 1 + j = a + (j + 1) by omega, this, Nat.pow_succ, Nat.div_div_eq_div_mul, Nat.mul_comm]
    simp only [Nat.add_zero, Nat.pow_zero, Nat.div_one] at h0
    rw [Bytes.readLE, hr, h0, Nat.pow_succ, Nat.mul_comm (256 ^ n) 256, Nat.mod_mul]
    simp

theorem Memory.wf_set {m : Bytes} (a : Nat) (v : Byte) (h : Memory.wf m = true) : Memory.wf (Bytes.set m a v) = true :=
  Store.wf_write a v h

theorem Memory.wf_writeLE {m : Bytes} (a n v : Nat) (h : Memory.wf m = true) : Memory.wf (Bytes.writeLE m a n v) = true := by
  induction n generalizing m a v with
  | zero => exact h
  | succ n ih => exact ih _ _ (Memory.wf_set a _ h)

theorem Memory.wf_writeList {m : Bytes} (a : Nat) (l : List Byte) (h : Memory.wf m = true) :
    Memory.wf (Bytes.writeList m a l) = true := by
  induction l generalizing m a with
  | nil => exact h
  | cons b l ih => exact ih _ (Memory.wf_set a b h)

theorem Memory.wf_clear {m : Bytes} (lo hi : Nat) (h : Memory.wf m = true) : Memory.wf (Bytes.clear m lo hi) = true :=
  Store.wf_filter _ h

theorem Memory.wf_nil : Memory.wf [] = true := rfl

end Sys2Proof.Machine
end

