-- ==== Sys2Proof/Laws/State.lean ====
section
/-!
SUPPORT. What each named update of the state or of a pack leaves of each field: one lemma for a field and an update, true by
definition, so that no later proof unfolds a record update; then the reads of cores, packs and splits after their updates.
-/

namespace Sys2Proof.Machine

/-! ### `State.setCore` -/

@[simp] theorem State.setCore_mem (s : State) (c : Nat) (k : Core) : (s.setCore c k).mem = s.mem := rfl
@[simp] theorem State.setCore_stale (s : State) (c : Nat) (k : Core) : (s.setCore c k).stale = s.stale := rfl
@[simp] theorem State.setCore_tlb (s : State) (c : Nat) (k : Core) : (s.setCore c k).tlb = s.tlb := rfl
@[simp] theorem State.setCore_walkCache (s : State) (c : Nat) (k : Core) : (s.setCore c k).walkCache = s.walkCache := rfl
@[simp] theorem State.setCore_pageLists (s : State) (c : Nat) (k : Core) : (s.setCore c k).pageLists = s.pageLists := rfl
@[simp] theorem State.setCore_l2 (s : State) (c : Nat) (k : Core) : (s.setCore c k).l2 = s.l2 := rfl
@[simp] theorem State.setCore_contexts (s : State) (c : Nat) (k : Core) : (s.setCore c k).contexts = s.contexts := rfl
@[simp] theorem State.setCore_launches (s : State) (c : Nat) (k : Core) : (s.setCore c k).launches = s.launches := rfl
@[simp] theorem State.setCore_waits (s : State) (c : Nat) (k : Core) : (s.setCore c k).waits = s.waits := rfl
@[simp] theorem State.setCore_served (s : State) (c : Nat) (k : Core) : (s.setCore c k).served = s.served := rfl
@[simp] theorem State.setCore_window (s : State) (c : Nat) (k : Core) : (s.setCore c k).window = s.window := rfl
@[simp] theorem State.setCore_cmdStatus (s : State) (c : Nat) (k : Core) : (s.setCore c k).cmdStatus = s.cmdStatus := rfl
@[simp] theorem State.setCore_cmdHeld (s : State) (c : Nat) (k : Core) : (s.setCore c k).cmdHeld = s.cmdHeld := rfl
@[simp] theorem State.setCore_migrations (s : State) (c : Nat) (k : Core) : (s.setCore c k).migrations = s.migrations := rfl
@[simp] theorem State.setCore_sems (s : State) (c : Nat) (k : Core) : (s.setCore c k).sems = s.sems := rfl
@[simp] theorem State.setCore_hartResvs (s : State) (c : Nat) (k : Core) : (s.setCore c k).hartResvs = s.hartResvs := rfl
@[simp] theorem State.setCore_events (s : State) (c : Nat) (k : Core) : (s.setCore c k).events = s.events := rfl
@[simp] theorem State.setCore_errSeq (s : State) (c : Nat) (k : Core) : (s.setCore c k).errSeq = s.errSeq := rfl
@[simp] theorem State.setCore_errors (s : State) (c : Nat) (k : Core) : (s.setCore c k).errors = s.errors := rfl
@[simp] theorem State.setCore_gtime (s : State) (c : Nat) (k : Core) : (s.setCore c k).gtime = s.gtime := rfl
@[simp] theorem State.setCore_dev (s : State) (c : Nat) (k : Core) : (s.setCore c k).dev = s.dev := rfl
@[simp] theorem State.setCore_corr (s : State) (c : Nat) (k : Core) : (s.setCore c k).corr = s.corr := rfl
@[simp] theorem State.setCore_exchanged (s : State) (c : Nat) (k : Core) : (s.setCore c k).exchanged = s.exchanged := rfl
@[simp] theorem State.setCore_parents (s : State) (c : Nat) (k : Core) : (s.setCore c k).parents = s.parents := rfl
@[simp] theorem State.setCore_skew (s : State) (c : Nat) (k : Core) : (s.setCore c k).skew = s.skew := rfl
@[simp] theorem State.setCore_step (s : State) (c : Nat) (k : Core) : (s.setCore c k).step = s.step := rfl
@[simp] theorem State.setCore_slew (s : State) (c : Nat) (k : Core) : (s.setCore c k).slew = s.slew := rfl
@[simp] theorem State.setCore_islands (s : State) (c : Nat) (k : Core) : (s.setCore c k).islands = s.islands := rfl
@[simp] theorem State.setCore_phase (s : State) (c : Nat) (k : Core) : (s.setCore c k).phase = s.phase := rfl
@[simp] theorem State.setCore_sheltered (s : State) (c : Nat) (k : Core) : (s.setCore c k).sheltered = s.sheltered := rfl
@[simp] theorem State.setCore_replReq (s : State) (c : Nat) (k : Core) : (s.setCore c k).replReq = s.replReq := rfl
@[simp] theorem State.setCore_mapCopy (s : State) (c : Nat) (k : Core) : (s.setCore c k).mapCopy = s.mapCopy := rfl
@[simp] theorem State.setCore_fieldMap (s : State) (c : Nat) (k : Core) : (s.setCore c k).fieldMap = s.fieldMap := rfl
@[simp] theorem State.setCore_hosts (s : State) (c : Nat) (k : Core) : (s.setCore c k).hosts = s.hosts := rfl
@[simp] theorem State.setCore_bindings (s : State) (c : Nat) (k : Core) : (s.setCore c k).bindings = s.bindings := rfl
@[simp] theorem State.setCore_spares (s : State) (c : Nat) (k : Core) : (s.setCore c k).spares = s.spares := rfl
@[simp] theorem State.setCore_bindGen (s : State) (c : Nat) (k : Core) : (s.setCore c k).bindGen = s.bindGen := rfl
@[simp] theorem State.setCore_maps (s : State) (c : Nat) (k : Core) : (s.setCore c k).maps = s.maps := rfl
@[simp] theorem State.setCore_retired (s : State) (c : Nat) (k : Core) : (s.setCore c k).retired = s.retired := rfl
@[simp] theorem State.setCore_mgmt (s : State) (c : Nat) (k : Core) : (s.setCore c k).mgmt = s.mgmt := rfl
@[simp] theorem State.setCore_seams (s : State) (c : Nat) (k : Core) : (s.setCore c k).seams = s.seams := rfl
@[simp] theorem State.setCore_deadLinks (s : State) (c : Nat) (k : Core) : (s.setCore c k).deadLinks = s.deadLinks := rfl
@[simp] theorem State.setCore_settGen (s : State) (c : Nat) (k : Core) : (s.setCore c k).settGen = s.settGen := rfl
@[simp] theorem State.setCore_settRelay (s : State) (c : Nat) (k : Core) : (s.setCore c k).settRelay = s.settRelay := rfl
@[simp] theorem State.setCore_links (s : State) (c : Nat) (k : Core) : (s.setCore c k).links = s.links := rfl
@[simp] theorem State.setCore_spareGroups (s : State) (c : Nat) (k : Core) : (s.setCore c k).spareGroups = s.spareGroups := rfl
@[simp] theorem State.setCore_frame (s : State) (c : Nat) (k : Core) : (s.setCore c k).frame = s.frame := rfl
@[simp] theorem State.setCore_inflight (s : State) (c : Nat) (k : Core) : (s.setCore c k).inflight = s.inflight := rfl
@[simp] theorem State.setCore_lasers (s : State) (c : Nat) (k : Core) : (s.setCore c k).lasers = s.lasers := rfl
@[simp] theorem State.setCore_ports (s : State) (c : Nat) (k : Core) : (s.setCore c k).ports = s.ports := rfl
@[simp] theorem State.setCore_planes (s : State) (c : Nat) (k : Core) : (s.setCore c k).planes = s.planes := rfl
@[simp] theorem State.setCore_resvs (s : State) (c : Nat) (k : Core) : (s.setCore c k).resvs = s.resvs := rfl
@[simp] theorem State.setCore_nextResv (s : State) (c : Nat) (k : Core) : (s.setCore c k).nextResv = s.nextResv := rfl
@[simp] theorem State.setCore_stores (s : State) (c : Nat) (k : Core) : (s.setCore c k).stores = s.stores := rfl
@[simp] theorem State.setCore_unstored (s : State) (c : Nat) (k : Core) : (s.setCore c k).unstored = s.unstored := rfl
@[simp] theorem State.setCore_peers (s : State) (c : Nat) (k : Core) : (s.setCore c k).peers = s.peers := rfl
@[simp] theorem State.setCore_failSilent (s : State) (c : Nat) (k : Core) : (s.setCore c k).failSilent = s.failSilent := rfl
@[simp] theorem State.setCore_outbox (s : State) (c : Nat) (k : Core) : (s.setCore c k).outbox = s.outbox := rfl
@[simp] theorem State.setCore_agenda (s : State) (c : Nat) (k : Core) : (s.setCore c k).agenda = s.agenda := rfl
@[simp] theorem State.setCore_focus (s : State) (c : Nat) (k : Core) : (s.setCore c k).focus = s.focus := rfl
@[simp] theorem State.setCore_free (s : State) (c : Nat) (k : Core) : (s.setCore c k).free = s.free := rfl
@[simp] theorem State.setCore_clock (s : State) (c : Nat) (k : Core) : (s.setCore c k).clock = s.clock := rfl

/-! ### `State.setPack` -/

@[simp] theorem State.setPack_mem (s : State) (c n : Nat) (k : Pack) : (s.setPack c n k).mem = s.mem := rfl
@[simp] theorem State.setPack_stale (s : State) (c n : Nat) (k : Pack) : (s.setPack c n k).stale = s.stale := rfl
@[simp] theorem State.setPack_tlb (s : State) (c n : Nat) (k : Pack) : (s.setPack c n k).tlb = s.tlb := rfl
@[simp] theorem State.setPack_walkCache (s : State) (c n : Nat) (k : Pack) : (s.setPack c n k).walkCache = s.walkCache := rfl
@[simp] theorem State.setPack_pageLists (s : State) (c n : Nat) (k : Pack) : (s.setPack c n k).pageLists = s.pageLists := rfl
@[simp] theorem State.setPack_l2 (s : State) (c n : Nat) (k : Pack) : (s.setPack c n k).l2 = s.l2 := rfl
@[simp] theorem State.setPack_contexts (s : State) (c n : Nat) (k : Pack) : (s.setPack c n k).contexts = s.contexts := rfl
@[simp] theorem State.setPack_launches (s : State) (c n : Nat) (k : Pack) : (s.setPack c n k).launches = s.launches := rfl
@[simp] theorem State.setPack_waits (s : State) (c n : Nat) (k : Pack) : (s.setPack c n k).waits = s.waits := rfl
@[simp] theorem State.setPack_served (s : State) (c n : Nat) (k : Pack) : (s.setPack c n k).served = s.served := rfl
@[simp] theorem State.setPack_window (s : State) (c n : Nat) (k : Pack) : (s.setPack c n k).window = s.window := rfl
@[simp] theorem State.setPack_cmdStatus (s : State) (c n : Nat) (k : Pack) : (s.setPack c n k).cmdStatus = s.cmdStatus := rfl
@[simp] theorem State.setPack_cmdHeld (s : State) (c n : Nat) (k : Pack) : (s.setPack c n k).cmdHeld = s.cmdHeld := rfl
@[simp] theorem State.setPack_migrations (s : State) (c n : Nat) (k : Pack) : (s.setPack c n k).migrations = s.migrations := rfl
@[simp] theorem State.setPack_sems (s : State) (c n : Nat) (k : Pack) : (s.setPack c n k).sems = s.sems := rfl
@[simp] theorem State.setPack_hartResvs (s : State) (c n : Nat) (k : Pack) : (s.setPack c n k).hartResvs = s.hartResvs := rfl
@[simp] theorem State.setPack_events (s : State) (c n : Nat) (k : Pack) : (s.setPack c n k).events = s.events := rfl
@[simp] theorem State.setPack_errSeq (s : State) (c n : Nat) (k : Pack) : (s.setPack c n k).errSeq = s.errSeq := rfl
@[simp] theorem State.setPack_errors (s : State) (c n : Nat) (k : Pack) : (s.setPack c n k).errors = s.errors := rfl
@[simp] theorem State.setPack_gtime (s : State) (c n : Nat) (k : Pack) : (s.setPack c n k).gtime = s.gtime := rfl
@[simp] theorem State.setPack_dev (s : State) (c n : Nat) (k : Pack) : (s.setPack c n k).dev = s.dev := rfl
@[simp] theorem State.setPack_corr (s : State) (c n : Nat) (k : Pack) : (s.setPack c n k).corr = s.corr := rfl
@[simp] theorem State.setPack_exchanged (s : State) (c n : Nat) (k : Pack) : (s.setPack c n k).exchanged = s.exchanged := rfl
@[simp] theorem State.setPack_parents (s : State) (c n : Nat) (k : Pack) : (s.setPack c n k).parents = s.parents := rfl
@[simp] theorem State.setPack_skew (s : State) (c n : Nat) (k : Pack) : (s.setPack c n k).skew = s.skew := rfl
@[simp] theorem State.setPack_step (s : State) (c n : Nat) (k : Pack) : (s.setPack c n k).step = s.step := rfl
@[simp] theorem State.setPack_slew (s : State) (c n : Nat) (k : Pack) : (s.setPack c n k).slew = s.slew := rfl
@[simp] theorem State.setPack_islands (s : State) (c n : Nat) (k : Pack) : (s.setPack c n k).islands = s.islands := rfl
@[simp] theorem State.setPack_phase (s : State) (c n : Nat) (k : Pack) : (s.setPack c n k).phase = s.phase := rfl
@[simp] theorem State.setPack_sheltered (s : State) (c n : Nat) (k : Pack) : (s.setPack c n k).sheltered = s.sheltered := rfl
@[simp] theorem State.setPack_replReq (s : State) (c n : Nat) (k : Pack) : (s.setPack c n k).replReq = s.replReq := rfl
@[simp] theorem State.setPack_mapCopy (s : State) (c n : Nat) (k : Pack) : (s.setPack c n k).mapCopy = s.mapCopy := rfl
@[simp] theorem State.setPack_fieldMap (s : State) (c n : Nat) (k : Pack) : (s.setPack c n k).fieldMap = s.fieldMap := rfl
@[simp] theorem State.setPack_hosts (s : State) (c n : Nat) (k : Pack) : (s.setPack c n k).hosts = s.hosts := rfl
@[simp] theorem State.setPack_bindings (s : State) (c n : Nat) (k : Pack) : (s.setPack c n k).bindings = s.bindings := rfl
@[simp] theorem State.setPack_spares (s : State) (c n : Nat) (k : Pack) : (s.setPack c n k).spares = s.spares := rfl
@[simp] theorem State.setPack_bindGen (s : State) (c n : Nat) (k : Pack) : (s.setPack c n k).bindGen = s.bindGen := rfl
@[simp] theorem State.setPack_maps (s : State) (c n : Nat) (k : Pack) : (s.setPack c n k).maps = s.maps := rfl
@[simp] theorem State.setPack_retired (s : State) (c n : Nat) (k : Pack) : (s.setPack c n k).retired = s.retired := rfl
@[simp] theorem State.setPack_mgmt (s : State) (c n : Nat) (k : Pack) : (s.setPack c n k).mgmt = s.mgmt := rfl
@[simp] theorem State.setPack_seams (s : State) (c n : Nat) (k : Pack) : (s.setPack c n k).seams = s.seams := rfl
@[simp] theorem State.setPack_deadLinks (s : State) (c n : Nat) (k : Pack) : (s.setPack c n k).deadLinks = s.deadLinks := rfl
@[simp] theorem State.setPack_settGen (s : State) (c n : Nat) (k : Pack) : (s.setPack c n k).settGen = s.settGen := rfl
@[simp] theorem State.setPack_settRelay (s : State) (c n : Nat) (k : Pack) : (s.setPack c n k).settRelay = s.settRelay := rfl
@[simp] theorem State.setPack_links (s : State) (c n : Nat) (k : Pack) : (s.setPack c n k).links = s.links := rfl
@[simp] theorem State.setPack_spareGroups (s : State) (c n : Nat) (k : Pack) : (s.setPack c n k).spareGroups = s.spareGroups := rfl
@[simp] theorem State.setPack_frame (s : State) (c n : Nat) (k : Pack) : (s.setPack c n k).frame = s.frame := rfl
@[simp] theorem State.setPack_inflight (s : State) (c n : Nat) (k : Pack) : (s.setPack c n k).inflight = s.inflight := rfl
@[simp] theorem State.setPack_lasers (s : State) (c n : Nat) (k : Pack) : (s.setPack c n k).lasers = s.lasers := rfl
@[simp] theorem State.setPack_ports (s : State) (c n : Nat) (k : Pack) : (s.setPack c n k).ports = s.ports := rfl
@[simp] theorem State.setPack_planes (s : State) (c n : Nat) (k : Pack) : (s.setPack c n k).planes = s.planes := rfl
@[simp] theorem State.setPack_resvs (s : State) (c n : Nat) (k : Pack) : (s.setPack c n k).resvs = s.resvs := rfl
@[simp] theorem State.setPack_nextResv (s : State) (c n : Nat) (k : Pack) : (s.setPack c n k).nextResv = s.nextResv := rfl
@[simp] theorem State.setPack_stores (s : State) (c n : Nat) (k : Pack) : (s.setPack c n k).stores = s.stores := rfl
@[simp] theorem State.setPack_unstored (s : State) (c n : Nat) (k : Pack) : (s.setPack c n k).unstored = s.unstored := rfl
@[simp] theorem State.setPack_peers (s : State) (c n : Nat) (k : Pack) : (s.setPack c n k).peers = s.peers := rfl
@[simp] theorem State.setPack_failSilent (s : State) (c n : Nat) (k : Pack) : (s.setPack c n k).failSilent = s.failSilent := rfl
@[simp] theorem State.setPack_outbox (s : State) (c n : Nat) (k : Pack) : (s.setPack c n k).outbox = s.outbox := rfl
@[simp] theorem State.setPack_agenda (s : State) (c n : Nat) (k : Pack) : (s.setPack c n k).agenda = s.agenda := rfl
@[simp] theorem State.setPack_focus (s : State) (c n : Nat) (k : Pack) : (s.setPack c n k).focus = s.focus := rfl
@[simp] theorem State.setPack_free (s : State) (c n : Nat) (k : Pack) : (s.setPack c n k).free = s.free := rfl
@[simp] theorem State.setPack_clock (s : State) (c n : Nat) (k : Pack) : (s.setPack c n k).clock = s.clock := rfl

/-! ### `State.setContext` -/

@[simp] theorem State.setContext_cores (s : State) (c : Context) : (s.setContext c).cores = s.cores := rfl
@[simp] theorem State.setContext_mem (s : State) (c : Context) : (s.setContext c).mem = s.mem := rfl
@[simp] theorem State.setContext_stale (s : State) (c : Context) : (s.setContext c).stale = s.stale := rfl
@[simp] theorem State.setContext_tlb (s : State) (c : Context) : (s.setContext c).tlb = s.tlb := rfl
@[simp] theorem State.setContext_walkCache (s : State) (c : Context) : (s.setContext c).walkCache = s.walkCache := rfl
@[simp] theorem State.setContext_pageLists (s : State) (c : Context) : (s.setContext c).pageLists = s.pageLists := rfl
@[simp] theorem State.setContext_l2 (s : State) (c : Context) : (s.setContext c).l2 = s.l2 := rfl
@[simp] theorem State.setContext_launches (s : State) (c : Context) : (s.setContext c).launches = s.launches := rfl
@[simp] theorem State.setContext_waits (s : State) (c : Context) : (s.setContext c).waits = s.waits := rfl
@[simp] theorem State.setContext_served (s : State) (c : Context) : (s.setContext c).served = s.served := rfl
@[simp] theorem State.setContext_window (s : State) (c : Context) : (s.setContext c).window = s.window := rfl
@[simp] theorem State.setContext_cmdStatus (s : State) (c : Context) : (s.setContext c).cmdStatus = s.cmdStatus := rfl
@[simp] theorem State.setContext_cmdHeld (s : State) (c : Context) : (s.setContext c).cmdHeld = s.cmdHeld := rfl
@[simp] theorem State.setContext_migrations (s : State) (c : Context) : (s.setContext c).migrations = s.migrations := rfl
@[simp] theorem State.setContext_sems (s : State) (c : Context) : (s.setContext c).sems = s.sems := rfl
@[simp] theorem State.setContext_hartResvs (s : State) (c : Context) : (s.setContext c).hartResvs = s.hartResvs := rfl
@[simp] theorem State.setContext_events (s : State) (c : Context) : (s.setContext c).events = s.events := rfl
@[simp] theorem State.setContext_errSeq (s : State) (c : Context) : (s.setContext c).errSeq = s.errSeq := rfl
@[simp] theorem State.setContext_errors (s : State) (c : Context) : (s.setContext c).errors = s.errors := rfl
@[simp] theorem State.setContext_gtime (s : State) (c : Context) : (s.setContext c).gtime = s.gtime := rfl
@[simp] theorem State.setContext_dev (s : State) (c : Context) : (s.setContext c).dev = s.dev := rfl
@[simp] theorem State.setContext_corr (s : State) (c : Context) : (s.setContext c).corr = s.corr := rfl
@[simp] theorem State.setContext_exchanged (s : State) (c : Context) : (s.setContext c).exchanged = s.exchanged := rfl
@[simp] theorem State.setContext_parents (s : State) (c : Context) : (s.setContext c).parents = s.parents := rfl
@[simp] theorem State.setContext_skew (s : State) (c : Context) : (s.setContext c).skew = s.skew := rfl
@[simp] theorem State.setContext_step (s : State) (c : Context) : (s.setContext c).step = s.step := rfl
@[simp] theorem State.setContext_slew (s : State) (c : Context) : (s.setContext c).slew = s.slew := rfl
@[simp] theorem State.setContext_islands (s : State) (c : Context) : (s.setContext c).islands = s.islands := rfl
@[simp] theorem State.setContext_phase (s : State) (c : Context) : (s.setContext c).phase = s.phase := rfl
@[simp] theorem State.setContext_sheltered (s : State) (c : Context) : (s.setContext c).sheltered = s.sheltered := rfl
@[simp] theorem State.setContext_replReq (s : State) (c : Context) : (s.setContext c).replReq = s.replReq := rfl
@[simp] theorem State.setContext_mapCopy (s : State) (c : Context) : (s.setContext c).mapCopy = s.mapCopy := rfl
@[simp] theorem State.setContext_fieldMap (s : State) (c : Context) : (s.setContext c).fieldMap = s.fieldMap := rfl
@[simp] theorem State.setContext_hosts (s : State) (c : Context) : (s.setContext c).hosts = s.hosts := rfl
@[simp] theorem State.setContext_bindings (s : State) (c : Context) : (s.setContext c).bindings = s.bindings := rfl
@[simp] theorem State.setContext_spares (s : State) (c : Context) : (s.setContext c).spares = s.spares := rfl
@[simp] theorem State.setContext_bindGen (s : State) (c : Context) : (s.setContext c).bindGen = s.bindGen := rfl
@[simp] theorem State.setContext_maps (s : State) (c : Context) : (s.setContext c).maps = s.maps := rfl
@[simp] theorem State.setContext_retired (s : State) (c : Context) : (s.setContext c).retired = s.retired := rfl
@[simp] theorem State.setContext_mgmt (s : State) (c : Context) : (s.setContext c).mgmt = s.mgmt := rfl
@[simp] theorem State.setContext_seams (s : State) (c : Context) : (s.setContext c).seams = s.seams := rfl
@[simp] theorem State.setContext_deadLinks (s : State) (c : Context) : (s.setContext c).deadLinks = s.deadLinks := rfl
@[simp] theorem State.setContext_settGen (s : State) (c : Context) : (s.setContext c).settGen = s.settGen := rfl
@[simp] theorem State.setContext_settRelay (s : State) (c : Context) : (s.setContext c).settRelay = s.settRelay := rfl
@[simp] theorem State.setContext_links (s : State) (c : Context) : (s.setContext c).links = s.links := rfl
@[simp] theorem State.setContext_spareGroups (s : State) (c : Context) : (s.setContext c).spareGroups = s.spareGroups := rfl
@[simp] theorem State.setContext_frame (s : State) (c : Context) : (s.setContext c).frame = s.frame := rfl
@[simp] theorem State.setContext_inflight (s : State) (c : Context) : (s.setContext c).inflight = s.inflight := rfl
@[simp] theorem State.setContext_lasers (s : State) (c : Context) : (s.setContext c).lasers = s.lasers := rfl
@[simp] theorem State.setContext_ports (s : State) (c : Context) : (s.setContext c).ports = s.ports := rfl
@[simp] theorem State.setContext_planes (s : State) (c : Context) : (s.setContext c).planes = s.planes := rfl
@[simp] theorem State.setContext_resvs (s : State) (c : Context) : (s.setContext c).resvs = s.resvs := rfl
@[simp] theorem State.setContext_nextResv (s : State) (c : Context) : (s.setContext c).nextResv = s.nextResv := rfl
@[simp] theorem State.setContext_stores (s : State) (c : Context) : (s.setContext c).stores = s.stores := rfl
@[simp] theorem State.setContext_unstored (s : State) (c : Context) : (s.setContext c).unstored = s.unstored := rfl
@[simp] theorem State.setContext_peers (s : State) (c : Context) : (s.setContext c).peers = s.peers := rfl
@[simp] theorem State.setContext_failSilent (s : State) (c : Context) : (s.setContext c).failSilent = s.failSilent := rfl
@[simp] theorem State.setContext_outbox (s : State) (c : Context) : (s.setContext c).outbox = s.outbox := rfl
@[simp] theorem State.setContext_agenda (s : State) (c : Context) : (s.setContext c).agenda = s.agenda := rfl
@[simp] theorem State.setContext_focus (s : State) (c : Context) : (s.setContext c).focus = s.focus := rfl
@[simp] theorem State.setContext_free (s : State) (c : Context) : (s.setContext c).free = s.free := rfl
@[simp] theorem State.setContext_clock (s : State) (c : Context) : (s.setContext c).clock = s.clock := rfl

/-! ### `State.modContext` -/

@[simp] theorem State.modContext_cores (s : State) (n : Nat) (f : Context → Context) : (s.modContext n f).cores = s.cores := rfl
@[simp] theorem State.modContext_mem (s : State) (n : Nat) (f : Context → Context) : (s.modContext n f).mem = s.mem := rfl
@[simp] theorem State.modContext_stale (s : State) (n : Nat) (f : Context → Context) : (s.modContext n f).stale = s.stale := rfl
@[simp] theorem State.modContext_tlb (s : State) (n : Nat) (f : Context → Context) : (s.modContext n f).tlb = s.tlb := rfl
@[simp] theorem State.modContext_walkCache (s : State) (n : Nat) (f : Context → Context) : (s.modContext n f).walkCache = s.walkCache := rfl
@[simp] theorem State.modContext_pageLists (s : State) (n : Nat) (f : Context → Context) : (s.modContext n f).pageLists = s.pageLists := rfl
@[simp] theorem State.modContext_l2 (s : State) (n : Nat) (f : Context → Context) : (s.modContext n f).l2 = s.l2 := rfl
@[simp] theorem State.modContext_launches (s : State) (n : Nat) (f : Context → Context) : (s.modContext n f).launches = s.launches := rfl
@[simp] theorem State.modContext_waits (s : State) (n : Nat) (f : Context → Context) : (s.modContext n f).waits = s.waits := rfl
@[simp] theorem State.modContext_served (s : State) (n : Nat) (f : Context → Context) : (s.modContext n f).served = s.served := rfl
@[simp] theorem State.modContext_window (s : State) (n : Nat) (f : Context → Context) : (s.modContext n f).window = s.window := rfl
@[simp] theorem State.modContext_cmdStatus (s : State) (n : Nat) (f : Context → Context) : (s.modContext n f).cmdStatus = s.cmdStatus := rfl
@[simp] theorem State.modContext_cmdHeld (s : State) (n : Nat) (f : Context → Context) : (s.modContext n f).cmdHeld = s.cmdHeld := rfl
@[simp] theorem State.modContext_migrations (s : State) (n : Nat) (f : Context → Context) : (s.modContext n f).migrations = s.migrations := rfl
@[simp] theorem State.modContext_sems (s : State) (n : Nat) (f : Context → Context) : (s.modContext n f).sems = s.sems := rfl
@[simp] theorem State.modContext_hartResvs (s : State) (n : Nat) (f : Context → Context) : (s.modContext n f).hartResvs = s.hartResvs := rfl
@[simp] theorem State.modContext_events (s : State) (n : Nat) (f : Context → Context) : (s.modContext n f).events = s.events := rfl
@[simp] theorem State.modContext_errSeq (s : State) (n : Nat) (f : Context → Context) : (s.modContext n f).errSeq = s.errSeq := rfl
@[simp] theorem State.modContext_errors (s : State) (n : Nat) (f : Context → Context) : (s.modContext n f).errors = s.errors := rfl
@[simp] theorem State.modContext_gtime (s : State) (n : Nat) (f : Context → Context) : (s.modContext n f).gtime = s.gtime := rfl
@[simp] theorem State.modContext_dev (s : State) (n : Nat) (f : Context → Context) : (s.modContext n f).dev = s.dev := rfl
@[simp] theorem State.modContext_corr (s : State) (n : Nat) (f : Context → Context) : (s.modContext n f).corr = s.corr := rfl
@[simp] theorem State.modContext_exchanged (s : State) (n : Nat) (f : Context → Context) : (s.modContext n f).exchanged = s.exchanged := rfl
@[simp] theorem State.modContext_parents (s : State) (n : Nat) (f : Context → Context) : (s.modContext n f).parents = s.parents := rfl
@[simp] theorem State.modContext_skew (s : State) (n : Nat) (f : Context → Context) : (s.modContext n f).skew = s.skew := rfl
@[simp] theorem State.modContext_step (s : State) (n : Nat) (f : Context → Context) : (s.modContext n f).step = s.step := rfl
@[simp] theorem State.modContext_slew (s : State) (n : Nat) (f : Context → Context) : (s.modContext n f).slew = s.slew := rfl
@[simp] theorem State.modContext_islands (s : State) (n : Nat) (f : Context → Context) : (s.modContext n f).islands = s.islands := rfl
@[simp] theorem State.modContext_phase (s : State) (n : Nat) (f : Context → Context) : (s.modContext n f).phase = s.phase := rfl
@[simp] theorem State.modContext_sheltered (s : State) (n : Nat) (f : Context → Context) : (s.modContext n f).sheltered = s.sheltered := rfl
@[simp] theorem State.modContext_replReq (s : State) (n : Nat) (f : Context → Context) : (s.modContext n f).replReq = s.replReq := rfl
@[simp] theorem State.modContext_mapCopy (s : State) (n : Nat) (f : Context → Context) : (s.modContext n f).mapCopy = s.mapCopy := rfl
@[simp] theorem State.modContext_fieldMap (s : State) (n : Nat) (f : Context → Context) : (s.modContext n f).fieldMap = s.fieldMap := rfl
@[simp] theorem State.modContext_hosts (s : State) (n : Nat) (f : Context → Context) : (s.modContext n f).hosts = s.hosts := rfl
@[simp] theorem State.modContext_bindings (s : State) (n : Nat) (f : Context → Context) : (s.modContext n f).bindings = s.bindings := rfl
@[simp] theorem State.modContext_spares (s : State) (n : Nat) (f : Context → Context) : (s.modContext n f).spares = s.spares := rfl
@[simp] theorem State.modContext_bindGen (s : State) (n : Nat) (f : Context → Context) : (s.modContext n f).bindGen = s.bindGen := rfl
@[simp] theorem State.modContext_maps (s : State) (n : Nat) (f : Context → Context) : (s.modContext n f).maps = s.maps := rfl
@[simp] theorem State.modContext_retired (s : State) (n : Nat) (f : Context → Context) : (s.modContext n f).retired = s.retired := rfl
@[simp] theorem State.modContext_mgmt (s : State) (n : Nat) (f : Context → Context) : (s.modContext n f).mgmt = s.mgmt := rfl
@[simp] theorem State.modContext_seams (s : State) (n : Nat) (f : Context → Context) : (s.modContext n f).seams = s.seams := rfl
@[simp] theorem State.modContext_deadLinks (s : State) (n : Nat) (f : Context → Context) : (s.modContext n f).deadLinks = s.deadLinks := rfl
@[simp] theorem State.modContext_settGen (s : State) (n : Nat) (f : Context → Context) : (s.modContext n f).settGen = s.settGen := rfl
@[simp] theorem State.modContext_settRelay (s : State) (n : Nat) (f : Context → Context) : (s.modContext n f).settRelay = s.settRelay := rfl
@[simp] theorem State.modContext_links (s : State) (n : Nat) (f : Context → Context) : (s.modContext n f).links = s.links := rfl
@[simp] theorem State.modContext_spareGroups (s : State) (n : Nat) (f : Context → Context) : (s.modContext n f).spareGroups = s.spareGroups := rfl
@[simp] theorem State.modContext_frame (s : State) (n : Nat) (f : Context → Context) : (s.modContext n f).frame = s.frame := rfl
@[simp] theorem State.modContext_inflight (s : State) (n : Nat) (f : Context → Context) : (s.modContext n f).inflight = s.inflight := rfl
@[simp] theorem State.modContext_lasers (s : State) (n : Nat) (f : Context → Context) : (s.modContext n f).lasers = s.lasers := rfl
@[simp] theorem State.modContext_ports (s : State) (n : Nat) (f : Context → Context) : (s.modContext n f).ports = s.ports := rfl
@[simp] theorem State.modContext_planes (s : State) (n : Nat) (f : Context → Context) : (s.modContext n f).planes = s.planes := rfl
@[simp] theorem State.modContext_resvs (s : State) (n : Nat) (f : Context → Context) : (s.modContext n f).resvs = s.resvs := rfl
@[simp] theorem State.modContext_nextResv (s : State) (n : Nat) (f : Context → Context) : (s.modContext n f).nextResv = s.nextResv := rfl
@[simp] theorem State.modContext_stores (s : State) (n : Nat) (f : Context → Context) : (s.modContext n f).stores = s.stores := rfl
@[simp] theorem State.modContext_unstored (s : State) (n : Nat) (f : Context → Context) : (s.modContext n f).unstored = s.unstored := rfl
@[simp] theorem State.modContext_peers (s : State) (n : Nat) (f : Context → Context) : (s.modContext n f).peers = s.peers := rfl
@[simp] theorem State.modContext_failSilent (s : State) (n : Nat) (f : Context → Context) : (s.modContext n f).failSilent = s.failSilent := rfl
@[simp] theorem State.modContext_outbox (s : State) (n : Nat) (f : Context → Context) : (s.modContext n f).outbox = s.outbox := rfl
@[simp] theorem State.modContext_agenda (s : State) (n : Nat) (f : Context → Context) : (s.modContext n f).agenda = s.agenda := rfl
@[simp] theorem State.modContext_focus (s : State) (n : Nat) (f : Context → Context) : (s.modContext n f).focus = s.focus := rfl
@[simp] theorem State.modContext_free (s : State) (n : Nat) (f : Context → Context) : (s.modContext n f).free = s.free := rfl
@[simp] theorem State.modContext_clock (s : State) (n : Nat) (f : Context → Context) : (s.modContext n f).clock = s.clock := rfl

/-! ### `State.modLaunch` -/

@[simp] theorem State.modLaunch_cores (s : State) (t : Tag) (f : Launch → Launch) : (s.modLaunch t f).cores = s.cores := rfl
@[simp] theorem State.modLaunch_mem (s : State) (t : Tag) (f : Launch → Launch) : (s.modLaunch t f).mem = s.mem := rfl
@[simp] theorem State.modLaunch_stale (s : State) (t : Tag) (f : Launch → Launch) : (s.modLaunch t f).stale = s.stale := rfl
@[simp] theorem State.modLaunch_tlb (s : State) (t : Tag) (f : Launch → Launch) : (s.modLaunch t f).tlb = s.tlb := rfl
@[simp] theorem State.modLaunch_walkCache (s : State) (t : Tag) (f : Launch → Launch) : (s.modLaunch t f).walkCache = s.walkCache := rfl
@[simp] theorem State.modLaunch_pageLists (s : State) (t : Tag) (f : Launch → Launch) : (s.modLaunch t f).pageLists = s.pageLists := rfl
@[simp] theorem State.modLaunch_l2 (s : State) (t : Tag) (f : Launch → Launch) : (s.modLaunch t f).l2 = s.l2 := rfl
@[simp] theorem State.modLaunch_contexts (s : State) (t : Tag) (f : Launch → Launch) : (s.modLaunch t f).contexts = s.contexts := rfl
@[simp] theorem State.modLaunch_waits (s : State) (t : Tag) (f : Launch → Launch) : (s.modLaunch t f).waits = s.waits := rfl
@[simp] theorem State.modLaunch_served (s : State) (t : Tag) (f : Launch → Launch) : (s.modLaunch t f).served = s.served := rfl
@[simp] theorem State.modLaunch_window (s : State) (t : Tag) (f : Launch → Launch) : (s.modLaunch t f).window = s.window := rfl
@[simp] theorem State.modLaunch_cmdStatus (s : State) (t : Tag) (f : Launch → Launch) : (s.modLaunch t f).cmdStatus = s.cmdStatus := rfl
@[simp] theorem State.modLaunch_cmdHeld (s : State) (t : Tag) (f : Launch → Launch) : (s.modLaunch t f).cmdHeld = s.cmdHeld := rfl
@[simp] theorem State.modLaunch_migrations (s : State) (t : Tag) (f : Launch → Launch) : (s.modLaunch t f).migrations = s.migrations := rfl
@[simp] theorem State.modLaunch_sems (s : State) (t : Tag) (f : Launch → Launch) : (s.modLaunch t f).sems = s.sems := rfl
@[simp] theorem State.modLaunch_hartResvs (s : State) (t : Tag) (f : Launch → Launch) : (s.modLaunch t f).hartResvs = s.hartResvs := rfl
@[simp] theorem State.modLaunch_events (s : State) (t : Tag) (f : Launch → Launch) : (s.modLaunch t f).events = s.events := rfl
@[simp] theorem State.modLaunch_errSeq (s : State) (t : Tag) (f : Launch → Launch) : (s.modLaunch t f).errSeq = s.errSeq := rfl
@[simp] theorem State.modLaunch_errors (s : State) (t : Tag) (f : Launch → Launch) : (s.modLaunch t f).errors = s.errors := rfl
@[simp] theorem State.modLaunch_gtime (s : State) (t : Tag) (f : Launch → Launch) : (s.modLaunch t f).gtime = s.gtime := rfl
@[simp] theorem State.modLaunch_dev (s : State) (t : Tag) (f : Launch → Launch) : (s.modLaunch t f).dev = s.dev := rfl
@[simp] theorem State.modLaunch_corr (s : State) (t : Tag) (f : Launch → Launch) : (s.modLaunch t f).corr = s.corr := rfl
@[simp] theorem State.modLaunch_exchanged (s : State) (t : Tag) (f : Launch → Launch) : (s.modLaunch t f).exchanged = s.exchanged := rfl
@[simp] theorem State.modLaunch_parents (s : State) (t : Tag) (f : Launch → Launch) : (s.modLaunch t f).parents = s.parents := rfl
@[simp] theorem State.modLaunch_skew (s : State) (t : Tag) (f : Launch → Launch) : (s.modLaunch t f).skew = s.skew := rfl
@[simp] theorem State.modLaunch_step (s : State) (t : Tag) (f : Launch → Launch) : (s.modLaunch t f).step = s.step := rfl
@[simp] theorem State.modLaunch_slew (s : State) (t : Tag) (f : Launch → Launch) : (s.modLaunch t f).slew = s.slew := rfl
@[simp] theorem State.modLaunch_islands (s : State) (t : Tag) (f : Launch → Launch) : (s.modLaunch t f).islands = s.islands := rfl
@[simp] theorem State.modLaunch_phase (s : State) (t : Tag) (f : Launch → Launch) : (s.modLaunch t f).phase = s.phase := rfl
@[simp] theorem State.modLaunch_sheltered (s : State) (t : Tag) (f : Launch → Launch) : (s.modLaunch t f).sheltered = s.sheltered := rfl
@[simp] theorem State.modLaunch_replReq (s : State) (t : Tag) (f : Launch → Launch) : (s.modLaunch t f).replReq = s.replReq := rfl
@[simp] theorem State.modLaunch_mapCopy (s : State) (t : Tag) (f : Launch → Launch) : (s.modLaunch t f).mapCopy = s.mapCopy := rfl
@[simp] theorem State.modLaunch_fieldMap (s : State) (t : Tag) (f : Launch → Launch) : (s.modLaunch t f).fieldMap = s.fieldMap := rfl
@[simp] theorem State.modLaunch_hosts (s : State) (t : Tag) (f : Launch → Launch) : (s.modLaunch t f).hosts = s.hosts := rfl
@[simp] theorem State.modLaunch_bindings (s : State) (t : Tag) (f : Launch → Launch) : (s.modLaunch t f).bindings = s.bindings := rfl
@[simp] theorem State.modLaunch_spares (s : State) (t : Tag) (f : Launch → Launch) : (s.modLaunch t f).spares = s.spares := rfl
@[simp] theorem State.modLaunch_bindGen (s : State) (t : Tag) (f : Launch → Launch) : (s.modLaunch t f).bindGen = s.bindGen := rfl
@[simp] theorem State.modLaunch_maps (s : State) (t : Tag) (f : Launch → Launch) : (s.modLaunch t f).maps = s.maps := rfl
@[simp] theorem State.modLaunch_retired (s : State) (t : Tag) (f : Launch → Launch) : (s.modLaunch t f).retired = s.retired := rfl
@[simp] theorem State.modLaunch_mgmt (s : State) (t : Tag) (f : Launch → Launch) : (s.modLaunch t f).mgmt = s.mgmt := rfl
@[simp] theorem State.modLaunch_seams (s : State) (t : Tag) (f : Launch → Launch) : (s.modLaunch t f).seams = s.seams := rfl
@[simp] theorem State.modLaunch_deadLinks (s : State) (t : Tag) (f : Launch → Launch) : (s.modLaunch t f).deadLinks = s.deadLinks := rfl
@[simp] theorem State.modLaunch_settGen (s : State) (t : Tag) (f : Launch → Launch) : (s.modLaunch t f).settGen = s.settGen := rfl
@[simp] theorem State.modLaunch_settRelay (s : State) (t : Tag) (f : Launch → Launch) : (s.modLaunch t f).settRelay = s.settRelay := rfl
@[simp] theorem State.modLaunch_links (s : State) (t : Tag) (f : Launch → Launch) : (s.modLaunch t f).links = s.links := rfl
@[simp] theorem State.modLaunch_spareGroups (s : State) (t : Tag) (f : Launch → Launch) : (s.modLaunch t f).spareGroups = s.spareGroups := rfl
@[simp] theorem State.modLaunch_frame (s : State) (t : Tag) (f : Launch → Launch) : (s.modLaunch t f).frame = s.frame := rfl
@[simp] theorem State.modLaunch_inflight (s : State) (t : Tag) (f : Launch → Launch) : (s.modLaunch t f).inflight = s.inflight := rfl
@[simp] theorem State.modLaunch_lasers (s : State) (t : Tag) (f : Launch → Launch) : (s.modLaunch t f).lasers = s.lasers := rfl
@[simp] theorem State.modLaunch_ports (s : State) (t : Tag) (f : Launch → Launch) : (s.modLaunch t f).ports = s.ports := rfl
@[simp] theorem State.modLaunch_planes (s : State) (t : Tag) (f : Launch → Launch) : (s.modLaunch t f).planes = s.planes := rfl
@[simp] theorem State.modLaunch_resvs (s : State) (t : Tag) (f : Launch → Launch) : (s.modLaunch t f).resvs = s.resvs := rfl
@[simp] theorem State.modLaunch_nextResv (s : State) (t : Tag) (f : Launch → Launch) : (s.modLaunch t f).nextResv = s.nextResv := rfl
@[simp] theorem State.modLaunch_stores (s : State) (t : Tag) (f : Launch → Launch) : (s.modLaunch t f).stores = s.stores := rfl
@[simp] theorem State.modLaunch_unstored (s : State) (t : Tag) (f : Launch → Launch) : (s.modLaunch t f).unstored = s.unstored := rfl
@[simp] theorem State.modLaunch_peers (s : State) (t : Tag) (f : Launch → Launch) : (s.modLaunch t f).peers = s.peers := rfl
@[simp] theorem State.modLaunch_failSilent (s : State) (t : Tag) (f : Launch → Launch) : (s.modLaunch t f).failSilent = s.failSilent := rfl
@[simp] theorem State.modLaunch_outbox (s : State) (t : Tag) (f : Launch → Launch) : (s.modLaunch t f).outbox = s.outbox := rfl
@[simp] theorem State.modLaunch_agenda (s : State) (t : Tag) (f : Launch → Launch) : (s.modLaunch t f).agenda = s.agenda := rfl
@[simp] theorem State.modLaunch_focus (s : State) (t : Tag) (f : Launch → Launch) : (s.modLaunch t f).focus = s.focus := rfl
@[simp] theorem State.modLaunch_free (s : State) (t : Tag) (f : Launch → Launch) : (s.modLaunch t f).free = s.free := rfl
@[simp] theorem State.modLaunch_clock (s : State) (t : Tag) (f : Launch → Launch) : (s.modLaunch t f).clock = s.clock := rfl

/-! ### `State.modGroup` -/

@[simp] theorem State.modGroup_cores (s : State) (t : Tag) (x : Nat) (f : Group → Group) : (s.modGroup t x f).cores = s.cores := rfl
@[simp] theorem State.modGroup_mem (s : State) (t : Tag) (x : Nat) (f : Group → Group) : (s.modGroup t x f).mem = s.mem := rfl
@[simp] theorem State.modGroup_stale (s : State) (t : Tag) (x : Nat) (f : Group → Group) : (s.modGroup t x f).stale = s.stale := rfl
@[simp] theorem State.modGroup_tlb (s : State) (t : Tag) (x : Nat) (f : Group → Group) : (s.modGroup t x f).tlb = s.tlb := rfl
@[simp] theorem State.modGroup_walkCache (s : State) (t : Tag) (x : Nat) (f : Group → Group) : (s.modGroup t x f).walkCache = s.walkCache := rfl
@[simp] theorem State.modGroup_pageLists (s : State) (t : Tag) (x : Nat) (f : Group → Group) : (s.modGroup t x f).pageLists = s.pageLists := rfl
@[simp] theorem State.modGroup_l2 (s : State) (t : Tag) (x : Nat) (f : Group → Group) : (s.modGroup t x f).l2 = s.l2 := rfl
@[simp] theorem State.modGroup_contexts (s : State) (t : Tag) (x : Nat) (f : Group → Group) : (s.modGroup t x f).contexts = s.contexts := rfl
@[simp] theorem State.modGroup_waits (s : State) (t : Tag) (x : Nat) (f : Group → Group) : (s.modGroup t x f).waits = s.waits := rfl
@[simp] theorem State.modGroup_served (s : State) (t : Tag) (x : Nat) (f : Group → Group) : (s.modGroup t x f).served = s.served := rfl
@[simp] theorem State.modGroup_window (s : State) (t : Tag) (x : Nat) (f : Group → Group) : (s.modGroup t x f).window = s.window := rfl
@[simp] theorem State.modGroup_cmdStatus (s : State) (t : Tag) (x : Nat) (f : Group → Group) : (s.modGroup t x f).cmdStatus = s.cmdStatus := rfl
@[simp] theorem State.modGroup_cmdHeld (s : State) (t : Tag) (x : Nat) (f : Group → Group) : (s.modGroup t x f).cmdHeld = s.cmdHeld := rfl
@[simp] theorem State.modGroup_migrations (s : State) (t : Tag) (x : Nat) (f : Group → Group) : (s.modGroup t x f).migrations = s.migrations := rfl
@[simp] theorem State.modGroup_sems (s : State) (t : Tag) (x : Nat) (f : Group → Group) : (s.modGroup t x f).sems = s.sems := rfl
@[simp] theorem State.modGroup_hartResvs (s : State) (t : Tag) (x : Nat) (f : Group → Group) : (s.modGroup t x f).hartResvs = s.hartResvs := rfl
@[simp] theorem State.modGroup_events (s : State) (t : Tag) (x : Nat) (f : Group → Group) : (s.modGroup t x f).events = s.events := rfl
@[simp] theorem State.modGroup_errSeq (s : State) (t : Tag) (x : Nat) (f : Group → Group) : (s.modGroup t x f).errSeq = s.errSeq := rfl
@[simp] theorem State.modGroup_errors (s : State) (t : Tag) (x : Nat) (f : Group → Group) : (s.modGroup t x f).errors = s.errors := rfl
@[simp] theorem State.modGroup_gtime (s : State) (t : Tag) (x : Nat) (f : Group → Group) : (s.modGroup t x f).gtime = s.gtime := rfl
@[simp] theorem State.modGroup_dev (s : State) (t : Tag) (x : Nat) (f : Group → Group) : (s.modGroup t x f).dev = s.dev := rfl
@[simp] theorem State.modGroup_corr (s : State) (t : Tag) (x : Nat) (f : Group → Group) : (s.modGroup t x f).corr = s.corr := rfl
@[simp] theorem State.modGroup_exchanged (s : State) (t : Tag) (x : Nat) (f : Group → Group) : (s.modGroup t x f).exchanged = s.exchanged := rfl
@[simp] theorem State.modGroup_parents (s : State) (t : Tag) (x : Nat) (f : Group → Group) : (s.modGroup t x f).parents = s.parents := rfl
@[simp] theorem State.modGroup_skew (s : State) (t : Tag) (x : Nat) (f : Group → Group) : (s.modGroup t x f).skew = s.skew := rfl
@[simp] theorem State.modGroup_step (s : State) (t : Tag) (x : Nat) (f : Group → Group) : (s.modGroup t x f).step = s.step := rfl
@[simp] theorem State.modGroup_slew (s : State) (t : Tag) (x : Nat) (f : Group → Group) : (s.modGroup t x f).slew = s.slew := rfl
@[simp] theorem State.modGroup_islands (s : State) (t : Tag) (x : Nat) (f : Group → Group) : (s.modGroup t x f).islands = s.islands := rfl
@[simp] theorem State.modGroup_phase (s : State) (t : Tag) (x : Nat) (f : Group → Group) : (s.modGroup t x f).phase = s.phase := rfl
@[simp] theorem State.modGroup_sheltered (s : State) (t : Tag) (x : Nat) (f : Group → Group) : (s.modGroup t x f).sheltered = s.sheltered := rfl
@[simp] theorem State.modGroup_replReq (s : State) (t : Tag) (x : Nat) (f : Group → Group) : (s.modGroup t x f).replReq = s.replReq := rfl
@[simp] theorem State.modGroup_mapCopy (s : State) (t : Tag) (x : Nat) (f : Group → Group) : (s.modGroup t x f).mapCopy = s.mapCopy := rfl
@[simp] theorem State.modGroup_fieldMap (s : State) (t : Tag) (x : Nat) (f : Group → Group) : (s.modGroup t x f).fieldMap = s.fieldMap := rfl
@[simp] theorem State.modGroup_hosts (s : State) (t : Tag) (x : Nat) (f : Group → Group) : (s.modGroup t x f).hosts = s.hosts := rfl
@[simp] theorem State.modGroup_bindings (s : State) (t : Tag) (x : Nat) (f : Group → Group) : (s.modGroup t x f).bindings = s.bindings := rfl
@[simp] theorem State.modGroup_spares (s : State) (t : Tag) (x : Nat) (f : Group → Group) : (s.modGroup t x f).spares = s.spares := rfl
@[simp] theorem State.modGroup_bindGen (s : State) (t : Tag) (x : Nat) (f : Group → Group) : (s.modGroup t x f).bindGen = s.bindGen := rfl
@[simp] theorem State.modGroup_maps (s : State) (t : Tag) (x : Nat) (f : Group → Group) : (s.modGroup t x f).maps = s.maps := rfl
@[simp] theorem State.modGroup_retired (s : State) (t : Tag) (x : Nat) (f : Group → Group) : (s.modGroup t x f).retired = s.retired := rfl
@[simp] theorem State.modGroup_mgmt (s : State) (t : Tag) (x : Nat) (f : Group → Group) : (s.modGroup t x f).mgmt = s.mgmt := rfl
@[simp] theorem State.modGroup_seams (s : State) (t : Tag) (x : Nat) (f : Group → Group) : (s.modGroup t x f).seams = s.seams := rfl
@[simp] theorem State.modGroup_deadLinks (s : State) (t : Tag) (x : Nat) (f : Group → Group) : (s.modGroup t x f).deadLinks = s.deadLinks := rfl
@[simp] theorem State.modGroup_settGen (s : State) (t : Tag) (x : Nat) (f : Group → Group) : (s.modGroup t x f).settGen = s.settGen := rfl
@[simp] theorem State.modGroup_settRelay (s : State) (t : Tag) (x : Nat) (f : Group → Group) : (s.modGroup t x f).settRelay = s.settRelay := rfl
@[simp] theorem State.modGroup_links (s : State) (t : Tag) (x : Nat) (f : Group → Group) : (s.modGroup t x f).links = s.links := rfl
@[simp] theorem State.modGroup_spareGroups (s : State) (t : Tag) (x : Nat) (f : Group → Group) : (s.modGroup t x f).spareGroups = s.spareGroups := rfl
@[simp] theorem State.modGroup_frame (s : State) (t : Tag) (x : Nat) (f : Group → Group) : (s.modGroup t x f).frame = s.frame := rfl
@[simp] theorem State.modGroup_inflight (s : State) (t : Tag) (x : Nat) (f : Group → Group) : (s.modGroup t x f).inflight = s.inflight := rfl
@[simp] theorem State.modGroup_lasers (s : State) (t : Tag) (x : Nat) (f : Group → Group) : (s.modGroup t x f).lasers = s.lasers := rfl
@[simp] theorem State.modGroup_ports (s : State) (t : Tag) (x : Nat) (f : Group → Group) : (s.modGroup t x f).ports = s.ports := rfl
@[simp] theorem State.modGroup_planes (s : State) (t : Tag) (x : Nat) (f : Group → Group) : (s.modGroup t x f).planes = s.planes := rfl
@[simp] theorem State.modGroup_resvs (s : State) (t : Tag) (x : Nat) (f : Group → Group) : (s.modGroup t x f).resvs = s.resvs := rfl
@[simp] theorem State.modGroup_nextResv (s : State) (t : Tag) (x : Nat) (f : Group → Group) : (s.modGroup t x f).nextResv = s.nextResv := rfl
@[simp] theorem State.modGroup_stores (s : State) (t : Tag) (x : Nat) (f : Group → Group) : (s.modGroup t x f).stores = s.stores := rfl
@[simp] theorem State.modGroup_unstored (s : State) (t : Tag) (x : Nat) (f : Group → Group) : (s.modGroup t x f).unstored = s.unstored := rfl
@[simp] theorem State.modGroup_peers (s : State) (t : Tag) (x : Nat) (f : Group → Group) : (s.modGroup t x f).peers = s.peers := rfl
@[simp] theorem State.modGroup_failSilent (s : State) (t : Tag) (x : Nat) (f : Group → Group) : (s.modGroup t x f).failSilent = s.failSilent := rfl
@[simp] theorem State.modGroup_outbox (s : State) (t : Tag) (x : Nat) (f : Group → Group) : (s.modGroup t x f).outbox = s.outbox := rfl
@[simp] theorem State.modGroup_agenda (s : State) (t : Tag) (x : Nat) (f : Group → Group) : (s.modGroup t x f).agenda = s.agenda := rfl
@[simp] theorem State.modGroup_focus (s : State) (t : Tag) (x : Nat) (f : Group → Group) : (s.modGroup t x f).focus = s.focus := rfl
@[simp] theorem State.modGroup_free (s : State) (t : Tag) (x : Nat) (f : Group → Group) : (s.modGroup t x f).free = s.free := rfl
@[simp] theorem State.modGroup_clock (s : State) (t : Tag) (x : Nat) (f : Group → Group) : (s.modGroup t x f).clock = s.clock := rfl

/-! ### `State.setWin` -/

@[simp] theorem State.setWin_cores (s : State) (o n v : Nat) : (s.setWin o n v).cores = s.cores := rfl
@[simp] theorem State.setWin_mem (s : State) (o n v : Nat) : (s.setWin o n v).mem = s.mem := rfl
@[simp] theorem State.setWin_stale (s : State) (o n v : Nat) : (s.setWin o n v).stale = s.stale := rfl
@[simp] theorem State.setWin_tlb (s : State) (o n v : Nat) : (s.setWin o n v).tlb = s.tlb := rfl
@[simp] theorem State.setWin_walkCache (s : State) (o n v : Nat) : (s.setWin o n v).walkCache = s.walkCache := rfl
@[simp] theorem State.setWin_pageLists (s : State) (o n v : Nat) : (s.setWin o n v).pageLists = s.pageLists := rfl
@[simp] theorem State.setWin_l2 (s : State) (o n v : Nat) : (s.setWin o n v).l2 = s.l2 := rfl
@[simp] theorem State.setWin_contexts (s : State) (o n v : Nat) : (s.setWin o n v).contexts = s.contexts := rfl
@[simp] theorem State.setWin_launches (s : State) (o n v : Nat) : (s.setWin o n v).launches = s.launches := rfl
@[simp] theorem State.setWin_waits (s : State) (o n v : Nat) : (s.setWin o n v).waits = s.waits := rfl
@[simp] theorem State.setWin_served (s : State) (o n v : Nat) : (s.setWin o n v).served = s.served := rfl
@[simp] theorem State.setWin_cmdStatus (s : State) (o n v : Nat) : (s.setWin o n v).cmdStatus = s.cmdStatus := rfl
@[simp] theorem State.setWin_cmdHeld (s : State) (o n v : Nat) : (s.setWin o n v).cmdHeld = s.cmdHeld := rfl
@[simp] theorem State.setWin_migrations (s : State) (o n v : Nat) : (s.setWin o n v).migrations = s.migrations := rfl
@[simp] theorem State.setWin_sems (s : State) (o n v : Nat) : (s.setWin o n v).sems = s.sems := rfl
@[simp] theorem State.setWin_hartResvs (s : State) (o n v : Nat) : (s.setWin o n v).hartResvs = s.hartResvs := rfl
@[simp] theorem State.setWin_events (s : State) (o n v : Nat) : (s.setWin o n v).events = s.events := rfl
@[simp] theorem State.setWin_errSeq (s : State) (o n v : Nat) : (s.setWin o n v).errSeq = s.errSeq := rfl
@[simp] theorem State.setWin_errors (s : State) (o n v : Nat) : (s.setWin o n v).errors = s.errors := rfl
@[simp] theorem State.setWin_gtime (s : State) (o n v : Nat) : (s.setWin o n v).gtime = s.gtime := rfl
@[simp] theorem State.setWin_dev (s : State) (o n v : Nat) : (s.setWin o n v).dev = s.dev := rfl
@[simp] theorem State.setWin_corr (s : State) (o n v : Nat) : (s.setWin o n v).corr = s.corr := rfl
@[simp] theorem State.setWin_exchanged (s : State) (o n v : Nat) : (s.setWin o n v).exchanged = s.exchanged := rfl
@[simp] theorem State.setWin_parents (s : State) (o n v : Nat) : (s.setWin o n v).parents = s.parents := rfl
@[simp] theorem State.setWin_skew (s : State) (o n v : Nat) : (s.setWin o n v).skew = s.skew := rfl
@[simp] theorem State.setWin_step (s : State) (o n v : Nat) : (s.setWin o n v).step = s.step := rfl
@[simp] theorem State.setWin_slew (s : State) (o n v : Nat) : (s.setWin o n v).slew = s.slew := rfl
@[simp] theorem State.setWin_islands (s : State) (o n v : Nat) : (s.setWin o n v).islands = s.islands := rfl
@[simp] theorem State.setWin_phase (s : State) (o n v : Nat) : (s.setWin o n v).phase = s.phase := rfl
@[simp] theorem State.setWin_sheltered (s : State) (o n v : Nat) : (s.setWin o n v).sheltered = s.sheltered := rfl
@[simp] theorem State.setWin_replReq (s : State) (o n v : Nat) : (s.setWin o n v).replReq = s.replReq := rfl
@[simp] theorem State.setWin_mapCopy (s : State) (o n v : Nat) : (s.setWin o n v).mapCopy = s.mapCopy := rfl
@[simp] theorem State.setWin_fieldMap (s : State) (o n v : Nat) : (s.setWin o n v).fieldMap = s.fieldMap := rfl
@[simp] theorem State.setWin_hosts (s : State) (o n v : Nat) : (s.setWin o n v).hosts = s.hosts := rfl
@[simp] theorem State.setWin_bindings (s : State) (o n v : Nat) : (s.setWin o n v).bindings = s.bindings := rfl
@[simp] theorem State.setWin_spares (s : State) (o n v : Nat) : (s.setWin o n v).spares = s.spares := rfl
@[simp] theorem State.setWin_bindGen (s : State) (o n v : Nat) : (s.setWin o n v).bindGen = s.bindGen := rfl
@[simp] theorem State.setWin_maps (s : State) (o n v : Nat) : (s.setWin o n v).maps = s.maps := rfl
@[simp] theorem State.setWin_retired (s : State) (o n v : Nat) : (s.setWin o n v).retired = s.retired := rfl
@[simp] theorem State.setWin_mgmt (s : State) (o n v : Nat) : (s.setWin o n v).mgmt = s.mgmt := rfl
@[simp] theorem State.setWin_seams (s : State) (o n v : Nat) : (s.setWin o n v).seams = s.seams := rfl
@[simp] theorem State.setWin_deadLinks (s : State) (o n v : Nat) : (s.setWin o n v).deadLinks = s.deadLinks := rfl
@[simp] theorem State.setWin_settGen (s : State) (o n v : Nat) : (s.setWin o n v).settGen = s.settGen := rfl
@[simp] theorem State.setWin_settRelay (s : State) (o n v : Nat) : (s.setWin o n v).settRelay = s.settRelay := rfl
@[simp] theorem State.setWin_links (s : State) (o n v : Nat) : (s.setWin o n v).links = s.links := rfl
@[simp] theorem State.setWin_spareGroups (s : State) (o n v : Nat) : (s.setWin o n v).spareGroups = s.spareGroups := rfl
@[simp] theorem State.setWin_frame (s : State) (o n v : Nat) : (s.setWin o n v).frame = s.frame := rfl
@[simp] theorem State.setWin_inflight (s : State) (o n v : Nat) : (s.setWin o n v).inflight = s.inflight := rfl
@[simp] theorem State.setWin_lasers (s : State) (o n v : Nat) : (s.setWin o n v).lasers = s.lasers := rfl
@[simp] theorem State.setWin_ports (s : State) (o n v : Nat) : (s.setWin o n v).ports = s.ports := rfl
@[simp] theorem State.setWin_planes (s : State) (o n v : Nat) : (s.setWin o n v).planes = s.planes := rfl
@[simp] theorem State.setWin_resvs (s : State) (o n v : Nat) : (s.setWin o n v).resvs = s.resvs := rfl
@[simp] theorem State.setWin_nextResv (s : State) (o n v : Nat) : (s.setWin o n v).nextResv = s.nextResv := rfl
@[simp] theorem State.setWin_stores (s : State) (o n v : Nat) : (s.setWin o n v).stores = s.stores := rfl
@[simp] theorem State.setWin_unstored (s : State) (o n v : Nat) : (s.setWin o n v).unstored = s.unstored := rfl
@[simp] theorem State.setWin_peers (s : State) (o n v : Nat) : (s.setWin o n v).peers = s.peers := rfl
@[simp] theorem State.setWin_failSilent (s : State) (o n v : Nat) : (s.setWin o n v).failSilent = s.failSilent := rfl
@[simp] theorem State.setWin_outbox (s : State) (o n v : Nat) : (s.setWin o n v).outbox = s.outbox := rfl
@[simp] theorem State.setWin_agenda (s : State) (o n v : Nat) : (s.setWin o n v).agenda = s.agenda := rfl
@[simp] theorem State.setWin_focus (s : State) (o n v : Nat) : (s.setWin o n v).focus = s.focus := rfl
@[simp] theorem State.setWin_free (s : State) (o n v : Nat) : (s.setWin o n v).free = s.free := rfl
@[simp] theorem State.setWin_clock (s : State) (o n v : Nat) : (s.setWin o n v).clock = s.clock := rfl

/-! ### `State.raiseEvent` -/

@[simp] theorem State.raiseEvent_cores (s : State) (c : Nat) (b : List Byte) : (s.raiseEvent c b).cores = s.cores := rfl
@[simp] theorem State.raiseEvent_mem (s : State) (c : Nat) (b : List Byte) : (s.raiseEvent c b).mem = s.mem := rfl
@[simp] theorem State.raiseEvent_stale (s : State) (c : Nat) (b : List Byte) : (s.raiseEvent c b).stale = s.stale := rfl
@[simp] theorem State.raiseEvent_tlb (s : State) (c : Nat) (b : List Byte) : (s.raiseEvent c b).tlb = s.tlb := rfl
@[simp] theorem State.raiseEvent_walkCache (s : State) (c : Nat) (b : List Byte) : (s.raiseEvent c b).walkCache = s.walkCache := rfl
@[simp] theorem State.raiseEvent_pageLists (s : State) (c : Nat) (b : List Byte) : (s.raiseEvent c b).pageLists = s.pageLists := rfl
@[simp] theorem State.raiseEvent_l2 (s : State) (c : Nat) (b : List Byte) : (s.raiseEvent c b).l2 = s.l2 := rfl
@[simp] theorem State.raiseEvent_contexts (s : State) (c : Nat) (b : List Byte) : (s.raiseEvent c b).contexts = s.contexts := rfl
@[simp] theorem State.raiseEvent_launches (s : State) (c : Nat) (b : List Byte) : (s.raiseEvent c b).launches = s.launches := rfl
@[simp] theorem State.raiseEvent_waits (s : State) (c : Nat) (b : List Byte) : (s.raiseEvent c b).waits = s.waits := rfl
@[simp] theorem State.raiseEvent_served (s : State) (c : Nat) (b : List Byte) : (s.raiseEvent c b).served = s.served := rfl
@[simp] theorem State.raiseEvent_window (s : State) (c : Nat) (b : List Byte) : (s.raiseEvent c b).window = s.window := rfl
@[simp] theorem State.raiseEvent_cmdStatus (s : State) (c : Nat) (b : List Byte) : (s.raiseEvent c b).cmdStatus = s.cmdStatus := rfl
@[simp] theorem State.raiseEvent_cmdHeld (s : State) (c : Nat) (b : List Byte) : (s.raiseEvent c b).cmdHeld = s.cmdHeld := rfl
@[simp] theorem State.raiseEvent_migrations (s : State) (c : Nat) (b : List Byte) : (s.raiseEvent c b).migrations = s.migrations := rfl
@[simp] theorem State.raiseEvent_sems (s : State) (c : Nat) (b : List Byte) : (s.raiseEvent c b).sems = s.sems := rfl
@[simp] theorem State.raiseEvent_hartResvs (s : State) (c : Nat) (b : List Byte) : (s.raiseEvent c b).hartResvs = s.hartResvs := rfl
@[simp] theorem State.raiseEvent_errSeq (s : State) (c : Nat) (b : List Byte) : (s.raiseEvent c b).errSeq = s.errSeq := rfl
@[simp] theorem State.raiseEvent_errors (s : State) (c : Nat) (b : List Byte) : (s.raiseEvent c b).errors = s.errors := rfl
@[simp] theorem State.raiseEvent_gtime (s : State) (c : Nat) (b : List Byte) : (s.raiseEvent c b).gtime = s.gtime := rfl
@[simp] theorem State.raiseEvent_dev (s : State) (c : Nat) (b : List Byte) : (s.raiseEvent c b).dev = s.dev := rfl
@[simp] theorem State.raiseEvent_corr (s : State) (c : Nat) (b : List Byte) : (s.raiseEvent c b).corr = s.corr := rfl
@[simp] theorem State.raiseEvent_exchanged (s : State) (c : Nat) (b : List Byte) : (s.raiseEvent c b).exchanged = s.exchanged := rfl
@[simp] theorem State.raiseEvent_parents (s : State) (c : Nat) (b : List Byte) : (s.raiseEvent c b).parents = s.parents := rfl
@[simp] theorem State.raiseEvent_skew (s : State) (c : Nat) (b : List Byte) : (s.raiseEvent c b).skew = s.skew := rfl
@[simp] theorem State.raiseEvent_step (s : State) (c : Nat) (b : List Byte) : (s.raiseEvent c b).step = s.step := rfl
@[simp] theorem State.raiseEvent_slew (s : State) (c : Nat) (b : List Byte) : (s.raiseEvent c b).slew = s.slew := rfl
@[simp] theorem State.raiseEvent_islands (s : State) (c : Nat) (b : List Byte) : (s.raiseEvent c b).islands = s.islands := rfl
@[simp] theorem State.raiseEvent_phase (s : State) (c : Nat) (b : List Byte) : (s.raiseEvent c b).phase = s.phase := rfl
@[simp] theorem State.raiseEvent_sheltered (s : State) (c : Nat) (b : List Byte) : (s.raiseEvent c b).sheltered = s.sheltered := rfl
@[simp] theorem State.raiseEvent_replReq (s : State) (c : Nat) (b : List Byte) : (s.raiseEvent c b).replReq = s.replReq := rfl
@[simp] theorem State.raiseEvent_mapCopy (s : State) (c : Nat) (b : List Byte) : (s.raiseEvent c b).mapCopy = s.mapCopy := rfl
@[simp] theorem State.raiseEvent_fieldMap (s : State) (c : Nat) (b : List Byte) : (s.raiseEvent c b).fieldMap = s.fieldMap := rfl
@[simp] theorem State.raiseEvent_hosts (s : State) (c : Nat) (b : List Byte) : (s.raiseEvent c b).hosts = s.hosts := rfl
@[simp] theorem State.raiseEvent_bindings (s : State) (c : Nat) (b : List Byte) : (s.raiseEvent c b).bindings = s.bindings := rfl
@[simp] theorem State.raiseEvent_spares (s : State) (c : Nat) (b : List Byte) : (s.raiseEvent c b).spares = s.spares := rfl
@[simp] theorem State.raiseEvent_bindGen (s : State) (c : Nat) (b : List Byte) : (s.raiseEvent c b).bindGen = s.bindGen := rfl
@[simp] theorem State.raiseEvent_maps (s : State) (c : Nat) (b : List Byte) : (s.raiseEvent c b).maps = s.maps := rfl
@[simp] theorem State.raiseEvent_retired (s : State) (c : Nat) (b : List Byte) : (s.raiseEvent c b).retired = s.retired := rfl
@[simp] theorem State.raiseEvent_mgmt (s : State) (c : Nat) (b : List Byte) : (s.raiseEvent c b).mgmt = s.mgmt := rfl
@[simp] theorem State.raiseEvent_seams (s : State) (c : Nat) (b : List Byte) : (s.raiseEvent c b).seams = s.seams := rfl
@[simp] theorem State.raiseEvent_deadLinks (s : State) (c : Nat) (b : List Byte) : (s.raiseEvent c b).deadLinks = s.deadLinks := rfl
@[simp] theorem State.raiseEvent_settGen (s : State) (c : Nat) (b : List Byte) : (s.raiseEvent c b).settGen = s.settGen := rfl
@[simp] theorem State.raiseEvent_settRelay (s : State) (c : Nat) (b : List Byte) : (s.raiseEvent c b).settRelay = s.settRelay := rfl
@[simp] theorem State.raiseEvent_links (s : State) (c : Nat) (b : List Byte) : (s.raiseEvent c b).links = s.links := rfl
@[simp] theorem State.raiseEvent_spareGroups (s : State) (c : Nat) (b : List Byte) : (s.raiseEvent c b).spareGroups = s.spareGroups := rfl
@[simp] theorem State.raiseEvent_frame (s : State) (c : Nat) (b : List Byte) : (s.raiseEvent c b).frame = s.frame := rfl
@[simp] theorem State.raiseEvent_inflight (s : State) (c : Nat) (b : List Byte) : (s.raiseEvent c b).inflight = s.inflight := rfl
@[simp] theorem State.raiseEvent_lasers (s : State) (c : Nat) (b : List Byte) : (s.raiseEvent c b).lasers = s.lasers := rfl
@[simp] theorem State.raiseEvent_ports (s : State) (c : Nat) (b : List Byte) : (s.raiseEvent c b).ports = s.ports := rfl
@[simp] theorem State.raiseEvent_planes (s : State) (c : Nat) (b : List Byte) : (s.raiseEvent c b).planes = s.planes := rfl
@[simp] theorem State.raiseEvent_resvs (s : State) (c : Nat) (b : List Byte) : (s.raiseEvent c b).resvs = s.resvs := rfl
@[simp] theorem State.raiseEvent_nextResv (s : State) (c : Nat) (b : List Byte) : (s.raiseEvent c b).nextResv = s.nextResv := rfl
@[simp] theorem State.raiseEvent_stores (s : State) (c : Nat) (b : List Byte) : (s.raiseEvent c b).stores = s.stores := rfl
@[simp] theorem State.raiseEvent_unstored (s : State) (c : Nat) (b : List Byte) : (s.raiseEvent c b).unstored = s.unstored := rfl
@[simp] theorem State.raiseEvent_peers (s : State) (c : Nat) (b : List Byte) : (s.raiseEvent c b).peers = s.peers := rfl
@[simp] theorem State.raiseEvent_failSilent (s : State) (c : Nat) (b : List Byte) : (s.raiseEvent c b).failSilent = s.failSilent := rfl
@[simp] theorem State.raiseEvent_outbox (s : State) (c : Nat) (b : List Byte) : (s.raiseEvent c b).outbox = s.outbox := rfl
@[simp] theorem State.raiseEvent_agenda (s : State) (c : Nat) (b : List Byte) : (s.raiseEvent c b).agenda = s.agenda := rfl
@[simp] theorem State.raiseEvent_focus (s : State) (c : Nat) (b : List Byte) : (s.raiseEvent c b).focus = s.focus := rfl
@[simp] theorem State.raiseEvent_free (s : State) (c : Nat) (b : List Byte) : (s.raiseEvent c b).free = s.free := rfl
@[simp] theorem State.raiseEvent_clock (s : State) (c : Nat) (b : List Byte) : (s.raiseEvent c b).clock = s.clock := rfl

/-! ### `State.send` -/

@[simp] theorem State.send_cores (s : State) (m : OutMsg) : (s.send m).cores = s.cores := rfl
@[simp] theorem State.send_mem (s : State) (m : OutMsg) : (s.send m).mem = s.mem := rfl
@[simp] theorem State.send_stale (s : State) (m : OutMsg) : (s.send m).stale = s.stale := rfl
@[simp] theorem State.send_tlb (s : State) (m : OutMsg) : (s.send m).tlb = s.tlb := rfl
@[simp] theorem State.send_walkCache (s : State) (m : OutMsg) : (s.send m).walkCache = s.walkCache := rfl
@[simp] theorem State.send_pageLists (s : State) (m : OutMsg) : (s.send m).pageLists = s.pageLists := rfl
@[simp] theorem State.send_l2 (s : State) (m : OutMsg) : (s.send m).l2 = s.l2 := rfl
@[simp] theorem State.send_contexts (s : State) (m : OutMsg) : (s.send m).contexts = s.contexts := rfl
@[simp] theorem State.send_launches (s : State) (m : OutMsg) : (s.send m).launches = s.launches := rfl
@[simp] theorem State.send_waits (s : State) (m : OutMsg) : (s.send m).waits = s.waits := rfl
@[simp] theorem State.send_served (s : State) (m : OutMsg) : (s.send m).served = s.served := rfl
@[simp] theorem State.send_window (s : State) (m : OutMsg) : (s.send m).window = s.window := rfl
@[simp] theorem State.send_cmdStatus (s : State) (m : OutMsg) : (s.send m).cmdStatus = s.cmdStatus := rfl
@[simp] theorem State.send_cmdHeld (s : State) (m : OutMsg) : (s.send m).cmdHeld = s.cmdHeld := rfl
@[simp] theorem State.send_migrations (s : State) (m : OutMsg) : (s.send m).migrations = s.migrations := rfl
@[simp] theorem State.send_sems (s : State) (m : OutMsg) : (s.send m).sems = s.sems := rfl
@[simp] theorem State.send_hartResvs (s : State) (m : OutMsg) : (s.send m).hartResvs = s.hartResvs := rfl
@[simp] theorem State.send_events (s : State) (m : OutMsg) : (s.send m).events = s.events := rfl
@[simp] theorem State.send_errSeq (s : State) (m : OutMsg) : (s.send m).errSeq = s.errSeq := rfl
@[simp] theorem State.send_errors (s : State) (m : OutMsg) : (s.send m).errors = s.errors := rfl
@[simp] theorem State.send_gtime (s : State) (m : OutMsg) : (s.send m).gtime = s.gtime := rfl
@[simp] theorem State.send_dev (s : State) (m : OutMsg) : (s.send m).dev = s.dev := rfl
@[simp] theorem State.send_corr (s : State) (m : OutMsg) : (s.send m).corr = s.corr := rfl
@[simp] theorem State.send_exchanged (s : State) (m : OutMsg) : (s.send m).exchanged = s.exchanged := rfl
@[simp] theorem State.send_parents (s : State) (m : OutMsg) : (s.send m).parents = s.parents := rfl
@[simp] theorem State.send_skew (s : State) (m : OutMsg) : (s.send m).skew = s.skew := rfl
@[simp] theorem State.send_step (s : State) (m : OutMsg) : (s.send m).step = s.step := rfl
@[simp] theorem State.send_slew (s : State) (m : OutMsg) : (s.send m).slew = s.slew := rfl
@[simp] theorem State.send_islands (s : State) (m : OutMsg) : (s.send m).islands = s.islands := rfl
@[simp] theorem State.send_phase (s : State) (m : OutMsg) : (s.send m).phase = s.phase := rfl
@[simp] theorem State.send_sheltered (s : State) (m : OutMsg) : (s.send m).sheltered = s.sheltered := rfl
@[simp] theorem State.send_replReq (s : State) (m : OutMsg) : (s.send m).replReq = s.replReq := rfl
@[simp] theorem State.send_mapCopy (s : State) (m : OutMsg) : (s.send m).mapCopy = s.mapCopy := rfl
@[simp] theorem State.send_fieldMap (s : State) (m : OutMsg) : (s.send m).fieldMap = s.fieldMap := rfl
@[simp] theorem State.send_hosts (s : State) (m : OutMsg) : (s.send m).hosts = s.hosts := rfl
@[simp] theorem State.send_bindings (s : State) (m : OutMsg) : (s.send m).bindings = s.bindings := rfl
@[simp] theorem State.send_spares (s : State) (m : OutMsg) : (s.send m).spares = s.spares := rfl
@[simp] theorem State.send_bindGen (s : State) (m : OutMsg) : (s.send m).bindGen = s.bindGen := rfl
@[simp] theorem State.send_maps (s : State) (m : OutMsg) : (s.send m).maps = s.maps := rfl
@[simp] theorem State.send_retired (s : State) (m : OutMsg) : (s.send m).retired = s.retired := rfl
@[simp] theorem State.send_mgmt (s : State) (m : OutMsg) : (s.send m).mgmt = s.mgmt := rfl
@[simp] theorem State.send_seams (s : State) (m : OutMsg) : (s.send m).seams = s.seams := rfl
@[simp] theorem State.send_deadLinks (s : State) (m : OutMsg) : (s.send m).deadLinks = s.deadLinks := rfl
@[simp] theorem State.send_settGen (s : State) (m : OutMsg) : (s.send m).settGen = s.settGen := rfl
@[simp] theorem State.send_settRelay (s : State) (m : OutMsg) : (s.send m).settRelay = s.settRelay := rfl
@[simp] theorem State.send_links (s : State) (m : OutMsg) : (s.send m).links = s.links := rfl
@[simp] theorem State.send_spareGroups (s : State) (m : OutMsg) : (s.send m).spareGroups = s.spareGroups := rfl
@[simp] theorem State.send_frame (s : State) (m : OutMsg) : (s.send m).frame = s.frame := rfl
@[simp] theorem State.send_inflight (s : State) (m : OutMsg) : (s.send m).inflight = s.inflight := rfl
@[simp] theorem State.send_lasers (s : State) (m : OutMsg) : (s.send m).lasers = s.lasers := rfl
@[simp] theorem State.send_ports (s : State) (m : OutMsg) : (s.send m).ports = s.ports := rfl
@[simp] theorem State.send_planes (s : State) (m : OutMsg) : (s.send m).planes = s.planes := rfl
@[simp] theorem State.send_resvs (s : State) (m : OutMsg) : (s.send m).resvs = s.resvs := rfl
@[simp] theorem State.send_nextResv (s : State) (m : OutMsg) : (s.send m).nextResv = s.nextResv := rfl
@[simp] theorem State.send_stores (s : State) (m : OutMsg) : (s.send m).stores = s.stores := rfl
@[simp] theorem State.send_unstored (s : State) (m : OutMsg) : (s.send m).unstored = s.unstored := rfl
@[simp] theorem State.send_peers (s : State) (m : OutMsg) : (s.send m).peers = s.peers := rfl
@[simp] theorem State.send_failSilent (s : State) (m : OutMsg) : (s.send m).failSilent = s.failSilent := rfl
@[simp] theorem State.send_agenda (s : State) (m : OutMsg) : (s.send m).agenda = s.agenda := rfl
@[simp] theorem State.send_focus (s : State) (m : OutMsg) : (s.send m).focus = s.focus := rfl
@[simp] theorem State.send_free (s : State) (m : OutMsg) : (s.send m).free = s.free := rfl
@[simp] theorem State.send_clock (s : State) (m : OutMsg) : (s.send m).clock = s.clock := rfl

/-! ### `State.physWrite` -/

@[simp] theorem State.physWrite_cores (s : State) (a n v : Nat) : (s.physWrite a n v).cores = s.cores := rfl
@[simp] theorem State.physWrite_l2 (s : State) (a n v : Nat) : (s.physWrite a n v).l2 = s.l2 := rfl
@[simp] theorem State.physWrite_contexts (s : State) (a n v : Nat) : (s.physWrite a n v).contexts = s.contexts := rfl
@[simp] theorem State.physWrite_launches (s : State) (a n v : Nat) : (s.physWrite a n v).launches = s.launches := rfl
@[simp] theorem State.physWrite_waits (s : State) (a n v : Nat) : (s.physWrite a n v).waits = s.waits := rfl
@[simp] theorem State.physWrite_served (s : State) (a n v : Nat) : (s.physWrite a n v).served = s.served := rfl
@[simp] theorem State.physWrite_window (s : State) (a n v : Nat) : (s.physWrite a n v).window = s.window := rfl
@[simp] theorem State.physWrite_cmdStatus (s : State) (a n v : Nat) : (s.physWrite a n v).cmdStatus = s.cmdStatus := rfl
@[simp] theorem State.physWrite_cmdHeld (s : State) (a n v : Nat) : (s.physWrite a n v).cmdHeld = s.cmdHeld := rfl
@[simp] theorem State.physWrite_migrations (s : State) (a n v : Nat) : (s.physWrite a n v).migrations = s.migrations := rfl
@[simp] theorem State.physWrite_sems (s : State) (a n v : Nat) : (s.physWrite a n v).sems = s.sems := rfl
@[simp] theorem State.physWrite_hartResvs (s : State) (a n v : Nat) : (s.physWrite a n v).hartResvs = s.hartResvs := rfl
@[simp] theorem State.physWrite_events (s : State) (a n v : Nat) : (s.physWrite a n v).events = s.events := rfl
@[simp] theorem State.physWrite_errSeq (s : State) (a n v : Nat) : (s.physWrite a n v).errSeq = s.errSeq := rfl
@[simp] theorem State.physWrite_errors (s : State) (a n v : Nat) : (s.physWrite a n v).errors = s.errors := rfl
@[simp] theorem State.physWrite_gtime (s : State) (a n v : Nat) : (s.physWrite a n v).gtime = s.gtime := rfl
@[simp] theorem State.physWrite_dev (s : State) (a n v : Nat) : (s.physWrite a n v).dev = s.dev := rfl
@[simp] theorem State.physWrite_corr (s : State) (a n v : Nat) : (s.physWrite a n v).corr = s.corr := rfl
@[simp] theorem State.physWrite_exchanged (s : State) (a n v : Nat) : (s.physWrite a n v).exchanged = s.exchanged := rfl
@[simp] theorem State.physWrite_parents (s : State) (a n v : Nat) : (s.physWrite a n v).parents = s.parents := rfl
@[simp] theorem State.physWrite_skew (s : State) (a n v : Nat) : (s.physWrite a n v).skew = s.skew := rfl
@[simp] theorem State.physWrite_step (s : State) (a n v : Nat) : (s.physWrite a n v).step = s.step := rfl
@[simp] theorem State.physWrite_slew (s : State) (a n v : Nat) : (s.physWrite a n v).slew = s.slew := rfl
@[simp] theorem State.physWrite_islands (s : State) (a n v : Nat) : (s.physWrite a n v).islands = s.islands := rfl
@[simp] theorem State.physWrite_phase (s : State) (a n v : Nat) : (s.physWrite a n v).phase = s.phase := rfl
@[simp] theorem State.physWrite_sheltered (s : State) (a n v : Nat) : (s.physWrite a n v).sheltered = s.sheltered := rfl
@[simp] theorem State.physWrite_replReq (s : State) (a n v : Nat) : (s.physWrite a n v).replReq = s.replReq := rfl
@[simp] theorem State.physWrite_mapCopy (s : State) (a n v : Nat) : (s.physWrite a n v).mapCopy = s.mapCopy := rfl
@[simp] theorem State.physWrite_fieldMap (s : State) (a n v : Nat) : (s.physWrite a n v).fieldMap = s.fieldMap := rfl
@[simp] theorem State.physWrite_hosts (s : State) (a n v : Nat) : (s.physWrite a n v).hosts = s.hosts := rfl
@[simp] theorem State.physWrite_bindings (s : State) (a n v : Nat) : (s.physWrite a n v).bindings = s.bindings := rfl
@[simp] theorem State.physWrite_spares (s : State) (a n v : Nat) : (s.physWrite a n v).spares = s.spares := rfl
@[simp] theorem State.physWrite_bindGen (s : State) (a n v : Nat) : (s.physWrite a n v).bindGen = s.bindGen := rfl
@[simp] theorem State.physWrite_maps (s : State) (a n v : Nat) : (s.physWrite a n v).maps = s.maps := rfl
@[simp] theorem State.physWrite_retired (s : State) (a n v : Nat) : (s.physWrite a n v).retired = s.retired := rfl
@[simp] theorem State.physWrite_mgmt (s : State) (a n v : Nat) : (s.physWrite a n v).mgmt = s.mgmt := rfl
@[simp] theorem State.physWrite_seams (s : State) (a n v : Nat) : (s.physWrite a n v).seams = s.seams := rfl
@[simp] theorem State.physWrite_deadLinks (s : State) (a n v : Nat) : (s.physWrite a n v).deadLinks = s.deadLinks := rfl
@[simp] theorem State.physWrite_settGen (s : State) (a n v : Nat) : (s.physWrite a n v).settGen = s.settGen := rfl
@[simp] theorem State.physWrite_settRelay (s : State) (a n v : Nat) : (s.physWrite a n v).settRelay = s.settRelay := rfl
@[simp] theorem State.physWrite_links (s : State) (a n v : Nat) : (s.physWrite a n v).links = s.links := rfl
@[simp] theorem State.physWrite_spareGroups (s : State) (a n v : Nat) : (s.physWrite a n v).spareGroups = s.spareGroups := rfl
@[simp] theorem State.physWrite_frame (s : State) (a n v : Nat) : (s.physWrite a n v).frame = s.frame := rfl
@[simp] theorem State.physWrite_inflight (s : State) (a n v : Nat) : (s.physWrite a n v).inflight = s.inflight := rfl
@[simp] theorem State.physWrite_lasers (s : State) (a n v : Nat) : (s.physWrite a n v).lasers = s.lasers := rfl
@[simp] theorem State.physWrite_ports (s : State) (a n v : Nat) : (s.physWrite a n v).ports = s.ports := rfl
@[simp] theorem State.physWrite_planes (s : State) (a n v : Nat) : (s.physWrite a n v).planes = s.planes := rfl
@[simp] theorem State.physWrite_resvs (s : State) (a n v : Nat) : (s.physWrite a n v).resvs = s.resvs := rfl
@[simp] theorem State.physWrite_nextResv (s : State) (a n v : Nat) : (s.physWrite a n v).nextResv = s.nextResv := rfl
@[simp] theorem State.physWrite_stores (s : State) (a n v : Nat) : (s.physWrite a n v).stores = s.stores := rfl
@[simp] theorem State.physWrite_unstored (s : State) (a n v : Nat) : (s.physWrite a n v).unstored = s.unstored := rfl
@[simp] theorem State.physWrite_peers (s : State) (a n v : Nat) : (s.physWrite a n v).peers = s.peers := rfl
@[simp] theorem State.physWrite_failSilent (s : State) (a n v : Nat) : (s.physWrite a n v).failSilent = s.failSilent := rfl
@[simp] theorem State.physWrite_outbox (s : State) (a n v : Nat) : (s.physWrite a n v).outbox = s.outbox := rfl
@[simp] theorem State.physWrite_agenda (s : State) (a n v : Nat) : (s.physWrite a n v).agenda = s.agenda := rfl
@[simp] theorem State.physWrite_focus (s : State) (a n v : Nat) : (s.physWrite a n v).focus = s.focus := rfl
@[simp] theorem State.physWrite_free (s : State) (a n v : Nat) : (s.physWrite a n v).free = s.free := rfl
@[simp] theorem State.physWrite_clock (s : State) (a n v : Nat) : (s.physWrite a n v).clock = s.clock := rfl

/-! ### `State.physWriteList` -/

@[simp] theorem State.physWriteList_cores (s : State) (a : Nat) (b : List Byte) : (s.physWriteList a b).cores = s.cores := rfl
@[simp] theorem State.physWriteList_l2 (s : State) (a : Nat) (b : List Byte) : (s.physWriteList a b).l2 = s.l2 := rfl
@[simp] theorem State.physWriteList_contexts (s : State) (a : Nat) (b : List Byte) : (s.physWriteList a b).contexts = s.contexts := rfl
@[simp] theorem State.physWriteList_launches (s : State) (a : Nat) (b : List Byte) : (s.physWriteList a b).launches = s.launches := rfl
@[simp] theorem State.physWriteList_waits (s : State) (a : Nat) (b : List Byte) : (s.physWriteList a b).waits = s.waits := rfl
@[simp] theorem State.physWriteList_served (s : State) (a : Nat) (b : List Byte) : (s.physWriteList a b).served = s.served := rfl
@[simp] theorem State.physWriteList_window (s : State) (a : Nat) (b : List Byte) : (s.physWriteList a b).window = s.window := rfl
@[simp] theorem State.physWriteList_cmdStatus (s : State) (a : Nat) (b : List Byte) : (s.physWriteList a b).cmdStatus = s.cmdStatus := rfl
@[simp] theorem State.physWriteList_cmdHeld (s : State) (a : Nat) (b : List Byte) : (s.physWriteList a b).cmdHeld = s.cmdHeld := rfl
@[simp] theorem State.physWriteList_migrations (s : State) (a : Nat) (b : List Byte) : (s.physWriteList a b).migrations = s.migrations := rfl
@[simp] theorem State.physWriteList_sems (s : State) (a : Nat) (b : List Byte) : (s.physWriteList a b).sems = s.sems := rfl
@[simp] theorem State.physWriteList_hartResvs (s : State) (a : Nat) (b : List Byte) : (s.physWriteList a b).hartResvs = s.hartResvs := rfl
@[simp] theorem State.physWriteList_events (s : State) (a : Nat) (b : List Byte) : (s.physWriteList a b).events = s.events := rfl
@[simp] theorem State.physWriteList_errSeq (s : State) (a : Nat) (b : List Byte) : (s.physWriteList a b).errSeq = s.errSeq := rfl
@[simp] theorem State.physWriteList_errors (s : State) (a : Nat) (b : List Byte) : (s.physWriteList a b).errors = s.errors := rfl
@[simp] theorem State.physWriteList_gtime (s : State) (a : Nat) (b : List Byte) : (s.physWriteList a b).gtime = s.gtime := rfl
@[simp] theorem State.physWriteList_dev (s : State) (a : Nat) (b : List Byte) : (s.physWriteList a b).dev = s.dev := rfl
@[simp] theorem State.physWriteList_corr (s : State) (a : Nat) (b : List Byte) : (s.physWriteList a b).corr = s.corr := rfl
@[simp] theorem State.physWriteList_exchanged (s : State) (a : Nat) (b : List Byte) : (s.physWriteList a b).exchanged = s.exchanged := rfl
@[simp] theorem State.physWriteList_parents (s : State) (a : Nat) (b : List Byte) : (s.physWriteList a b).parents = s.parents := rfl
@[simp] theorem State.physWriteList_skew (s : State) (a : Nat) (b : List Byte) : (s.physWriteList a b).skew = s.skew := rfl
@[simp] theorem State.physWriteList_step (s : State) (a : Nat) (b : List Byte) : (s.physWriteList a b).step = s.step := rfl
@[simp] theorem State.physWriteList_slew (s : State) (a : Nat) (b : List Byte) : (s.physWriteList a b).slew = s.slew := rfl
@[simp] theorem State.physWriteList_islands (s : State) (a : Nat) (b : List Byte) : (s.physWriteList a b).islands = s.islands := rfl
@[simp] theorem State.physWriteList_phase (s : State) (a : Nat) (b : List Byte) : (s.physWriteList a b).phase = s.phase := rfl
@[simp] theorem State.physWriteList_sheltered (s : State) (a : Nat) (b : List Byte) : (s.physWriteList a b).sheltered = s.sheltered := rfl
@[simp] theorem State.physWriteList_replReq (s : State) (a : Nat) (b : List Byte) : (s.physWriteList a b).replReq = s.replReq := rfl
@[simp] theorem State.physWriteList_mapCopy (s : State) (a : Nat) (b : List Byte) : (s.physWriteList a b).mapCopy = s.mapCopy := rfl
@[simp] theorem State.physWriteList_fieldMap (s : State) (a : Nat) (b : List Byte) : (s.physWriteList a b).fieldMap = s.fieldMap := rfl
@[simp] theorem State.physWriteList_hosts (s : State) (a : Nat) (b : List Byte) : (s.physWriteList a b).hosts = s.hosts := rfl
@[simp] theorem State.physWriteList_bindings (s : State) (a : Nat) (b : List Byte) : (s.physWriteList a b).bindings = s.bindings := rfl
@[simp] theorem State.physWriteList_spares (s : State) (a : Nat) (b : List Byte) : (s.physWriteList a b).spares = s.spares := rfl
@[simp] theorem State.physWriteList_bindGen (s : State) (a : Nat) (b : List Byte) : (s.physWriteList a b).bindGen = s.bindGen := rfl
@[simp] theorem State.physWriteList_maps (s : State) (a : Nat) (b : List Byte) : (s.physWriteList a b).maps = s.maps := rfl
@[simp] theorem State.physWriteList_retired (s : State) (a : Nat) (b : List Byte) : (s.physWriteList a b).retired = s.retired := rfl
@[simp] theorem State.physWriteList_mgmt (s : State) (a : Nat) (b : List Byte) : (s.physWriteList a b).mgmt = s.mgmt := rfl
@[simp] theorem State.physWriteList_seams (s : State) (a : Nat) (b : List Byte) : (s.physWriteList a b).seams = s.seams := rfl
@[simp] theorem State.physWriteList_deadLinks (s : State) (a : Nat) (b : List Byte) : (s.physWriteList a b).deadLinks = s.deadLinks := rfl
@[simp] theorem State.physWriteList_settGen (s : State) (a : Nat) (b : List Byte) : (s.physWriteList a b).settGen = s.settGen := rfl
@[simp] theorem State.physWriteList_settRelay (s : State) (a : Nat) (b : List Byte) : (s.physWriteList a b).settRelay = s.settRelay := rfl
@[simp] theorem State.physWriteList_links (s : State) (a : Nat) (b : List Byte) : (s.physWriteList a b).links = s.links := rfl
@[simp] theorem State.physWriteList_spareGroups (s : State) (a : Nat) (b : List Byte) : (s.physWriteList a b).spareGroups = s.spareGroups := rfl
@[simp] theorem State.physWriteList_frame (s : State) (a : Nat) (b : List Byte) : (s.physWriteList a b).frame = s.frame := rfl
@[simp] theorem State.physWriteList_inflight (s : State) (a : Nat) (b : List Byte) : (s.physWriteList a b).inflight = s.inflight := rfl
@[simp] theorem State.physWriteList_lasers (s : State) (a : Nat) (b : List Byte) : (s.physWriteList a b).lasers = s.lasers := rfl
@[simp] theorem State.physWriteList_ports (s : State) (a : Nat) (b : List Byte) : (s.physWriteList a b).ports = s.ports := rfl
@[simp] theorem State.physWriteList_planes (s : State) (a : Nat) (b : List Byte) : (s.physWriteList a b).planes = s.planes := rfl
@[simp] theorem State.physWriteList_resvs (s : State) (a : Nat) (b : List Byte) : (s.physWriteList a b).resvs = s.resvs := rfl
@[simp] theorem State.physWriteList_nextResv (s : State) (a : Nat) (b : List Byte) : (s.physWriteList a b).nextResv = s.nextResv := rfl
@[simp] theorem State.physWriteList_stores (s : State) (a : Nat) (b : List Byte) : (s.physWriteList a b).stores = s.stores := rfl
@[simp] theorem State.physWriteList_unstored (s : State) (a : Nat) (b : List Byte) : (s.physWriteList a b).unstored = s.unstored := rfl
@[simp] theorem State.physWriteList_peers (s : State) (a : Nat) (b : List Byte) : (s.physWriteList a b).peers = s.peers := rfl
@[simp] theorem State.physWriteList_failSilent (s : State) (a : Nat) (b : List Byte) : (s.physWriteList a b).failSilent = s.failSilent := rfl
@[simp] theorem State.physWriteList_outbox (s : State) (a : Nat) (b : List Byte) : (s.physWriteList a b).outbox = s.outbox := rfl
@[simp] theorem State.physWriteList_agenda (s : State) (a : Nat) (b : List Byte) : (s.physWriteList a b).agenda = s.agenda := rfl
@[simp] theorem State.physWriteList_focus (s : State) (a : Nat) (b : List Byte) : (s.physWriteList a b).focus = s.focus := rfl
@[simp] theorem State.physWriteList_free (s : State) (a : Nat) (b : List Byte) : (s.physWriteList a b).free = s.free := rfl
@[simp] theorem State.physWriteList_clock (s : State) (a : Nat) (b : List Byte) : (s.physWriteList a b).clock = s.clock := rfl

/-! ### `Pack.setSplit` -/

@[simp] theorem Pack.setSplit_ctx (k : Pack) (sp : Split) : (k.setSplit sp).ctx = k.ctx := rfl
@[simp] theorem Pack.setSplit_tag (k : Pack) (sp : Split) : (k.setSplit sp).tag = k.tag := rfl
@[simp] theorem Pack.setSplit_group (k : Pack) (sp : Split) : (k.setSplit sp).group = k.group := rfl
@[simp] theorem Pack.setSplit_lpack (k : Pack) (sp : Split) : (k.setSplit sp).lpack = k.lpack := rfl
@[simp] theorem Pack.setSplit_role (k : Pack) (sp : Split) : (k.setSplit sp).role = k.role := rfl
@[simp] theorem Pack.setSplit_slices (k : Pack) (sp : Split) : (k.setSplit sp).slices = k.slices := rfl
@[simp] theorem Pack.setSplit_nv (k : Pack) (sp : Split) : (k.setSplit sp).nv = k.nv := rfl
@[simp] theorem Pack.setSplit_ng (k : Pack) (sp : Split) : (k.setSplit sp).ng = k.ng := rfl
@[simp] theorem Pack.setSplit_na (k : Pack) (sp : Split) : (k.setSplit sp).na = k.na := rfl
@[simp] theorem Pack.setSplit_phase (k : Pack) (sp : Split) : (k.setSplit sp).phase = k.phase := rfl
@[simp] theorem Pack.setSplit_v (k : Pack) (sp : Split) : (k.setSplit sp).v = k.v := rfl
@[simp] theorem Pack.setSplit_g (k : Pack) (sp : Split) : (k.setSplit sp).g = k.g := rfl
@[simp] theorem Pack.setSplit_p (k : Pack) (sp : Split) : (k.setSplit sp).p = k.p := rfl
@[simp] theorem Pack.setSplit_t (k : Pack) (sp : Split) : (k.setSplit sp).t = k.t := rfl
@[simp] theorem Pack.setSplit_acc (k : Pack) (sp : Split) : (k.setSplit sp).acc = k.acc := rfl
@[simp] theorem Pack.setSplit_queues (k : Pack) (sp : Split) : (k.setSplit sp).queues = k.queues := rfl
@[simp] theorem Pack.setSplit_mst (k : Pack) (sp : Split) : (k.setSplit sp).mst = k.mst := rfl
@[simp] theorem Pack.setSplit_fpctl (k : Pack) (sp : Split) : (k.setSplit sp).fpctl = k.fpctl := rfl
@[simp] theorem Pack.setSplit_fpstat (k : Pack) (sp : Split) : (k.setSplit sp).fpstat = k.fpstat := rfl
@[simp] theorem Pack.setSplit_wlhold (k : Pack) (sp : Split) : (k.setSplit sp).wlhold = k.wlhold := rfl
@[simp] theorem Pack.setSplit_spillAt (k : Pack) (sp : Split) : (k.setSplit sp).spillAt = k.spillAt := rfl
@[simp] theorem Pack.setSplit_exited (k : Pack) (sp : Split) : (k.setSplit sp).exited = k.exited := rfl
@[simp] theorem Pack.setSplit_order (k : Pack) (sp : Split) : (k.setSplit sp).order = k.order := rfl
@[simp] theorem Pack.setSplit_cur (k : Pack) (sp : Split) : (k.setSplit sp).cur = k.cur := rfl
@[simp] theorem Pack.setSplit_ops (k : Pack) (sp : Split) : (k.setSplit sp).ops = k.ops := rfl
@[simp] theorem Pack.setSplit_nextOp (k : Pack) (sp : Split) : (k.setSplit sp).nextOp = k.nextOp := rfl
@[simp] theorem Pack.setSplit_det (k : Pack) (sp : Split) : (k.setSplit sp).det = k.det := rfl
@[simp] theorem Pack.setSplit_detSeq (k : Pack) (sp : Split) : (k.setSplit sp).detSeq = k.detSeq := rfl
@[simp] theorem Pack.setSplit_fetch (k : Pack) (sp : Split) : (k.setSplit sp).fetch = k.fetch := rfl
@[simp] theorem Pack.setSplit_wid (k : Pack) (sp : Split) : (k.setSplit sp).wid = k.wid := rfl
@[simp] theorem Pack.setSplit_loop (k : Pack) (sp : Split) : (k.setSplit sp).loop = k.loop := rfl
@[simp] theorem Pack.setSplit_granted (k : Pack) (sp : Split) : (k.setSplit sp).granted = k.granted := rfl
@[simp] theorem Pack.setSplit_wantFlags (k : Pack) (sp : Split) : (k.setSplit sp).wantFlags = k.wantFlags := rfl
@[simp] theorem Pack.setSplit_stopping (k : Pack) (sp : Split) : (k.setSplit sp).stopping = k.stopping := rfl
@[simp] theorem Pack.setSplit_reaped (k : Pack) (sp : Split) : (k.setSplit sp).reaped = k.reaped := rfl

/-! ### `Pack.modSplit` -/

@[simp] theorem Pack.modSplit_ctx (k : Pack) (i : Nat) (f : Split → Split) : (k.modSplit i f).ctx = k.ctx := rfl
@[simp] theorem Pack.modSplit_tag (k : Pack) (i : Nat) (f : Split → Split) : (k.modSplit i f).tag = k.tag := rfl
@[simp] theorem Pack.modSplit_group (k : Pack) (i : Nat) (f : Split → Split) : (k.modSplit i f).group = k.group := rfl
@[simp] theorem Pack.modSplit_lpack (k : Pack) (i : Nat) (f : Split → Split) : (k.modSplit i f).lpack = k.lpack := rfl
@[simp] theorem Pack.modSplit_role (k : Pack) (i : Nat) (f : Split → Split) : (k.modSplit i f).role = k.role := rfl
@[simp] theorem Pack.modSplit_slices (k : Pack) (i : Nat) (f : Split → Split) : (k.modSplit i f).slices = k.slices := rfl
@[simp] theorem Pack.modSplit_nv (k : Pack) (i : Nat) (f : Split → Split) : (k.modSplit i f).nv = k.nv := rfl
@[simp] theorem Pack.modSplit_ng (k : Pack) (i : Nat) (f : Split → Split) : (k.modSplit i f).ng = k.ng := rfl
@[simp] theorem Pack.modSplit_na (k : Pack) (i : Nat) (f : Split → Split) : (k.modSplit i f).na = k.na := rfl
@[simp] theorem Pack.modSplit_phase (k : Pack) (i : Nat) (f : Split → Split) : (k.modSplit i f).phase = k.phase := rfl
@[simp] theorem Pack.modSplit_v (k : Pack) (i : Nat) (f : Split → Split) : (k.modSplit i f).v = k.v := rfl
@[simp] theorem Pack.modSplit_g (k : Pack) (i : Nat) (f : Split → Split) : (k.modSplit i f).g = k.g := rfl
@[simp] theorem Pack.modSplit_p (k : Pack) (i : Nat) (f : Split → Split) : (k.modSplit i f).p = k.p := rfl
@[simp] theorem Pack.modSplit_t (k : Pack) (i : Nat) (f : Split → Split) : (k.modSplit i f).t = k.t := rfl
@[simp] theorem Pack.modSplit_acc (k : Pack) (i : Nat) (f : Split → Split) : (k.modSplit i f).acc = k.acc := rfl
@[simp] theorem Pack.modSplit_queues (k : Pack) (i : Nat) (f : Split → Split) : (k.modSplit i f).queues = k.queues := rfl
@[simp] theorem Pack.modSplit_mst (k : Pack) (i : Nat) (f : Split → Split) : (k.modSplit i f).mst = k.mst := rfl
@[simp] theorem Pack.modSplit_fpctl (k : Pack) (i : Nat) (f : Split → Split) : (k.modSplit i f).fpctl = k.fpctl := rfl
@[simp] theorem Pack.modSplit_fpstat (k : Pack) (i : Nat) (f : Split → Split) : (k.modSplit i f).fpstat = k.fpstat := rfl
@[simp] theorem Pack.modSplit_wlhold (k : Pack) (i : Nat) (f : Split → Split) : (k.modSplit i f).wlhold = k.wlhold := rfl
@[simp] theorem Pack.modSplit_spillAt (k : Pack) (i : Nat) (f : Split → Split) : (k.modSplit i f).spillAt = k.spillAt := rfl
@[simp] theorem Pack.modSplit_exited (k : Pack) (i : Nat) (f : Split → Split) : (k.modSplit i f).exited = k.exited := rfl
@[simp] theorem Pack.modSplit_order (k : Pack) (i : Nat) (f : Split → Split) : (k.modSplit i f).order = k.order := rfl
@[simp] theorem Pack.modSplit_cur (k : Pack) (i : Nat) (f : Split → Split) : (k.modSplit i f).cur = k.cur := rfl
@[simp] theorem Pack.modSplit_ops (k : Pack) (i : Nat) (f : Split → Split) : (k.modSplit i f).ops = k.ops := rfl
@[simp] theorem Pack.modSplit_nextOp (k : Pack) (i : Nat) (f : Split → Split) : (k.modSplit i f).nextOp = k.nextOp := rfl
@[simp] theorem Pack.modSplit_det (k : Pack) (i : Nat) (f : Split → Split) : (k.modSplit i f).det = k.det := rfl
@[simp] theorem Pack.modSplit_detSeq (k : Pack) (i : Nat) (f : Split → Split) : (k.modSplit i f).detSeq = k.detSeq := rfl
@[simp] theorem Pack.modSplit_fetch (k : Pack) (i : Nat) (f : Split → Split) : (k.modSplit i f).fetch = k.fetch := rfl
@[simp] theorem Pack.modSplit_wid (k : Pack) (i : Nat) (f : Split → Split) : (k.modSplit i f).wid = k.wid := rfl
@[simp] theorem Pack.modSplit_loop (k : Pack) (i : Nat) (f : Split → Split) : (k.modSplit i f).loop = k.loop := rfl
@[simp] theorem Pack.modSplit_granted (k : Pack) (i : Nat) (f : Split → Split) : (k.modSplit i f).granted = k.granted := rfl
@[simp] theorem Pack.modSplit_wantFlags (k : Pack) (i : Nat) (f : Split → Split) : (k.modSplit i f).wantFlags = k.wantFlags := rfl
@[simp] theorem Pack.modSplit_stopping (k : Pack) (i : Nat) (f : Split → Split) : (k.modSplit i f).stopping = k.stopping := rfl
@[simp] theorem Pack.modSplit_reaped (k : Pack) (i : Nat) (f : Split → Split) : (k.modSplit i f).reaped = k.reaped := rfl

/-! ### `Pack.setG` -/

@[simp] theorem Pack.setG_ctx (k : Pack) (r : Nat) (w : Word) : (k.setG r w).ctx = k.ctx := rfl
@[simp] theorem Pack.setG_tag (k : Pack) (r : Nat) (w : Word) : (k.setG r w).tag = k.tag := rfl
@[simp] theorem Pack.setG_group (k : Pack) (r : Nat) (w : Word) : (k.setG r w).group = k.group := rfl
@[simp] theorem Pack.setG_lpack (k : Pack) (r : Nat) (w : Word) : (k.setG r w).lpack = k.lpack := rfl
@[simp] theorem Pack.setG_role (k : Pack) (r : Nat) (w : Word) : (k.setG r w).role = k.role := rfl
@[simp] theorem Pack.setG_slices (k : Pack) (r : Nat) (w : Word) : (k.setG r w).slices = k.slices := rfl
@[simp] theorem Pack.setG_nv (k : Pack) (r : Nat) (w : Word) : (k.setG r w).nv = k.nv := rfl
@[simp] theorem Pack.setG_ng (k : Pack) (r : Nat) (w : Word) : (k.setG r w).ng = k.ng := rfl
@[simp] theorem Pack.setG_na (k : Pack) (r : Nat) (w : Word) : (k.setG r w).na = k.na := rfl
@[simp] theorem Pack.setG_phase (k : Pack) (r : Nat) (w : Word) : (k.setG r w).phase = k.phase := rfl
@[simp] theorem Pack.setG_v (k : Pack) (r : Nat) (w : Word) : (k.setG r w).v = k.v := rfl
@[simp] theorem Pack.setG_p (k : Pack) (r : Nat) (w : Word) : (k.setG r w).p = k.p := rfl
@[simp] theorem Pack.setG_t (k : Pack) (r : Nat) (w : Word) : (k.setG r w).t = k.t := rfl
@[simp] theorem Pack.setG_acc (k : Pack) (r : Nat) (w : Word) : (k.setG r w).acc = k.acc := rfl
@[simp] theorem Pack.setG_queues (k : Pack) (r : Nat) (w : Word) : (k.setG r w).queues = k.queues := rfl
@[simp] theorem Pack.setG_mst (k : Pack) (r : Nat) (w : Word) : (k.setG r w).mst = k.mst := rfl
@[simp] theorem Pack.setG_fpctl (k : Pack) (r : Nat) (w : Word) : (k.setG r w).fpctl = k.fpctl := rfl
@[simp] theorem Pack.setG_fpstat (k : Pack) (r : Nat) (w : Word) : (k.setG r w).fpstat = k.fpstat := rfl
@[simp] theorem Pack.setG_wlhold (k : Pack) (r : Nat) (w : Word) : (k.setG r w).wlhold = k.wlhold := rfl
@[simp] theorem Pack.setG_spillAt (k : Pack) (r : Nat) (w : Word) : (k.setG r w).spillAt = k.spillAt := rfl
@[simp] theorem Pack.setG_exited (k : Pack) (r : Nat) (w : Word) : (k.setG r w).exited = k.exited := rfl
@[simp] theorem Pack.setG_splits (k : Pack) (r : Nat) (w : Word) : (k.setG r w).splits = k.splits := rfl
@[simp] theorem Pack.setG_order (k : Pack) (r : Nat) (w : Word) : (k.setG r w).order = k.order := rfl
@[simp] theorem Pack.setG_cur (k : Pack) (r : Nat) (w : Word) : (k.setG r w).cur = k.cur := rfl
@[simp] theorem Pack.setG_ops (k : Pack) (r : Nat) (w : Word) : (k.setG r w).ops = k.ops := rfl
@[simp] theorem Pack.setG_nextOp (k : Pack) (r : Nat) (w : Word) : (k.setG r w).nextOp = k.nextOp := rfl
@[simp] theorem Pack.setG_det (k : Pack) (r : Nat) (w : Word) : (k.setG r w).det = k.det := rfl
@[simp] theorem Pack.setG_detSeq (k : Pack) (r : Nat) (w : Word) : (k.setG r w).detSeq = k.detSeq := rfl
@[simp] theorem Pack.setG_fetch (k : Pack) (r : Nat) (w : Word) : (k.setG r w).fetch = k.fetch := rfl
@[simp] theorem Pack.setG_wid (k : Pack) (r : Nat) (w : Word) : (k.setG r w).wid = k.wid := rfl
@[simp] theorem Pack.setG_loop (k : Pack) (r : Nat) (w : Word) : (k.setG r w).loop = k.loop := rfl
@[simp] theorem Pack.setG_granted (k : Pack) (r : Nat) (w : Word) : (k.setG r w).granted = k.granted := rfl
@[simp] theorem Pack.setG_wantFlags (k : Pack) (r : Nat) (w : Word) : (k.setG r w).wantFlags = k.wantFlags := rfl
@[simp] theorem Pack.setG_stopping (k : Pack) (r : Nat) (w : Word) : (k.setG r w).stopping = k.stopping := rfl
@[simp] theorem Pack.setG_reaped (k : Pack) (r : Nat) (w : Word) : (k.setG r w).reaped = k.reaped := rfl

/-! ### `Pack.setG64` -/

@[simp] theorem Pack.setG64_ctx (k : Pack) (r : Nat) (w : DWord) : (k.setG64 r w).ctx = k.ctx := rfl
@[simp] theorem Pack.setG64_tag (k : Pack) (r : Nat) (w : DWord) : (k.setG64 r w).tag = k.tag := rfl
@[simp] theorem Pack.setG64_group (k : Pack) (r : Nat) (w : DWord) : (k.setG64 r w).group = k.group := rfl
@[simp] theorem Pack.setG64_lpack (k : Pack) (r : Nat) (w : DWord) : (k.setG64 r w).lpack = k.lpack := rfl
@[simp] theorem Pack.setG64_role (k : Pack) (r : Nat) (w : DWord) : (k.setG64 r w).role = k.role := rfl
@[simp] theorem Pack.setG64_slices (k : Pack) (r : Nat) (w : DWord) : (k.setG64 r w).slices = k.slices := rfl
@[simp] theorem Pack.setG64_nv (k : Pack) (r : Nat) (w : DWord) : (k.setG64 r w).nv = k.nv := rfl
@[simp] theorem Pack.setG64_ng (k : Pack) (r : Nat) (w : DWord) : (k.setG64 r w).ng = k.ng := rfl
@[simp] theorem Pack.setG64_na (k : Pack) (r : Nat) (w : DWord) : (k.setG64 r w).na = k.na := rfl
@[simp] theorem Pack.setG64_phase (k : Pack) (r : Nat) (w : DWord) : (k.setG64 r w).phase = k.phase := rfl
@[simp] theorem Pack.setG64_v (k : Pack) (r : Nat) (w : DWord) : (k.setG64 r w).v = k.v := rfl
@[simp] theorem Pack.setG64_p (k : Pack) (r : Nat) (w : DWord) : (k.setG64 r w).p = k.p := rfl
@[simp] theorem Pack.setG64_t (k : Pack) (r : Nat) (w : DWord) : (k.setG64 r w).t = k.t := rfl
@[simp] theorem Pack.setG64_acc (k : Pack) (r : Nat) (w : DWord) : (k.setG64 r w).acc = k.acc := rfl
@[simp] theorem Pack.setG64_queues (k : Pack) (r : Nat) (w : DWord) : (k.setG64 r w).queues = k.queues := rfl
@[simp] theorem Pack.setG64_mst (k : Pack) (r : Nat) (w : DWord) : (k.setG64 r w).mst = k.mst := rfl
@[simp] theorem Pack.setG64_fpctl (k : Pack) (r : Nat) (w : DWord) : (k.setG64 r w).fpctl = k.fpctl := rfl
@[simp] theorem Pack.setG64_fpstat (k : Pack) (r : Nat) (w : DWord) : (k.setG64 r w).fpstat = k.fpstat := rfl
@[simp] theorem Pack.setG64_wlhold (k : Pack) (r : Nat) (w : DWord) : (k.setG64 r w).wlhold = k.wlhold := rfl
@[simp] theorem Pack.setG64_spillAt (k : Pack) (r : Nat) (w : DWord) : (k.setG64 r w).spillAt = k.spillAt := rfl
@[simp] theorem Pack.setG64_exited (k : Pack) (r : Nat) (w : DWord) : (k.setG64 r w).exited = k.exited := rfl
@[simp] theorem Pack.setG64_splits (k : Pack) (r : Nat) (w : DWord) : (k.setG64 r w).splits = k.splits := rfl
@[simp] theorem Pack.setG64_order (k : Pack) (r : Nat) (w : DWord) : (k.setG64 r w).order = k.order := rfl
@[simp] theorem Pack.setG64_cur (k : Pack) (r : Nat) (w : DWord) : (k.setG64 r w).cur = k.cur := rfl
@[simp] theorem Pack.setG64_ops (k : Pack) (r : Nat) (w : DWord) : (k.setG64 r w).ops = k.ops := rfl
@[simp] theorem Pack.setG64_nextOp (k : Pack) (r : Nat) (w : DWord) : (k.setG64 r w).nextOp = k.nextOp := rfl
@[simp] theorem Pack.setG64_det (k : Pack) (r : Nat) (w : DWord) : (k.setG64 r w).det = k.det := rfl
@[simp] theorem Pack.setG64_detSeq (k : Pack) (r : Nat) (w : DWord) : (k.setG64 r w).detSeq = k.detSeq := rfl
@[simp] theorem Pack.setG64_fetch (k : Pack) (r : Nat) (w : DWord) : (k.setG64 r w).fetch = k.fetch := rfl
@[simp] theorem Pack.setG64_wid (k : Pack) (r : Nat) (w : DWord) : (k.setG64 r w).wid = k.wid := rfl
@[simp] theorem Pack.setG64_loop (k : Pack) (r : Nat) (w : DWord) : (k.setG64 r w).loop = k.loop := rfl
@[simp] theorem Pack.setG64_granted (k : Pack) (r : Nat) (w : DWord) : (k.setG64 r w).granted = k.granted := rfl
@[simp] theorem Pack.setG64_wantFlags (k : Pack) (r : Nat) (w : DWord) : (k.setG64 r w).wantFlags = k.wantFlags := rfl
@[simp] theorem Pack.setG64_stopping (k : Pack) (r : Nat) (w : DWord) : (k.setG64 r w).stopping = k.stopping := rfl
@[simp] theorem Pack.setG64_reaped (k : Pack) (r : Nat) (w : DWord) : (k.setG64 r w).reaped = k.reaped := rfl

/-! ### `Pack.setV` -/

@[simp] theorem Pack.setV_ctx (k : Pack) (r i : Nat) (w : Word) : (k.setV r i w).ctx = k.ctx := rfl
@[simp] theorem Pack.setV_tag (k : Pack) (r i : Nat) (w : Word) : (k.setV r i w).tag = k.tag := rfl
@[simp] theorem Pack.setV_group (k : Pack) (r i : Nat) (w : Word) : (k.setV r i w).group = k.group := rfl
@[simp] theorem Pack.setV_lpack (k : Pack) (r i : Nat) (w : Word) : (k.setV r i w).lpack = k.lpack := rfl
@[simp] theorem Pack.setV_role (k : Pack) (r i : Nat) (w : Word) : (k.setV r i w).role = k.role := rfl
@[simp] theorem Pack.setV_slices (k : Pack) (r i : Nat) (w : Word) : (k.setV r i w).slices = k.slices := rfl
@[simp] theorem Pack.setV_nv (k : Pack) (r i : Nat) (w : Word) : (k.setV r i w).nv = k.nv := rfl
@[simp] theorem Pack.setV_ng (k : Pack) (r i : Nat) (w : Word) : (k.setV r i w).ng = k.ng := rfl
@[simp] theorem Pack.setV_na (k : Pack) (r i : Nat) (w : Word) : (k.setV r i w).na = k.na := rfl
@[simp] theorem Pack.setV_phase (k : Pack) (r i : Nat) (w : Word) : (k.setV r i w).phase = k.phase := rfl
@[simp] theorem Pack.setV_g (k : Pack) (r i : Nat) (w : Word) : (k.setV r i w).g = k.g := rfl
@[simp] theorem Pack.setV_p (k : Pack) (r i : Nat) (w : Word) : (k.setV r i w).p = k.p := rfl
@[simp] theorem Pack.setV_t (k : Pack) (r i : Nat) (w : Word) : (k.setV r i w).t = k.t := rfl
@[simp] theorem Pack.setV_acc (k : Pack) (r i : Nat) (w : Word) : (k.setV r i w).acc = k.acc := rfl
@[simp] theorem Pack.setV_queues (k : Pack) (r i : Nat) (w : Word) : (k.setV r i w).queues = k.queues := rfl
@[simp] theorem Pack.setV_mst (k : Pack) (r i : Nat) (w : Word) : (k.setV r i w).mst = k.mst := rfl
@[simp] theorem Pack.setV_fpctl (k : Pack) (r i : Nat) (w : Word) : (k.setV r i w).fpctl = k.fpctl := rfl
@[simp] theorem Pack.setV_fpstat (k : Pack) (r i : Nat) (w : Word) : (k.setV r i w).fpstat = k.fpstat := rfl
@[simp] theorem Pack.setV_wlhold (k : Pack) (r i : Nat) (w : Word) : (k.setV r i w).wlhold = k.wlhold := rfl
@[simp] theorem Pack.setV_spillAt (k : Pack) (r i : Nat) (w : Word) : (k.setV r i w).spillAt = k.spillAt := rfl
@[simp] theorem Pack.setV_exited (k : Pack) (r i : Nat) (w : Word) : (k.setV r i w).exited = k.exited := rfl
@[simp] theorem Pack.setV_splits (k : Pack) (r i : Nat) (w : Word) : (k.setV r i w).splits = k.splits := rfl
@[simp] theorem Pack.setV_order (k : Pack) (r i : Nat) (w : Word) : (k.setV r i w).order = k.order := rfl
@[simp] theorem Pack.setV_cur (k : Pack) (r i : Nat) (w : Word) : (k.setV r i w).cur = k.cur := rfl
@[simp] theorem Pack.setV_ops (k : Pack) (r i : Nat) (w : Word) : (k.setV r i w).ops = k.ops := rfl
@[simp] theorem Pack.setV_nextOp (k : Pack) (r i : Nat) (w : Word) : (k.setV r i w).nextOp = k.nextOp := rfl
@[simp] theorem Pack.setV_det (k : Pack) (r i : Nat) (w : Word) : (k.setV r i w).det = k.det := rfl
@[simp] theorem Pack.setV_detSeq (k : Pack) (r i : Nat) (w : Word) : (k.setV r i w).detSeq = k.detSeq := rfl
@[simp] theorem Pack.setV_fetch (k : Pack) (r i : Nat) (w : Word) : (k.setV r i w).fetch = k.fetch := rfl
@[simp] theorem Pack.setV_wid (k : Pack) (r i : Nat) (w : Word) : (k.setV r i w).wid = k.wid := rfl
@[simp] theorem Pack.setV_loop (k : Pack) (r i : Nat) (w : Word) : (k.setV r i w).loop = k.loop := rfl
@[simp] theorem Pack.setV_granted (k : Pack) (r i : Nat) (w : Word) : (k.setV r i w).granted = k.granted := rfl
@[simp] theorem Pack.setV_wantFlags (k : Pack) (r i : Nat) (w : Word) : (k.setV r i w).wantFlags = k.wantFlags := rfl
@[simp] theorem Pack.setV_stopping (k : Pack) (r i : Nat) (w : Word) : (k.setV r i w).stopping = k.stopping := rfl
@[simp] theorem Pack.setV_reaped (k : Pack) (r i : Nat) (w : Word) : (k.setV r i w).reaped = k.reaped := rfl

/-! ### `Pack.setAcc` -/

@[simp] theorem Pack.setAcc_ctx (k : Pack) (a i j : Nat) (w : Word) : (k.setAcc a i j w).ctx = k.ctx := rfl
@[simp] theorem Pack.setAcc_tag (k : Pack) (a i j : Nat) (w : Word) : (k.setAcc a i j w).tag = k.tag := rfl
@[simp] theorem Pack.setAcc_group (k : Pack) (a i j : Nat) (w : Word) : (k.setAcc a i j w).group = k.group := rfl
@[simp] theorem Pack.setAcc_lpack (k : Pack) (a i j : Nat) (w : Word) : (k.setAcc a i j w).lpack = k.lpack := rfl
@[simp] theorem Pack.setAcc_role (k : Pack) (a i j : Nat) (w : Word) : (k.setAcc a i j w).role = k.role := rfl
@[simp] theorem Pack.setAcc_slices (k : Pack) (a i j : Nat) (w : Word) : (k.setAcc a i j w).slices = k.slices := rfl
@[simp] theorem Pack.setAcc_nv (k : Pack) (a i j : Nat) (w : Word) : (k.setAcc a i j w).nv = k.nv := rfl
@[simp] theorem Pack.setAcc_ng (k : Pack) (a i j : Nat) (w : Word) : (k.setAcc a i j w).ng = k.ng := rfl
@[simp] theorem Pack.setAcc_na (k : Pack) (a i j : Nat) (w : Word) : (k.setAcc a i j w).na = k.na := rfl
@[simp] theorem Pack.setAcc_phase (k : Pack) (a i j : Nat) (w : Word) : (k.setAcc a i j w).phase = k.phase := rfl
@[simp] theorem Pack.setAcc_v (k : Pack) (a i j : Nat) (w : Word) : (k.setAcc a i j w).v = k.v := rfl
@[simp] theorem Pack.setAcc_g (k : Pack) (a i j : Nat) (w : Word) : (k.setAcc a i j w).g = k.g := rfl
@[simp] theorem Pack.setAcc_p (k : Pack) (a i j : Nat) (w : Word) : (k.setAcc a i j w).p = k.p := rfl
@[simp] theorem Pack.setAcc_t (k : Pack) (a i j : Nat) (w : Word) : (k.setAcc a i j w).t = k.t := rfl
@[simp] theorem Pack.setAcc_queues (k : Pack) (a i j : Nat) (w : Word) : (k.setAcc a i j w).queues = k.queues := rfl
@[simp] theorem Pack.setAcc_mst (k : Pack) (a i j : Nat) (w : Word) : (k.setAcc a i j w).mst = k.mst := rfl
@[simp] theorem Pack.setAcc_fpctl (k : Pack) (a i j : Nat) (w : Word) : (k.setAcc a i j w).fpctl = k.fpctl := rfl
@[simp] theorem Pack.setAcc_fpstat (k : Pack) (a i j : Nat) (w : Word) : (k.setAcc a i j w).fpstat = k.fpstat := rfl
@[simp] theorem Pack.setAcc_wlhold (k : Pack) (a i j : Nat) (w : Word) : (k.setAcc a i j w).wlhold = k.wlhold := rfl
@[simp] theorem Pack.setAcc_spillAt (k : Pack) (a i j : Nat) (w : Word) : (k.setAcc a i j w).spillAt = k.spillAt := rfl
@[simp] theorem Pack.setAcc_exited (k : Pack) (a i j : Nat) (w : Word) : (k.setAcc a i j w).exited = k.exited := rfl
@[simp] theorem Pack.setAcc_splits (k : Pack) (a i j : Nat) (w : Word) : (k.setAcc a i j w).splits = k.splits := rfl
@[simp] theorem Pack.setAcc_order (k : Pack) (a i j : Nat) (w : Word) : (k.setAcc a i j w).order = k.order := rfl
@[simp] theorem Pack.setAcc_cur (k : Pack) (a i j : Nat) (w : Word) : (k.setAcc a i j w).cur = k.cur := rfl
@[simp] theorem Pack.setAcc_ops (k : Pack) (a i j : Nat) (w : Word) : (k.setAcc a i j w).ops = k.ops := rfl
@[simp] theorem Pack.setAcc_nextOp (k : Pack) (a i j : Nat) (w : Word) : (k.setAcc a i j w).nextOp = k.nextOp := rfl
@[simp] theorem Pack.setAcc_det (k : Pack) (a i j : Nat) (w : Word) : (k.setAcc a i j w).det = k.det := rfl
@[simp] theorem Pack.setAcc_detSeq (k : Pack) (a i j : Nat) (w : Word) : (k.setAcc a i j w).detSeq = k.detSeq := rfl
@[simp] theorem Pack.setAcc_fetch (k : Pack) (a i j : Nat) (w : Word) : (k.setAcc a i j w).fetch = k.fetch := rfl
@[simp] theorem Pack.setAcc_wid (k : Pack) (a i j : Nat) (w : Word) : (k.setAcc a i j w).wid = k.wid := rfl
@[simp] theorem Pack.setAcc_loop (k : Pack) (a i j : Nat) (w : Word) : (k.setAcc a i j w).loop = k.loop := rfl
@[simp] theorem Pack.setAcc_granted (k : Pack) (a i j : Nat) (w : Word) : (k.setAcc a i j w).granted = k.granted := rfl
@[simp] theorem Pack.setAcc_wantFlags (k : Pack) (a i j : Nat) (w : Word) : (k.setAcc a i j w).wantFlags = k.wantFlags := rfl
@[simp] theorem Pack.setAcc_stopping (k : Pack) (a i j : Nat) (w : Word) : (k.setAcc a i j w).stopping = k.stopping := rfl
@[simp] theorem Pack.setAcc_reaped (k : Pack) (a i j : Nat) (w : Word) : (k.setAcc a i j w).reaped = k.reaped := rfl

/-! ### `Pack.setQueue` -/

@[simp] theorem Pack.setQueue_ctx (k : Pack) (q : Nat) (x : Queue) : (k.setQueue q x).ctx = k.ctx := rfl
@[simp] theorem Pack.setQueue_tag (k : Pack) (q : Nat) (x : Queue) : (k.setQueue q x).tag = k.tag := rfl
@[simp] theorem Pack.setQueue_group (k : Pack) (q : Nat) (x : Queue) : (k.setQueue q x).group = k.group := rfl
@[simp] theorem Pack.setQueue_lpack (k : Pack) (q : Nat) (x : Queue) : (k.setQueue q x).lpack = k.lpack := rfl
@[simp] theorem Pack.setQueue_role (k : Pack) (q : Nat) (x : Queue) : (k.setQueue q x).role = k.role := rfl
@[simp] theorem Pack.setQueue_slices (k : Pack) (q : Nat) (x : Queue) : (k.setQueue q x).slices = k.slices := rfl
@[simp] theorem Pack.setQueue_nv (k : Pack) (q : Nat) (x : Queue) : (k.setQueue q x).nv = k.nv := rfl
@[simp] theorem Pack.setQueue_ng (k : Pack) (q : Nat) (x : Queue) : (k.setQueue q x).ng = k.ng := rfl
@[simp] theorem Pack.setQueue_na (k : Pack) (q : Nat) (x : Queue) : (k.setQueue q x).na = k.na := rfl
@[simp] theorem Pack.setQueue_phase (k : Pack) (q : Nat) (x : Queue) : (k.setQueue q x).phase = k.phase := rfl
@[simp] theorem Pack.setQueue_v (k : Pack) (q : Nat) (x : Queue) : (k.setQueue q x).v = k.v := rfl
@[simp] theorem Pack.setQueue_g (k : Pack) (q : Nat) (x : Queue) : (k.setQueue q x).g = k.g := rfl
@[simp] theorem Pack.setQueue_p (k : Pack) (q : Nat) (x : Queue) : (k.setQueue q x).p = k.p := rfl
@[simp] theorem Pack.setQueue_t (k : Pack) (q : Nat) (x : Queue) : (k.setQueue q x).t = k.t := rfl
@[simp] theorem Pack.setQueue_acc (k : Pack) (q : Nat) (x : Queue) : (k.setQueue q x).acc = k.acc := rfl
@[simp] theorem Pack.setQueue_mst (k : Pack) (q : Nat) (x : Queue) : (k.setQueue q x).mst = k.mst := rfl
@[simp] theorem Pack.setQueue_fpctl (k : Pack) (q : Nat) (x : Queue) : (k.setQueue q x).fpctl = k.fpctl := rfl
@[simp] theorem Pack.setQueue_fpstat (k : Pack) (q : Nat) (x : Queue) : (k.setQueue q x).fpstat = k.fpstat := rfl
@[simp] theorem Pack.setQueue_wlhold (k : Pack) (q : Nat) (x : Queue) : (k.setQueue q x).wlhold = k.wlhold := rfl
@[simp] theorem Pack.setQueue_spillAt (k : Pack) (q : Nat) (x : Queue) : (k.setQueue q x).spillAt = k.spillAt := rfl
@[simp] theorem Pack.setQueue_exited (k : Pack) (q : Nat) (x : Queue) : (k.setQueue q x).exited = k.exited := rfl
@[simp] theorem Pack.setQueue_splits (k : Pack) (q : Nat) (x : Queue) : (k.setQueue q x).splits = k.splits := rfl
@[simp] theorem Pack.setQueue_order (k : Pack) (q : Nat) (x : Queue) : (k.setQueue q x).order = k.order := rfl
@[simp] theorem Pack.setQueue_cur (k : Pack) (q : Nat) (x : Queue) : (k.setQueue q x).cur = k.cur := rfl
@[simp] theorem Pack.setQueue_ops (k : Pack) (q : Nat) (x : Queue) : (k.setQueue q x).ops = k.ops := rfl
@[simp] theorem Pack.setQueue_nextOp (k : Pack) (q : Nat) (x : Queue) : (k.setQueue q x).nextOp = k.nextOp := rfl
@[simp] theorem Pack.setQueue_det (k : Pack) (q : Nat) (x : Queue) : (k.setQueue q x).det = k.det := rfl
@[simp] theorem Pack.setQueue_detSeq (k : Pack) (q : Nat) (x : Queue) : (k.setQueue q x).detSeq = k.detSeq := rfl
@[simp] theorem Pack.setQueue_fetch (k : Pack) (q : Nat) (x : Queue) : (k.setQueue q x).fetch = k.fetch := rfl
@[simp] theorem Pack.setQueue_wid (k : Pack) (q : Nat) (x : Queue) : (k.setQueue q x).wid = k.wid := rfl
@[simp] theorem Pack.setQueue_loop (k : Pack) (q : Nat) (x : Queue) : (k.setQueue q x).loop = k.loop := rfl
@[simp] theorem Pack.setQueue_granted (k : Pack) (q : Nat) (x : Queue) : (k.setQueue q x).granted = k.granted := rfl
@[simp] theorem Pack.setQueue_wantFlags (k : Pack) (q : Nat) (x : Queue) : (k.setQueue q x).wantFlags = k.wantFlags := rfl
@[simp] theorem Pack.setQueue_stopping (k : Pack) (q : Nat) (x : Queue) : (k.setQueue q x).stopping = k.stopping := rfl
@[simp] theorem Pack.setQueue_reaped (k : Pack) (q : Nat) (x : Queue) : (k.setQueue q x).reaped = k.reaped := rfl

/-! ### `Pack.orFlags` -/

@[simp] theorem Pack.orFlags_ctx (k : Pack) (f : Word) : (k.orFlags f).ctx = k.ctx := rfl
@[simp] theorem Pack.orFlags_tag (k : Pack) (f : Word) : (k.orFlags f).tag = k.tag := rfl
@[simp] theorem Pack.orFlags_group (k : Pack) (f : Word) : (k.orFlags f).group = k.group := rfl
@[simp] theorem Pack.orFlags_lpack (k : Pack) (f : Word) : (k.orFlags f).lpack = k.lpack := rfl
@[simp] theorem Pack.orFlags_role (k : Pack) (f : Word) : (k.orFlags f).role = k.role := rfl
@[simp] theorem Pack.orFlags_slices (k : Pack) (f : Word) : (k.orFlags f).slices = k.slices := rfl
@[simp] theorem Pack.orFlags_nv (k : Pack) (f : Word) : (k.orFlags f).nv = k.nv := rfl
@[simp] theorem Pack.orFlags_ng (k : Pack) (f : Word) : (k.orFlags f).ng = k.ng := rfl
@[simp] theorem Pack.orFlags_na (k : Pack) (f : Word) : (k.orFlags f).na = k.na := rfl
@[simp] theorem Pack.orFlags_phase (k : Pack) (f : Word) : (k.orFlags f).phase = k.phase := rfl
@[simp] theorem Pack.orFlags_v (k : Pack) (f : Word) : (k.orFlags f).v = k.v := rfl
@[simp] theorem Pack.orFlags_g (k : Pack) (f : Word) : (k.orFlags f).g = k.g := rfl
@[simp] theorem Pack.orFlags_p (k : Pack) (f : Word) : (k.orFlags f).p = k.p := rfl
@[simp] theorem Pack.orFlags_t (k : Pack) (f : Word) : (k.orFlags f).t = k.t := rfl
@[simp] theorem Pack.orFlags_acc (k : Pack) (f : Word) : (k.orFlags f).acc = k.acc := rfl
@[simp] theorem Pack.orFlags_queues (k : Pack) (f : Word) : (k.orFlags f).queues = k.queues := rfl
@[simp] theorem Pack.orFlags_mst (k : Pack) (f : Word) : (k.orFlags f).mst = k.mst := rfl
@[simp] theorem Pack.orFlags_fpctl (k : Pack) (f : Word) : (k.orFlags f).fpctl = k.fpctl := rfl
@[simp] theorem Pack.orFlags_wlhold (k : Pack) (f : Word) : (k.orFlags f).wlhold = k.wlhold := rfl
@[simp] theorem Pack.orFlags_spillAt (k : Pack) (f : Word) : (k.orFlags f).spillAt = k.spillAt := rfl
@[simp] theorem Pack.orFlags_exited (k : Pack) (f : Word) : (k.orFlags f).exited = k.exited := rfl
@[simp] theorem Pack.orFlags_splits (k : Pack) (f : Word) : (k.orFlags f).splits = k.splits := rfl
@[simp] theorem Pack.orFlags_order (k : Pack) (f : Word) : (k.orFlags f).order = k.order := rfl
@[simp] theorem Pack.orFlags_cur (k : Pack) (f : Word) : (k.orFlags f).cur = k.cur := rfl
@[simp] theorem Pack.orFlags_ops (k : Pack) (f : Word) : (k.orFlags f).ops = k.ops := rfl
@[simp] theorem Pack.orFlags_nextOp (k : Pack) (f : Word) : (k.orFlags f).nextOp = k.nextOp := rfl
@[simp] theorem Pack.orFlags_det (k : Pack) (f : Word) : (k.orFlags f).det = k.det := rfl
@[simp] theorem Pack.orFlags_detSeq (k : Pack) (f : Word) : (k.orFlags f).detSeq = k.detSeq := rfl
@[simp] theorem Pack.orFlags_fetch (k : Pack) (f : Word) : (k.orFlags f).fetch = k.fetch := rfl
@[simp] theorem Pack.orFlags_wid (k : Pack) (f : Word) : (k.orFlags f).wid = k.wid := rfl
@[simp] theorem Pack.orFlags_loop (k : Pack) (f : Word) : (k.orFlags f).loop = k.loop := rfl
@[simp] theorem Pack.orFlags_granted (k : Pack) (f : Word) : (k.orFlags f).granted = k.granted := rfl
@[simp] theorem Pack.orFlags_wantFlags (k : Pack) (f : Word) : (k.orFlags f).wantFlags = k.wantFlags := rfl
@[simp] theorem Pack.orFlags_stopping (k : Pack) (f : Word) : (k.orFlags f).stopping = k.stopping := rfl
@[simp] theorem Pack.orFlags_reaped (k : Pack) (f : Word) : (k.orFlags f).reaped = k.reaped := rfl

/-! ### `Pack.addOp` -/

@[simp] theorem Pack.addOp_ctx (k : Pack) (o : PendOp) : (k.addOp o).ctx = k.ctx := rfl
@[simp] theorem Pack.addOp_tag (k : Pack) (o : PendOp) : (k.addOp o).tag = k.tag := rfl
@[simp] theorem Pack.addOp_group (k : Pack) (o : PendOp) : (k.addOp o).group = k.group := rfl
@[simp] theorem Pack.addOp_lpack (k : Pack) (o : PendOp) : (k.addOp o).lpack = k.lpack := rfl
@[simp] theorem Pack.addOp_role (k : Pack) (o : PendOp) : (k.addOp o).role = k.role := rfl
@[simp] theorem Pack.addOp_slices (k : Pack) (o : PendOp) : (k.addOp o).slices = k.slices := rfl
@[simp] theorem Pack.addOp_nv (k : Pack) (o : PendOp) : (k.addOp o).nv = k.nv := rfl
@[simp] theorem Pack.addOp_ng (k : Pack) (o : PendOp) : (k.addOp o).ng = k.ng := rfl
@[simp] theorem Pack.addOp_na (k : Pack) (o : PendOp) : (k.addOp o).na = k.na := rfl
@[simp] theorem Pack.addOp_phase (k : Pack) (o : PendOp) : (k.addOp o).phase = k.phase := rfl
@[simp] theorem Pack.addOp_v (k : Pack) (o : PendOp) : (k.addOp o).v = k.v := rfl
@[simp] theorem Pack.addOp_g (k : Pack) (o : PendOp) : (k.addOp o).g = k.g := rfl
@[simp] theorem Pack.addOp_p (k : Pack) (o : PendOp) : (k.addOp o).p = k.p := rfl
@[simp] theorem Pack.addOp_t (k : Pack) (o : PendOp) : (k.addOp o).t = k.t := rfl
@[simp] theorem Pack.addOp_acc (k : Pack) (o : PendOp) : (k.addOp o).acc = k.acc := rfl
@[simp] theorem Pack.addOp_queues (k : Pack) (o : PendOp) : (k.addOp o).queues = k.queues := rfl
@[simp] theorem Pack.addOp_mst (k : Pack) (o : PendOp) : (k.addOp o).mst = k.mst := rfl
@[simp] theorem Pack.addOp_fpctl (k : Pack) (o : PendOp) : (k.addOp o).fpctl = k.fpctl := rfl
@[simp] theorem Pack.addOp_fpstat (k : Pack) (o : PendOp) : (k.addOp o).fpstat = k.fpstat := rfl
@[simp] theorem Pack.addOp_wlhold (k : Pack) (o : PendOp) : (k.addOp o).wlhold = k.wlhold := rfl
@[simp] theorem Pack.addOp_spillAt (k : Pack) (o : PendOp) : (k.addOp o).spillAt = k.spillAt := rfl
@[simp] theorem Pack.addOp_exited (k : Pack) (o : PendOp) : (k.addOp o).exited = k.exited := rfl
@[simp] theorem Pack.addOp_splits (k : Pack) (o : PendOp) : (k.addOp o).splits = k.splits := rfl
@[simp] theorem Pack.addOp_order (k : Pack) (o : PendOp) : (k.addOp o).order = k.order := rfl
@[simp] theorem Pack.addOp_cur (k : Pack) (o : PendOp) : (k.addOp o).cur = k.cur := rfl
@[simp] theorem Pack.addOp_det (k : Pack) (o : PendOp) : (k.addOp o).det = k.det := rfl
@[simp] theorem Pack.addOp_detSeq (k : Pack) (o : PendOp) : (k.addOp o).detSeq = k.detSeq := rfl
@[simp] theorem Pack.addOp_fetch (k : Pack) (o : PendOp) : (k.addOp o).fetch = k.fetch := rfl
@[simp] theorem Pack.addOp_wid (k : Pack) (o : PendOp) : (k.addOp o).wid = k.wid := rfl
@[simp] theorem Pack.addOp_loop (k : Pack) (o : PendOp) : (k.addOp o).loop = k.loop := rfl
@[simp] theorem Pack.addOp_granted (k : Pack) (o : PendOp) : (k.addOp o).granted = k.granted := rfl
@[simp] theorem Pack.addOp_wantFlags (k : Pack) (o : PendOp) : (k.addOp o).wantFlags = k.wantFlags := rfl
@[simp] theorem Pack.addOp_stopping (k : Pack) (o : PendOp) : (k.addOp o).stopping = k.stopping := rfl
@[simp] theorem Pack.addOp_reaped (k : Pack) (o : PendOp) : (k.addOp o).reaped = k.reaped := rfl

/-! ### `Pack.started` -/

@[simp] theorem Pack.started_ctx (k : Pack) : k.started.ctx = k.ctx := rfl
@[simp] theorem Pack.started_tag (k : Pack) : k.started.tag = k.tag := rfl
@[simp] theorem Pack.started_group (k : Pack) : k.started.group = k.group := rfl
@[simp] theorem Pack.started_lpack (k : Pack) : k.started.lpack = k.lpack := rfl
@[simp] theorem Pack.started_role (k : Pack) : k.started.role = k.role := rfl
@[simp] theorem Pack.started_slices (k : Pack) : k.started.slices = k.slices := rfl
@[simp] theorem Pack.started_nv (k : Pack) : k.started.nv = k.nv := rfl
@[simp] theorem Pack.started_ng (k : Pack) : k.started.ng = k.ng := rfl
@[simp] theorem Pack.started_na (k : Pack) : k.started.na = k.na := rfl
@[simp] theorem Pack.started_v (k : Pack) : k.started.v = k.v := rfl
@[simp] theorem Pack.started_g (k : Pack) : k.started.g = k.g := rfl
@[simp] theorem Pack.started_p (k : Pack) : k.started.p = k.p := rfl
@[simp] theorem Pack.started_t (k : Pack) : k.started.t = k.t := rfl
@[simp] theorem Pack.started_acc (k : Pack) : k.started.acc = k.acc := rfl
@[simp] theorem Pack.started_queues (k : Pack) : k.started.queues = k.queues := rfl
@[simp] theorem Pack.started_mst (k : Pack) : k.started.mst = k.mst := rfl
@[simp] theorem Pack.started_fpctl (k : Pack) : k.started.fpctl = k.fpctl := rfl
@[simp] theorem Pack.started_fpstat (k : Pack) : k.started.fpstat = k.fpstat := rfl
@[simp] theorem Pack.started_wlhold (k : Pack) : k.started.wlhold = k.wlhold := rfl
@[simp] theorem Pack.started_spillAt (k : Pack) : k.started.spillAt = k.spillAt := rfl
@[simp] theorem Pack.started_exited (k : Pack) : k.started.exited = k.exited := rfl
@[simp] theorem Pack.started_splits (k : Pack) : k.started.splits = k.splits := rfl
@[simp] theorem Pack.started_order (k : Pack) : k.started.order = k.order := rfl
@[simp] theorem Pack.started_cur (k : Pack) : k.started.cur = k.cur := rfl
@[simp] theorem Pack.started_ops (k : Pack) : k.started.ops = k.ops := rfl
@[simp] theorem Pack.started_nextOp (k : Pack) : k.started.nextOp = k.nextOp := rfl
@[simp] theorem Pack.started_det (k : Pack) : k.started.det = k.det := rfl
@[simp] theorem Pack.started_detSeq (k : Pack) : k.started.detSeq = k.detSeq := rfl
@[simp] theorem Pack.started_fetch (k : Pack) : k.started.fetch = k.fetch := rfl
@[simp] theorem Pack.started_wid (k : Pack) : k.started.wid = k.wid := rfl
@[simp] theorem Pack.started_loop (k : Pack) : k.started.loop = k.loop := rfl
@[simp] theorem Pack.started_granted (k : Pack) : k.started.granted = k.granted := rfl
@[simp] theorem Pack.started_wantFlags (k : Pack) : k.started.wantFlags = k.wantFlags := rfl
@[simp] theorem Pack.started_stopping (k : Pack) : k.started.stopping = k.stopping := rfl
@[simp] theorem Pack.started_reaped (k : Pack) : k.started.reaped = k.reaped := rfl

/-! ### Cores, packs and splits after their updates -/

@[simp] theorem State.core_setCore_self (s : State) (c : Nat) (k : Core) : (s.setCore c k).core c = k := by
  simp [State.core, State.setCore]

theorem State.core_setCore_of_ne (s : State) {c c' : Nat} (k : Core) (h : c' ≠ c) : (s.setCore c k).core c' = s.core c' := by
  simp [State.core, State.setCore, Table.getD_put_of_ne _ _ _ h]

@[simp] theorem State.pack_setPack_self (s : State) (c n : Nat) (k : Pack) : (s.setPack c n k).pack c n = some k := by
  simp [State.pack, State.setPack]

theorem State.pack_setPack_of_slot_ne (s : State) (c : Nat) {n n' : Nat} (k : Pack) (h : n' ≠ n) :
    (s.setPack c n k).pack c n' = s.pack c n' := by
  simp [State.pack, State.setPack, Table.get_put_of_ne _ _ h]

theorem State.core_setPack_of_ne (s : State) {c c' : Nat} (n : Nat) (k : Pack) (h : c' ≠ c) :
    (s.setPack c n k).core c' = s.core c' := State.core_setCore_of_ne s _ h

@[simp] theorem State.core_setPack_self (s : State) (c n : Nat) (k : Pack) :
    (s.setPack c n k).core c = { s.core c with packs := (s.core c).packs.put n k } := by
  simp [State.setPack]

theorem State.pack_setCore_of_ne (s : State) {c c' : Nat} (k : Core) (n : Nat) (h : c' ≠ c) :
    (s.setCore c k).pack c' n = s.pack c' n := by
  simp [State.pack, State.core_setCore_of_ne s k h]

theorem State.core_congr {s t : State} (h : s.cores = t.cores) (c : Nat) : s.core c = t.core c := by
  simp [State.core, h]

theorem State.pack_congr {s t : State} (h : s.cores = t.cores) (c n : Nat) : s.pack c n = t.pack c n := by
  simp [State.pack, State.core_congr h]

@[simp] theorem Pack.split_setSplit_self (k : Pack) (sp : Split) : (k.setSplit sp).split sp.id = some sp := by
  simp [Pack.split, Pack.setSplit]

theorem Pack.split_setSplit_of_ne (k : Pack) (sp : Split) {i : Nat} (h : i ≠ sp.id) : (k.setSplit sp).split i = k.split i := by
  simp [Pack.split, Pack.setSplit, Table.get_put_of_ne _ _ h]

theorem Pack.split_congr {k k' : Pack} (h : k.splits = k'.splits) (i : Nat) : k.split i = k'.split i := by
  simp [Pack.split, h]

@[simp] theorem Pack.split_started (k : Pack) (i : Nat) : k.started.split i = k.split i := rfl

/-! ### Registers after their writes -/

@[simp] theorem Pack.readG_setG_self (k : Pack) (r : Nat) (w : Word) : (k.setG r w).readG r = w := by
  simp [Pack.readG, Pack.setG]

theorem Pack.readG_setG_of_ne (k : Pack) {r q : Nat} (w : Word) (h : q ≠ r) : (k.setG r w).readG q = k.readG q := by
  simp [Pack.readG, Pack.setG, Words.get_set, h]

theorem Pack.v_setLanes (k : Pack) (r : Nat) (m : Mask) (f : Nat → Word) :
    (k.setLanes r m f) = { k with v := (lanesOf m).foldl (fun v i => v.set (32 * r + i) (f i)) k.v } := by
  unfold Pack.setLanes
  induction lanesOf m generalizing k with
  | nil => rfl
  | cons i l ih => rw [List.foldl_cons, ih]; rfl

theorem mem_lanesOf {m : Mask} {i : Nat} : i ∈ lanesOf m ↔ i < 32 ∧ m.getLsbD i = true := by
  simp [lanesOf, allLanes]

theorem lanesOf_nodup (m : Mask) : (lanesOf m).Nodup := (List.nodup_range).filter _

theorem get_foldl_set (l : List Nat) (v : Words) (g : Nat → Nat) (f : Nat → Word) (j : Nat)
    (hg : ∀ a b, g a = g b → a = b) :
    Words.get (l.foldl (fun v i => v.set (g i) (f i)) v) j =
      match l.find? (fun i => g i == j) with
      | some i => f i
      | none => Words.get v j := by
  induction l generalizing v with
  | nil => rfl
  | cons i l ih =>
    rw [List.foldl_cons, ih, List.find?_cons]
    by_cases h : g i = j
    · subst h
      simp only [beq_self_eq_true]
      cases hf : l.find? (fun a => g a == g i) with
      | none => simp
      | some a =>
        have : g a = g i := by simpa using List.find?_some hf
        rw [hg a i this]
    · have : ¬j = g i := fun h' => h h'.symm
      have hb : (g i == j) = false := by simpa using h
      simp [hb, Words.get_set, this]

/-- Reading lane `n` of a `v` register after its write under a mask (01 R12). -/
theorem Pack.get_setLanes (k : Pack) {r q n : Nat} (m : Mask) (f : Nat → Word) (hn : n < 32) :
    (k.setLanes r m f).v.get (32 * q + n) =
      if q = r ∧ m.getLsbD n = true then f n else k.v.get (32 * q + n) := by
  rw [Pack.v_setLanes]
  show Words.get ((lanesOf m).foldl (fun v i => v.set (32 * r + i) (f i)) k.v) (32 * q + n) = _
  rw [get_foldl_set (lanesOf m) k.v (fun i => 32 * r + i) f _ fun a b h => by omega]
  cases hf : (lanesOf m).find? (fun i => 32 * r + i == 32 * q + n) with
  | none =>
    have hc : ¬(q = r ∧ m.getLsbD n = true) := by
      rintro ⟨rfl, hm⟩
      have := List.find?_eq_none.1 hf n (mem_lanesOf.2 ⟨hn, hm⟩)
      simp at this
    rw [if_neg hc]
  | some i =>
    have hi := mem_lanesOf.1 (List.mem_of_find?_eq_some hf)
    have he : 32 * r + i = 32 * q + n := by simpa using List.find?_some hf
    have hq : q = r := by omega
    have hin : i = n := by omega
    subst hq hin
    rw [if_pos ⟨rfl, hi.2⟩]

end Sys2Proof.Machine
end

