-- ==== Sys2Proof/Laws/Issue.lean ====
section
/-!
SUPPORT. What issuing, retiring, raising and taking an exception can do: one lemma for each shared operation, which later proofs
cite instead of unfolding it.
-/

namespace Sys2Proof.Machine

/-! ### The instruction in progress -/

/-- The instruction in progress is the focus's, of a resident pack and a split of it. -/
theorem State.issuer_spec {s : State} {x : Iss} (h : s.issuer = some x) :
    s.focus = some x.f ∧ x.s = { s with focus := none } ∧ s.pack x.f.core x.f.slot = some x.k ∧
      x.k.split x.f.split = some x.sp ∧ x.live = x.k.live x.sp := by
  simp only [State.issuer, Option.bind_eq_some_iff, Option.map_eq_some_iff] at h
  obtain ⟨f, hf, k, hk, sp, hsp, rfl⟩ := h
  exact ⟨hf, rfl, hk, hsp, rfl⟩

theorem State.issuer_pack {s : State} {x : Iss} (h : s.issuer = some x) (c n : Nat) : x.s.pack c n = s.pack c n := by
  rw [(State.issuer_spec h).2.1]; rfl

theorem State.Ready.issuer {s : State} {os : List Operand} {x : Iss} (h : s.Ready os x) : s.issuer = some x := h.1

/-- Where every check passes, an instruction word is its own effect on the active lanes of its guard. -/
theorem issue_of_ready {s : State} {os : List Operand} {x : Iss} (h : s.Ready os x) (mn : String) (g : PReg)
    (run : Iss → Mask → Out) : issue s mn g os run = run x (x.k.active x.sp g) := by
  obtain ⟨h1, h2, h3, h4⟩ := h
  simp [issue, h1, h2, h3, h4]

theorem issueU_of_ready {s : State} {os : List Operand} {x : Iss} (h : s.Ready os x) (mn : String) (run : Iss → Out) :
    issueU s mn os run = run x := issue_of_ready h mn 7 fun x _ => run x

/-- Everything that issuing an instruction word can do. -/
theorem issue_cases (s : State) (mn : String) (g : PReg) (os : List Operand) (run : Iss → Mask → Out) :
    (s.issuer = none ∧ issue s mn g os run = .refused (.noIssuer mn)) ∨
    ∃ x, s.issuer = some x ∧
      ((∃ r, x.groupTrap = some r ∧ issue s mn g os run = x.illop r) ∨
       (∃ code field, decodeCheck x.k x.sp os = some (code, field) ∧
          issue s mn g os run = x.raise (x.k.active x.sp g) code (x.f.word.toNat + field * 2 ^ 32)) ∨
       (x.k.hazard x.live os = true ∧ issue s mn g os run = .next x.s) ∨
       (s.Ready os x ∧ issue s mn g os run = run x (x.k.active x.sp g))) := by
  cases h : s.issuer with
  | none => exact .inl ⟨rfl, by simp [issue, h]⟩
  | some x =>
    refine .inr ⟨x, rfl, ?_⟩
    cases hg : x.groupTrap with
    | some r => exact .inl ⟨r, rfl, by simp [issue, h, hg]⟩
    | none =>
      cases hd : decodeCheck x.k x.sp os with
      | some p => exact .inr (.inl ⟨p.1, p.2, rfl, by simp [issue, h, hg, hd]⟩)
      | none =>
        cases hz : x.k.hazard x.live os with
        | true => exact .inr (.inr (.inl ⟨rfl, by simp [issue, h, hg, hd, hz]⟩))
        | false => exact .inr (.inr (.inr ⟨⟨h, hg, hd, hz⟩, by simp [issue, h, hg, hd, hz]⟩))

/-! ### Results -/

theorem Iss.doneV_eq (x : Iss) (d : VReg) (act : Mask) (f : Nat → Word) : x.doneV d act f = .next (x.vecNext d act f) := rfl
theorem Iss.doneV64_eq (x : Iss) (d : VReg) (act : Mask) (f : Nat → DWord) : x.doneV64 d act f = .next (x.pairNext d act f) := rfl
theorem Iss.doneG_eq (x : Iss) (d : GReg) (v : Word) : x.doneG d v = .next (x.uniNext d v) := rfl
theorem Iss.doneP_eq (x : Iss) (d : PReg) (m f : Mask) : x.doneP d m f = .next (x.predNext d m f) := rfl
theorem Iss.done_eq (x : Iss) (k : Pack) (sp : Split) : x.done k sp = .next (x.retire k sp) := rfl

/-- A vector result is one write of the pack or of the window, never both. -/
theorem writeV_of_v (k : Pack) (sp : Split) {d : VReg} (act : Mask) (f : Nat → Word) (h : d.toNat < 120) :
    writeV k sp d act f = (k.setLanes d.toNat act f, sp) := by simp [writeV, h]

theorem writeV_of_e (k : Pack) (sp : Split) {d : VReg} (act : Mask) (f : Nat → Word) (h : ¬d.toNat < 120) :
    writeV k sp d act f = (k, sp.setWin (d.toNat - 120) act f) := by simp [writeV, h]

@[simp] theorem writeV_id (k : Pack) (sp : Split) (d : VReg) (act : Mask) (f : Nat → Word) :
    (writeV k sp d act f).2.id = sp.id := by
  unfold writeV; split <;> rfl

/-! ### Retiring -/

@[simp] theorem Split.goto_id (sp : Split) (pc : Word) (c : Nat) : (sp.goto pc c).id = sp.id := by
  unfold Split.goto; split <;> rfl

@[simp] theorem Split.goto_pc (sp : Split) (pc : Word) (c : Nat) : (sp.goto pc c).pc = pc := by
  unfold Split.goto; split <;> rfl

@[simp] theorem Split.goto_win (sp : Split) (pc : Word) (c : Nat) : (sp.goto pc c).win = sp.win := by
  unfold Split.goto; split <;> rfl

@[simp] theorem Split.goto_mask (sp : Split) (pc : Word) (c : Nat) : (sp.goto pc c).mask = sp.mask := by
  unfold Split.goto; split <;> rfl

@[simp] theorem Split.goto_trap (sp : Split) (pc : Word) (c : Nat) : (sp.goto pc c).trap = sp.trap := by
  unfold Split.goto; split <;> rfl

@[simp] theorem Split.goto_reconv (sp : Split) (pc : Word) (c : Nat) : (sp.goto pc c).reconv = sp.reconv := by
  unfold Split.goto; split <;> rfl

@[simp] theorem Split.goto_parent (sp : Split) (pc : Word) (c : Nat) : (sp.goto pc c).parent = sp.parent := by
  unfold Split.goto; split <;> rfl

@[simp] theorem Split.goto_hints (sp : Split) (pc : Word) (c : Nat) : (sp.goto pc c).hints = sp.hints := by
  unfold Split.goto; split <;> rfl

@[simp] theorem Split.retire_id (sp : Split) (pc : Word) (c : Nat) : (sp.retire pc c).id = sp.id := by simp [Split.retire, Split.clean]
@[simp] theorem Split.retire_pc (sp : Split) (pc : Word) (c : Nat) : (sp.retire pc c).pc = pc := by simp [Split.retire]
@[simp] theorem Split.retire_win (sp : Split) (pc : Word) (c : Nat) : (sp.retire pc c).win = ageWindow sp.win := by simp [Split.retire]
@[simp] theorem Split.retire_mask (sp : Split) (pc : Word) (c : Nat) : (sp.retire pc c).mask = sp.mask := by
  simp [Split.retire, Split.clean]
@[simp] theorem Split.retire_trap (sp : Split) (pc : Word) (c : Nat) : (sp.retire pc c).trap = sp.trap := by
  simp [Split.retire, Split.clean]

/-- The pack and split that a retired instruction leaves. -/
theorem Iss.now_retireTo (x : Iss) (k : Pack) (sp : Split) (pc : Word) (h : sp.id = x.f.split) :
    x.now (x.retireTo k sp pc) = some (k.started.setSplit (sp.retire pc x.s.clock), sp.retire pc x.s.clock) := by
  have hp : (x.retireTo k sp pc).pack x.f.core x.f.slot = some (k.started.setSplit (sp.retire pc x.s.clock)) := by
    simp [Iss.retireTo, State.pack, State.core, State.setCore, Iss.put, State.setPack]
  have hs : (k.started.setSplit (sp.retire pc x.s.clock)).split x.f.split = some (sp.retire pc x.s.clock) := by
    rw [← h, ← Split.retire_id sp pc x.s.clock]; exact Pack.split_setSplit_self _ _
  simp [Iss.now, hp, hs]

/-- Retiring changes the issuing core and the order counter only. -/
theorem Iss.retireTo_rest (x : Iss) (k : Pack) (sp : Split) (pc : Word) :
    ({ x.retireTo k sp pc with cores := x.s.cores, clock := x.s.clock } : State) = x.s := rfl

@[simp] theorem Iss.retireTo_mem (x : Iss) (k : Pack) (sp : Split) (pc : Word) : (x.retireTo k sp pc).mem = x.s.mem := rfl

/-- On the issuing core, retiring changes the issuing pack and the note of the pack last served. -/
theorem Iss.retireTo_onlyPack (x : Iss) (k : Pack) (sp : Split) (pc : Word) : x.onlyPack (x.retireTo k sp pc) := by
  refine ⟨⟨rfl, fun c hc => ?_⟩, ?_, fun n hn => ?_⟩
  · simp [Iss.retireTo, State.core, State.setCore, Iss.put, State.setPack, Table.getD_put_of_ne _ _ _ hc]
  · simp [Iss.retireTo, State.core, State.setCore, Iss.put, State.setPack]
  · simp [Iss.retireTo, State.pack, State.core, State.setCore, Iss.put, State.setPack, Table.get_put_of_ne _ _ hn]

/-! ### Exceptions -/

/-- Raising an exception: it is taken at once, or left pending at the instruction until the split's earlier operations are
complete. -/
theorem Iss.raiseRec_cases (x : Iss) (r : TrapRec) :
    (x.k.busyFor x.live = false ∧ x.raiseRec r = .next (x.s.takeTrap x.f.core x.f.slot x.k x.sp r)) ∨
    (x.k.busyFor x.live = true ∧
      x.raiseRec r = .next (x.put x.k.started { x.sp.clean with pending := some r, pc := r.epc })) := by
  unfold Iss.raiseRec
  cases x.k.busyFor x.live <;> simp

/-- Taking an exception: the task ends, the split is suspended, or its handler starts. -/
theorem State.takeTrap_cases (s : State) (core slot : Nat) (k : Pack) (sp : Split) (r : TrapRec) :
    s.takeTrap core slot k sp r = (s.trapEvent 1 core k sp.id r true sp.inh).endTask k.tag 2 k.group ∨
    s.takeTrap core slot k sp r =
      (s.setPack core slot (k.started.setSplit (sp.suspend (s.header k) r))).trapEvent 2 core k sp.id r false false ∨
    s.takeTrap core slot k sp r = s.setPack core slot (k.started.setSplit (sp.enter (s.header k) r)) := by
  simp only [State.takeTrap]
  split_ifs
  · exact .inl rfl
  · exact .inr (.inl rfl)
  · exact .inr (.inr rfl)

end Sys2Proof.Machine
end

