-- ==== Sys2Proof/Tests/Slice0.lean ====
section
/-!
SUPPORT. Tests of this model: decoding against the words the spec writes out, the terms WellFormed refuses, single steps against the spec's own
worked examples, and for each statement a concrete state that meets its hypotheses.
-/

namespace Sys2Proof.Tests
open Sys2Proof Sys2Proof.Machine

set_option Elab.async false

/-! ### Decoding: the words that the spec itself writes out, chapter by chapter, beside those of `SampleWordsDecode` -/

theorem test_decode_integer : decodeWord 0x1BE40E17 = .ok (.cmpa 7 4 8 14 11) ∧ decodeWord 0x4DD60C4E = .ok (.lea 7 44 12 39) ∧
    decodeWord 0x1FCA1417 = .ok (.zext16I32U 20 20) ∧ decodeWord 0x23D40027 = .ok (.movi 7 40 0x27) ∧
    decodeWord 0x0DC3050E = .ok (.maxI32 7 6 5 7) := ⟨rfl, rfl, rfl, rfl, rfl⟩

theorem test_decode_float : decodeWord 0x67C40984 = .ok (.fsqrt 7 8 9 2) ∧ decodeWord 0x77C10367 = .ok (.upk8E5m2 7 2 3 7) ∧
    decodeWord 0x79C5040B = .ok (.dot4s 7 10 4 5) ∧ decodeWord 0x75C60008 = .ok (.prng 7 12 0 8) := ⟨rfl, rfl, rfl, rfl⟩

theorem test_decode_memory : decodeWord 0x99C1810A = .ok (.cpyIn 3 1 5) ∧ decodeWord 0x94472210 = .ok (.adetMaxuB64 1 14 34) ∧
    decodeWord 0x97C00000 = .ok (.aflush 0) ∧ decodeWord 0x97D40404 = .ok (.xfence 5 0 4) ∧ decodeWord 0x9BC60400 = .ok (.bst 7 12 4 0) ∧
    decodeWord 0xA1C60F02 = .ok (.fpop 7 12 15) ∧ decodeWord 0xA546031B = .ok (.stsB32 5 12 3 13) := ⟨rfl, rfl, rfl, rfl, rfl, rfl, rfl⟩

theorem test_decode_matrix : decodeWord 0xB5C3010A = .ok (.tloadP 6 1 5) ∧ decodeWord 0xB5C3810D = .ok (.tloadR 7 1 6) ∧
    decodeWord 0xB9C00200 = .ok (.muster 2) ∧ decodeWord 0xBDC4280C = .ok (.mmc 8 40 6) ∧ decodeWord 0xC3C48220 = .ok (.aepi 9 2 16) ∧
    decodeWord 0xC1C50036 = .ok (.aget 7 10 0 27) := ⟨rfl, rfl, rfl, rfl, rfl, rfl⟩

theorem test_decode_gang : decodeWord 0xD1C20000 = .ok (.gwidth 4) ∧ decodeWord 0xD5C40888 = .ok (.shflDowni 7 8 8 4) ∧
    decodeWord 0xD3CA0AF8 = .ok (.shflXor 7 20 10 7 ) ∧ decodeWord 0xDDCA8602 = .ok (.qtokAcq 21 6) ∧
    decodeWord 0xD7C09204 = .ok (.pbinit 1 18) ∧ decodeWord 0xD7C09A08 = .ok (.pbwait 1 26) ∧ decodeWord 0xD7C09D06 = .ok (.pbarrive 1 29) ∧
    decodeWord 0xE1CA0804 = .ok (.jrecRoute 20 8) ∧ decodeWord 0xE1C00808 = .ok (.jmark 8) := ⟨rfl, rfl, rfl, rfl, rfl, rfl, rfl, rfl, rfl⟩

/-- Hint words and the dictionary word, from their layouts (03 R73, R77): KIND 0 with payload 5; two slots, indexes 1 and 2. -/
theorem test_decode_hint : decodeWord 0b11111001110000000000000000000101 = .ok (.hintImm 5) ∧
    decodeWord 0b11111100000000011111110000000010 = .ok (.dictionarySlot 1 0xFC02) := ⟨rfl, rfl⟩

/-- The words of 03 R82 that are refused as they stand, and by 03 R67–R81: M that names nothing, a byte selector of 5, a uniform word with guard 3,
a uniform register of 64, an ephemeral destination of a load. -/
theorem test_decode_illegal : decodeWord 0 = .error 0 ∧ decodeWord 0xFA000000 = .error 0 ∧ decodeWord 0xF8102585 = .error 1 ∧
    decodeWord 0xF9F00000 = .error 4 ∧ decodeWord 0xF9D00006 = .error 4 ∧ decodeWord 0x09C2860F = .error 0 ∧ decodeWord 0x6DC304A6 = .error 3 ∧
    decodeWord 0xD0C20000 = .error 1 ∧ decodeWord 0x27E20500 = .error 2 ∧ decodeWord 0x81FC0640 = .error 2 :=
  ⟨rfl, rfl, rfl, rfl, rfl, rfl, rfl, rfl, rfl, rfl⟩

/-- Bytes stand lowest first (00 R5), and what follows the word is left. -/
theorem test_decode_bytes : decodeBytes [0x0E, 0x86, 0xC2, 0x03, 0x11] = .ok (.addI32 7 5 6 7, [0x11]) ∧ decodeBytes [0, 0] = .error .tooShort :=
  ⟨rfl, rfl⟩

/-! ### WellFormed: an ill-formed term for each of its checks, refused -/

theorem test_wf_conditions : (Instr.cmp 7 1 11 2 3).wf = false ∧ (Instr.cmpa 7 1 11 2 3).wf = false ∧ (Instr.cmpU 1 11 2 3).wf = false ∧
    (Instr.cmpaU 1 15 2 3).wf = false ∧ (Instr.cmpi 7 1 12 2 3).wf = false ∧ (Instr.fcmp 7 1 11 2 3).wf = false ∧
    (Instr.fcmpa 7 1 11 2 3).wf = false ∧ (Instr.br 7 0).wf = false := ⟨rfl, rfl, rfl, rfl, rfl, rfl, rfl, rfl⟩

theorem test_wf_types : (Instr.fneg 7 1 2 3).wf = false ∧ (Instr.fabs 7 1 2 3).wf = false ∧ (Instr.fsqrt 7 1 2 3).wf = false ∧
    (Instr.frsq 7 1 2 3).wf = false ∧ (Instr.frcp 7 1 2 3).wf = false ∧ (Instr.fexp2 7 1 2 3).wf = false ∧ (Instr.flog2 7 1 2 3).wf = false ∧
    (Instr.fsinpi 7 1 2 3).wf = false ∧ (Instr.fcospi 7 1 2 3).wf = false ∧ (Instr.frint 7 1 2 3).wf = false ∧
    (Instr.fclass 7 1 2 3).wf = false := ⟨rfl, rfl, rfl, rfl, rfl, rfl, rfl, rfl, rfl, rfl, rfl⟩

theorem test_wf_selectors : (Instr.pk8E4m3 7 1 2 4 3).wf = false ∧ (Instr.pk8E5m2 7 1 2 4 3).wf = false ∧ (Instr.srnd 7 1 2 5 3).wf = false ∧
    (Instr.upk16F16 7 1 2 3).wf = false ∧ (Instr.upk16Bf16 7 1 2 3).wf = false ∧ (Instr.upk8E4m3 7 1 4 3).wf = false ∧
    (Instr.upk8E5m2 7 1 4 3).wf = false ∧ (Instr.upk8I8 7 1 4 3).wf = false ∧ (Instr.fscaleE3m5 7 1 2 4 3).wf = false ∧
    (Instr.widf 7 2 6).wf = false := ⟨rfl, rfl, rfl, rfl, rfl, rfl, rfl, rfl, rfl, rfl⟩

theorem test_wf_destinations : (Instr.ldB32 7 120 2 0).wf = false ∧ (Instr.ldB8 7 120 2).wf = false ∧ (Instr.ldS8 7 120 2).wf = false ∧
    (Instr.ldB16 7 120 2).wf = false ∧ (Instr.ldS16 7 120 2).wf = false ∧ (Instr.ldB64 7 120 2).wf = false ∧ (Instr.ldB128 7 120 2).wf = false ∧
    (Instr.ldpB32 7 120 2).wf = false ∧ (Instr.ldpB64 7 120 2).wf = false ∧ (Instr.gatherB32 7 120 2 4).wf = false ∧
    (Instr.fpop 7 120 0).wf = false ∧ (Instr.qpop 7 120 0).wf = false ∧ (Instr.ldsB32 7 120 1 2).wf = false ∧
    (Instr.wlpop 7 120 2 1).wf = false := ⟨rfl, rfl, rfl, rfl, rfl, rfl, rfl, rfl, rfl, rfl, rfl, rfl, rfl, rfl⟩

/-- An atomic that returns the old value needs `v0`–`v119`; with `nr` it writes no register. -/
theorem test_wf_atomics : (Instr.atomAddI32 7 120 2 0).wf = false ∧ (Instr.atomAddI32 7 120 2 1).wf = true ∧
    (Instr.atomAndB32 7 120 2 0).wf = false ∧ (Instr.atomOrB32 7 120 2 0).wf = false ∧ (Instr.atomXorB32 7 120 2 0).wf = false ∧
    (Instr.atomMinI32 7 120 2 0).wf = false ∧ (Instr.atomMaxI32 7 120 2 0).wf = false ∧ (Instr.atomMinuI32 7 120 2 0).wf = false ∧
    (Instr.atomMaxuI32 7 120 2 0).wf = false ∧ (Instr.atomXchgB32 7 120 2 0).wf = false ∧ (Instr.atomCasB32 7 120 2 0).wf = false ∧
    (Instr.atomAddF32 7 120 2 0).wf = false ∧ (Instr.atomAddI64 7 120 2 0).wf = false ∧ (Instr.atomCasB64 7 120 2 0).wf = false :=
  ⟨rfl, rfl, rfl, rfl, rfl, rfl, rfl, rfl, rfl, rfl, rfl, rfl, rfl, rfl⟩

theorem test_wf_fences_and_registers : (Instr.fence 3 0).wf = false ∧ (Instr.fence 0 5).wf = false ∧ (Instr.xfence 6 0 0).wf = false ∧
    (Instr.xfence 0 6 0).wf = false ∧ (Instr.xfence 0 1 5).wf = false ∧ (Instr.rdsr 1 0x002).wf = false ∧ (Instr.wrsr 1 0x04C).wf = false ∧
    (Instr.hintRnd 1 0).wf = false ∧ (Instr.hintRnd 0 6).wf = false ∧ (Instr.hintCache 0 0 3).wf = false ∧ (Instr.hintCache 0 3 0).wf = false :=
  ⟨rfl, rfl, rfl, rfl, rfl, rfl, rfl, rfl, rfl, rfl, rfl⟩

/-! ### States for the witnesses: one pack of 32 lanes with 120, 64 and 16 registers on core 0, the whole of its context's memory one page
of read and write permission at VA 0, PA 0x6000 -/

def sp0 : Split := { id := 0, pc := 0, mask := BitVec.allOnes 32, reconv := 0xFFFFFFFF, parent := none }

/-- The registers that the witnesses read: v2, v4 even lanes of small numbers, g2 = 3, g4 = 64, g10 = 0x1000, p1 true in the low 16 lanes. -/
def pk : Pack :=
  { fetchPack with v := [(64, 5), (65, 0xFFFFFFFF), (96, 7)], g := [(2, 3), (4, 64), (10, 0x1000)], p := [(1, 0x0000FFFF)], splits := [(0, sp0)], order := [0] }

/-- A launch whose one lease is that page and the next, which is the broadcast aperture. -/
def l0 : Launch := { fetchLaunch with leased := true, leases := [{ base := 0, len := 8192, perms := 7 }] }

def withPack (k : Pack) (c : Core) : State :=
  { State.reset with cores := [(0, { c with packs := [(0, k)] })], launches := [l0], contexts := [(1, fetchContext)], phase := 5
                     mem := Bytes.writeLE (fetchTables []) (5 * 4096 + 8) 8 (0xF0000000000 * 1024 + 0xD7) }

def fo (w : Word) : Focus := { core := 0, slot := 0, split := 0, addr := 0, word := w, next := 2 }

/-- The pack `k`, on a core that otherwise holds `c`, about to carry out the word `w`. -/
def issuing (k : Pack) (c : Core) (w : Word) : State := { withPack k c with focus := some (fo w) }

/-- The same as the issuer of split 0. -/
def issuerOf (k : Pack) (c : Core) (w : Word) (sp : Split) : Iss :=
  { s := withPack k c, f := fo w, k := k, sp := sp, live := k.live sp }

/-- An instruction word that takes no hint and rounds nothing. -/
def plain : Word := 0x03C2860E

def s0 : State := issuing pk {} plain
def x0 : Iss := issuerOf pk {} plain sp0

theorem ready0 (os : List Operand) (h : decodeCheck pk sp0 os = none) : s0.Ready os x0 :=
  ⟨rfl, rfl, h, by simp [Pack.hazard, x0, issuerOf, pk, fetchPack]⟩

theorem issuer0 : s0.issuer = some x0 := (ready0 [] rfl).1

/-! ### Witnesses: integer instructions, moves and control -/

theorem witness_VectorTwoSourceResults : VecTwo (.addI32 7 1 2 3) 7 1 2 3 (fun x y => x + y) ∧ s0.Ready [wrV 0 1, rdV 1 2, rdV 2 3] x0 :=
  ⟨.add 7 1 2 3, ready0 _ rfl⟩

theorem witness_VectorOneSourceResults : VecOne (.movI32 7 1 2) 7 1 2 (fun x => x) ∧ s0.Ready [wrV 0 1, rdV 1 2] x0 ∧ s0.Ready [wrV 0 119] x0 ∧
    s0.Ready [rdV 0 1, rdV 1 2, rdV 2 3] x0 := ⟨.mov 7 1 2, ready0 _ rfl, ready0 _ rfl, ready0 _ rfl⟩

theorem witness_UniformResults : UniTwo (.addI32U 1 2 4) 1 2 4 (fun x y => x + y) ∧ UniOne (.movI32U 1 2) 1 2 (fun x => x) ∧
    s0.Ready [wrG 0 1, rdG 1 2, rdG 2 4] x0 ∧ s0.Ready [wrG 0 63, rdG 1 2] x0 ∧ s0.Ready [wrG 0 62 2, rdG 1 2 2] x0 :=
  ⟨.add 1 2 4, .mov 1 2, ready0 _ rfl, ready0 _ rfl, ready0 _ rfl⟩

theorem witness_ComparisonAndPredicateResults : (10#4).toNat < 11 ∧ s0.Ready [rdV 1 2, rdV 2 3] x0 ∧ s0.Ready [rdG 1 2, rdG 2 4] x0 ∧
    s0.Ready [] x0 ∧ s0.Ready [wrV 0 1, rdG 1 2] x0 ∧ s0.Ready [wrG 0 1, rdV 1 2] x0 ∧ s0.Ready [wrV 0 126 2, rdG 1 2 2, rdV 2 2] x0 :=
  ⟨by decide, ready0 _ rfl, ready0 _ rfl, ready0 _ rfl, ready0 _ rfl, ready0 _ rfl, ready0 _ rfl⟩

theorem witness_BranchResults : s0.Ready [] x0 ∧ s0.Ready [wrV 0 1] x0 ∧ s0.Ready [rdV 1 5] x0 ∧ x0.live ≠ 0 ∧
    ∀ n, n < 32 → x0.v 5 n = 0 := ⟨ready0 _ rfl, ready0 _ rfl, ready0 _ rfl, by decide +kernel⟩

/-- A kernel with a call table of one entry that fits, and a handler at 0x40. -/
def l1 : Launch := { l0 with hdr := { l0.hdr with callOff := 0x200, callCount := 1, handler := 0x40 } }

def withLaunch (l : Launch) (s : State) : State := { s with launches := [l] }

theorem witness_calli : let x : Iss := { x0 with s := withLaunch l1 x0.s }
    (withLaunch l1 s0).Ready [wrV 0 1, rdV 1 5] x ∧ x.live ≠ 0 ∧ (∀ n, n < 32 → (x.v 5 n).toNat = 0) ∧ 0 < ((withLaunch l1 s0).header x.k).callCount ∧
    ∃ t e, x.s.callEntries x.f.core x.k [0] = (t, .ok [e]) ∧ e.fits x.k = true :=
  ⟨⟨rfl, rfl, rfl, rfl⟩, by decide +kernel, by decide +kernel, by decide +kernel, _, _, rfl, by decide +kernel⟩

/-- The same call table, whose entry 0 takes more registers than the pack has; and on a kernel without entries every index is beyond the table. -/
theorem witness_calliRefused : (let s := { withLaunch l1 s0 with mem := s0.mem.writeLE 0x6204 1 255 }
      let x : Iss := { x0 with s := { s with focus := none } }
      s.Ready [wrV 0 1, rdV 1 5] x ∧ ∃ t e, x.s.callEntries x.f.core x.k [0] = (t, .ok [e]) ∧ e.fits x.k = false) ∧
    s0.Ready [wrV 0 1, rdV 1 5] x0 ∧ (s0.header x0.k).callCount ≤ 0 :=
  ⟨⟨⟨rfl, rfl, rfl, rfl⟩, _, _, rfl, by decide +kernel⟩, ready0 _ rfl, by decide +kernel⟩

/-- `brd` on p1 with a join inside the code section: the live lanes disagree, and two identifiers and entries are free. On p7 all are taken, and on p0
none. -/
theorem witness_DivergentBranchDivides : s0.Ready [] x0 ∧ brdJoin x0.sp.hints 4 ≠ 0 ∧ x0.noUnit (x0.f.addr + BitVec.ofNat 32 (brdJoin x0.sp.hints 4)) = false ∧
    x0.live &&& x0.k.pred 1 ≠ 0 ∧ x0.live &&& ~~~(x0.k.pred 1) ≠ 0 ∧ x0.live &&& ~~~(x0.k.pred 7) = 0 ∧ x0.live &&& x0.k.pred 0 = 0 ∧
    2 ≤ (s0.core x0.f.core).reachable x0.f.slot x0.k.entries ∧ x0.sp.id = x0.f.split ∧ x0.k.splits.length ≤ 62 :=
  ⟨ready0 _ rfl, by decide +kernel⟩

/-- A pack with a waiting split to spill, on a core where one entry is free, in a kernel with room for `n` spill records. -/
def pkFull : Pack :=
  { pk with splits := [(0, sp0), (1, { sp0 with id := 1, status := .waiting }), (2, { sp0 with id := 2, status := .waiting })] }
def sFull (n : Nat) : State :=
  { withLaunch { l1 with hdr := { l1.hdr with spill := 1152 * n } } (issuing pkFull {} plain) with
    cores := [(0, { packs := (0, pkFull) :: (List.range 31).map fun n => (n + 1, pk) })] }

theorem witness_brdSpills : ∀ n ∈ [0, 1], ∃ x, (sFull n).Ready [] x ∧ x.sp.id = x.f.split ∧ brdJoin x.sp.hints 4 ≠ 0 ∧
    x.noUnit (x.f.addr + BitVec.ofNat 32 (brdJoin x.sp.hints 4)) = false ∧ x.live &&& x.k.pred 1 ≠ 0 ∧ x.live &&& ~~~(x.k.pred 1) ≠ 0 ∧
    ((sFull n).core x.f.core).reachable x.f.slot x.k.entries = 1 ∧ ((sFull n).freeRecords x.k).length = n ∧ x.k.splits.length ≤ 62 := by
  intro n h
  fin_cases h <;> exact ⟨_, ⟨rfl, rfl, rfl, rfl⟩, by decide +kernel⟩

/-- Lane 0 calls entry 1 of a table of two, and the others entry 0. -/
def pkC : Pack := { pk with v := [(64, 5), (65, 0xFFFFFFFF), (96, 7), (160, 1)] }
def sC2 : State := withLaunch { l1 with hdr := { l1.hdr with callCount := 2 } } (issuing pkC {} plain)
def xC2 : Iss := { issuerOf pkC {} plain sp0 with s := { sC2 with focus := none } }

theorem witness_calliDivides : sC2.Ready [wrV 0 1, rdV 1 5] xC2 ∧ sortNats ((lanesOf xC2.live).map fun i => (xC2.v 5 i).toNat) = [0, 1] ∧
    (∀ n ∈ [0, 1], n < (sC2.header xC2.k).callCount) ∧ (∃ t es, xC2.s.callEntries xC2.f.core xC2.k [0, 1] = (t, .ok es) ∧
      2 ≤ (t.core xC2.f.core).reachable xC2.f.slot xC2.k.entries) ∧ xC2.sp.id = xC2.f.split ∧ xC2.k.splits.length + 2 ≤ 64 :=
  ⟨⟨rfl, rfl, rfl, rfl⟩, by decide +kernel, by decide +kernel, ⟨_, _, rfl, by decide +kernel⟩, rfl, by decide⟩

/-- The pack with its one split stalled at an instruction. -/
def stalledAt (st : Stall) (c : Core) (k : Pack) : State := withPack { k with splits := [(0, { sp0 with stall := some st })] } c

theorem witness_RegangAndWaitResults : s0.Ready [] x0 ∧ x0.sp.parent = none ∧ x0.k.splits.length = 1 ∧
    (∃ x, (stalledAt (.wait 0 0 0 0) {} pk).stalled 0 0 0 = some x ∧ x.sp.stall = some (.wait 0 0 0 0) ∧ x.k.counter .ld ≤ 0 ∧ x.k.counter .st ≤ 0 ∧
      x.k.counter .cp ≤ 0 ∧ x.k.counter .tl ≤ 0) ∧
    ∃ k sp x, (issuing k {} plain).Ready [] x ∧ k.split 0 = some sp ∧ x.sp.parent.isSome ∧ x.sp.id = x.f.split :=
  ⟨ready0 _ rfl, rfl, rfl, ⟨_, rfl, rfl, by decide +kernel⟩,
    { pk with splits := [(0, { sp0 with parent := some 1 })] }, _, _, ⟨rfl, rfl, rfl, rfl⟩, rfl, rfl, rfl⟩

theorem witness_RetiringAdvancesTheSplit : s0.issuer = some x0 ∧ x0.sp.id = x0.f.split := ⟨rfl, rfl⟩

theorem witness_RegisterResultFrame : s0.issuer = some x0 := issuer0

theorem witness_RegisterResultsAreRead : s0.issuer = some x0 ∧ x0.sp.id = x0.f.split := ⟨rfl, rfl⟩

theorem witness_GangResults : s0.Ready [wrG 0 63] x0 ∧ s0.Ready [] x0 ∧ s0.Ready [wrV 0 118 2] x0 ∧ Shuffles (.shflDown 7 1 2 3) .down 7 1 2 3 ∧
    s0.Ready [rdV 0 1, rdV 1 2] x0 ∧ ShufflesBy (.shflXori 7 1 2 31) .xor 7 1 2 31 ∧ s0.Ready [wrV 0 1, rdV 1 2] x0 :=
  ⟨ready0 _ rfl, ready0 _ rfl, ready0 _ rfl, .down 7 1 2 3, ready0 _ rfl, .xor 7 1 2 31, ready0 _ rfl⟩

theorem witness_SystemRegisterResults : s0.Ready [wrG 0 1] x0 ∧ s0.Ready [rdG 0 1] x0 ∧ (x0.readSr 0x000).isSome ∧ (x0.readSr 0x001).isSome ∧
    x0.flagsOpen = false := ⟨ready0 _ rfl, ready0 _ rfl, rfl, rfl, by decide +kernel⟩

/-- A pair that begins at an odd register fails ALIGN, and a register beyond the allocation REGRANGE. -/
theorem witness_DecodeChecksTrap : s0.issuer = some x0 ∧ x0.groupTrap = none ∧ VecTwo (.addI32 7 1 2 120) 7 1 2 120 (fun x y => x + y) ∧
    decodeCheck x0.k x0.sp [wrV 0 1, rdV 1 2, rdV 2 120] = some (0x05, 2) ∧
    UniTwo (.addI32U 1 2 4) 1 2 4 (fun x y => x + y) ∧
    (let k := { pk with ng := 8 }
     decodeCheck k sp0 [wrG 0 1, rdG 1 8, rdG 2 7] = some (0x03, 1)) ∧
    decodeCheck x0.k x0.sp [wrV 0 1 2] = some (0x02, 0) ∧ ∀ o ∈ [wrV 0 1 2, rdG 1 63 1, rdV 2 120 8], o.cnt ∈ [1, 2, 4, 8] ∧ o.idx < 128 :=
  ⟨rfl, rfl, .add 7 1 2 120, rfl, .add 1 2 4, rfl, rfl, by decide⟩

/-- A SYSCALL of a pack whose kernel has a handler at 0x40. -/
theorem witness_TrapEntersHandler : ((withLaunch l1 s0).header pk).noHandler = false ∧ sp0.inh = false ∧ (x0.trap x0.live 0x0F 7).code ≠ 0x0B ∧
    (x0.trap x0.live 0x0F 7).code ≠ 0x0D ∧ (x0.trap x0.live 0x0F 7).code ≠ 0x08 := by decide +kernel

/-- A kernel whose header names no handler. -/
def l2 : Launch := { l0 with hdr := { l0.hdr with handler := 0xFFFFFFFF } }

theorem witness_TrapInstructionsTrap : s0.Ready [] x0 ∧ x0.k.busyFor x0.live = false ∧ ((withLaunch l2 s0).header pk).noHandler = true ∧
    sp0.inh = false ∧ (x0.trap x0.live 0x0F 7).code = 0x0F := ⟨ready0 _ rfl, by decide +kernel, by decide +kernel, by decide +kernel, rfl⟩

/-- A split in its handler. -/
def spH : Split := { sp0 with trap := { cause := 0x2000, epc := 0x10 } }

theorem witness_HandlerReturns : ∃ x, (issuing { pk with splits := [(0, spH)] } {} plain).Ready [] x ∧ x.sp.inh = true ∧ x.sp.id = x.f.split ∧
    s0.Ready [] x0 ∧ x0.sp.inh = false :=
  ⟨issuerOf { pk with splits := [(0, spH)] } {} plain spH, ⟨rfl, rfl, rfl, rfl⟩, by decide +kernel, rfl, ready0 _ rfl, by decide +kernel⟩

theorem witness_UndecodableWordTraps : ∃ x, (issuing pk {} 0).issuer = some x ∧ primary 0 ≠ 0x7C ∧ x.sp.hints = [] ∧ x.f.word = 0 ∧
    x.k.busyFor x.live = false := ⟨issuerOf pk {} 0 sp0, rfl, by decide, rfl, rfl, by decide +kernel⟩

/-- A dictionary of two entries for the kernel of the pack: `add.i32 v5, v6, v7` twice. -/
def dict2 : Dict := { ctx := 1, image := 0, words := [(0, 0x03C2860E), (1, 0x03C2860E)], count := 2 }

theorem witness_HintAndDictionarySlotResults : Hints (.hintImm 5) 0xF9C00005 ∧
    (∃ k sp x, (issuing k {} 0xF9C00005).issuer = some x ∧ k.split 0 = some sp ∧ x.sp.id = x.f.split ∧ x.sp.hints ≠ []) ∧
    ∃ x, (issuing pk { dicts := [dict2] } 0xFC000000).issuer = some x ∧ x.sp.id = x.f.split ∧ x.sp.hints = [] ∧ x.s.dict x.f.core x.k = some dict2 ∧
      x.f.addr.getLsbD 0 = false ∧ (1#10).toNat < dict2.count ∧ entryIllegal (Words.get dict2.words 1) = false ∧
      (0xFC01#16).toNat / 1024 = 0x3F ∧ (0xFC01#16).toNat % 1024 < dict2.count :=
  ⟨.imm 5, ⟨{ pk with splits := [(0, { sp0 with hints := [0xF9E00000] })] }, _, _, rfl, rfl, rfl, by simp⟩,
    issuerOf pk { dicts := [dict2] } 0xFC000000 sp0, rfl, rfl, rfl, rfl, rfl, by decide, by decide +kernel, by decide, by decide⟩

/-- The first hint of a group that stands, `hint.rnd` before `fadd.f32`; and the second half of a dictionary word. -/
def sGroup : State := { issuing pk {} 0xF9D00001 with mem := (s0.mem.writeLE 0x6100 4 0xF9D00001).writeLE 0x6104 4 0x51C2860E }

theorem witness_hintFirstAndOddSlot :
    (∃ x, sGroup.issuer = some x ∧ x.sp.hints = [] ∧
      groupReason (0xF9D00001 :: (x.s.hintRun x.f.core x.k ((x.s.header x.k).codeSize / 4 + 1) x.f.addr).1.tail)
        (x.s.hintRun x.f.core x.k ((x.s.header x.k).codeSize / 4 + 1) x.f.addr).2 = none) ∧
    ∃ x, ({ withPack pk { dicts := [dict2] } with focus := some { fo 0xFC00FC01 with addr := 0x41 } } : State).issuer = some x ∧ x.sp.hints = [] ∧
      x.s.dict x.f.core x.k = some dict2 ∧ x.f.addr.getLsbD 0 = true ∧ entryIllegal (Words.get dict2.words 1) = false :=
  ⟨⟨_, rfl, rfl, by decide +kernel⟩, _, rfl, rfl, rfl, by decide, by decide +kernel⟩

/-- Two children stopped at the join of their parent, and a root split stopped at a `regang`. -/
def family : Pack :=
  { pk with splits := [(0, { sp0 with status := .waiting, pc := 8 }),
      (1, { sp0 with id := 1, pc := 8, reconv := 8, parent := some 0, mask := 0x0000FFFF, status := .stoppedReconv }),
      (2, { sp0 with id := 2, pc := 8, reconv := 8, parent := some 0, mask := 0xFFFF0000, status := .stoppedReconv })], order := [1, 2, 0] }

theorem witness_SplitEventResults :
    (∃ k sp, k = { pk with splits := [(0, sp)] } ∧ (withPack k {}).pack 0 0 = some k ∧ k.split 0 = some sp ∧ k.familyStopped sp = true) ∧
    (∃ sp, family.split 0 = some sp ∧ family.resumable 0 = true ∧ sp.spill = none ∧ sp.id = 0) ∧
    (∃ k sp r, (withPack k {}).pack 0 0 = some k ∧ k.split 0 = some sp ∧ sp.pending = some r ∧ k.busyFor (k.live sp) = false) ∧
    ∃ k sp, (withPack k {}).pack 0 0 = some k ∧ k.split 0 = some sp ∧ sp.spill = some 0 ∧ k.refillTurn sp = true ∧
      (withPack k {}).mem.readList (k.spillAt + 1152 * 0) 1152 = sp.spillImage ∧ 0 < ((withPack k {}).core 0).reachable 0 k.entries :=
  ⟨⟨_, { sp0 with status := .stoppedRegang }, rfl, rfl, rfl, by decide +kernel⟩,
    ⟨_, rfl, by decide +kernel, rfl, rfl⟩,
    ⟨{ pk with splits := [(0, { sp0 with pending := some (x0.trap x0.live 0x0F 7) })] }, _, _, rfl, rfl, rfl, by decide +kernel⟩,
    { pk with spillAt := 0x10000, splits := [(0, { sp0 with spill := some 0, spillImage := List.replicate 1152 0 })] }, _, rfl, rfl, rfl, by decide +kernel⟩

/-- A deterministic core whose current pack is over and whose other pack has its turn. -/
def lDet : Launch := { l0 with hdr := { l0.hdr with flags := 1 } }
def sDet : State :=
  { withLaunch lDet (withPack pk {}) with cores := [(0, { packs := [(0, pk), (1, { pk with lpack := 1 })], detCur := some 0, detKey := some 0, detPass := true })] }

theorem witness_detPackSwitch : sDet.detCore 0 = true ∧ sDet.mustPass 0 = true ∧ sDet.nextPack 0 = some 1 := by decide +kernel

/-! ### Witnesses: floating point -/

theorem witness_FloatResults : ∃ (s : State) (x : Iss), s.Ready [wrV 0 1, rdV 1 2, rdV 2 3] x ∧ FloatOp (.faddF32 7 1 2 3) 7 1 [wrV 0 1, rdV 1 2, rdV 2 3] (lanes32 Fmt.f32.add 2 3) ∧
    raisedFlags (elements (resultsOf x 7 (lanes32 Fmt.f32.add 10 11))) &&& x.k.te = 0 ∧
    raisedFlags (elements (resultsOf x 7 (lanes32 Fmt.f32.add 12 11))) &&& x.k.te ≠ 0 ∧
    DotOp (.dot4 7 1 2 3) 7 1 [rdV 0 1, rdV 1 2, rdV 2 3] (fun x n =>
      res32 (dotValue (x.k.rm x.sp.hints) (.fin false 1 0) (.fin false 1 0) (elementsOf (fp8Of 0 x) 4 8 (x.v 2 n)) (elementsOf (fp8Of 1 x) 4 8 (x.v 3 n))
        (f32Of (x.v 1 n)))) :=
  ⟨issuing { pk with fpctl := 0x100, v := [(384, 0x7F800001)] } {} 0x51C2860E, issuerOf { pk with fpctl := 0x100, v := [(384, 0x7F800001)] } {} 0x51C2860E sp0,
    ⟨rfl, rfl, rfl, rfl⟩, .add 7 1 2 3, by decide +kernel, by decide +kernel, .dot4 7 1 2 3⟩

theorem witness_FloatComparisonAndGeneratorResults : (10#4).toNat < 11 ∧ s0.Ready [rdV 1 2, rdV 2 3] x0 ∧ x0.k.te &&& fNV = 0 ∧
    s0.Ready [wrV 0 1, rdV 2 (baseReg 31)] x0 := ⟨by decide, ready0 _ rfl, by decide +kernel, ready0 _ rfl⟩

/-! ### Witnesses: memory -/

/-- Sixteen lanes load from VA 0, or none under p0. -/
theorem witness_MemoryAccessesIssue : ∃ a reqs hold, MemoryOp (.ldB32 1 20 10 0) 1 [wrV 0 20, rdV 1 10 2] a reqs hold ∧
    s0.Ready [wrV 0 20, rdV 1 10 2] x0 ∧ accessReady x0 a (reqs x0 (x0.k.active x0.sp 1)) ∧ reqs x0 (x0.k.active x0.sp 0) = [] :=
  ⟨_, _, _, .ldB32 1 20 10 0, ready0 _ rfl, by simp only [accessReady]; decide +kernel, by decide +kernel⟩

theorem witness_atomics : AtomicOp (.atomCasB32 1 20 10 0) 9 1 20 10 0 ∧ s0.Ready [rdV 0 20 (atomicRegs 9), rdV 1 10 2] x0 ∧
    accessReady x0 (atomicAcc 9 20 0) (atomicReqs 9 20 10 x0 (x0.k.active x0.sp 1)) ∧ atomicReqs 9 20 10 x0 (x0.k.active x0.sp 0) = [] :=
  ⟨.cas 1 20 10 0, ready0 _ rfl, by simp only [accessReady]; decide +kernel, by decide +kernel⟩

/-- Lanes whose address is 5 fail the alignment of a word. -/
theorem witness_FailingAccessTraps : ∃ a reqs hold, MemoryOp (.ldB32 7 20 2 0) 7 [wrV 0 20, rdV 1 2 2] a reqs hold ∧
    s0.Ready [wrV 0 20, rdV 1 2 2] x0 ∧ reqs x0 (x0.k.active x0.sp 7) ≠ [] ∧ x0.mustWait a = false ∧
    ∃ r e rest, failures (x0.s.checkAll x0.f.core x0.k.ctx a.path a.size a.align a.use (reqs x0 (x0.k.active x0.sp 7))).2 = (r, e) :: rest :=
  ⟨_, _, _, .ldB32 7 20 2 0, ready0 _ rfl, by decide +kernel, by decide +kernel, List.exists_cons_of_ne_nil (by decide +kernel) |>.elim fun p h =>
    ⟨p.1, p.2, h.choose, h.choose_spec⟩⟩

theorem witness_IssuedAccessLeavesOneOperation : ∃ a reqs hold, MemoryOp (.ldB32 1 20 10 0) 1 [wrV 0 20, rdV 1 10 2] a reqs hold ∧
    s0.issuer = some x0 ∧ x0.sp.id = x0.f.split ∧ accessReady x0 a (reqs x0 (x0.k.active x0.sp 1)) :=
  ⟨_, _, _, .ldB32 1 20 10 0, rfl, rfl, by simp only [accessReady]; decide +kernel⟩

theorem witness_DeterministicAtomicsIssue : DetAtomicOp (.adetFaddF32 1 20 10) 0 1 20 10 ∧ s0.Ready [rdV 0 20 (adetRegs 0), rdV 1 10 2] x0 ∧
    accessReady x0 (detAcc 0) (detReqs 0 20 10 x0 (x0.k.active x0.sp 1)) ∧ accessReady x0 (detAcc 17) (detReqs 17 20 10 x0 (x0.k.active x0.sp 1)) ∧
    detReqs 0 20 10 x0 (x0.k.active x0.sp 0) = [] ∧ x0.k.det.length + 32 ≤ 64 ∧ (x0.s.group x0.k.tag x0.k.group).elim [] (·.accs) = [] :=
  ⟨.faddF32 1 20 10, ready0 _ rfl, by simp only [accessReady]; decide +kernel, by simp only [accessReady]; decide +kernel, by decide +kernel, by decide,
    by decide +kernel⟩

/-- A compress-store whose first element is the last word of the page, and whose second lies in the broadcast aperture, where it fails. -/
def pkF : Pack := { pk with g := [(2, 3), (4, 64), (10, 0x1000), (20, 0xFFC)] }
def xF : Iss := issuerOf pkF {} plain sp0

theorem witness_compressStoreTraps : (issuing pkF {} plain).Ready [rdG 0 20 2, rdV 1 2 1] xF ∧ CompressStore (.cstoreB32 1 20 2) 4 1 20 2 ∧
    xF.mustWait (elementAcc 4) = false ∧ xF.unperformed = false ∧
    (let t := xF.s.checkAll xF.f.core xF.k.ctx .lane 4 4 .store (storeElements 4 20 2 xF (xF.k.active xF.sp 1))
     (∃ q u, t.2[0]? = some (q, .ok u)) ∧ ∃ r e rest, t.2[1]? = some (r, .error e) ∧ failures t.2 = (r, e) :: rest) :=
  ⟨⟨rfl, rfl, rfl, rfl⟩, .b32 1 20 2, by decide +kernel, by decide +kernel, ⟨_, _, rfl⟩, _, _, _, rfl, rfl⟩

theorem witness_FencesAndOtherStoresIssue : s0.Ready [] x0 ∧ x0.pathBusy (pathOf 1) = false ∧
    (∃ x, (issuing (let k := pk; { k with ops := [{ id := 7, cls := .cp, path := pathOf 3, lineage := 1, split := 0, kind := .adet }] }) {} plain).Ready [] x ∧
      x.pathBusy (pathOf 3) = true) ∧ s0.Ready [rdV 0 1, rdG 1 10 2] x0 ∧
    (x0.k.active x0.sp 7 ≠ 0 ∧ x0.k.full .st = false ∧ x0.k.scBusy = false ∧
      (x0.s.access x0.f.core false x0.k.ctx .broadcast (x0.k.readG64 10 + offI x0.sp.hints 0) 128 128 .store).toOption.isSome) ∧
    s0.Ready [rdG 0 20 2, rdV 1 2 2] x0 ∧ s0.Ready [rdG 0 20 2, rdV 1 2 1] x0 ∧
    (let reqs := (lanesOf (x0.k.active x0.sp 1)).zipIdx.map fun p =>
      ({ lane := p.1, va := x0.k.readG64 20 + BitVec.ofNat 64 (p.2 * 4), data := x0.laneData 2 1 p.1 } : Req)
     accessReady x0 { cls := .st, use := .store, size := 4, align := 4, kind := .store 4 } reqs) ∧
    x0.k.active x0.sp 0 = 0 :=
  ⟨ready0 _ rfl, by decide +kernel, ⟨issuerOf _ {} plain sp0, ⟨rfl, rfl, rfl, by decide +kernel⟩, by decide +kernel⟩, ready0 _ rfl, by decide +kernel, ready0 _ rfl, ready0 _ rfl, by simp only [accessReady]; decide +kernel, by decide +kernel⟩

/-- The pack with one outstanding operation for lane 3 at PA 0x6008. -/
def outstanding (cls : OpClass) (kind : OpKind) : PendOp :=
  { id := 7, cls := cls, path := .lane, lineage := BitVec.allOnes 32, split := 0, kind := kind, lanes := [{ lane := 3, pa := 0x6008, data := 9 }] }
def pkOp (o : PendOp) : Pack := { pk with ops := [o] }
def sOp (o : PendOp) : State := withPack (pkOp o) {}

theorem witness_LoadsComplete : let o := outstanding .ld (.load 20 4 false)
    (sOp o).pack 0 0 = some (pkOp o) ∧ (pkOp o).ops.find? (fun p => p.id == 7) = some o ∧ o.kind.loads = true ∧
      (pkOp o).mayPerform o 8 = true ∧ (∀ e ∈ (pkOp o).splits, e.2.await ≠ some o.id) ∧ o.picked 8 = o.lanes ∧ (pkOp o).exited.getLsbD 3 = false :=
  ⟨rfl, rfl, rfl, by decide +kernel⟩

theorem witness_StoresComplete : let o := outstanding .st (.store 4)
    (sOp o).pack 0 0 = some (pkOp o) ∧ (pkOp o).ops.find? (fun p => p.id == 7) = some o ∧ (pkOp o).mayPerform o 8 = true ∧ o.picked 8 = o.lanes ∧
      bit 0 1 = false := ⟨rfl, rfl, by decide +kernel⟩

theorem witness_otherStores : ∀ kind ∈ [OpKind.storeS, .adet], let o := { outstanding .st kind with lanes := [{ lane := 3, pa := 8, data := 9 }] }
    (sOp o).pack 0 0 = some (pkOp o) ∧ (pkOp o).ops.find? (fun p => p.id == 7) = some o ∧ (pkOp o).mayPerform o 8 = true ∧ o.picked 8 = o.lanes := by
  decide +kernel

theorem witness_AtomicsComplete : let o := outstanding .ld (.atomic 10 (some 20))
    (sOp o).pack 0 0 = some (pkOp o) ∧ (pkOp o).ops.find? (fun p => p.id == 7) = some o ∧ (pkOp o).mayPerform o 8 = true ∧ o.picked 8 = o.lanes ∧
      (∀ e ∈ (pkOp o).splits, e.2.await ≠ some o.id) ∧ (pkOp o).exited.getLsbD 3 = false :=
  ⟨rfl, rfl, by decide +kernel⟩

/-- Every lane of the group at the flush, or at the barrier. -/
def atBarrier (flush : Bool) : State := withPack { pk with splits := [(0, { sp0 with status := .barrier, atFlush := flush })] } {}

/-- Its group holds the accumulator `as`, and its pack the entries `es`. -/
def atFlush (as : List Accum) (es : List DetEntry) : State :=
  { withPack { pk with det := es, splits := [(0, { sp0 with status := .barrier, atFlush := true })] } {} with
    launches := [{ l0 with groups := [(0, { x := 0, cluster := 0, packs := [(0, 0)], accs := as })] }] }

def acc0 : Accum := { dest := 0x6100, va := 0x100, fn := 3 }
def det0 : DetEntry := { fn := 17, lane := 2, seq := 0, addr := 0x6100, va := 0x100, operand := 5, compare := 0 }

theorem witness_FlushResults : s0.Ready [] x0 ∧ x0.sp.id = x0.f.split ∧ ∀ e ∈ [([], []), ([acc0], []), ([], [det0])],
    let s := atFlush e.1 e.2
    ∃ l gr, s.launch { queue := 0, index := 0 } = some l ∧ l.groups.get 0 = some gr ∧ gr.x = 0 ∧ s.barrierFull gr true = true ∧ gr.accs = e.1 ∧
      (∃ p, s.groupPacks gr = [p] ∧ p.2.2.det = e.2 ∧ p.2.2.ops = [] ∧ bit (s.attrNow p.2.2.ctx 0x6100) 1 = false) ∧
      bit (s.attrNow l.ctx 0x6100) 1 = false := by
  refine ⟨ready0 _ rfl, rfl, fun e he => ?_⟩
  obtain rfl | rfl | rfl : e = ([], []) ∨ e = ([acc0], []) ∨ e = ([], [det0]) := by simpa using he
  all_goals exact ⟨_, _, rfl, rfl, rfl, by decide +kernel, rfl, ⟨_, rfl, rfl, rfl, by decide +kernel⟩, by decide +kernel⟩

theorem witness_AccumulatorsAreExact : (8 : Nat) < 9 ∧ 2 ^ 64 - 1 < 2 ^ (8 * adetSize 8) := by decide

/-! ### Witnesses: copies, banks and queues -/

/-- t0 a region of one unit, t1 a region of records, both at scratchpad byte 0. -/
def pkT : Pack := { pk with t := [(0, 0x00010000), (1, 0x00030000), (2, 0x00220000), (3, 0x00010000)] }

/-- Bank 0 in scratchpad mode, or bank 1 in FIFO mode with `es` in it. -/
def pads (m : Bytes) : Core := { banks := [(0, .pad)], sram := m }
def fifo1 (es : List Words) : Core := { banks := [(1, .fifo)], fifos := [(1, { entries := es })] }

theorem witness_BankResults : BankConfig (.bankcfgPad 2) .pad 2 ∧ s0.Ready [rdG 1 2] x0 ∧ (x0.g 2).toNat < 2 ^ 16 ∧
    (∀ p ∈ (x0.s.core x0.f.core).packs, p.2.tag = x0.k.tag) ∧ (x0.s.core x0.f.core).switching = none ∧
    (∃ x, (issuing pk (fifo1 []) plain).Ready [rdV 1 2] x ∧ x.k.active x.sp 7 ≠ 0 ∧ x.k.scBusy = false ∧ (x.s.core x.f.core).bank 1 = .fifo ∧
      ((x.s.core x.f.core).fifo 1).entries = [] ∧ ((x.s.core x.f.core).fifo 1).promised = 0) ∧
    (∃ x, (issuing pk { fifo1 [] with fifos := [(1, { promised := 512 })] } plain).Ready [rdV 1 2] x ∧
      512 ≤ ((x.s.core x.f.core).fifo 1).entries.length + ((x.s.core x.f.core).fifo 1).promised) ∧
    ∃ x, (issuing pk (fifo1 [[(0, 5)]]) plain).Ready [wrV 0 2] x ∧ ((x.s.core x.f.core).fifo 1).entries = [[(0, 5)]] :=
  ⟨.pad 2, ready0 _ rfl, by decide +kernel, by decide +kernel, rfl,
    ⟨issuerOf pk (fifo1 []) plain sp0, ⟨rfl, rfl, rfl, rfl⟩, by decide +kernel, by decide +kernel, rfl, rfl, rfl⟩,
    ⟨issuerOf pk _ plain sp0, ⟨rfl, rfl, rfl, rfl⟩, by decide +kernel⟩, issuerOf pk _ plain sp0, ⟨rfl, rfl, rfl, rfl⟩, rfl⟩

theorem witness_bankEvents :
    (let s := stalledAt .bankcfg { switching := some { slot := 0, split := 0, banks := 2, mode := .pad } } pk
     ∃ w x, (s.core 0).switching = some w ∧ (s.core 0).touching (banksOf w.banks) = false ∧
       (∀ p ∈ (s.core 0).packs, ∀ e ∈ p.2.splits, e.2.blockedOn ((s.core 0).changing w) = false) ∧
       s.stalled 0 w.slot w.split = some x ∧ x.sp.stall = some .bankcfg ∧ x.sp.id = w.split) ∧
    (∃ x, (stalledAt (.fpush 7 1 2) (fifo1 []) pk).stalled 0 0 0 = some x ∧ x.sp.stall = some (.fpush 7 1 2) ∧
      ((x.s.core x.f.core).fifo 1).full = false) ∧
    ∃ x, (stalledAt (.fpop 7 20 1) (fifo1 [[(0, 5)]]) pk).stalled 0 0 0 = some x ∧ x.sp.stall = some (.fpop 7 20 1) ∧
      ((x.s.core x.f.core).fifo 1).entries = [[(0, 5)]] :=
  ⟨⟨_, _, rfl, by decide +kernel, by decide +kernel, rfl, rfl, rfl⟩, ⟨_, rfl, rfl, by decide +kernel⟩, ⟨_, rfl, rfl, rfl⟩⟩

/-- q0 bound to queue 0 of slot 1, q1 a gather from VA 0, q2 bound and holding one entry; the pack in slot 1 is of the same group. -/
def pkQ : Pack :=
  { pk with queues := [(0, { bind := .peer 1 0 }), (1, { bind := .gather 0 }), (2, { bind := .peer 1 2, entries := [{ mask := 1, vals := [(0, 5)] }] })] }
def lQ : Launch := { l0 with groups := [(0, { x := 0, cluster := 0, packs := [(0, 0), (0, 1)] })] }
def sQ (k : Pack) : State := { withLaunch lQ (issuing k {} plain) with cores := [(0, { packs := [(0, k), (1, { pk with lpack := 1 })] })] }
def xQ : Iss := { issuerOf pkQ {} plain sp0 with s := { sQ pkQ with focus := none } }

theorem witness_QueueResults : (sQ pkQ).Ready [] xQ ∧ xQ.k.holds 0 = false ∧ (sQ pkQ).Ready [rdG 1 2] xQ ∧ (sQ pkQ).Ready [rdG 1 2 2] xQ ∧ xQ.peerIn 1 = true ∧
    (sQ pkQ).Ready [rdV 1 2] xQ ∧ xQ.k.active xQ.sp 7 ≠ 0 ∧ (xQ.k.queue 0).bind = .peer 1 0 ∧
    (∃ k, xQ.s.pack xQ.f.core 1 = some k ∧ (k.queue 0).entries.length + k.streaming 0 < 8) ∧
    (xQ.k.queue 1).bind = .gather 0 ∧ xQ.k.scBusy = false ∧ (xQ.k.queue 1).entries.length + xQ.k.streaming 1 < 8 ∧
    failures (xQ.s.checkAll xQ.f.core xQ.k.ctx .gather 4 4 .load (xQ.gatherReqs (xQ.k.active xQ.sp 1) 0 5 fun _ => 0)).2 = [] ∧
    (sQ pkQ).Ready [wrV 0 20] xQ ∧ (xQ.k.queue 2).bind ≠ .unbound ∧ (xQ.k.queue 2).entries = [{ mask := 1, vals := [(0, 5)] }] :=
  ⟨⟨rfl, rfl, rfl, rfl⟩, by decide +kernel, ⟨rfl, rfl, rfl, rfl⟩, ⟨rfl, rfl, rfl, rfl⟩, by decide +kernel, ⟨rfl, rfl, rfl, rfl⟩, by decide +kernel, rfl,
    ⟨_, rfl, by decide +kernel⟩, rfl, by decide +kernel, by decide +kernel, by decide +kernel, ⟨rfl, rfl, rfl, rfl⟩, by decide +kernel, rfl⟩

theorem witness_queueEvents :
    (∃ x, (stalledAt (.qpop 7 20 2) {} pkQ).stalled 0 0 0 = some x ∧ x.sp.stall = some (.qpop 7 20 2) ∧ (x.k.queue 2).bind ≠ .unbound ∧
      (x.k.queue 2).entries = [{ mask := 1, vals := [(0, 5)] }]) ∧
    (let o := { outstanding .none_ (.stream 1 8) with path := .gather }
     (sOp o).pack 0 0 = some (pkOp o) ∧ (pkOp o).ops.find? (fun p => p.id == 7) = some o ∧
       ∀ p ∈ (pkOp o).ops.takeWhile (fun p => p.id != o.id), p.done = true) :=
  ⟨⟨_, rfl, rfl, by decide +kernel, rfl⟩, rfl, rfl, by decide +kernel⟩

/-- Offsets 0 in a region of one unit in a scratchpad bank. -/
theorem witness_ScratchpadAccessesIssue : ∃ x, (issuing pkT (pads []) plain).Ready [wrV 0 20, opT 1 0, rdV 2 5] x ∧
    (issuing pkT (pads []) plain).Ready [rdV 0 20, opT 1 0, rdV 2 5] x ∧ x.k.active x.sp 7 ≠ 0 ∧
    x.badHandle 0 [1, 2, 3] = false ∧ (∀ n, n < 32 → (x.v 5 n).toNat % 4 = 0 ∧ (x.v 5 n).toNat < hBytes (x.k.readT 0)) ∧ x.k.full .st = false ∧
    x.k.full .ld = false ∧ x.k.scBusy = false ∧ x.k.gated x.sp true = false ∧ x.k.gated x.sp false = false :=
  ⟨issuerOf pkT (pads []) plain sp0, ⟨rfl, rfl, rfl, rfl⟩, ⟨rfl, rfl, rfl, rfl⟩, by decide +kernel⟩

/-! ### Witnesses: copies, tiles, accumulators and joints -/

/-- A TSR of one row of four BF16 elements at VA 0, in record 0 (07 R179). -/
def tsrBytes : Bytes := [(40, 4), (44, 1), (48, 1), (56, 4), (58, 1)]

/-- t0 a region, t1 the records, t2 a planed region of 20 planes and t3 a region, all from unit 0 but t3, at unit 4; a cooperation record of one rank at
g40 and an epilogue's words at g48. -/
def pkM : Pack :=
  { pk with t := [(0, 0x00010100), (1, 0x00030000), (2, 0x01420300), (3, 0x00010104)], g := [(42, 0x00010101), (48, 0x00201444)] }
def cM : Core := pads tsrBytes
def sM : State := issuing pkM cM plain
def xM : Iss := issuerOf pkM cM plain sp0

theorem readyM (os : List Operand) (h : decodeCheck pkM sp0 os = none) : sM.Ready os xM :=
  ⟨rfl, rfl, h, by simp [Pack.hazard, xM, issuerOf, pkM, pk, fetchPack]⟩

theorem witness_CopyResults : sM.Ready [opT 0 0, opT 1 1, rdG 2 5] xM ∧ s0.Ready [wrG 0 1] x0 ∧ s0.Ready [rdG 0 1] x0 ∧ xM.sp.id = xM.f.split ∧ xM.badHandle 0 [1] = false ∧
    xM.badHandle 1 [3] = false ∧ (xM.s.core xM.f.core).copyQ.length < 128 ∧ xM.k.full .cp = false ∧ xM.k.scBusy = false ∧ xM.storing = false ∧
    xM.recordBusy 1 (xM.g 5) = false ∧
    (xM.record 1 (xM.g 5) 11 (.elements true) fun _ => false).2 = 0 ∧ (xM.record 1 (xM.g 5) 11 (.elements false) fun _ => false).2 = 0 ∧
    (let r := (xM.record 1 (xM.g 5) 11 (.elements true) fun _ => false).1
     r.elementBytes ≤ hBytes (xM.k.readT 0) ∧ (xM.s.checkRuns 0 1 .copy .load (pagePieces r.elementRuns)).toOption.isSome = true ∧
       (xM.s.checkRuns 0 1 .copy .store (pagePieces r.elementRuns)).toOption.any (fun t =>
         (t.1.listPages 0 0 xM.k.nextOp 1 (pagePieces r.elementRuns)).isSome) = true) ∧ x0.k.scBusy = false :=
  ⟨readyM _ rfl, ready0 _ rfl, ready0 _ rfl, by decide +kernel⟩

theorem witness_copyEvents :
    (∃ x, (stalledAt (.cwpwait 5 0) {} pk).stalled 0 0 0 = some x ∧ x.sp.stall = some (.cwpwait 5 0) ∧
      (Words.get (x.s.core 0).cwp 0 - x.k.readG 5).toNat < 2 ^ 31) ∧
    (let o := { outstanding .cp (.copy 0 3 true 0 8 2 [(0x6000, 8, 0)]) with path := .copy }
     let s := withPack (pkOp o) { copyQ := [(0, 0, 7)] }
     (s.core 0).copyQ.find? (fun e => e.1 == 0) = some (0, 0, 7) ∧ s.pack 0 0 = some (pkOp o) ∧
       (pkOp o).ops.find? (fun p => p.id == 7) = some o ∧ 2 ≤ 8 ∧ 8 ≤ 8) :=
  ⟨⟨_, rfl, rfl, by decide +kernel⟩, rfl, rfl, rfl, by decide, by decide⟩

theorem witness_TileOperationResults : sM.Ready [opT 0 0, opT 1 1, rdG 2 5] xM ∧ sM.Ready [opT 0 2, opT 1 1, rdG 2 5] xM ∧ (xM.sp.id = xM.f.split ∧
    xM.badHandle 0 [1] = false ∧ xM.badHandle 2 [2] = false ∧ xM.badHandle 1 [3] = false ∧ xM.tileWait = false ∧ xM.storing = false ∧
    xM.recordBusy 1 (xM.g 5) = false ∧
    (let r := xM.record 1 (xM.g 5) 8 .load fun r => r.ext2 != 1 || decide (2048 < r.ext1) || r.fmt == 8 || decide (hPlanes (xM.k.readT 2) < minPlanes r.fmt)
     r.2 = 0 ∧ (layoutOf true 20 r.1.fmt r.1.ext1 r.1.ext0).size ≤ hBytes (xM.k.readT 2) ∧
       (layoutOf false 0 r.1.fmt r.1.ext1 r.1.ext0).size ≤ hBytes (xM.k.readT 0) ∧
       (xM.s.checkRuns 0 1 .matrix .load (pagePieces (r.1.elementRuns ++ r.1.scaleRuns))).toOption.any (fun t =>
         (t.1.listPages 0 0 xM.k.nextOp 1 (pagePieces (r.1.elementRuns ++ r.1.scaleRuns))).isSome) = true) ∧
    (let r := xM.record 1 (xM.g 5) 8 (.elements true) fun _ => false
     r.2 = 0 ∧ r.1.elementBytes ≤ hBytes (xM.k.readT 0) ∧ (xM.s.checkRuns 0 1 .matrix .store (pagePieces r.1.elementRuns)).toOption.any (fun t =>
       (t.1.listPages 0 0 xM.k.nextOp 1 (pagePieces r.1.elementRuns)).isSome) = true)) ∧
    sM.Ready [opA 0 15] xM ∧ sM.Ready [opA 0 15, opA 1 0] xM ∧ sM.Ready [opA 0 15, opT 1 0] xM ∧ sM.Ready [opT 0 0, opA 1 15] xM ∧
    sM.Ready [opT 0 0, rdG 1 5] xM ∧ sM.Ready [wrG 0 1, opT 1 0] xM ∧ sM.Ready [opT 0 31] xM ∧ sM.Ready [wrG 0 1, opT 1 1, rdG 2 5] xM :=
  ⟨readyM _ rfl, readyM _ rfl, by decide +kernel, readyM _ rfl, readyM _ rfl, readyM _ rfl, readyM _ rfl, readyM _ rfl, readyM _ rfl, readyM _ rfl, readyM _ rfl⟩

theorem witness_tileCompletions : ∀ kind ∈ [OpKind.acc 0 15 0 0, .acc 1 15 2 0, .tstore 0 8 [(0x6000, 8, 0)], .tile [] [1] [(0, [1])] [(5, 6)] 0 0],
    let o := { outstanding .tl kind with path := .matrix }
    (sOp o).pack 0 0 = some (pkOp o) ∧ (pkOp o).ops.find? (fun p => p.id == 7) = some o ∧ o.done = false ∧
      ((sOp o).core 0).tileBusy 0 o.kind.spans o.kind.grans o.stamp = false := by decide +kernel

theorem witness_AccumulatorResults : sM.Ready [opA 0 1, opA 1 2] xM ∧ (xM.sp.id = xM.f.split ∧ xM.tileWait = false ∧
    (xM.s.core xM.f.core).tileBusy xM.f.slot [] [1, 2] xM.s.clock = false ∧ xM.k.te = 0 ∧ xM.k.active xM.sp 7 ≠ 0 ∧ (xM.g 5).toNat < 32 ∧
    xM.k.accBusy 2 = false) ∧ sM.Ready [wrV 0 20, opA 1 2, rdG 2 5] xM ∧ sM.Ready [rdV 0 20, opA 1 2, rdG 2 5] xM ∧
    sM.Ready [opT 0 0, opA 1 2, rdG 2 48 8] xM ∧ fwCheck (xM.epi 48).fmt = 0 ∧ xM.badHandle 0 [1] = false ∧ (xM.epi 48).bad = false ∧
    (xM.epi 48).doff + (xM.epi 48).outBytes ≤ hBytes (xM.k.readT 0) ∧ (xM.epi 48).bias = false :=
  ⟨readyM _ rfl, by decide +kernel, readyM _ rfl, readyM _ rfl, readyM _ rfl, by decide +kernel⟩

/-- The headers of a planed tile of one row and 20 planes and a parallel tile of one row, both of eight BF16 elements (07 R184). -/
def tileHeads : Bytes := [(0, 4), (1, 20), (4, 1), (8, 8), (16384, 4), (16388, 1), (16392, 8)]

/-- Two packs of one group that name each other in their muster registers. -/
def pkJ : Pack := { pkM with mst := 3 }
def sJ (latch : List Arrival) (st : Option Stall) (w : Option Focus) : State :=
  let k := { pkJ with splits := [(0, { sp0 with stall := st })] }
  { withLaunch lQ (withPack k {}) with
    cores := [(0, { packs := [(0, k), (1, { k with lpack := 1 })], banks := [(0, .pad)], sram := tileHeads, latch := latch })]
    focus := w }
def xJ : Iss := { issuerOf pkJ {} plain sp0 with k := { pkJ with splits := [(0, sp0)] }, s := sJ [] none none }

def arrival (slot : Nat) (coop : List Word) : Arrival :=
  { slot := slot, split := 0, mst := if coop.isEmpty then 3 else 0, acc := 0, tile := 2, voters := 1, words := [(0, 0x00201444)], coop := coop }

theorem readyJ (os : List Operand) (h : decodeCheck pkJ sp0 os = none) : (sJ [] none (some (fo plain))).Ready os xJ :=
  ⟨rfl, rfl, h, by simp [Pack.hazard, xJ, issuerOf, pkJ, pkM, pk, fetchPack]⟩

theorem witness_JointResults : s0.Ready [rdG 1 2] x0 ∧ s0.Ready [wrG 0 2] x0 ∧ (sJ [] none (some (fo plain))).Ready [opA 0 0, rdV 1 2, opT 2 2 2] xJ ∧
    ((xJ.s.core xJ.f.core).latch = [] ∧ xJ.tileWait = false ∧ (xJ.s.core xJ.f.core).tileBusy xJ.f.slot (xJ.pairSpans 2) (List.range 16) xJ.s.clock = false ∧
    (xJ.s.core xJ.f.core).tileBusy xJ.f.slot (xJ.pairSpans 2) [0] xJ.s.clock = false ∧
    xJ.badMuster = false ∧ xJ.badHandle 2 [2] = false ∧ xJ.badHandle 3 [1] = false ∧
    (∀ n, n < 2 → (headerAt tileHeads (hByte (xJ.k.readT (2 + n)))).rows ≤ 32 ∧ (headerAt tileHeads (hByte (xJ.k.readT (2 + n)))).rsv = false)) ∧
    (sJ [] none (some (fo plain))).Ready [rdG 0 40 8, rdV 1 2, opT 2 2 2, { field := 3, cls := .a, idx := 0, cnt := 16 }] xJ ∧
    (coopOf ((List.range 8).map fun j => xJ.k.readG (40 + j))).bad = false ∧ xJ.s.coopSet 1 0 = [] :=
  ⟨ready0 _ rfl, ready0 _ rfl, readyJ _ rfl, by decide +kernel, readyJ _ rfl, by decide +kernel⟩

/-- Both packs have arrived and nothing fails: the joint forms. -/
theorem witness_jointFormation : let s := sJ [arrival 0 [], arrival 1 []] (some .joint) none
    ∃ a0 ps, (s.core 0).latch.find? (fun a => a.coop.isEmpty && a.slot == 0) = some a0 ∧
      ((slotsOf a0.mst).map fun i => (s.core 0).latch.find? fun a => a.coop.isEmpty && a.slot == i && a.mst == a0.mst).mapM
        (fun a => a.bind (s.part 0)) = some ps ∧ ps.length = 2 ∧
      (∀ p ∈ ps, p.x.sp.id = p.a.split ∧ p.x.k.full .tl = false ∧ p.x.k.te = 0 ∧
        (s.core 0).tileBusy p.x.f.slot (p.x.pairSpans p.a.tile) [p.a.acc] s.clock = false) ∧ (jointFail ps).isNone = true :=
  ⟨_, _, rfl, rfl, rfl, by decide +kernel⟩

/-- A cooperative set of one rank is complete. -/
theorem witness_coopRendezvous : let s := sJ [arrival 0 [0, 0, 0x00010101, 0, 0, 0, 0, 0]] (some .joint) none
    ∃ ps, (s.coopSet 1 0).mapM (fun e => s.part e.1 e.2) = some ps ∧ ps.length = 1 ∧
      (∃ e ∈ s.coopSet 1 0, ∀ r, r < (coopOf e.2.coop).ranks → ∃ f ∈ s.coopSet 1 0, (coopOf f.2.coop).rank = r) ∧
      (∀ p ∈ ps, p.x.sp.id = p.a.split ∧ p.x.k.full .tl = false ∧ p.x.k.te = 0 ∧
        (s.core p.x.f.core).tileBusy p.x.f.slot (p.x.pairSpans p.a.tile) (List.range 16) s.clock = false) ∧
      (coopFail (sortBy (fun p : Part => p.coop.rank) ps)).isNone = true :=
  ⟨_, rfl, rfl, by decide +kernel⟩

/-! ### Witnesses: barriers, work, the Trail, broadcasts, launches and placement -/

/-- t2 names a barrier word that expects two arrivals, at scratchpad byte 0; t1 a region too. -/
def pkB : Pack := { pkT with t := [(0, 0x00010000), (1, 0x00030000), (2, 0x00010000)], g := [(2, 3), (5, 2 * 2 ^ 20), (6, 0), (7, 2 ^ 16)] }
def cB : Core := pads (Bytes.writeLE [] 0 8 2)
def sB : State := issuing pkB cB plain
def xB : Iss := issuerOf pkB cB plain sp0

theorem readyB (os : List Operand) (h : decodeCheck pkB sp0 os = none) : sB.Ready os xB :=
  ⟨rfl, rfl, h, by simp [Pack.hazard, xB, issuerOf, pkB, pkT, pk, fetchPack]⟩

/-- Half the lanes at the barrier and half stopped at a `regang`. -/
def sDead : State :=
  withPack { pk with
    splits := [(1, { sp0 with id := 1, mask := 0xFFFF, status := .barrier, parent := some 0 }),
               (2, { sp0 with id := 2, mask := 0xFFFF0000, status := .stoppedRegang, parent := some 0 }), (0, { sp0 with status := .waiting })]
    order := [1, 2, 0] } {}

/-- `pbinit` with EXPECT 2 in g5, `pbarrive` and `pbwait` with OFF 0 in g6, and a split that waits for the other phase through g7. -/
theorem witness_BarrierResults : s0.Ready [] x0 ∧ x0.sp.id = x0.f.split ∧
    (∃ gr, (atBarrier false).group { queue := 0, index := 0 } 0 = some gr ∧ (atBarrier false).barrierFull gr false = true ∧
      (atBarrier false).groupDone gr = true) ∧
    (∃ gr, (sDead).group { queue := 0, index := 0 } 0 = some gr ∧ sDead.deadlocked gr = true) ∧
    sB.Ready [opT 0 2, rdG 1 5] xB ∧ sB.Ready [opT 0 2, rdG 1 6] xB ∧
    (phaseOk xB 2 5 0xF00E0000 ∧ cut (xB.g 5).toNat 20 8 ≠ 0 ∧ xB.storing = false ∧ phaseOk xB 2 6 0xFFFE0000 ∧ xB.k.working = false ∧
      (phaseAt (xB.s.core 0).sram (phaseByte (xB.k.readT 2) (xB.g 6))).bad = false) ∧
    ∃ x, (stalledAt (.pbwait 2 7) cB pkB).stalled 0 0 0 = some x ∧ x.sp.stall = some (.pbwait 2 7) ∧
      (phaseAt (x.s.core 0).sram (phaseByte (x.k.readT 2) (x.k.readG 7))).phase ≠ bit (x.k.readG 7).toNat 16 :=
  ⟨ready0 _ rfl, rfl, ⟨_, rfl, by decide +kernel⟩, ⟨_, rfl, by decide +kernel⟩, readyB _ rfl, readyB _ rfl,
    by simp only [phaseOk]; decide +kernel, _, rfl, rfl, by decide +kernel⟩

/-- Queue 0 of context 1: its ring at 0x10000 with sixteen slots, its completions at 0x20000, enabled. -/
def win0 : Bytes :=
  ((((Bytes.writeLE [] 0x100000 8 0x10000).writeLE 0x100008 8 0x20000).writeLE 0x100010 4 16).writeLE 0x100015 1 1).writeLE 0x100018 4 1

/-- The launch record of the page at 0x6000: queue 0, context 1, one group. -/
def sL : State := { s0 with window := win0, mem := s0.mem.writeLE 0x6000 1 1 |>.writeLE 0x6004 4 1 |>.writeLE 0x6010 4 1 }
def xL : Iss := { x0 with s := { sL with focus := none } }

/-- A translation that succeeds with a property. -/
def okAnd (e : Except XErr Xlated) (p : Xlated → Bool) : Bool :=
  match e with
  | .ok t => p t
  | .error _ => false

/-- `launch` with the record at VA 0 in g6, g7, and `fetchw` to a mailbox at OFF 0. -/
theorem witness_FetchAndLaunchResults : sB.Ready [opT 0 2, rdG 1 6] xB ∧ xB.badHandle 2 [1, 2, 3] = false ∧
    offsetBad (xB.k.readT 2) (xB.g 6) 0xFFFF0000 16 = false ∧ xB.k.fetch = none ∧ xB.storing = false ∧
    (let k := { pk with fetch := some { mailbox := 0 } }
     (withPack k {}).pack 0 0 = some k ∧ ((withPack k {}).launch k.tag).isSome) ∧
    sL.Ready [wrG 0 1, rdG 1 6 2] xL ∧ xL.k.scBusy = false ∧ xL.k.gated xL.sp false = false ∧ xL.k.ops = [] ∧
    okAnd (xL.s.access 0 false 1 .lane (xL.k.readG64 6) 64 64 .load) (fun t =>
      !t.s.launchRefused 1 (t.s.mem.readList t.pa 64) && decide ((t.s.qReserve 0 + 2 ^ 32 - t.s.qHead 0) % 2 ^ 32 < t.s.qSlots 0)) = true :=
  ⟨readyB _ rfl, by decide +kernel, by decide +kernel, rfl, by decide +kernel, ⟨rfl, rfl⟩, ⟨rfl, rfl, rfl, rfl⟩, by decide +kernel, by decide +kernel,
    rfl, by decide +kernel⟩

/-- No queue is served, or the queue named is full. -/
theorem witness_launchTurnedAway : okAnd (x0.s.access 0 false 1 .lane (x0.k.readG64 6) 64 64 .load) (fun t =>
      t.s.launchRefused 1 (t.s.mem.readList t.pa 64)) = true ∧
    okAnd (({ xL.s with window := win0.writeLE 0x100020 4 16 } : State).access 0 false 1 .lane (xL.k.readG64 6) 64 64 .load) (fun t =>
      !t.s.launchRefused 1 (t.s.mem.readList t.pa 64) && decide (t.s.qSlots 0 ≤ (t.s.qReserve 0 + 2 ^ 32 - t.s.qHead 0) % 2 ^ 32)) = true :=
  by decide +kernel

/-- The context with one work list of 64 items, none in it, and its pool and one open sequence, one of its emissions held. -/
def q0 : Seq := { seq := 3, next := 2, emit := 1, durable := some 0, held := [{ pos := 0, token := 9, tokIdx := some 0, resent := false }], sidx := 1, ackIdx := 1 }
def cx : Context :=
  { fetchContext with
    pool := 0x40000, poolSize := 0x100000, lists := [(3, { ring := 0x8000, cap := 64 })], seqs := [(3, q0)]
    partner := some { peer := 5, ethernet := false, pmac := 0 } }
def withCx (s : State) : State := { s with contexts := [(1, cx)] }

/-- The list holds an item. -/
def listed (s : State) : State := { s with contexts := [(1, { cx with lists := [(3, { ring := 0x8000, cap := 64, count := 1 })] })] }

/-- g8 names the list and the sequence, g9 the position, g10 and g11 the payload; every lane of v0 names the list. -/
def pkW : Pack := { pk with g := [(8, 3), (9, 2)], v := (List.range 32).map fun n => (n, 3), wlhold := 32 }

theorem witness_TokenAndWorkListResults : (∃ t, x0.tokenAt 6 = some (.ok t) ∧ t.s.mem = s0.mem ∧ bit t.attr 1 = false) ∧
    s0.Ready [rdG 0 2, rdG 1 6 2] x0 ∧ s0.Ready [wrG 0 1, rdG 1 6 2] x0 ∧ x0.k.ops = [] ∧
    (∃ x t, (stalledAt (.acquire 5 6) {} pk).stalled 0 0 0 = some x ∧ x.sp.stall = some (.acquire 5 6) ∧ x.tokenAt 6 = some (.ok t) ∧
      (t.s.mem.readLE t.pa 4 + 2 ^ 32 - (x.k.readG 5).toNat) % 2 ^ 32 < 2 ^ 31) ∧
    (let x : Iss := { issuerOf pkW {} plain sp0 with s := withCx (withPack pkW {}) }
     (withCx (issuing pkW {} plain)).Ready [rdV 0 0, rdV 1 2] x ∧ x.lists ≠ [] ∧ x.k.active x.sp 7 ≠ 0 ∧
       (∀ n, n < 32 → (x.lists.get (x.v 0 n).toNat).isSome) ∧ x.fits (x.k.active x.sp 7) 0 = true ∧
       (withCx (issuing pkW {} plain)).Ready [wrV 0 20, rdG 1 8] x ∧ (x.lists.get (x.g 8).toNat).isSome ∧ x.quiet = false ∧
       popcount (x.k.active x.sp 1) ≤ x.k.wlhold) ∧
    (∃ x, (withCx (stalledAt (.wlpush 7 0 2) {} pkW)).stalled 0 0 0 = some x ∧ x.sp.stall = some (.wlpush 7 0 2) ∧
      x.fits (x.k.active x.sp 7) 0 = true) ∧
    ∃ x w, (listed (stalledAt (.wlpop 7 20 8 1) {} pkW)).stalled 0 0 0 = some x ∧ x.sp.stall = some (.wlpop 7 20 8 1) ∧
      x.lists.get (x.k.readG 8).toNat = some w ∧ w.count ≠ 0 :=
  ⟨⟨_, rfl, rfl, by decide +kernel⟩, ready0 _ rfl, ready0 _ rfl, rfl, ⟨_, _, rfl, rfl, rfl, by decide +kernel⟩,
    ⟨⟨rfl, rfl, rfl, rfl⟩, by simp [Iss.lists, issuerOf]; decide +kernel, by decide +kernel, by decide +kernel, by decide +kernel, ⟨rfl, rfl, rfl, rfl⟩, by decide +kernel⟩,
    ⟨_, rfl, rfl, by decide +kernel⟩, _, _, rfl, rfl, rfl, by decide +kernel⟩

/-- A kernel that journals; g8 names position 2 of sequence 3, g12 position 1, g16 position 0, each with payload 0. -/
def lJ : Launch := { l0 with hdr := { l0.hdr with flags := 4 } }
def pkR : Pack := { pk with g := [(8, 3), (9, 2), (12, 3), (13, 1), (16, 3)] }
def sR : State := withLaunch lJ (withCx (issuing pkR {} plain))
def xR : Iss := { issuerOf pkR {} plain sp0 with s := { sR with focus := none } }

theorem witness_JournalInstructionResults : JournalRecord (.jrecTok 20 8) 1 20 8 ∧ sR.Ready [wrG 0 20 2, rdG 1 8 4] xR ∧ xR.sp.id = xR.f.split ∧
    canRecord xR 8 1 q0 ∧ (xR.s.core xR.f.core).portRecords < 64 ∧
    (∃ x, (withLaunch lJ (withCx (stalledAt (.jrec 1 20 8) {} pkR))).stalled 0 0 0 = some x ∧ x.sp.id = 0 ∧ x.sp.stall = some (.jrec 1 20 8) ∧
      canRecord x 8 1 q0) ∧
    sR.Ready [rdG 1 12 4] xR ∧ sR.Ready [rdG 1 16 4] xR ∧
    xR.s.seq xR.k.ctx (xR.jseq 12) = some q0 ∧ xR.jpos 12 = q0.emit ∧ xR.jpos 12 < q0.next ∧ xR.jpayload 12 = 0 ∧
    posLe 1 q0.leftMax = false ∧ xR.s.heldEmissions < 4096 ∧ xR.s.recordTurn xR.k.ctx (some xR.asker) 1 = true ∧
    posLe (xR.jpos 16) q0.durable = true ∧ xR.jpayload 16 = 0 ∧ xR.jpos 16 < q0.next ∧ q0.left = [] ∧
    xR.s.truncRoom (xR.s.modSeq xR.k.ctx (xR.jseq 16) fun q => q.truncate (xR.jpos 16)) xR.k.ctx xR.asker = true :=
  ⟨.tok 20 8, ⟨rfl, rfl, rfl, rfl⟩, rfl, by simp only [canRecord]; decide +kernel, by decide +kernel, ⟨_, rfl, rfl, rfl, by simp only [canRecord]; decide +kernel⟩,
    ⟨rfl, rfl, rfl, rfl⟩, ⟨rfl, rfl, rfl, rfl⟩, by decide +kernel⟩

/-- Stores of 64 bytes for module 4, and peer 5 last heard and written to at 0, a millisecond ago. -/
def sP : State :=
  { withCx s0 with stores := [(4, { base := 0x80000, size := 64 })], peers := [(5, {})], gtime := 1000000 * 65536 }

theorem witness_PartnerResults : sP.context 1 = some cx ∧ cx.seqs.get 3 = some q0 ∧ q0.held.length = 1 ∧ sP.failSilent = false ∧
    (∀ p, cx.partner = some p → p.silent = false) ∧ (∀ e ∈ q0.held, ∀ i, e.tokIdx = some i → cx.partner.isSome ∧ i < q0.ackIdx) ∧
    cx.recordRoom 1 = true ∧ q0.left = [] ∧ (∃ j, sP.stores.get 4 = some j ∧ j.used + 32 ≤ j.size) ∧
    ∃ p, sP.peers.get 5 = some p ∧ p.silent = false ∧ p.sent + 100000 ≤ sP.now ∧ p.heard + 1000000 ≤ sP.now :=
  ⟨rfl, rfl, rfl, rfl, by decide +kernel, by decide +kernel, by decide +kernel, rfl, ⟨_, rfl, by decide⟩, _, rfl, rfl, by decide +kernel⟩

/-- A broadcast store to group 1 from lane 0, and a payload of frame 0 on bus 1 as frame 3 ends. -/
def opBst : PendOp := { outstanding .st (.bst 1 4096 1 [(0, 5)]) with path := .broadcast }
def payload0 : Payload :=
  { bus := 1, mgroup := 1, lanes := 1, vals := [(0, 5)], frame := 0, participant := 0, core := 0, slot := 0, tag := { queue := 0, index := 0 }
    promised := [], rings := [], serial := 0 }

theorem witness_BroadcastResults : (sOp opBst).pack 0 0 = some (pkOp opBst) ∧ (pkOp opBst).ops.find? (fun p => p.id == 7) = some opBst ∧
    (pkOp opBst).bstAhead opBst 1 = false ∧ (sOp opBst).slotOwner 1 0 (sOp opBst).frame = some 0 ∧ (∀ c, c < Config.clusters → (sOp opBst).grants c 1 = true) ∧
    (sOp opBst).slotFree 1 0 (sOp opBst).frame 0 = true ∧
    (let s := { s0 with frame := 3, inflight := [payload0] }
     s.nextPayload 1 = some payload0 ∧ ∀ c ∈ payload0.waiting, s.canApply payload0 c = true ∧ s.behindAt payload0 c = false) ∧
    (let s := withPack pk (fifo1 [])
     (s.core 0).bank 1 = .fifo ∧ ((s.core 0).fifo 1).full = false) ∧ 0 + 4 ≤ 32 ∧ 8191 < 2 ^ 32 :=
  ⟨rfl, rfl, by decide +kernel⟩

/-- A record's 64 bytes. -/
def recBytes (m : Bytes) : List Byte := m.readList 0 64
def lOf (kind : Nat) (m : Bytes) : Launch := { tag := { queue := 0, index := 0 }, kind := kind, bytes := recBytes m, ctx := 1 }
/-- A LAUNCH record of one group, a CREATE record with a pool of one granule, and a DESTROY record. -/
def launchRec : Launch := lOf 1 ((Bytes.writeLE [] 0 1 1).writeLE 4 4 1 |>.writeLE 16 4 1)
def createRec : Launch :=
  lOf 2 ((Bytes.writeLE [] 0 1 2).writeLE 4 4 1 |>.writeLE 8 8 0xA000000000000001 |>.writeLE 32 8 0x40000 |>.writeLE 40 8 4096 |>.writeLE 58 2 1)
def destroyRec : Launch := lOf 3 ((Bytes.writeLE [] 0 1 3).writeLE 4 4 1)
/-- Queue 0 served, with `l` in the distributor's hands, a record at its HEAD and no pack anywhere. -/
def sC (l : Launch) : State :=
  { withLaunch l s0 with cores := [], window := win0, mem := s0.mem.writeLE 0x10000 1 1, gtime := 1000000 * 65536, waits := [(0, (1000000, 0))] }
/-- A launch all of whose groups have completed. -/
def lEnd : Launch := { launchRec with phase := .placing, next := 1, completed := 1 }
/-- A launch about to lease one page. -/
def lWalk : Launch := { launchRec with phase := .placing, leases := [{ base := 0, len := 4096, perms := 1 }] }

theorem witness_LaunchResults : (5 ≤ (sC lEnd).phase ∧ (sC lEnd).queueServed 0 = true ∧
    (sC lEnd).mem.readLE ((sC lEnd).qRing 0 + 64 * ((sC lEnd).qHead 0 % (sC lEnd).qSlots 0)) 1 ≠ 0 ∧
    (let s := { sC createRec with contexts := [] }
     s.headRecord 0 = some createRec ∧ createRec.kind = 2 ∧ createFault createRec.bytes = none ∧ s.context createRec.ctx = none ∧
       s.readLists (recField createRec.bytes 48 8) (recField createRec.bytes 56 2) = [].map some) ∧
    (sC launchRec).headRecord 0 = some launchRec ∧ launchFault launchRec.bytes = none ∧ (sC launchRec).context launchRec.ctx = some fetchContext ∧
    (let l := { launchRec with phase := .resident }
     (sC l).headRecord 0 = some l ∧ (sC l).dispatchReady l = true) ∧
    (∀ va ∈ lWalk.leasePages, (sC lWalk).armedPage fetchContext va = false) ∧
    ((sC lWalk).walkAll fetchContext false (lWalk.leasePages.map fun p => (p, false))).2 = [] ∧
    (sC lEnd).launch { queue := 0, index := 0 } = some lEnd ∧ lEnd.allOut = true ∧ lEnd.count ≤ lEnd.completed ∧
    (∀ p ∈ (sC lEnd).inflight, p.tag ≠ lEnd.tag) ∧ inDevice ((sC lEnd).qCpl 0) 16 = true ∧ lEnd.sigTok = 0) ∧
    (let k := { pk with exited := BitVec.allOnes 32, splits := [], order := [] }
     (withPack k {}).pack 0 0 = some k ∧ k.remaining = 0 ∧ k.ops = [] ∧ k.reaped = false ∧
       ∃ g, (withPack k {}).group k.tag k.group = some g ∧ g.ended = false ∧ (0, 0) ∈ g.packs ∧ ((withPack k {}).core 0).latch = [] ∧
         (∀ p ∈ (withPack k {}).groupPacks g, p.1 = 0 ∧ p.2.1 = 0 ∨ p.2.2.reaped = true) ∧ (withPack k {}).inflight = []) ∧
    (∃ w, (sC lEnd).waits.get 0 = some w ∧ (w.2 + 1) * 1000000 ≤ w.1) ∧
    (fetchContext.quiescent = false ∧ (sC lEnd).quiet fetchContext = true) ∧
    (s0.residentCtx 0 = some 1 ∧ s0.tlbHit 0 false 1 0 = none) ∧
    (sC destroyRec).headRecord 0 = some destroyRec ∧ destroyFault destroyRec.bytes = none ∧
    ((sC destroyRec).endContext destroyRec.ctx destroyRec.tag).contextBusy destroyRec.ctx = false ∧ (sC destroyRec).context destroyRec.ctx = some fetchContext ∧
    (let s := { sC destroyRec with cores := (sOp (outstanding .st (.store 4))).cores }
     s.headRecord 0 = some destroyRec ∧ (s.endContext destroyRec.ctx destroyRec.tag).contextBusy destroyRec.ctx = true) := by
  refine ⟨by decide +kernel, ⟨rfl, by decide +kernel, rfl, rfl, _, rfl, rfl, by decide +kernel⟩, ⟨_, rfl, by decide +kernel⟩, by decide +kernel⟩

/-- A leased launch whose one group a placement list sends to core 0 (`coop` adds FLAGS.COOP), and the machine with that core bound and free. -/
def lPlace (coop : Bool) : Launch :=
  { lOf 1 ((Bytes.writeLE [] 0 1 1).writeLE 1 1 (if coop then 6 else 2) |>.writeLE 4 4 1 |>.writeLE 16 4 1 |>.writeLE 52 4 100) with
    phase := .placing, leased := true, places := [0], hdr := { codeOff := 0x100, codeSize := 0x100 } }
def sPlace (l : Launch) (c : Core) : State :=
  { sC l with cores := [(0, c)], bindings := [{ handle := 1, cluster := 0, position := 0 }], contexts := [(1, cx)] }

/-- A small pack of the launch's group, on a core whose first bank is in mode `m`. -/
def pkS : Pack := { fetchPack with nv := 8, ng := 8, na := 0, slices := 1 }
def onCore (v : Option Victim) (stopped : Bool) (m : BankMode := .cache) : State :=
  let g : Group := { x := 0, cluster := 0, packs := [(0, 0)], victim := v, stopped := stopped }
  sPlace { lPlace false with next := 1, groups := [(0, g)] } { packs := [(0, pkS)], banks := [(0, m)] }

/-- The same pack in the way of a launch of a queue of higher priority. -/
def sBlock : State :=
  let s := onCore none false .pad
  let l := { lPlace false with tag := { queue := 1, index := 0 } }
  { s with launches := s.launches ++ [l], window := s.window.writeLE 0x100054 1 3 }

/-- A saved closure of one core with one pack. -/
def save0 : Save :=
  { id := 5, base := 0x40000, size := 0, bytes := [], cores := [(0, { packs := [(0, pkS)] })]
    groups := [({ queue := 0, index := 0 }, { x := 0, cluster := 0, packs := [] })], colls := [], time := 0 }
def sSaved : State := { sPlace (lPlace false) {} with contexts := [(1, { cx with saves := [save0] })] }

theorem witness_PlacementResults :
    ((sPlace (lPlace false) {}).placeable (lPlace false) (List.range Config.clusters) = true ∧ (lPlace false).unplaced = some 0 ∧
      (sPlace (lPlace false) {}).chosenQueue = some 0 ∧ (lPlace false).flag 2 = false ∧
      ((sPlace (lPlace false) {}).placeGroup (lPlace false) 0 [0]).isSome = true) ∧
    ((sPlace (lPlace true) {}).placeable (lPlace true) (List.range Config.clusters) = true ∧ (lPlace true).unplaced = some 0 ∧
      (sPlace (lPlace true) {}).chosenQueue = some 0 ∧ (lPlace true).flag 2 = true ∧
      (lPlace true).twoClusters [0] = true ∧ ((sPlace (lPlace true) {}).placeAll (lPlace true) (lPlace true).together [0]).isSome = true) ∧
    (∃ l, sBlock.launches.find? (fun l => l.tag.queue == 1 && l.wantsPlace) = some l ∧ l.latBound ≠ 0 ∧ l.leased = true ∧
      (sBlock.withoutAll sBlock.inHand).canPlace l = false ∧
      ((sBlock.withoutAll sBlock.inHand).enough l [] (sBlock.victims l)).isSome = true) ∧
    (∃ g, (onCore (some .flush) false).group { queue := 0, index := 0 } 0 = some g ∧ g.stopped = false ∧ g.victim = some .flush ∧ g.committed = false ∧
      (∀ p ∈ (onCore (some .flush) false).ownPacks g, p.2.2.quiet = true ∧
        ∀ f ∈ ((onCore (some .flush) false).core p.1).fifos, f.2.promised = 0) ∧
      (onCore (some .flush) false).flushDue ((onCore (some .flush) false).ownPacks g) = false) ∧
    (∃ g, (onCore (some .save) false).group { queue := 0, index := 0 } 0 = some g ∧ g.stopped = false ∧ g.victim = some .save ∧
      (onCore (some .save) false).saveFits 1 g = true ∧
      (∀ p ∈ (onCore (some .save) false).packsOn 1 ((onCore (some .save) false).closureOf 1 g), p.2.2.quiet = true ∧
        ∀ f ∈ ((onCore (some .save) false).core p.1).fifos, f.2.promised = 0) ∧
      (onCore (some .save) false).flushDue ((onCore (some .save) false).packsOn 1 ((onCore (some .save) false).closureOf 1 g)) = false) ∧
    (∃ g, (onCore (some .save) true).group { queue := 0, index := 0 } 0 = some g ∧ g.stopped = true ∧ g.victim = some .save ∧
      (((onCore (some .save) true).context 1).bind fun c =>
        c.carve (ceilDiv ((onCore (some .save) true).saveBytes ((onCore (some .save) true).closure 1 g)).length 4096)).isSome = true) ∧
    ((∃ c, sSaved.context 1 = some c ∧ c.saves.find? (fun v => v.id == 5) = some save0) ∧ sSaved.phase = 5 ∧
      (∀ p ∈ save0.cores.zip [0], sSaved.blockFits p.2 p.1.2 = true) ∧ [0].length = save0.cores.length ∧
      ∃ g ∈ save0.groups, sSaved.chosenQueue = some g.1.queue) ∧
    ∃ r, ({ s0 with resvs := [(2, { ctx := 1, peer := 0, planes := 1, token := 0, dest := 0, len := 0, dormant := some 0 })] } : State).resvs.get 2 =
      some r ∧ r.dormant = some 0 ∧ 0 ≤ s0.now := by
  refine ⟨by decide +kernel,
    by decide +kernel,
    ⟨_, rfl, by decide +kernel⟩,
    ⟨_, rfl, rfl, rfl, rfl, by decide +kernel⟩, ⟨_, rfl, rfl, rfl, by decide +kernel⟩,
    ⟨_, rfl, rfl, rfl, by decide +kernel⟩, ⟨⟨_, rfl, rfl⟩, rfl, by decide +kernel, rfl, by decide +kernel⟩, _, rfl, rfl, by decide⟩

/-! ### Witnesses: the host, commands, islands, bring-up, optics and failures -/

theorem isOk {α β : Type} {e : Except α β} (h : e.toOption.isSome = true) : ∃ t, e = .ok t := by
  cases e with
  | ok b => exact ⟨b, rfl⟩
  | error _ => cases h

theorem okSome {α β : Type} {e : Except α β} {p : β → Bool} (h : e.toOption.any p = true) : ∃ t, e = .ok t ∧ p t = true := by
  cases e with
  | ok b => exact ⟨b, rfl, h⟩
  | error _ => cases h

/-- Fields (offset, size, value) written in the device window, or in complex 0's command block. -/
def withWin (l : List (Nat × Nat × Nat)) (s : State) : State := { s with window := l.foldl (fun m e => m.writeLE e.1 e.2.1 e.2.2) s.window }
def sCmd (l : List (Nat × Nat × Nat)) (s : State) : State := withWin (l.map fun e => (0x400000 + e.1, e.2)) s
/-- The complexes hold every semaphore: complex 0. -/
def holding (s : State) : State := { s with sems := (List.range 64).map fun n => (n, { held := true }) }

/-- An event of context 1, whose routing entry names interrupt 5 of complex 0, with that complex's ring enabled at 0x30000. -/
def sE : State := withWin [(0x200008, 8, 1 + 5 * 2 ^ 10), (0x300000, 8, 0x30000), (0x300008, 4, 16), (0x30000C, 1, 1)] { s0 with events := [{ ctx := 1, bytes := List.replicate 64 3 }] }

theorem witness_HostResults : (∃ e, sE.events.find? (fun e => e.ctx == 1) = some e ∧ deliverable sE 1 e) ∧ (0 : Nat) < 2 ∧ (3 : Nat) < 64 ∧
    (queueAt 1 < 2 ^ 30 ∧ queueAt 1 < 0x10000000) ∧ inDevice 0x100 8 = true ∧
    (atomicOp .amoAdd = true ∧ atomicWindow 0x2000000 4 = false ∧ (0x10000000 : Nat) < 2 ^ 30) ∧
    (inDevice (Config.deviceMemory - 4) 8 = false ∧ inSett (Config.deviceMemory - 4) 8 = false ∧ Config.deviceMemory - 4 < 0x00F1000000000000) :=
  ⟨⟨_, rfl, by simp only [deliverable]; decide +kernel⟩, by decide +kernel⟩

/-- A suspended split in a pack of context 1. -/
def sSusp : State := sCmd [(0, 1, 1), (4, 4, 1)] (withPack { pk with splits := [(0, { spH with suspended := true })] } {})
/-- Commands that name context 1, sequence 3 or reservation 2. -/
def sRange (kind : Nat) : State := sCmd [(0, 1, kind), (4, 4, 1), (8, 8, 0), (16, 8, 4096)] s0
def sSeq (l : List (Nat × Nat × Nat)) : State :=
  sCmd ((4, 4, 1) :: l) { withCx s0 with contexts := [(1, { cx with seqs := [(3, { q0 with held := [], marks := [(1, 7)] })] })] }
def resv2 : Resv := { ctx := 1, peer := 6, planes := 1, token := 0x100, dest := 0x10000, len := 131072 }
def sResv : State := sCmd [(0, 1, 9), (4, 4, 1), (8, 8, 2)] { s0 with resvs := [(2, resv2)], ports := [(0, { enable := true, state := .up, peer := 6 })] }

theorem witness_CommandResults : Command (.revoke 0) 3 0 ∧ ((sRange 3).cmd 0 0 1 = 3 ∧ (sRange 3).rangeOk 0 = true ∧
    (sRange 3).context ((sRange 3).cmdCtx 0) = some fetchContext ∧ (sRange 3).cmdBusy 0 = false ∧ (sRange 4).cmd 0 0 1 = 4 ∧ (sRange 4).rangeOk 0 = true ∧
    (sSusp.cmd 0 0 1 = 1 ∧ sSusp.cmdClean 0 [(0, 1), (4, 16)] = true ∧ sSusp.cmd 0 15 1 = 0 ∧
      (sSusp.suspendedAt (sSusp.cmdCtx 0) (sSusp.cmd 0 16 4) (sSusp.cmd 0 8 4) (sSusp.cmd 0 12 2) (sSusp.cmd 0 14 1)).isSome = true) ∧
    (let s := sCmd [(0, 1, 2), (4, 4, 1)] s0
     s.cmd 0 0 1 = 2 ∧ s.cmdClean 0 [(0, 1), (4, 4)] = true ∧ (s.context (s.cmdCtx 0)).isSome = true) ∧
    (let s := sCmd [(0, 1, 6), (8, 8, 0x9000), (16, 4, 2)] { s0 with bindings := [{ handle := 1, cluster := 0, position := 0 }] }
     s.cmd 0 0 1 = 6 ∧ s.cmdClean 0 [(0, 1), (8, 12)] = true ∧ s.cmd 0 8 8 % 8 = 0 ∧
       inDevice (s.cmd 0 8 8) (8 + 8 * min s.bindings.length (s.cmd 0 16 4)) = true) ∧
    (let s := sCmd [(0, 1, 7), (24, 8, 0x9000)] s0
     s.cmd 0 0 1 = 7 ∧ s.cmdClean 0 [(0, 1), (8, 24)] = true ∧ s.cmd 0 24 8 % 64 = 0 ∧ inDevice (s.cmd 0 24 8) 512 = true) ∧
    (let s := sCmd [(0, 1, 8), (4, 4, 1), (8, 2, 6), (10, 1, 1), (16, 8, 0x100), (24, 8, 0x10000), (32, 8, 131072)] sResv
     s.cmd 0 0 1 = 8 ∧ s.cmdClean 0 [(0, 1), (4, 7), (16, 32)] = true ∧ s.cmd 0 10 1 = 1 ∧ s.cmd 0 32 8 % 65536 = 0 ∧ s.cmd 0 16 8 % 8 = 0 ∧
       inDevice (s.cmd 0 16 8) 8 = true ∧ inDevice (s.cmd 0 24 8) (s.cmd 0 32 8) = true ∧ (s.context (s.cmdCtx 0)).isSome = true ∧
       ∀ j ∈ planesOf (s.cmd 0 10 1), s.planeUp j (s.cmd 0 8 2) = true) ∧
    (sResv.cmd 0 0 1 = 9 ∧ sResv.cmdClean 0 [(0, 1), (4, 4), (8, 8)] = true ∧ sResv.resvs.get (sResv.cmd 0 8 8) = some resv2 ∧
      resv2.ctx = sResv.cmdCtx 0) ∧
    (let s := sSeq [(0, 1, 10), (8, 4, 4), (12, 4, 2)]
     s.cmd 0 0 1 = 10 ∧ (s.context (s.cmdCtx 0)).isSome = true ∧ s.seqopenOk 0 = true ∧ s.cmd 0 16 1 = 0 ∧ s.recordTurn (s.cmdCtx 0) none 0 = true)) ∧
    (∃ x q, (sSeq [(0, 1, 11), (8, 4, 3)]).context 1 = some x ∧ (sSeq [(0, 1, 11), (8, 4, 3)]).seq 1 3 = some q ∧
      (sSeq [(0, 1, 11), (8, 4, 3)]).releasing x q = false ∧
      (sSeq [(0, 1, 11), (8, 4, 3)]).recordTurn 1 (some (.left 3)) 1 = true ∧
      (sSeq [(0, 1, 11), (8, 4, 3)]).cmdClean 0 [(0, 1), (4, 8)] = true) ∧
    (let s := sSeq [(0, 1, 12), (8, 2, 5)]
     s.cmd 0 0 1 = 12 ∧ s.cmdClean 0 [(0, 1), (4, 7), (12, 6)] = true ∧ s.cmd 0 10 1 ≤ 1 ∧ s.cmd 0 8 2 < 1024) ∧
    (∃ q, (sSeq [(0, 1, 13), (8, 4, 3), (12, 4, 1), (16, 8, 7)]).seq 1 3 = some q ∧ (1, BitVec.ofNat 64 7) ∈ q.marks ∧
      (sSeq [(0, 1, 13), (8, 4, 3), (12, 4, 1), (16, 8, 7)]).cmdClean 0 [(0, 1), (4, 20)] = true ∧
      (sSeq [(0, 1, 13), (8, 4, 3), (12, 4, 1), (16, 8, 7)]).recordTurn 1 none 1 = true) ∧
    (let s := sCmd [(0, 1, 15), (8, 2, 4), (16, 8, 0x80000), (24, 8, 64)] s0
     s.cmd 0 0 1 = 15 ∧ s.cmdClean 0 [(0, 1), (4, 6), (16, 16)] = true ∧ s.cmd 0 8 2 < 1024 ∧ inDevice (s.cmd 0 16 8) (s.cmd 0 24 8) = true) ∧
    (let m : Migration := { ctx := 1, va := 0, newPa := 0x9000, size := 4096, oldPa := 0x6000, leafAt := 0x5000, leaf := 0, armed := [] }
     let s := { s0 with migrations := [(0, m)] }
     s.migrations.get 0 = some m ∧ (s.context m.ctx).isSome = true ∧ s.pageBusy m.oldPa m.size = false ∧ s.undisturbed m = true ∧ m.leafAt + 8 ≤ m.newPa) :=
  ⟨.revoke 0, by decide +kernel,
    ⟨_, _, rfl, rfl, by decide +kernel⟩, by decide +kernel,
    ⟨_, rfl, by decide +kernel⟩, by decide +kernel⟩

/-- A MIGRATE of the page at VA 0 to 0x9000, where the context has attribute bytes from 0x30000, with no launch and with one that leases the page. -/
def sMigrate (held : Bool) : State :=
  let s := sCmd [(0, 1, 5), (4, 4, 1), (8, 8, 0x123), (16, 8, 0x9000)] { s0 with contexts := [(1, { fetchContext with attrMap := 0x30000 })] }
  if held then s else { s with launches := [] }

theorem witness_revokesAndMigrates :
    (let s := { sRange 3 with launches := [] }
     s.rangeOk 0 = true ∧ (s.context (s.cmdCtx 0)).isSome = true ∧ s.cmd 0 0 1 = 3 ∧ s.cmdBusy 0 = false) ∧
    (∃ x l, (sMigrate false).context ((sMigrate false).cmdCtx 0) = some x ∧ movable (sMigrate false) x 0x123 0x9000 4096 l) ∧
    ((sMigrate false).cmd 0 0 1 = 5 ∧ (sMigrate false).cmd 0 8 8 = 0x123 ∧ (sMigrate false).cmd 0 16 8 = 0x9000 ∧ (sMigrate false).cmd 0 24 1 = 0 ∧
      (sMigrate false).cmdBusy 0 = false ∧ (sMigrate false).cmdClean 0 (commandFields 5) = true ∧ (sMigrate false).pageLeased 1 0 4096 = false ∧
      (sMigrate true).pageLeased 1 0 4096 = true) :=
  ⟨by decide +kernel, by
    obtain ⟨l, hl, h⟩ := okSome (p := fun l => decide (leafSize l.entry l.level = 4096 ∧ 0x9000 % 4096 = 0 ∧ inDevice 0x9000 4096 = true ∧
      attrOut 0x30000 (leafBase l.entry 4096) 4096 = false ∧
      (sMigrate false).mapsOther { fetchContext with attrMap := 0x30000 } (leafBase l.entry 4096) 4096 0x9000 = false))
      (e := (sMigrate false).walkFrom 0x123 5 fetchContext.table []) (by decide +kernel)
    exact ⟨_, l, rfl, by decide +kernel, hl, of_decide_eq_true h⟩, by decide +kernel⟩

/-- Commands with a reserved byte that is not zero, and commands that name no context. -/
theorem witness_commandsRefused : ∀ kind ∈ [2, 3, 4, 5, 10, 11, 12, 13],
    (let s := sCmd [(0, 1, kind), (4, 4, 1), (60, 4, 5)] s0
     s.cmd 0 0 1 = kind ∧ s.cmdBusy 0 = false ∧ s.cmdClean 0 (commandFields kind) = false ∧ (s.context (s.cmdCtx 0)).isSome = true) ∧
    (let s := sCmd [(0, 1, kind), (4, 4, 7)] s0
     s.cmd 0 0 1 = kind ∧ s.cmdBusy 0 = false ∧ s.cmdClean 0 (commandFields kind) = true ∧ s.context (s.cmdCtx 0) = none ∧ s.cmd 0 8 8 = 0 ∧
       s.cmd 0 16 8 = 0 ∧ s.cmd 0 24 1 = 0) := by decide +kernel

/-- A fabric with the West host field in which cluster 73 has run `ahead` ns past the root, at 1,000,300 ns. -/
def sTime (ahead : Nat) : State :=
  { s0 with
    phase := 5, hosts := 1, fieldMap := List.range 40, gtime := 1000300 * 65536, dev := [(73, (ahead * 65536 : Nat))], parents := [(72, 160)] }

theorem witness_IslandAndTimeResults : (holding s0).guarded 0 (islandSem 3) = true ∧ s0.guarded 0 (islandSem 3) = false ∧
    (holding s0).guarded 0 42 = true ∧ s0.guarded 0 42 = false ∧ 1 < (s0.island 3).current ∧
    (let s := { s0 with islands := [(3, { point := 2, current := 1, throttled := true, temp := 110 })] }
     (s.island 3).throttled = true) ∧ (95 : Nat) ≤ 95 ∧ 4 ≤ (sTime 20).phase ∧ 73 ≠ (if (sTime 20).hosts % 2 = 1 then 160 else 164) ∧
    (sTime 20).regionIn 73 = true ∧ (sTime 20).regionIn 72 = true ∧ (sTime 20).takesParent 73 72 = true ∧ (sTime 20).exchanged.getD 73 0 + 4096 ≤ (sTime 20).now ∧
    (sTime 20).timestamps 73 72 1000000 1000130 1000200 1000290 = true ∧
    ({ sTime 20 with corr := putInt (sTime 20).corr 73 (20 * 65536) } : State).spreadPs < 2 ^ 31 ∧ (sTime 0).timestamps 73 72 0 0 0 0 = true ∧
    ({ sTime 20 with agenda := [.sense 3 105] } : State).agenda = .sense 3 105 :: [] ∧ (105 : Nat) ≤ 105 ∧
    ({ sTime 20 with agenda := [.elapse 7] } : State).agenda = .elapse 7 :: [] ∧ ((sTime 20).corr.map (·.1)).Nodup := by
  decide +kernel

/-- A management datagram of a type: magic, version 1, no module named. -/
def dgram (type : Nat) : List Byte := (((Bytes.writeLE [] 0 4 0x474D4A48).writeLE 4 2 1).writeLE 6 1 type).readList 0 32

theorem witness_BringUpResults :
    ({ State.reset with phase := 1 } : State).phase = 1 ∧ DefectUnit.ok { kind := 1, loc := 0x105 } = true ∧
    ({ State.reset with phase := 2 } : State).phase = 2 ∧ (List.replicate 11 2).length = 11 ∧
    ({ State.reset with phase := 3 } : State).phase = 3 ∧
    sortNats ((State.reset.fabric true true).filterMap gridField) = List.range 40 ∧ (0 : Nat) < 2 ^ 31 ∧
    1000000000 ≤ ({ State.reset with mgmt := { standby := true, wait := 1000000000 } } : State).mgmt.wait ∧ ({ State.reset with phase := 4 } : State).phase = 4 ∧
    ({ State.reset with maps := { stat := 1 } } : State).maps.stat = 1 ∧ State.reset.maps.stat ≠ 1 ∧ (holding s0).guarded 0 0 = true ∧
    State.reset.guarded 0 0 = false ∧ State.reset.mgmt.standby = false ∧ mgmtType [] = none ∧ mgmtType (dgram 3) = some 3 ∧ mgmtType (dgram 4) = some 4 ∧
    ({ State.reset with mgmt := { standby := true } } : State).mgmt.standby = true := by decide +kernel

/-- Ports 0 to 5 in the states a port moves out of. -/
def sPorts : State :=
  { holding s0 with ports := [(0, { enable := true, state := .cal }), (1, { enable := true, state := .carrier }), (2, { enable := true, state := .pol }),
      (3, { enable := true, state := .align }), (4, { enable := true, state := .up }), (5, { enable := true, state := .divert })] }

theorem witness_portMoves : (∃ p, PortMove sPorts (.portCalibrationDone 0) 0 p) ∧ (∃ p, PortMove sPorts (.portCarrierLock 1) 1 p) ∧
    (∃ p, PortMove sPorts (.portPolarisationLock 2) 2 p) ∧ (∃ p, PortMove sPorts (.portAlignDone 3 7) 3 p) ∧
    (∃ p, PortMove sPorts (.portLockLost 4) 4 p) ∧ ∃ p, PortMove sPorts (.portLightRestored 5) 5 p :=
  ⟨⟨_, .calibrated 0 (by decide +kernel)⟩, ⟨_, .carrier 1 (by decide +kernel)⟩, ⟨_, .pol 2 (by decide +kernel)⟩, ⟨_, .align 3 7 (by decide +kernel)⟩,
    ⟨_, .lost 4 (by decide +kernel)⟩, ⟨_, .light 5 (by decide +kernel)⟩⟩

/-- A participant of the Sett whose own readback has failed in four frames, with a spare group and none. -/
def sRing (spare : List Nat) : State := { s0 with links := [(8 * 5 + 2, { unread := 4 })], spareGroups := (List.range 64).map fun n => (n, spare) }

theorem witness_ringFailure : (5 : Nat) < 162 ∧ ((sRing [41]).link 5 2).state < 2 ∧ 4 ≤ ((sRing [41]).link 5 2).unread ∧
    (∀ g, (sRing [41]).nextSpare 2 ((sRing [41]).link 5 2).wg 5 = some g → ∀ q, (sRing [41]).ringDead 2 ((sRing [41]).link 5 2).wg g q true = false) ∧
    (sRing []).nextSpare 2 ((sRing []).link 5 2).wg 5 = none :=
  ⟨by decide, by decide +kernel, by decide +kernel, fun _ _ _ => rfl, by decide +kernel⟩

/-- Chunk 0 of a reservation has come, and its plane has an UP port to the peer or none: the next chunk to send takes the plane or Ethernet. -/
theorem witness_chunks :
    (let r := { resv2 with contiguous := 1 }
     0 < r.contiguous ∧ 65536 * (0 + 1) ≤ r.len ∧ r.turn 0 ∉ r.diverted ∧ sResv.chunkShares (r.turn 0) r.peer ≠ []) ∧
    ({ sResv with agenda := [.chunk 2] } : State).agenda = .chunk 2 :: [] ∧ 65536 * (resv2.next + 1) ≤ resv2.len ∧ resv2.turn resv2.next ∉ resv2.away ∧
    (sResv.plane (resv2.turn resv2.next)).state = .active ∧ s0.chunkShares (resv2.turn resv2.next) resv2.peer = [] := by decide +kernel

theorem witness_OpticsResults : (s0.link 5 2).state < 2 ∧ (∃ p, PortWrite sPorts (.portEnable 0 0) 0 0 p) ∧ sPorts.guarded 0 (1 + planeOf 0) = true ∧
    s0.guarded 0 (1 + planeOf 0) = false ∧ sPorts.guarded 0 (5 + 3) = true ∧ s0.guarded 0 (5 + 3) = false ∧
    (let s := { s0 with lasers := [(partnerOf 3, { present := true, state := .lit }), (3, { present := true, state := .warm })] }
     (s.laser (partnerOf 3)).state = .lit ∧ (s.laser 3).present = true ∧ (s.laser 3).state = .warm ∧ (s.laser 17).present = false) ∧
    (let s := { s0 with lasers := [(17, { present := true, state := .lit })] }
     (s.laser 17).present = true ∧ (s.laser 17).state = .lit) ∧
    (∀ n, n < 4 → (sPorts.plane n).state = .active) ∧
    (let s := { sPorts with planes := [(0, { state := .draining }), (1, { state := .dark }), (2, { state := .retrain })] }
     (s.plane 0).state = .draining ∧ s.planeIdle 0 = true ∧ (s.plane 1).state = .dark ∧ s.guarded 0 2 = true ∧ (s.plane 2).state = .retrain ∧
       ((s.plane 2).wasUp.all fun k => (s.port k).state == .up) = true) ∧
    (sResv.resvs.get 2 = some resv2 ∧ resv2.released = false ∧ resv2.dormant = none ∧ 65536 * (0 + 1) ≤ resv2.len ∧ resv2.contiguous ≤ 0 ∧
      0 ∉ resv2.arrived ∧ resv2.turn 0 ∉ resv2.diverted ∧ sResv.chunkShares (resv2.turn 0) resv2.peer ≠ [] ∧ resv2.token + 8 ≤ resv2.dest + 65536 * 0) :=
  ⟨by decide +kernel, ⟨_, .enable 0 0⟩, by decide +kernel⟩

theorem witness_FailureResults : (let e : ErrorReport := plainError 4 0 0
      1 ≤ e.cls ∧ e.cls ≤ 14 ∧ e.cls ≠ 13 ∧ e.severity = 0 ∧ s0.openError e = none) ∧ s0.failSilent = false ∧ (s0.core 3).failed = false ∧
    (let s := { s0 with bindings := [{ handle := 1, cluster := 0, position := 3 }], spares := [(0, [120])] }
     ∃ b ∈ s.bindings, b.cluster = 3 / 128 ∧ b.position = 3 % 128 ∧ b.retired = false) := by decide +kernel

/-! ### Witnesses: decoding, the step, what it keeps -/

/-- `add.i32 v5, v6, v7` placed for the next fetch. -/
def sFetch : State := State.reset.withFetch 0x03C2860E

theorem witness_DecodeEncodeRoundTrip : (Instr.addI32 7 5 6 7).wf = true ∧ encode (.addI32 7 5 6 7) = some 0x03C2860E ∧
    decodeWord 0x03C2860E = .ok (.addI32 7 5 6 7) := ⟨by decide, by decide +kernel⟩

theorem witness_StepRunsDecodedInstruction : sFetch.agenda = [.issue 0 0 0] ∧
    (∃ k sp, (sFetch.begin []).Issues 0 0 0 k sp ∧ sp.slot = none ∧ sp.pc.toNat % 2 = 0 ∧
      ∃ t, (sFetch.begin []).WordAt 0 k (2 * sp.pc.toNat) 0x03C2860E t) ∧
    decodeWord 0x03C2860E = .ok (.addI32 7 5 6 7) ∧ (0x03C2860E#32).toNat < 0xFC000000 ∧
    sDet.detCore 0 = true ∧ sDet.mustPass 0 = true ∧ (sDet.nextPack 0).isSome ∧
    (withPack pk {}).detCore 0 = false ∧ ((sFetch.begin []).portGo 0 ((sFetch.begin []).candidates 0 0)).isSome :=
  ⟨rfl, ⟨fetchPack, _, ⟨by decide +kernel, rfl, rfl⟩, rfl, rfl, _, by decide +kernel, _, _, rfl, by decide +kernel⟩, by decide +kernel,
    by decide, by decide +kernel⟩

theorem witness_StepKeepsMemoryCanonical : step (State.reset) = .next State.reset ∧ State.reset.memOk := ⟨rfl, rfl⟩

/-! ### The spec's worked examples -/

/-- A next state with a property. -/
def nextAnd (o : Out) (p : State → Bool) : Bool :=
  match o with
  | .next t => p t
  | .fault _ => false
  | .refused _ => false

/-- The pack in slot 0 of core 0 after a step. -/
def after (o : Out) (p : Pack → Bool) : Bool := nextAnd o fun t => ((t.core 0).packs.get 0).elim false p

/-- 08 R209: `(p1) shfl.down v5, v2, p3` in a split of lanes 0–11 whose lane 5 is not active. -/
def pkShfl : Pack :=
  { pk with
    v := ((List.range 32).map fun n => (64 + n, BitVec.ofNat 32 (100 + n))) ++ (List.range 32).map fun n => (160 + n, 4)
    p := [(1, 0xFFFFFFDF), (3, 0xFFFFFFFF)]
    splits := [(1, { sp0 with id := 1, mask := 0xFFF, parent := some 0 }), (2, { sp0 with id := 2, mask := 0xFFFFF000, parent := some 0 })] }

theorem test_shuffle_worked_example :
    after (exec (.shflDown 1 5 2 3) { withPack pkShfl {} with focus := some { fo 0xD3C483A0 with split := 1 } }) (fun k =>
      [0, 1, 5, 7, 8, 11].map (fun n => (k.v.get (160 + n)).toNat) == [104, 105, 4, 111, 108, 111] &&
      k.pred 3 == 0xFFFFF0FF) = true := by decide +kernel

/-- 02 R66: `fdiv.f32 v3, v1, v2` in two slices with the DZ and NV traps enabled: 0 / 0 in lane 2, −4.0 / −0 in lane 5, 1.0 / +0 in lane 6. -/
def pkDiv : Pack :=
  { pk with
    slices := 2, fpctl := 0x300, splits := [(0, { sp0 with mask := 0xFF })]
    v := [(32, 0x3F800000), (33, 0x3F800000), (35, 0x3F800000), (36, 0x3F800000), (37, 0xC0800000), (38, 0x3F800000), (39, 0x3F800000),
      (64, 0x40400000), (65, 0x40400000), (67, 0x40400000), (68, 0x40400000), (69, 0x80000000), (71, 0x40400000), (96, 77)] }

theorem test_fpx_worked_example :
    after (exec (.fdivF32 7 3 1 2) { withLaunch l1 (withPack pkDiv {}) with focus := some (fo plain) }) (fun k =>
      k.v.get 96 == 77 && k.fpstat == 0 && (k.split 0).elim false fun sp =>
        sp.trap.info0 == 19 + 3 * 32 + 2 * 1024 && sp.trap.info3 == 2 && sp.pc == 0x40) = true := by decide +kernel

/-- 05 R136: `dot4s.e4m3.e4m3 v10, v4, v5` over three lanes. -/
def pkDot : Pack :=
  { pk with
    v := ((List.range 3).map fun n => (128 + n, 0x40BA4638)) ++ ((List.range 3).map fun n => (160 + n, 0x443C3830)) ++
      ((List.range 3).map fun n => (320 + n, 0x3F000000)) ++ [(352, 0x4068), (353, 0x0068), (354, 0x40FF)] }

theorem test_dot4s_worked_example :
    after (exec (.dot4s 7 10 4 5) (issuing pkDot {} 0)) (fun k =>
      [0, 1, 2].map (fun n => k.v.get (320 + n)) == [0x40B28000, 0x3F000000, 0x7FC00000] && k.fpstat == 0) = true := by decide +kernel

/-- 06 R152: `atom.add.i32 v2, [v6]` on lanes 0–3 at a word that holds 100: each lane gets what the lower ones left. -/
theorem test_atomic_worked_example :
    (let o : PendOp := { id := 7, cls := .ld, path := .lane, lineage := 0xFF, split := 0, kind := .atomic 0 (some 2)
                         lanes := [5, 7, 1, 10].zipIdx.map fun p => { lane := p.2, pa := 0x6008, data := p.1 } }
     nextAnd (exec (.atomicCompletion 0 0 7 15) { sOp o with mem := (sOp o).mem.writeLE 0x6008 4 100 }) fun t =>
       t.mem.readLE 0x6008 4 == 123 && ((t.core 0).packs.get 0).elim false fun k =>
         (List.range 4).map (fun n => (k.v.get (64 + n)).toNat) == [100, 105, 112, 113]) = true := by decide +kernel

/-- 18 R378: the exchange between cluster 73 and its parent finds the child 20 ns ahead. -/
theorem test_time_exchange_worked_example :
    nextAnd (exec (.timeExchange (73 + 256 * 72) 1000000 1000130 1000200 1000290) (sTime 20)) (fun t => t.corr.getD 73 0 == 20 * 65536) = true := by
  decide +kernel

/-! ### Witnesses: instructions that go on, and events that come about -/

/-- Record 0 of t1 passes for a use. -/
theorem recordM (bits : Nat) (use : TsrUse) (shape : Tsr → Bool) (path : Path) (u : Use) (pieces : Tsr → List (Nat × Nat))
    (h : (xM.record 1 (xM.g 5) bits use shape).2 = 0)
    (hp : (xM.s.checkRuns xM.f.core xM.k.ctx path u (pagePieces (pieces (xM.record 1 (xM.g 5) bits use shape).1))).toOption.any (fun t =>
      (t.1.listPages xM.f.core xM.f.slot xM.k.nextOp xM.k.ctx (pagePieces (pieces (xM.record 1 (xM.g 5) bits use shape).1))).isSome) = true) :
    recordPasses xM 1 5 bits use shape path u pieces (xM.record 1 (xM.g 5) bits use shape).1 :=
  ⟨by decide +kernel, Prod.ext rfl h, okSome hp⟩

theorem witness_FormsGoOn : s0.Ready [] x0 ∧ x0.sp.id = x0.f.split ∧ Passes x0 (.brd 7 4 4) [] (x0.f.addr + brdTarget [] 4) ∧
    Passes x0 (.brd 0 4 4) [] x0.f.next ∧ Passes x0 (.cwpwait 1 0) [rdG 0 1] x0.f.next ∧ Passes x0 .yield [] x0.f.next ∧
    Passes x0 (.qtokTry 1 6) [wrG 0 1, rdG 1 6 2] x0.f.next ∧ Passes x0 (.qtokAcq 1 6) [rdG 0 1, rdG 1 6 2] x0.f.next ∧
    Passes x0 (.qtokRel 1 6) [rdG 0 1, rdG 1 6 2] x0.f.next :=
  ⟨ready0 _ rfl, rfl, by apply Passes.brdTaken <;> decide +kernel, by apply Passes.brdPassed <;> decide +kernel,
    by apply Passes.cwpwait <;> decide +kernel, .yield (by decide +kernel), .qtokTry 1 6 _ rfl, .qtokAcq 1 6 _ rfl (by decide +kernel),
    .qtokRel 1 6 _ rfl (by decide +kernel)⟩

theorem witness_tileFormsGoOn : Passes xM (.cpyIn 0 1 5) [opT 0 0, opT 1 1, rdG 2 5] xM.f.next ∧
    Passes xM (.tloadP 2 1 5) [opT 0 2, opT 1 1, rdG 2 5] xM.f.next ∧ Passes xM (.tstore 0 1 5) [opT 0 0, opT 1 1, rdG 2 5] xM.f.next ∧
    Passes xM (.tdescR 1 1 5) [wrG 0 1, opT 1 1, rdG 2 5] xM.f.next ∧ Passes xM (.ald 1 0) [opA 0 1, opT 1 0] xM.f.next ∧
    Passes xM (.aadd 1 2) [opA 0 1, opA 1 2] xM.f.next ∧ Passes xM (.aget 7 20 2 5) [wrV 0 20, opA 1 2, rdG 2 5] xM.f.next ∧
    Passes xM (.aset 0 20 2 5) [rdV 0 20, opA 1 2, rdG 2 5] xM.f.next ∧ Passes xM (.aepi 0 2 48) [opT 0 0, opA 1 2, rdG 2 48 8] xM.f.next :=
  ⟨by refine .copy true 0 1 5 _ ?_ ?_ ?_ ?_ ?_ ?_ (recordM _ _ _ _ _ _ ?_ ?_) ?_ <;> decide +kernel,
    by refine .tload true 2 1 5 _ ?_ ?_ ?_ (recordM _ _ _ _ _ _ ?_ ?_) ?_ <;> decide +kernel,
    by refine .tstore 0 1 5 _ ?_ ?_ ?_ (recordM _ _ _ _ _ _ ?_ ?_) ?_ <;> decide +kernel,
    by refine .tdesc false 1 1 5 ?_ ?_ ?_ <;> decide +kernel, by refine .ald 1 0 ?_ ?_ <;> decide +kernel,
    by refine .aadd 1 2 ?_ ?_ ?_ <;> decide +kernel, .aget 7 20 2 5 (.inr (by decide +kernel)), .aset 0 20 2 5 (.inl (by decide +kernel)),
    .aepi false 0 2 48 (by simp only [epilogueReady]; decide +kernel) (by decide +kernel)⟩

theorem witness_workFormsGoOn : Passes xB (.pbinit 2 5) [opT 0 2, rdG 1 5] xB.f.next ∧ Passes xB (.pbarrive 2 6) [opT 0 2, rdG 1 6] xB.f.next ∧
    Passes xB (.pbwait 2 7) [opT 0 2, rdG 1 7] xB.f.next ∧ Passes xB (.fetchw 2 6) [opT 0 2, rdG 1 6] xB.f.next ∧
    (∃ t, xL.s.access 0 false 1 .lane (xL.k.readG64 6) 64 64 .load = .ok t) ∧ Passes xR (.jrecTok 20 8) [wrG 0 20 2, rdG 1 8 4] xR.f.next ∧
    Passes xR (.jemit 12) [rdG 1 12 4] xR.f.next ∧ Passes xR (.jmark 12) [rdG 1 12 4] xR.f.next ∧ Passes xR (.jtrunc 16) [rdG 1 16 4] xR.f.next ∧
    (let x : Iss := { issuerOf pkW {} plain sp0 with s := withCx (withPack pkW {}) }
     Passes x (.wlpush 7 0 2) [rdV 0 0, rdV 1 2] x.f.next ∧ Passes x (.wldone 1) [] x.f.next) :=
  ⟨by refine .pbinit 2 5 ⟨?_, ?_⟩ ?_ ?_ <;> decide +kernel, by refine .pbarrive 2 6 ⟨?_, ?_⟩ ?_ ?_ <;> decide +kernel,
    by refine .pbwait 2 7 ⟨?_, ?_⟩ ?_ ?_ ?_ <;> decide +kernel,
    .fetchw 2 6 (by decide +kernel) (by decide +kernel) rfl (by decide +kernel), isOk (by decide +kernel),
    .jrec _ 1 20 8 q0 (.tok 20 8) (by simp only [canRecord]; decide +kernel) (by decide +kernel),
    by apply Passes.jemit 12 q0 <;> decide +kernel, by apply Passes.jmark 12 q0 <;> decide +kernel,
    by apply Passes.jtrunc 16 q0 <;> decide +kernel,
    .wlpush 7 0 2 fun _ => ⟨by simp [Iss.lists, issuerOf]; decide +kernel, by decide +kernel⟩,
    .wldone 1 fun _ => ⟨by simp [Iss.lists, issuerOf]; decide +kernel, by decide +kernel⟩⟩

/-- Splits stalled at instructions whose conditions hold, as in the witnesses above. -/
theorem witness_stallsGoOn :
    (∃ x, (stalledAt (.wait 0 0 0 0) {} pk).stalled 0 0 0 = some x ∧ x.sp.id = 0 ∧ Resumes x 0 0 0 (.wait 0 0 0 0) (.waitSatisfied 0 0 0)) ∧
    (∃ x, (stalledAt (.cwpwait 5 0) {} pk).stalled 0 0 0 = some x ∧ Resumes x 0 0 0 (.cwpwait 5 0) (.cwpwaitPass 0 0 0)) ∧
    (∃ x, (stalledAt (.pbwait 2 7) cB pkB).stalled 0 0 0 = some x ∧ Resumes x 0 0 0 (.pbwait 2 7) (.pbwaitPass 0 0 0)) ∧
    (∃ x, (stalledAt (.acquire 5 6) {} pk).stalled 0 0 0 = some x ∧ Resumes x 0 0 0 (.acquire 5 6) (.qtokAcqPass 0 0 0)) ∧
    (∃ x, (withCx (stalledAt (.wlpush 7 0 2) {} pkW)).stalled 0 0 0 = some x ∧ Resumes x 0 0 0 (.wlpush 7 0 2) (.wlpushResume 0 0 0)) ∧
    (∃ x, (listed (stalledAt (.wlpop 7 20 8 1) {} pkW)).stalled 0 0 0 = some x ∧ Resumes x 0 0 0 (.wlpop 7 20 8 1) (.wlpopResume 0 0 0)) ∧
    ∃ x, (withLaunch lJ (withCx (stalledAt (.jrec 1 20 8) {} pkR))).stalled 0 0 0 = some x ∧
      Resumes x 0 0 0 (.jrec 1 20 8) (.jrecAcceptance 0 0 0) :=
  ⟨⟨_, rfl, rfl, by apply Resumes.wait <;> decide +kernel⟩, ⟨_, rfl, by apply Resumes.cwpwait <;> decide +kernel⟩, ⟨_, rfl, .pbwait _ _ (by decide +kernel)⟩, ⟨_, rfl, .acquire _ _ _ rfl (by decide +kernel)⟩,
    ⟨_, rfl, .wlpush _ _ _ (by decide +kernel)⟩, ⟨_, rfl, .wlpop _ _ _ _ _ rfl (.inl (by decide +kernel))⟩,
    _, rfl, .jrec _ _ _ q0 (by simp only [canRecord]; decide +kernel)⟩

/-- Words that stop their split. -/
theorem witness_formsStop : s0.Ready [] x0 ∧ x0.sp.id = x0.f.split ∧ Stops x0 .bar [] ∧ Stops x0 (.aflush 0) [] ∧
    Stops xJ (.mmj 0 2 2) [opA 0 0, rdV 1 2, opT 2 2 2] ∧
    Stops xJ (.mmc 40 2 2) [rdG 0 40 8, rdV 1 2, opT 2 2 2, { field := 3, cls := .a, idx := 0, cnt := 16 }] :=
  ⟨ready0 _ rfl, rfl, .bar, .aflush 0,
    by refine .mmj 0 2 2 (fun _ h => nomatch h) ?_ ?_ ?_ ?_ ?_ ?_ <;> decide +kernel,
    by refine .mmc 40 2 2 _ rfl ?_ ?_ ?_ ?_ ?_ ?_ ?_ <;> decide +kernel⟩

/-- Events of the engines, the barriers and the work of packs, each in a state where it comes about. -/
theorem witness_engineEvents :
    (let o := { outstanding .cp (.copy 0 3 true 0 8 2 [(0x6000, 8, 0)]) with path := .copy }
     Happens (withPack (pkOp o) { copyQ := [(0, 0, 7)] }) (.copyCompletion 0 0 8)) ∧
    (let o := { outstanding .tl (.acc 0 15 0 0) with path := .matrix }
     Happens (sOp o) (.tileOpCompletion 0 0 7)) ∧
    Happens (atFlush [acc0] []) (.aflushFlush 0 0 0) ∧ Happens (atBarrier false) (.barCompletion 0 0 0) ∧ Happens sDead (.barrierDeadlock 0 0 0) ∧
    Happens (sJ [arrival 0 [], arrival 1 []] (some .joint) none) (.jointFormation 0 0) ∧
    Happens (sJ [arrival 0 [0, 0, 0x00010101, 0, 0, 0, 0, 0]] (some .joint) none) (.coopRendezvous 1 0) ∧
    (let k := { pk with fetch := some { mailbox := 0 } }
     Happens (withPack k {}) (.fetchwAnswer 0 0)) ∧
    Happens (sOp opBst) (.bstEmission 0 0 7) ∧ Happens { s0 with frame := 3, inflight := [payload0] } (.broadcastDelivery 1) ∧
    Happens s0 (.filterEntryWrite 0 1 0 4 8191) ∧ Happens s0 (.settFrame []) ∧ Happens s0 (.tableWalk 0 0) :=
  ⟨.copyPart 0 0 8 _ _ _ _ _ _ _ _ _ _ rfl ⟨rfl, rfl⟩ rfl (by decide) (by decide) (by decide +kernel),
    .tileOp 0 0 7 _ _ ⟨rfl, rfl⟩ rfl (by decide +kernel) (by decide +kernel) trivial, by refine .flush 0 0 0 _ rfl ?_ ?_ ?_ <;> decide +kernel,
    .barrier 0 0 0 _ rfl (by decide +kernel) (by decide +kernel), .deadlock 0 0 0 _ rfl (by decide +kernel),
    .joint 0 0 _ _ rfl rfl (by decide +kernel), .coop 1 0 _ rfl (by decide +kernel) (by decide +kernel), .fetched 0 0 _ _ _ rfl rfl rfl,
    by refine .emitted 0 0 7 _ _ 1 4096 1 [(0, 5)] 0 ⟨rfl, rfl⟩ rfl rfl ?_ ?_ ?_ ?_ <;> decide +kernel,
    .delivered 1 payload0 (by decide +kernel), .filtered 0 1 0 4 8191 (by decide) (by decide) (by decide), .frame [] (.inr rfl),
    .tableWalk 0 0 1 (by decide +kernel) (by decide +kernel)⟩

/-- Events of the Trail, of launches and of pre-emption. -/
theorem witness_launchEvents :
    Happens sP (.emissionRelease 1 3) ∧ Happens sP (.heartbeatSend 5) ∧ Happens sP (.peerSilent 5) ∧ Happens (sC lEnd) (.launchRecordConsume 0) ∧
    Happens { sC createRec with contexts := [] } (.create 0) ∧ Happens (sC destroyRec) (.destroy 0) ∧
    Happens (sC { launchRec with phase := .resident }) (.launchDispatch 0) ∧ Happens (sC lWalk) (.leaseWalk 0 0) ∧
    Happens (sC lEnd) (.launchCompletion 0 0) ∧
    (let k := { pk with exited := BitVec.allOnes 32, splits := [], order := [] }
     Happens (withPack k {}) (.packEnd 0 0)) ∧
    Happens (sC lEnd) (.queueAging 0) ∧ Happens (sC lEnd) (.quiescenceDeclared 1) ∧
    Happens (onCore (some .flush) false) (.victimStop 0 0 0) ∧ Happens (onCore (some .save) false) (.victimStop 0 0 0) ∧
    Happens sSaved (.closureRestore 1 5 0 [0]) ∧
    Happens { s0 with resvs := [(2, { ctx := 1, peer := 0, planes := 1, token := 0, dest := 0, len := 0, dormant := some 0 })] }
      (.reservationExpiry 2) ∧
    (let m : Migration := { ctx := 1, va := 0, newPa := 0x9000, size := 4096, oldPa := 0x6000, leafAt := 0x5000, leaf := 0, armed := [] }
     Happens { s0 with migrations := [(0, m)] } (.migrateCommit 0)) :=
  ⟨.emission 1 3 cx q0 _ [] rfl rfl rfl rfl (by decide +kernel) (by decide +kernel), .beat 5 _ rfl rfl (by decide +kernel),
    .silent 5 _ rfl (.inl rfl) (by decide +kernel), .consumed 0 (by decide) (by decide +kernel) (by decide +kernel),
    .create 0 createRec (by decide +kernel) (by decide +kernel), .destroy 0 destroyRec (by decide +kernel) (by decide +kernel),
    .dispatch 0 { launchRec with phase := .resident } (by decide +kernel) (by decide +kernel) (by decide) rfl (fun _ _ _ => by rw [if_neg (by decide)]; decide +kernel),
    .walked 0 0 lWalk fetchContext (by decide +kernel) (by decide +kernel) rfl rfl rfl (by decide +kernel),
    .completed 0 0 lEnd (by decide +kernel) rfl (by decide +kernel) (by decide +kernel) (by decide +kernel),
    .packEnd 0 0 _ rfl (by decide +kernel) (by decide +kernel) rfl, .aged 0 _ rfl (by decide +kernel),
    .quiescent 1 fetchContext rfl rfl (by decide +kernel),
    .flushed 0 0 0 _ _ rfl rfl rfl rfl fun _ => by simp only [canHalt]; decide +kernel,
    .stopped 0 0 0 _ _ rfl rfl rfl rfl fun _ => by simp only [canHalt]; decide +kernel,
    .restored 1 5 0 [0] _ save0 _ rfl rfl rfl rfl rfl (by decide +kernel) (by decide +kernel) (by decide +kernel),
    .expired 2 _ 0 rfl rfl (by decide), .migrated 0 _ rfl (by decide +kernel)⟩

/-- Events of a host complex, of bring-up and of the optics. -/
theorem witness_hostEvents : Occurs sE (.eventDelivery 1) ∧ Occurs s0 (.semaphoreAcquire 0 3) ∧ Occurs s0 (.registerWrite 0 0x1000 4 1) ∧
    Occurs (sRange 3) (.revoke 0) ∧ Occurs s0 (.islandPointWrite 0 3 2) ∧ Occurs s0 (.islandThrottle 3 1 100) ∧
    Occurs { State.reset with phase := 1 } (.selftestDone [{ kind := 1, loc := 0x105 }]) ∧
    Occurs { State.reset with phase := 2 } (.seamtrainDone (List.replicate 11 2) []) ∧
    Occurs { State.reset with phase := 3 } (.mergeDone (List.range 40) true true) ∧ Occurs { State.reset with phase := 4 } (.verifyDone 0) ∧
    Occurs State.reset .standbyPowerOn ∧ Occurs { State.reset with mgmt := { standby := true } } (.mgmtQuery 9 (7 + 65536 * mgmtPort) (dgram 3)) ∧
    Occurs { State.reset with mgmt := { standby := true, wait := 1000000000 } } .mgmtStatusPeriodic ∧ Occurs (sRing [41]) (.ringFailure 2 5) ∧
    Occurs s0 (.receiveRingFailure 2 5) ∧ Occurs sPorts (.portEnable 0 0) ∧ Occurs sPorts (.portCarrierLock 1) ∧
    Occurs sResv (.collectiveChunkArrival 2 0 true (List.replicate 65536 0)) ∧ Occurs s0 (.coreFailure 3) :=
  ⟨.event 1 _ rfl (by simp only [deliverable]; decide +kernel), .acquire 0 3 (by decide) (by decide), .register 0 0x1000 4 1 (by decide) (by decide),
    .command _ 3 0 (.revoke 0) (by decide) (by decide +kernel), .point 0 3 2 (by decide) (by decide), .throttle 3 1 100 (by decide) (by decide +kernel),
    .selftest _ rfl (by decide +kernel), .seamtrain _ _ rfl rfl (by decide), .merge _ true true rfl (fun _ => by decide +kernel),
    .verify 0 rfl (by decide), .standby rfl, .query 9 7 _ rfl (by decide) (by decide +kernel), .status rfl (by decide),
    .ring 2 5 (by decide) (by decide) (by decide +kernel) (by decide +kernel), .receiveRing 2 5 (by decide) (by decide) (by decide +kernel),
    .portWrite _ 0 0 _ (.enable 0 0) (by decide), .portMove _ 1 _ (.carrier 1 (by decide +kernel)) (by decide),
    .chunk 2 0 true _ resv2 rfl rfl rfl List.length_replicate (by decide) (.inl rfl),
    .core 3 (by decide) (by decide +kernel)⟩

/-- A split stalled at a `wait` whose condition holds, and splits at a second slot and past the section. -/
theorem witness_stepClauses :
    (let s := stalledAt (.wait 0 0 0 0) {} pk
     turnOf (.waitSatisfied 0 0 0) = some (0, 0, 0) ∧ s.picks 0 0 0 = true ∧
       ∃ g t, Stall.event 0 0 0 (.wait 0 0 0 0) = some g ∧ g (s.takeTurn 0 0 0) = .next t) ∧
    (∃ k sp, (withPack { pk with splits := [(0, { sp0 with pc := 1 })] } {}).Issues 0 0 0 k sp ∧ sp.pc.toNat % 2 = 1 ∧
      ∃ t, ({ withPack { pk with splits := [(0, { sp0 with pc := 1 })] } {} with mem := sFetch.mem.writeLE 0x6100 4 0xFC00FC02 } : State).WordAt 0 k 0
        0xFC00FC02 t) ∧
    (∃ k sp, (withPack { pk with splits := [(0, { sp0 with pc := 0x80 })] } {}).Issues 0 0 0 k sp ∧
      ((withPack k {}).header k).codeSize ≤ 2 * (sp.pc.toNat - sp.pc.toNat % 2)) ∧
    turnOf (.islandPointWrite 1 3 2) = none ∧ complexOf (.islandPointWrite 1 3 2) = some 1 ∧ bit (sTime 0).hosts 0 = true ∧ bit (sTime 0).hosts 1 = false :=
  ⟨⟨rfl, by decide +kernel, _, _, rfl, rfl⟩,
    ⟨_, _, ⟨by decide +kernel, rfl, rfl⟩, by decide, _, by decide +kernel, _, _, rfl, by decide +kernel⟩,
    ⟨_, _, ⟨by decide +kernel, rfl, rfl⟩, by decide +kernel⟩, by decide +kernel⟩

/-! ### Witnesses: further clauses -/

/-- Split 0 awaits its operation over lanes 3 and 4, and more splits that wait fill `n` further identifiers. -/
def pkAwait (kind : OpKind) : Pack :=
  { pk with
    splits := [(0, { sp0 with await := some 7 })]
    ops := [{ outstanding .ld kind with lanes := [{ lane := 3, pa := 0x6008, data := 9, aux := 0 }, { lane := 4, pa := 0x6010, data := 0, aux := 1 }] }] }

/-- A polled load of two lanes, one of whose values is the one its register held, and a compare-and-swap one of whose lanes finds what it compares. -/
theorem witness_pollsAndSwaps : ∀ kind ∈ [OpKind.poll 20 4, .atomic 9 (some 20)], let k := pkAwait kind
    ∃ o sp, (withPack k {}).pack 0 0 = some k ∧ k.ops.find? (fun p => p.id == 7) = some o ∧ k.mayPerform o 24 = true ∧
      (withPack k {}).detHeld 0 o = false ∧ wholeAtOnce o 24 ∧ awaitedBy k o 0 sp ∧ spillsNothing (withPack k {}) 0 0 k o ∧
      k.split k.freshId = none ∧ (∀ l ∈ o.lanes, bit l.attr 1 = false ∧ l.data < 256 ^ 4 ∧ l.aux < 256 ^ 4) ∧
      1 ≤ ((withPack k {}).core 0).reachable 0 (k.setSplit { sp with await := none }).entries ∧
      (o.lanes.filter fun l => loadedFor (withPack k {}) 0 { k with ops := [] } { o with kind := .poll 20 4 } 0 l == l.aux).length = 1 := by
  intro kind h
  fin_cases h <;>
    exact ⟨_, _, rfl, rfl, by decide +kernel, by decide +kernel, ⟨by decide +kernel, by decide +kernel⟩, ⟨rfl, rfl, rfl, by decide +kernel⟩,
      by simp only [spillsNothing]; decide +kernel, by decide +kernel⟩

/-- A compress-store whose first element lies in the broadcast aperture. -/
def pkF0 : Pack := { pk with g := [(2, 3), (4, 64), (10, 0x1000), (20, 0x1000)] }
def xF0 : Iss := issuerOf pkF0 {} plain sp0

theorem witness_compressStoreFirstFails : (issuing pkF0 {} plain).Ready [rdG 0 20 2, rdV 1 2 1] xF0 ∧ xF0.mustWait (elementAcc 4) = false ∧
    xF0.unperformed = false ∧
    let t := xF0.s.checkAll xF0.f.core xF0.k.ctx .lane 4 4 .store (storeElements 4 20 2 xF0 (xF0.k.active xF0.sp 1))
    ∃ r e rest, t.2[0]? = some (r, .error e) ∧ failures t.2 = (r, e) :: rest :=
  ⟨⟨rfl, rfl, rfl, rfl⟩, by decide +kernel, by decide +kernel, _, _, _, rfl, rfl⟩

/-- Queue 0 bound to the pack's own queue 3, to a pack that has ended, and to a pack whose queue is full; and `qpush` unblocked. -/
def bound (slot r : Nat) : Pack := { pk with queues := [(0, { bind := .peer slot r })] }
def fullQ : Queue := { entries := List.replicate 8 { mask := 1, vals := [] } }
def sPush (k peer : Pack) (st : Option Stall) : State :=
  { withLaunch lQ s0 with
    cores := [(0, { packs := [(0, { k with splits := [(0, { sp0 with stall := st })] }), (1, peer)] })]
    focus := if st = none then some (fo plain) else none }

theorem witness_pushForms :
    (∃ x, (sPush (bound 0 3) pk none).Ready [rdV 1 2] x ∧ x.k.active x.sp 7 ≠ 0 ∧ x.k.scBusy = false ∧ (x.k.queue 0).bind = .peer x.f.slot 3 ∧
      x.peerIn x.f.slot = true ∧ (x.k.queue 3).entries.length + x.k.streaming 3 < 8) ∧
    (∃ x, (sPush (bound 1 3) { pk with phase := .ended } none).Ready [rdV 1 2] x ∧ x.peerIn 1 = false) ∧
    (∃ x k, (sPush (bound 1 3) { pk with queues := [(3, fullQ)] } none).Ready [rdV 1 2] x ∧ x.peerIn 1 = true ∧
      x.s.pack x.f.core 1 = some k ∧ 8 ≤ (k.queue 3).entries.length + k.streaming 3) ∧
    ∃ x k, (sPush (bound 1 3) pk (some (.qpush 7 0 2))).stalled 0 0 0 = some x ∧ x.sp.stall = some (.qpush 7 0 2) ∧ x.k.scBusy = false ∧
      x.peerIn 1 = true ∧ x.s.pack x.f.core 1 = some k ∧ (k.queue 3).entries.length + k.streaming 3 < 8 :=
  ⟨⟨_, ⟨rfl, rfl, rfl, rfl⟩, by decide +kernel⟩, ⟨_, ⟨rfl, rfl, rfl, rfl⟩, by decide +kernel⟩,
    ⟨_, _, ⟨rfl, rfl, rfl, rfl⟩, by decide +kernel, rfl, by decide +kernel⟩, _, pk, rfl, rfl, by decide +kernel⟩

theorem witness_moreTileCompletions : ∀ kind ∈ [OpKind.acc 3 15 0 0, .acc 4 0 15 0, .tload true 20 0 4 0 8 1 256 [(0x6000, 16, 0)],
      .tile [] [1] [] [(5, 6)] 0 3],
    let o := { outstanding .tl kind with path := .matrix }
    (sOp o).pack 0 0 = some (pkOp o) ∧ (pkOp o).ops.find? (fun p => p.id == 7) = some o ∧ o.done = false ∧ (sOp o).detHeld 0 o = false ∧
      ((sOp o).core 0).tileBusy 0 o.kind.spans o.kind.grans o.stamp = false ∧
      (∀ p ∈ (sOp o).jointOps 3, ((sOp o).core p.1).tileBusy p.2.1 p.2.2.kind.spans p.2.2.kind.grans p.2.2.stamp = false) ∧
      ((sOp o).jointOps 3).Nodup := by decide +kernel

/-- A payload that one cluster waits to apply: in FIFO bank 1 of its core 0, or in a ring of two slots at 0x9000. -/
def payload1 : Payload := { payload0 with late := some [0] }
def sFilter (mode : Nat) : State :=
  { withPack pk (fifo1 []) with
    frame := 3, inflight := [payload1]
    window := ((Bytes.writeLE [] (filterAt 0 1) 1 (mode + 4)).writeLE (filterAt 0 1 + 2) 2 2).writeLE (filterAt 0 1 + 8) 8 0x9000
      |>.writeLE (filterAt 0 1 + 16) 16 1 }

theorem witness_broadcastDelivery : (∀ mode ∈ [1, 2], (sFilter mode).nextPayload 1 = some payload1 ∧
      (∀ c ∈ payload1.waiting, (sFilter mode).canApply payload1 c = true ∧ (sFilter mode).behindAt payload1 c = false) ∧
      payload1.waiting = [0] ∧ ((sFilter mode).filter 0 1).mode = mode ∧ ((sFilter mode).filter 0 1).slots = 2 ∧
      ((sFilter mode).core 0).bank ((sFilter mode).filter 0 1).bank = .fifo ∧ 0 ∈ ((sFilter mode).filter 0 1).cores ∧
      (((sFilter mode).core 0).fifo 1).full = false) ∧
    ∃ g, (sFilter 2).group payload1.tag payload1.group = some g ∧ ∃ e ∈ (sFilter 2).groupPacks g, e.2.2.reaped = false :=
  ⟨by decide +kernel, _, rfl, by decide +kernel⟩

/-- A DESTROY that waits, and another of the same context. -/
theorem witness_secondDestroy : let s := { sC destroyRec with contexts := [(1, { fetchContext with ending := some { queue := 3, index := 0 } })] }
    s.headRecord 0 = some destroyRec ∧ destroyFault destroyRec.bytes = none ∧
      ∃ c, s.context destroyRec.ctx = some c ∧ c.ending = some { queue := 3, index := 0 } :=
  ⟨by decide +kernel, by decide +kernel, _, rfl, rfl⟩

/-- A closure that has stopped issuing, before its stop and after it. -/
def stopping (stopped : Bool) : State :=
  let s := onCore (some .save) stopped
  { s with cores := [(0, { packs := [(0, { pkS with stopping := true })], banks := [(0, .cache)] })] }

theorem witness_closureStopsAndIsSaved : ∀ stopped ∈ [false, true], ∃ g, (stopping stopped).group { queue := 0, index := 0 } 0 = some g ∧
    g.victim = some .save ∧ g.stopped = stopped ∧ (stopping stopped).saveFits 1 g = true ∧
    (stopping stopped).flushDue ((stopping stopped).packsOn 1 ((stopping stopped).closureOf 1 g)) = false ∧
    (∀ p ∈ (stopping stopped).packsOn 1 ((stopping stopped).closureOf 1 g), p.2.2.quiet = true ∧ p.2.2.stopping = true ∧
      ((stopping stopped).group p.2.2.tag p.2.2.group).map (·.victim) = some (some .save)) ∧
    ((stopping stopped).carve 1 (ceilDiv ((stopping stopped).saveBytes ((stopping stopped).closure 1 g)).length 4096)).isSome = true := by
  intro st h
  fin_cases h <;> exact ⟨_, rfl, by decide +kernel⟩

/-- A saved closure whose record holds its bytes. -/
theorem witness_recordHeld : sSaved.mem.readList save0.base save0.size = save0.bytes ∧
    (∀ p ∈ save0.cores.zip [0], (p.1.2.packs.map (·.1)).Nodup) ∧ ∀ q ∈ save0.cores, ∀ e ∈ q.2.packs, e.2.reaped = false := by decide +kernel

/-- Lists that are empty, full and held; a context declared quiescent; and no active lane. -/
theorem witness_workLists :
    (let x : Iss := { issuerOf pkW {} plain sp0 with s := { withCx (withPack pkW {}) with
       contexts := [(1, { cx with lists := [(3, { ring := 0x8000, cap := 64, count := 40 })] })] } }
     x.lists ≠ [] ∧ x.k.active x.sp 7 ≠ 0 ∧ x.fits (x.k.active x.sp 7) 0 = false ∧ (∃ w, x.lists.get (x.g 8).toNat = some w ∧ w.count ≠ 0)) ∧
    (let x : Iss := { issuerOf pkW {} plain sp0 with s := withCx (withPack pkW {}) }
     ∃ w, x.lists.get (x.g 8).toNat = some w ∧ w.count = 0 ∧ x.quiet = false ∧ x.k.active x.sp 0 = 0) ∧
    ({ issuerOf pkW {} plain sp0 with s := { withCx (withPack pkW {}) with contexts := [(1, { cx with quiescent := true })] } } : Iss).quiet = true :=
  ⟨⟨by simp [Iss.lists, issuerOf]; decide +kernel, by decide +kernel, by decide +kernel, _, rfl, by decide +kernel⟩, ⟨_, rfl, by decide +kernel⟩,
    by decide +kernel⟩

/-- A split that waits at `qtok.acq g5, g6`, whose token VA 0 does not reach, with `bst` of v2 to the aperture behind it. -/
def sAhead (a : Option (Word × Word)) : State :=
  let k := { pk with g := [(5, 7), (10, 0x1000)], splits := [(0, { sp0 with stall := if a = none then some (.acquire 5 6) else none, ahead := a })] }
  { withPack k {} with
    mem := ((withPack k {}).mem.writeLE 0x6100 4 0xDDC28602).writeLE 0x6104 4 0x9BC10A00 }

/-- The split of slot 0 and the broadcast stores outstanding there after a step. -/
def ahead0 (o : Out) : Option (Word × Option Stall × Option (Word × Word) × Nat) :=
  match o with
  | .next t => (t.pack 0 0).bind fun k => (k.split 0).map fun sp => (sp.pc, sp.stall, sp.ahead, (k.ops.filter fun p => p.path == .broadcast).length)
  | _ => none

theorem test_aheadWords : decodeWord 0xDDC28602 = .ok (.qtokAcq 5 6) ∧ decodeWord 0x9BC10A00 = .ok (.bst 7 2 10 0) := by decide +kernel

/-- 14 R315: the broadcast store goes first, and the split waits on at the acquire. -/
theorem test_storeAheadOfAcquire :
    ahead0 (step { sAhead none with agenda := [.ahead 0 0 0] }) = some (0, some (.acquire 5 6), some (2, 4), 1) := by decide +kernel

/-- When the split comes to it, it passes over the store. -/
theorem test_storePassedOver :
    ahead0 (step { sAhead (some (0, 2)) with agenda := [.issue 0 0 0] }) = some (2, none, none, 0) := by decide +kernel

end Sys2Proof.Tests
end

/-!
Host complexes, the device window and PCI Express endpoints (00 R8, 11 R290, 16 R345, R356-R364): what a write from outside the clusters
leaves, event delivery, semaphores, the reset of a complex, register writes and accesses of host harts, and the statement O48 from them.
-/

namespace Sys2Proof.Machine

/-! ### Lists of bytes in memory -/

@[simp] theorem length_bytesLE (n v : Nat) : (bytesLE n v).length = n := by
  induction n generalizing v with
  | zero => rfl
  | succ n ih => simp [bytesLE, ih]

theorem Bytes.writeList_bytesLE (m : Bytes) (a n v : Nat) : m.writeList a (bytesLE n v) = m.writeLE a n v := by
  induction n generalizing m a v with
  | zero => rfl
  | succ n ih => exact ih _ _ _

/-- A read depends on the bytes it names only. -/
theorem Bytes.readList_congr {m m' : Bytes} {a n : Nat} (h : ∀ j, a ≤ j → j < a + n → m.get j = m'.get j) :
    m.readList a n = m'.readList a n := by
  induction n generalizing a with
  | zero => rfl
  | succ n ih =>
    rw [Bytes.readList, Bytes.readList, h a (by omega) (by omega), ih fun j h1 h2 => h j (by omega) (by omega)]

theorem Bytes.readList_writeList (m : Bytes) (a : Nat) (l : List Byte) : (m.writeList a l).readList a l.length = l := by
  induction l generalizing m a with
  | nil => rfl
  | cons b l ih =>
    rw [Bytes.writeList, List.length_cons, Bytes.readList, ih, Bytes.get_writeList_of_outside _ _ (by omega), Bytes.get_set, if_pos rfl]

/-- What lies at an address after a list of bytes is written depends on what lay there before only. -/
theorem Bytes.get_writeList_congr {m m' : Bytes} {j : Nat} (h : m.get j = m'.get j) (a : Nat) (l : List Byte) :
    (m.writeList a l).get j = (m'.writeList a l).get j := by
  induction l generalizing m m' a with
  | nil => exact h
  | cons b l ih => exact ih (by rw [Bytes.get_set, Bytes.get_set, h]) _

/-- A record written from its second byte on, then its first byte, is the record written (16 R364). -/
theorem Bytes.get_writeList_tail_head (m : Bytes) (a : Nat) (l : List Byte) (j : Nat) :
    ((m.writeList (a + 1) (l.drop 1)).writeList a (l.take 1)).get j = (m.writeList a l).get j := by
  cases l with
  | nil => rfl
  | cons b l =>
    show (((m.writeList (a + 1) l).set a b).get j) = ((m.set a b).writeList (a + 1) l).get j
    rw [Bytes.get_set]
    split
    · next h => rw [Bytes.get_writeList_of_outside _ _ (by omega), Bytes.get_set, if_pos h]
    · next h => exact Bytes.get_writeList_congr (by rw [Bytes.get_set, if_neg h]) _ _

/-! ### Fields of the window -/

@[simp] theorem State.win_setWin_self (s : State) (off n v : Nat) : (s.setWin off n v).win off n = v % 256 ^ n :=
  Bytes.readLE_writeLE _ _ _ _

/-- Where every bit of the bytes is writable, a masked write is a write. -/
theorem State.setWinMasked_eq_setWin (s : State) {off : Nat} {mask : Nat → Byte} {n : Nat} (h : ∀ k, k < n → mask (off + k) = 0xFF)
    (v : Nat) : s.setWinMasked off mask n v = s.setWin off n v := by
  induction n generalizing s off v with
  | zero => rfl
  | succ n ih =>
    have hm : mask off = BitVec.allOnes 8 := h 0 (by omega)
    simp only [State.setWinMasked, hm, BitVec.not_allOnes, BitVec.and_zero, BitVec.zero_or, BitVec.and_allOnes]
    rw [ih _ fun k hk => by rw [Nat.add_assoc, Nat.add_comm 1 k]; exact h (k + 1) (by omega)]
    rfl

/-! ### Writes at the point of coherence -/

/-- A line that leaves an L2 leaves L1 copies and what engines wrote, and nothing else (10 R261, 11 R285). -/
theorem State.leaveL2_eq (s : State) (cluster line : Nat) :
    ∃ cores l2 stale, s.leaveL2 cluster line = { s with cores := cores, l2 := l2, stale := stale } :=
  ⟨_, _, _, rfl⟩

theorem State.takeLine_eq (s : State) (cluster : Option Nat) (line : Nat) :
    ∃ cores l2 stale, s.takeLine cluster line = { s with cores := cores, l2 := l2, stale := stale } := by
  unfold State.takeLine
  generalize s.l2.filter _ = es
  induction es generalizing s with
  | nil => exact ⟨_, _, _, rfl⟩
  | cons e es ih =>
    obtain ⟨c, l, st, h⟩ := s.leaveL2_eq e.1 line
    rw [List.foldl_cons, h]
    exact ih _

/-- A write by a unit that keeps no copy changes memory, its history, the caches and the translations, and nothing else. -/
theorem State.outsideWrite_eq (s : State) (pa : Nat) (bs : List Byte) :
    ∃ cores l2 stale tlb walkCache pageLists, s.outsideWrite pa bs =
      { s with
        mem := s.mem.writeList pa bs, cores := cores, l2 := l2, stale := stale, tlb := tlb, walkCache := walkCache
        pageLists := pageLists } := by
  suffices h : ∃ cores l2 stale, (lines128 pa bs.length).foldl (fun s l => s.takeLine none l) s =
      { s with cores := cores, l2 := l2, stale := stale } by
    obtain ⟨c, l, st, h⟩ := h
    rw [State.outsideWrite, h]
    exact ⟨_, _, _, _, _, _, rfl⟩
  generalize lines128 pa bs.length = ls
  induction ls generalizing s with
  | nil => exact ⟨_, _, _, rfl⟩
  | cons x ls ih =>
    obtain ⟨c, l, st, h⟩ := s.takeLine_eq none x
    rw [List.foldl_cons, h]
    exact ih _

@[simp] theorem State.outsideWrite_mem (s : State) (pa : Nat) (bs : List Byte) : (s.outsideWrite pa bs).mem = s.mem.writeList pa bs := by
  obtain ⟨_, _, _, _, _, _, h⟩ := s.outsideWrite_eq pa bs
  rw [h]

@[simp] theorem State.outsideWrite_events (s : State) (pa : Nat) (bs : List Byte) : (s.outsideWrite pa bs).events = s.events := by
  obtain ⟨_, _, _, _, _, _, h⟩ := s.outsideWrite_eq pa bs
  rw [h]

@[simp] theorem State.outsideWrite_outbox (s : State) (pa : Nat) (bs : List Byte) : (s.outsideWrite pa bs).outbox = s.outbox := by
  obtain ⟨_, _, _, _, _, _, h⟩ := s.outsideWrite_eq pa bs
  rw [h]

/-- A write leaves every byte outside it alone. -/
theorem State.outsideWrite_sameOutside (s : State) (pa : Nat) (bs : List Byte) : sameOutside s (s.outsideWrite pa bs) pa bs.length :=
  fun _ h => by rw [State.outsideWrite_mem, Bytes.get_writeList_of_outside _ _ h]

/-! ### Event delivery (16 R364, log entry 57) -/

theorem exec_eventDelivery (ctx : Nat) (s : State) : exec (.eventDelivery ctx) s = execEventDelivery ctx s := rfl

/-- The state once an event's record is in its ring, EVTAIL has moved on and the MSI has gone out. -/
def State.delivered (s : State) (e : Event) (at_ tailAt : Nat) (m : OutMsg) : State :=
  let b := s.finalBytes e
  let t := ((s.outsideWrite (at_ + 1) (b.drop 1)).outsideWrite at_ (b.take 1)).setWin tailAt 4 (s.win tailAt 4 + 1)
  ({ t with events := t.events.erase e } : State).send m

theorem State.delivered_mem (s : State) (e : Event) (at_ tailAt : Nat) (m : OutMsg) (j : Nat) :
    (s.delivered e at_ tailAt m).mem.get j = (s.mem.writeList at_ (s.finalBytes e)).get j := by
  rw [← Bytes.get_writeList_tail_head]
  simp [State.delivered]

theorem State.delivered_readList (s : State) (e : Event) (at_ tailAt : Nat) (m : OutMsg) :
    (s.delivered e at_ tailAt m).mem.readList at_ (s.finalBytes e).length = s.finalBytes e :=
  (Bytes.readList_congr fun j _ _ => s.delivered_mem e at_ tailAt m j).trans (Bytes.readList_writeList _ _ _)

theorem State.delivered_sameOutside (s : State) (e : Event) (at_ tailAt : Nat) (m : OutMsg) :
    sameOutside s (s.delivered e at_ tailAt m) at_ (s.finalBytes e).length :=
  fun j h => (s.delivered_mem e at_ tailAt m j).trans (Bytes.get_writeList_of_outside _ _ h)

theorem State.delivered_win (s : State) (e : Event) (at_ tailAt : Nat) (m : OutMsg) :
    (s.delivered e at_ tailAt m).win tailAt 4 = (s.win tailAt 4 + 1) % 2 ^ 32 := by
  simp only [State.delivered, State.win, State.send_window]
  exact Bytes.readLE_writeLE _ _ _ _

theorem State.delivered_events (s : State) (e : Event) (at_ tailAt : Nat) (m : OutMsg) :
    (s.delivered e at_ tailAt m).events = s.events.erase e := by
  simp [State.delivered]

theorem State.delivered_outbox (s : State) (e : Event) (at_ tailAt : Nat) (m : OutMsg) :
    (s.delivered e at_ tailAt m).outbox = s.outbox ++ [m] := by
  simp [State.delivered, State.send]

/-- A context's oldest event is delivered where its routing entry and the ring permit. -/
theorem exec_eventDelivery_of_deliverable {ctx : Nat} {s : State} {e : Event} (he : s.events.find? (fun e => e.ctx == ctx) = some e)
    (hd : deliverable s ctx e) :
    let r := s.win (0x200000 + 8 * ctx) 8
    let g := ringAt (cut r 1 1)
    exec (.eventDelivery ctx) s = .next (s.delivered e (s.win g 8 + 64 * (s.win (g + 20) 4 % s.win (g + 8) 4)) (g + 20)
      (.msi (msiAddr (cut r 1 1) (cut r 2 5) (cut r 7 3)) (cut r 10 11))) := by
  obtain ⟨hvalid, hintr, henable, hslots, hroom, hdev, hopen⟩ := hd
  simp only [exec_eventDelivery, execEventDelivery, he]
  rw [if_neg]
  · rfl
  · simpa [hvalid, hintr, henable, hslots, hdev, hopen] using hroom

/-! ### Semaphores (16 R359) -/

theorem exec_semaphoreAcquire {complex n : Nat} (hc : complex < 2) (hn : n < 64) (s : State) :
    exec (.semaphoreAcquire complex n) s = .next (s.writeSem complex n 1) :=
  if_neg (by simp; omega)

theorem exec_semaphoreRelease {complex n : Nat} (hc : complex < 2) (hn : n < 64) (s : State) :
    exec (.semaphoreRelease complex n) s = .next (s.writeSem complex n 0) :=
  if_neg (by simp; omega)

/-- A semaphore once its HELD is written: 1 acquires it where it is free, 0 releases it where the complex holds it. -/
theorem State.sem_writeSem_self (s : State) (complex n value : Nat) :
    (s.writeSem complex n value).sem n =
      if value % 2 = 1 then if (s.sem n).held then s.sem n else { held := true, owner := complex, count := ((s.sem n).count + 1) % 2 ^ 16 }
      else if (s.sem n).held ∧ (s.sem n).owner = complex then { s.sem n with held := false } else s.sem n := by
  simp only [State.writeSem, Bool.and_eq_true, beq_iff_eq]
  split
  · split
    · rfl
    · exact Table.getD_put_self _ _ _ _
  · split
    · exact Table.getD_put_self _ _ _ _
    · rfl

theorem State.sem_writeSem_of_ne (s : State) (complex : Nat) {n m : Nat} (value : Nat) (h : m ≠ n) :
    (s.writeSem complex n value).sem m = s.sem m := by
  simp only [State.writeSem]
  split <;> split
  · rfl
  · exact Table.getD_put_of_ne _ _ _ h
  · exact Table.getD_put_of_ne _ _ _ h
  · rfl

/-! ### Reset of a complex (16 R360) -/

/-- A complex holds semaphore `n`. -/
def State.semHeld (s : State) (complex n : Nat) : Prop := ∃ m, s.sems.get n = some m ∧ m.held = true ∧ m.owner = complex

/-- A released semaphore is held no more, and no other is held that was not. -/
theorem State.semHeld_release {s : State} {complex n j : Nat} (h : (s.writeSem complex n 0).semHeld complex j) :
    s.semHeld complex j ∧ j ≠ n := by
  obtain ⟨m, hm, hheld, howner⟩ := h
  simp only [State.writeSem, Nat.zero_mod, zero_ne_one, if_false, Bool.and_eq_true, beq_iff_eq] at hm
  split at hm
  · rw [Table.get_put] at hm
    split at hm
    · cases hm
      exact absurd hheld (by simp)
    · next hj => exact ⟨⟨m, hm, hheld, howner⟩, hj⟩
  · next hfree =>
    refine ⟨⟨m, hm, hheld, howner⟩, fun hj => hfree ?_⟩
    subst hj
    simp [State.sem, Table.getD, hm, hheld, howner]

theorem State.foldl_nominal_mem_sems (l : List Nat) (s : State) :
    (l.foldl (fun s i => s.setIsland i (s.island i).nominal) s).mem = s.mem ∧
      (l.foldl (fun s i => s.setIsland i (s.island i).nominal) s).sems = s.sems := by
  induction l generalizing s with
  | nil => exact ⟨rfl, rfl⟩
  | cons i l ih => exact ih _

/-- The safe states touch neither memory nor the semaphores. -/
theorem State.safeState_mem_sems (s : State) (n : Nat) : (s.safeState n).mem = s.mem ∧ (s.safeState n).sems = s.sems := by
  have twoWays {c : Prop} [Decidable c] {t u : State} (ht : t.mem = s.mem ∧ t.sems = s.sems) (hu : u.mem = s.mem ∧ u.sems = s.sems) :
      (if c then t else u).mem = s.mem ∧ (if c then t else u).sems = s.sems := by
    split
    · exact ht
    · exact hu
  exact twoWays (twoWays ⟨rfl, rfl⟩ ⟨rfl, rfl⟩) <| twoWays (twoWays ⟨rfl, rfl⟩ ⟨rfl, rfl⟩) <| twoWays ⟨rfl, rfl⟩ <|
    twoWays (State.foldl_nominal_mem_sems _ s) <| twoWays ⟨rfl, rfl⟩ ⟨rfl, rfl⟩

/-- A semaphore released and what it guards in its safe state: one step of the reset of a complex. -/
def State.freed (s : State) (complex n : Nat) : State := (s.writeSem complex n 0).safeState n

theorem State.mem_freed (s : State) (complex n : Nat) : (s.freed complex n).mem = s.mem := by
  rw [State.freed, (State.safeState_mem_sems _ _).1]
  simp only [State.writeSem]
  split <;> split <;> rfl

theorem State.semHeld_freed {s : State} {complex n j : Nat} (h : (s.freed complex n).semHeld complex j) : s.semHeld complex j ∧ j ≠ n :=
  State.semHeld_release (by simpa only [State.semHeld, State.freed, (State.safeState_mem_sems _ _).2] using h)

theorem State.mem_foldl_freed (complex : Nat) (ns : List Nat) (s : State) : (ns.foldl (fun s n => s.freed complex n) s).mem = s.mem := by
  induction ns generalizing s with
  | nil => rfl
  | cons n ns ih => rw [List.foldl_cons, ih, State.mem_freed]

theorem State.semHeld_foldl_freed {complex j : Nat} (ns : List Nat) {s : State}
    (h : (ns.foldl (fun s n => s.freed complex n) s).semHeld complex j) : s.semHeld complex j ∧ j ∉ ns := by
  induction ns generalizing s with
  | nil => exact ⟨h, by simp⟩
  | cons n ns ih =>
    obtain ⟨h1, hns⟩ := ih h
    obtain ⟨h0, hn⟩ := State.semHeld_freed h1
    exact ⟨h0, by simp [hn, hns]⟩

theorem Table.mem_of_get {α : Type} {m : Table α} {k : Nat} {v : α} (h : Table.get m k = some v) : (k, v) ∈ m := by
  induction m with
  | nil => cases h
  | cons e m ih =>
    rw [Table.get] at h
    split at h
    · next hk => cases h; exact hk ▸ List.mem_cons_self
    · exact List.mem_cons_of_mem _ (ih h)

/-- The semaphores that a complex holds. -/
def State.heldBy (s : State) (complex : Nat) : List Nat := (s.sems.filter fun m => m.2.held && m.2.owner == complex).map (·.1)

theorem State.mem_heldBy {s : State} {complex n : Nat} (h : s.semHeld complex n) : n ∈ s.heldBy complex := by
  obtain ⟨m, hm, hheld, howner⟩ := h
  exact List.mem_map.2 ⟨(n, m), List.mem_filter.2 ⟨Table.mem_of_get hm, by simp [hheld, howner]⟩, rfl⟩

theorem exec_hostComplexReset {complex : Nat} (hc : complex < 2) (s : State) :
    exec (.hostComplexReset complex) s =
      .next (((s.heldBy complex).foldl (fun s n => s.freed complex n) s).setWin (ringAt complex + 12) 4 0) :=
  if_neg (by omega)

/-- After its reset a complex holds no semaphore, its event ring is not enabled, and memory is as it was. -/
theorem exec_hostComplexReset_frees {complex : Nat} (hc : complex < 2) (s : State) : ∃ t, exec (.hostComplexReset complex) s = .next t ∧
    t.win (ringAt complex + 12) 4 = 0 ∧ t.mem = s.mem ∧ ∀ n, ¬t.semHeld complex n := by
  refine ⟨_, exec_hostComplexReset hc s, State.win_setWin_self _ _ 4 0, State.mem_foldl_freed _ _ _, fun n hn => ?_⟩
  obtain ⟨hheld, hnot⟩ := State.semHeld_foldl_freed (s.heldBy complex) hn
  exact hnot (State.mem_heldBy hheld)

/-! ### Register writes (00 R8, 16 R356) -/

theorem exec_registerWrite {complex offset : Nat} (hc : complex < 2) (ho : offset < 2 ^ 30) (size value : Nat) (s : State) :
    exec (.registerWrite complex offset size value) s = windowStore complex offset size value s :=
  if_neg (by simp; omega)

/-- A command whose block holds it is answered: it ends, or goes on. -/
theorem command_next (mn : String) {kind complex : Nat} {s : State} (hc : complex < 2) (hk : s.cmd complex 0 1 = kind)
    (run : State → Option State) : ∃ t, command mn kind complex s run = .next t := by
  rw [command, if_neg (by omega), if_neg (by simp [hk])]
  cases run s with
  | none => exact ⟨_, rfl⟩
  | some t => exact ⟨t, rfl⟩

theorem ite_next {c : Prop} [Decidable c] {a b : Out} (ha : c → ∃ t, a = .next t) (hb : ¬c → ∃ t, b = .next t) :
    ∃ t, (if c then a else b) = .next t := by
  by_cases h : c
  · rw [if_pos h]; exact ha h
  · rw [if_neg h]; exact hb h

theorem doorbell_next {complex : Nat} (hc : complex < 2) (s : State) : ∃ t, doorbell complex s = .next t := by
  refine ite_next (fun _ => ⟨s, rfl⟩) fun _ => ?_
  split
  case h_15 => exact ⟨_, rfl⟩
  all_goals exact command_next _ hc (by assumption) _

@[simp] theorem inRange_iff (off base n : Nat) : inRange off base n = true ↔ base ≤ off ∧ off < base + n := by
  simp [inRange]

/-- Every write of the window is answered: one of a DOORBELL by its command, any other at once. -/
theorem windowStore_next (complex off size v : Nat) (s : State) : ∃ t, windowStore complex off size v s = .next t := by
  refine ite_next (fun _ => ⟨_, rfl⟩) fun _ => ite_next (fun _ => ⟨_, rfl⟩) fun _ => ite_next (fun _ => ⟨_, rfl⟩) fun _ =>
    ite_next (fun _ => ⟨_, rfl⟩) fun _ => ite_next (fun _ => ⟨_, rfl⟩) fun _ => ite_next (fun _ => ⟨_, rfl⟩) fun _ =>
    ite_next (fun hblock => ?_) fun _ => ite_next (fun _ => ⟨_, rfl⟩) fun _ => ite_next (fun _ => ?_) fun _ => ⟨_, rfl⟩
  · rw [inRange_iff] at hblock
    exact ite_next (fun _ => ⟨_, rfl⟩) fun _ => ite_next (fun _ => doorbell_next (by omega) s) fun _ => ⟨_, rfl⟩
  · exact ite_next (fun _ => ⟨_, rfl⟩) fun _ => ⟨_, rfl⟩

theorem windowStore_misaligned {off size : Nat} (h : (size ≠ 4 ∧ size ≠ 8) ∨ off % size ≠ 0) (complex v : Nat) (s : State) :
    windowStore complex off size v s = .next s :=
  if_pos (by simpa using h)

/-- An aligned write of ECAM goes out to its root port (16 R365). -/
theorem windowStore_ecam {off size : Nat} (hs : size = 4 ∨ size = 8) (ha : off % size = 0) (h1 : 0x10000000 ≤ off)
    (h2 : off < 0x10000000 + 8 * 2 ^ 25) (complex v : Nat) (s : State) :
    windowStore complex off size v s = .next (s.send (.pcie (windowBase + off) size .store v)) := by
  rw [windowStore, if_neg (by simp [ha]; omega), if_pos (by simpa using ⟨h1, h2⟩)]

/-- A write of a semaphore's register is that of its HELD (16 R359). -/
theorem windowStore_semaphore {n : Nat} (hn : n < 64) (complex v : Nat) (s : State) :
    windowStore complex (0x1000 + 4 * n) 4 v s = .next (s.writeSem complex n v) := by
  have hat : (0x1000 + 4 * n - 0x1000) / 4 = n := by omega
  rw [windowStore, if_neg (by simp), if_neg (by simp; omega), if_pos (by simp; omega), hat]
  rfl

/-- The eight bytes of a queue's RING are all writable (15 R318). -/
theorem windowStore_queueRing {q : Nat} (hq : q < 1024) (complex v : Nat) (s : State) :
    windowStore complex (queueAt q) 8 v s = .next (s.setWin (queueAt q) 8 v) := by
  have hmask (k : Nat) (hk : k < 8) : queueMask (queueAt q + k) = 0xFF := by
    have hbyte : (queueAt q + k) % 64 = k := by rw [queueAt]; omega
    rw [queueMask, if_neg (by simp [hbyte]; omega)]
  rw [windowStore, if_neg (by simp [queueAt]; omega), if_neg (by simp [queueAt]; omega), if_neg (by simp [queueAt]; omega),
    if_pos (by simp [queueAt]; omega), State.setWinMasked_eq_setWin s hmask]

theorem State.qRing_setWin (s : State) (q v : Nat) : (s.setWin (queueAt q) 8 v).qRing q = v % 2 ^ 64 :=
  State.win_setWin_self _ _ 8 _

/-! ### Host harts (11 R290, 16 R345) -/

/-! What the end of an access changes: the reservations, and what goes out to the hart. -/

theorem State.hartDone_mem (s old : State) (a : HostAccess) (wrote : Bool) : (s.hartDone old a wrote).mem = s.mem := by
  rw [State.hartDone]
  cases a.op <;> rfl

theorem State.hartDone_window (s old : State) (a : HostAccess) (wrote : Bool) : (s.hartDone old a wrote).window = s.window := by
  rw [State.hartDone]
  cases a.op <;> rfl

/-- Every access but a store gives its hart a value: SC whether it failed, any other what it read. -/
theorem State.hartDone_outbox (s old : State) {a : HostAccess} (ha : a.op ≠ .store) (wrote : Bool) :
    (s.hartDone old a wrote).outbox =
      s.outbox ++ [.hartData a.complex a.hart (if a.op = .sc then if wrote then 0 else 1 else old.hartRead a.pa a.size)] := by
  rw [State.hartDone]
  cases h : a.op with
  | store => exact absurd h ha
  | _ => simp [State.send]

theorem State.hartRead_of_inDevice {pa size : Nat} (h : inDevice pa size = true) (s : State) : s.hartRead pa size = s.mem.readLE pa size :=
  if_pos h

theorem hartStores_eq_hartWrites {a : HostAccess} (h : inDevice a.pa a.size = true) (s : State) : hartStores s a = s.hartWrites a := by
  cases hop : a.op <;> simp [hartStores, State.hartWrites, State.hartRead_of_inDevice h, hop]

/-! The window lies neither in device memory nor in the Sett status block (16 R345). -/

theorem not_inDevice_window (off n : Nat) : inDevice (windowBase + off) n = false :=
  decide_eq_false (by simp only [windowBase, Config.deviceMemory]; omega)

theorem not_inSett_window (off n : Nat) : inSett (windowBase + off) n = false := by
  rw [inSett, decide_eq_false (p := windowBase + off + n ≤ _) (by simp only [windowBase, settBase]; omega), Bool.and_false]

theorem State.hartRead_window (s : State) (off size : Nat) : s.hartRead (windowBase + off) size = s.windowRead off size := by
  rw [State.hartRead, if_neg (by simp [not_inDevice_window]), if_neg (by simp [not_inSett_window]), Nat.add_sub_cancel_left]

section
variable {a : HostAccess} {s : State} (hc : a.complex < 2) (hh : a.hart < 32)
include hc hh

theorem exec_hostHartAccess_writes (hd : inDevice a.pa a.size = true) {v : Nat} (hv : hartStores s a = some v) :
    exec (.hostHartAccess a) s = .next ((s.outsideWrite a.pa (bytesLE a.size v)).hartDone s a true) := by
  show execHostHartAccess a s = _
  rw [execHostHartAccess, if_neg (by simp; omega), if_pos hd, ← hartStores_eq_hartWrites hd, hv]

theorem exec_hostHartAccess_reads (hd : inDevice a.pa a.size = true) (hv : hartStores s a = none) :
    exec (.hostHartAccess a) s = .next (s.hartDone s a false) := by
  show execHostHartAccess a s = _
  rw [execHostHartAccess, if_neg (by simp; omega), if_pos hd, ← hartStores_eq_hartWrites hd, hv]

theorem exec_hostHartAccess_window {off : Nat} (hpa : a.pa = windowBase + off) (hoff : off < 2 ^ 30) :
    exec (.hostHartAccess a) s = hartWindow a off s := by
  show execHostHartAccess a s = _
  rw [execHostHartAccess, if_neg (by simp; omega), hpa, if_neg (by simp [not_inDevice_window]), if_neg (by simp [not_inSett_window]),
    if_pos (by simpa using hoff), Nat.add_sub_cancel_left]

theorem exec_hostHartAccess_noSuchAddress (hd : inDevice a.pa a.size = false) (hs : inSett a.pa a.size = false) (h : a.pa < windowBase) :
    exec (.hostHartAccess a) s = .fault (.noSuchAddress a.pa) := by
  simp only [windowBase] at h
  show execHostHartAccess a s = _
  rw [execHostHartAccess, if_neg (by simp; omega), if_neg (by simp [hd]), if_neg (by simp [hs]), if_neg (by simp [windowBase]; omega),
    if_neg (by simp; omega), if_neg (by simp; omega)]

/-- An access of a host hart to device memory writes the bytes it names and no other, and gives its hart what it read (11 R290). -/
theorem exec_hostHartAccess_device (hd : inDevice a.pa a.size = true) : ∃ t, exec (.hostHartAccess a) s = .next t ∧
    (∀ v, hartStores s a = some v → t.mem.readLE a.pa a.size = v % 256 ^ a.size ∧ sameOutside s t a.pa a.size) ∧
    (hartStores s a = none → t.mem = s.mem) ∧
    (a.op ≠ .store → t.outbox = s.outbox ++
      [.hartData a.complex a.hart (if a.op = .sc then if (hartStores s a).isSome then 0 else 1 else s.mem.readLE a.pa a.size)]) := by
  cases hv : hartStores s a with
  | some v =>
    refine ⟨_, exec_hostHartAccess_writes hc hh hd hv, fun w hw => ?_, nofun, fun ha => ?_⟩
    · cases hw
      constructor
      · rw [State.hartDone_mem, State.outsideWrite_mem, Bytes.writeList_bytesLE, Bytes.readLE_writeLE]
      · have houtside := s.outsideWrite_sameOutside a.pa (bytesLE a.size v)
        rw [length_bytesLE] at houtside
        exact fun j hj => (congrArg (Bytes.get · j) (State.hartDone_mem _ _ _ _)).trans (houtside j hj)
    · rw [State.hartDone_outbox _ _ ha, State.outsideWrite_outbox, State.hartRead_of_inDevice hd]
      rfl
  | none =>
    refine ⟨_, exec_hostHartAccess_reads hc hh hd hv, nofun, fun _ => s.hartDone_mem s a false, fun ha => ?_⟩
    rw [State.hartDone_outbox _ _ ha, State.hartRead_of_inDevice hd]
    rfl

/-- An AMO or an LR/SC pair has no effect on a register but those of the queue table and the semaphores (16 R356, log entry 60). -/
theorem exec_hostHartAccess_atomic {off : Nat} (hpa : a.pa = windowBase + off) (hoff : off < 2 ^ 30) (ha : atomicOp a.op = true)
    (hw : atomicWindow off a.size = false) : ∃ v, exec (.hostHartAccess a) s = .next (s.send (.hartData a.complex a.hart v)) := by
  have hstore : a.op ≠ .store := fun h => by rw [h] at ha; cases ha
  rw [exec_hostHartAccess_window hc hh hpa hoff, hartWindow, if_pos (by simp [ha, hw]), hartNothing, if_neg hstore]
  exact ⟨_, rfl⟩

/-- A load below ECAM gives the register's value and changes none (16 R356). -/
theorem exec_hostHartAccess_load {off : Nat} (hpa : a.pa = windowBase + off) (hoff : off < 0x10000000) (ha : a.op = .load) :
    ∃ t, exec (.hostHartAccess a) s = .next t ∧ t.mem = s.mem ∧ t.window = s.window ∧
      t.outbox = s.outbox ++ [.hartData a.complex a.hart (s.windowRead off a.size)] := by
  have hwrites : s.hartWrites a = none := by rw [State.hartWrites, ha]; rfl
  have hecam : inRange off 0x10000000 (8 * 2 ^ 25) = false := by
    rw [← Bool.not_eq_true, inRange_iff]
    omega
  refine ⟨s.hartDone s a false, ?_, s.hartDone_mem s a false, s.hartDone_window s a false, ?_⟩
  · rw [exec_hostHartAccess_window hc hh hpa (hoff.trans (by simp)), hartWindow, if_neg (by simp [ha, atomicOp]), hecam, if_neg (by simp),
      hwrites]
  · rw [State.hartDone_outbox _ _ (by simp [ha]), if_neg (by simp [ha]), hpa, State.hartRead_window]

end

theorem exec_pcieEndpointWrite (pa : Nat) (bytes : List Byte) (s : State) : exec (.pcieEndpointWrite pa bytes) s =
    if inDevice pa bytes.length then .next (s.outsideWrite pa bytes) else .fault (.noSuchAddress pa) := rfl

/-! ### The statement -/

/-- Settles O48: each clause by the lemma that says what its instruction leaves, the reset of a complex by induction on the semaphores it held. -/
theorem hostResults : Obligations.HostResults := by
  refine ⟨fun ctx s e he hd => ?_, fun complex n s hc hn => ⟨?_, ?_⟩, fun complex s hc => ?_, fun complex offset size value s hc ho => ?_,
    fun a s hc hh => ⟨fun hd => ?_, fun off hpa hoff ha hw => ?_, fun off hpa hoff ha => ?_, fun hd hs hpa => ?_⟩,
    fun pa bytes s => ⟨fun hd => ?_, fun hd => ?_⟩⟩
  · exact ⟨_, exec_eventDelivery_of_deliverable he hd, State.delivered_readList _ _ _ _ _, State.delivered_sameOutside _ _ _ _ _,
      State.delivered_win _ _ _ _ _, State.delivered_events _ _ _ _ _, State.delivered_outbox _ _ _ _ _⟩
  · exact ⟨_, exec_semaphoreAcquire hc hn s, fun m hm => s.sem_writeSem_of_ne complex 1 hm, s.sem_writeSem_self complex n 1⟩
  · exact ⟨_, exec_semaphoreRelease hc hn s, fun m hm => s.sem_writeSem_of_ne complex 0 hm, s.sem_writeSem_self complex n 0⟩
  · obtain ⟨t, ht, hring, hmem, hfree⟩ := exec_hostComplexReset_frees hc s
    exact ⟨t, ht, hring, hmem, fun n m hm hheld => hfree n ⟨m, hm, hheld⟩⟩
  · rw [exec_registerWrite hc ho]
    obtain ⟨t, ht⟩ := windowStore_next complex offset size value s
    have eq_of_next {u : State} (h : windowStore complex offset size value s = .next u) : t = u := by rw [ht] at h; cases h; rfl
    refine ⟨t, ht, fun h => eq_of_next (windowStore_misaligned h complex value s),
      fun hs ha h1 h2 => eq_of_next (windowStore_ecam hs ha h1 h2 complex value s), fun q hq ho hs => ?_, fun n hn ho hs => ?_⟩
    · subst ho hs
      rw [eq_of_next (windowStore_queueRing hq complex value s), State.qRing_setWin]
    · subst ho hs
      exact eq_of_next (windowStore_semaphore hn complex value s)
  · obtain ⟨t, ht, hsome, hnone, hout⟩ := exec_hostHartAccess_device (s := s) hc hh hd
    refine ⟨t, ht, ?_, fun ha => ⟨_, hout ha, fun hsc => if_neg hsc, fun hsc => ?_⟩⟩
    · cases hv : hartStores s a with
      | some v => exact hsome v hv
      | none => exact hnone hv
    · have hres : (hartStores s a).isSome = s.reserved a := by rw [hartStores, hsc]; cases s.reserved a <;> rfl
      rw [if_pos hsc, hres]
  · exact exec_hostHartAccess_atomic hc hh hpa hoff ha hw
  · exact exec_hostHartAccess_load hc hh hpa hoff ha
  · exact exec_hostHartAccess_noSuchAddress hc hh hd hs hpa
  · refine ⟨_, (exec_pcieEndpointWrite pa bytes s).trans (if_pos hd), ?_, s.outsideWrite_sameOutside pa bytes⟩
    rw [State.outsideWrite_mem, Bytes.readList_writeList]
  · exact (exec_pcieEndpointWrite pa bytes s).trans (if_neg (by simp [hd]))

end Sys2Proof.Machine

/-!
Retiring and register results (01 R12, R13, R16, R26, R27, R91, 03 R72, 04 R108): where a retired instruction leaves its split, what it leaves
alone, what each register result reads as afterwards, and the statements O9, O10 and O11 from them.
-/

namespace Sys2Proof.Machine

/-! ### Where a retired instruction leaves its split -/

@[simp] theorem Split.goto_status (sp : Split) (pc : Word) (c : Nat) :
    (sp.goto pc c).status = if pc = sp.reconv ∧ sp.reconv ≠ 0xFFFFFFFF then .stoppedReconv else sp.status := by
  have hstop : sp.stopsAt pc = true ↔ pc = sp.reconv ∧ sp.reconv ≠ 0xFFFFFFFF := by simp [Split.stopsAt]
  rw [Split.goto, apply_ite Split.status]
  exact if_congr hstop rfl rfl

@[simp] theorem Split.retire_status (sp : Split) (pc : Word) (c : Nat) :
    (sp.retire pc c).status = if pc = sp.reconv ∧ sp.reconv ≠ 0xFFFFFFFF then .stoppedReconv else sp.status := by
  simp [Split.retire, Split.clean]

@[simp] theorem Split.retire_reconv (sp : Split) (pc : Word) (c : Nat) : (sp.retire pc c).reconv = sp.reconv := by
  simp [Split.retire, Split.clean]

@[simp] theorem Split.retire_parent (sp : Split) (pc : Word) (c : Nat) : (sp.retire pc c).parent = sp.parent := by
  simp [Split.retire, Split.clean]

@[simp] theorem Split.retire_hints (sp : Split) (pc : Word) (c : Nat) : (sp.retire pc c).hints = [] := by
  simp [Split.retire, Split.clean]

/-- A window keeps, one instruction older, the results whose age was below 8 (01 R26). -/
theorem mem_ageWindow {w : List WinReg} {e : WinReg} : e ∈ ageWindow w ↔ ∃ e₀ ∈ w, e₀.age < 8 ∧ e = { e₀ with age := e₀.age + 1 } := by
  simp only [ageWindow, List.mem_filter, List.mem_map, decide_eq_true_eq]
  constructor
  · rintro ⟨⟨e₀, hmem, rfl⟩, hage⟩
    exact ⟨e₀, hmem, Nat.lt_of_succ_le hage, rfl⟩
  · rintro ⟨e₀, hmem, hage, rfl⟩
    exact ⟨⟨e₀, hmem, rfl⟩, hage⟩

/-- Settles O9, by what a retired instruction leaves of its pack and split. -/
theorem retiringAdvancesTheSplit : Obligations.RetiringAdvancesTheSplit := by
  refine ⟨fun s x k sp pc _ hid => ?_, fun w e => mem_ageWindow⟩
  refine ⟨_, _, x.now_retireTo k sp pc hid, sp.retire_pc .., sp.retire_win .., sp.retire_status .., sp.retire_mask .., sp.retire_reconv ..,
    sp.retire_parent .., sp.retire_trap .., sp.retire_hints .., rfl, fun i hi => ?_⟩
  rw [Pack.split_setSplit_of_ne _ _ (by simpa using hi), Pack.split_started]

/-! ### What a retired instruction leaves alone -/

/-- Retiring leaves every byte as it reads, at the point of coherence and on the lane path. -/
theorem Iss.retireTo_sameBytes {s : State} {x : Iss} (h : s.issuer = some x) (k : Pack) (sp : Split) (pc : Word) :
    sameBytes s (x.retireTo k sp pc) := by
  obtain ⟨-, hs, -⟩ := State.issuer_spec h
  refine fun a => ⟨?_, fun seen age n => ?_⟩
  · rw [Iss.retireTo_mem, hs]
  · have hlane : (x.retireTo k sp pc).laneRead seen age a n = x.s.laneRead seen age a n := rfl
    rw [hlane, hs]
    rfl

/-- Settles O10: retiring changes the issuing pack and the note of the pack last served, and no byte. -/
theorem registerResultFrame : Obligations.RegisterResultFrame :=
  fun _ x k sp pc h => ⟨x.retireTo_onlyPack k sp pc, Iss.retireTo_sameBytes h k sp pc⟩

/-! ### What a vector result writes -/

section
variable (k : Pack) (sp : Split) (d : VReg) (act : Mask) (f : Nat → Word)

/-- A vector result writes the `v` registers of the pack and the window of the split, and nothing else of either. -/
theorem writeV_frame : (writeV k sp d act f).1 = { k with v := (writeV k sp d act f).1.v } ∧
    (writeV k sp d act f).2 = { sp with win := (writeV k sp d act f).2.win } := by
  rw [writeV]
  split
  · exact ⟨by rw [Pack.v_setLanes], rfl⟩
  · exact ⟨rfl, rfl⟩

@[simp] theorem writeV_g : (writeV k sp d act f).1.g = k.g := by rw [(writeV_frame k sp d act f).1]
@[simp] theorem writeV_p : (writeV k sp d act f).1.p = k.p := by rw [(writeV_frame k sp d act f).1]
@[simp] theorem writeV_t : (writeV k sp d act f).1.t = k.t := by rw [(writeV_frame k sp d act f).1]
@[simp] theorem writeV_acc : (writeV k sp d act f).1.acc = k.acc := by rw [(writeV_frame k sp d act f).1]
@[simp] theorem writeV_queues : (writeV k sp d act f).1.queues = k.queues := by rw [(writeV_frame k sp d act f).1]
@[simp] theorem writeV_fpctl : (writeV k sp d act f).1.fpctl = k.fpctl := by rw [(writeV_frame k sp d act f).1]
@[simp] theorem writeV_fpstat : (writeV k sp d act f).1.fpstat = k.fpstat := by rw [(writeV_frame k sp d act f).1]
@[simp] theorem writeV_trap : (writeV k sp d act f).2.trap = sp.trap := by rw [(writeV_frame k sp d act f).2]

end

/-! ### Reading registers once their writer has retired -/

theorem Pack.readV_of_v (k : Pack) (sp : Split) {r : Nat} (n : Nat) (h : r < 120) : k.readV sp r n = k.v.get (32 * r + n) := if_pos h

/-- A lane of a register's 32 words after its write under a mask. -/
theorem get_foldl_lanes (v : Words) (m : Mask) (f : Nat → Word) {n : Nat} (hn : n < 32) :
    Words.get ((lanesOf m).foldl (fun v i => v.set i (f i)) v) n = if m.getLsbD n = true then f n else v.get n := by
  rw [get_foldl_set (lanesOf m) v (fun i => i) f n fun _ _ h => h]
  by_cases hm : m.getLsbD n = true
  · cases hf : (lanesOf m).find? (fun i => i == n) with
    | none => exact absurd (List.find?_eq_none.1 hf n (mem_lanesOf.2 ⟨hn, hm⟩)) (by simp)
    | some i => rw [if_pos hm, show i = n by simpa using List.find?_some hf]
  · have hf : (lanesOf m).find? (fun i => i == n) = none := by
      refine List.find?_eq_none.2 fun i hi hin => hm ?_
      rw [← show i = n by simpa using hin]
      exact (mem_lanesOf.1 hi).2
    rw [hf, if_neg hm]

/-- A result in the window stands first there, one instruction old, once its writer has retired (01 R26). -/
theorem Split.winReg_retire_setWin (sp : Split) (r : Nat) (m : Mask) (f : Nat → Word) (pc : Word) (c : Nat) :
    ((sp.setWin r m f).retire pc c).winReg r =
      some { reg := r, age := 1, vals := (lanesOf m).foldl (fun v i => Words.set v i (f i)) [] } := by
  simp [Split.winReg, Split.setWin, ageWindow]

/-- What a vector result's own register reads once its writer has retired: the result in the active lanes; in the others a `v` register keeps
its words (01 R12), and an ephemeral register reads zero (01 R27). -/
theorem readV_writeV_self (k : Pack) (sp : Split) (d : VReg) (act : Mask) (f : Nat → Word) (pc : Word) (c : Nat) {n : Nat} (hn : n < 32) :
    (writeV k sp d act f).1.readV ((writeV k sp d act f).2.retire pc c) d.toNat n =
      if act.getLsbD n then f n else if d.toNat < 120 then k.readV sp d.toNat n else 0 := by
  by_cases hd : d.toNat < 120
  · rw [writeV_of_v _ _ _ _ hd, Pack.readV_of_v _ _ _ hd, Pack.get_setLanes _ _ _ hn, if_pos hd, Pack.readV_of_v _ _ _ hd]
    simp
  · rw [writeV_of_e _ _ _ _ hd, if_neg hd, Pack.readV, if_neg hd, Split.winReg_retire_setWin]
    exact get_foldl_lanes [] act f hn

/-- Every other `v` register keeps its value. -/
theorem readV_writeV_of_ne (k : Pack) (sp sp' : Split) {d : VReg} (act : Mask) (f : Nat → Word) {r n : Nat} (hn : n < 32) (hr : r < 120)
    (hne : r ≠ d.toNat) : (writeV k sp d act f).1.readV sp' r n = k.readV sp r n := by
  rw [Pack.readV_of_v _ _ _ hr, Pack.readV_of_v _ _ _ hr]
  by_cases hd : d.toNat < 120
  · rw [writeV_of_v _ _ _ _ hd, Pack.get_setLanes _ _ _ hn, if_neg fun h => hne h.1]
  · rw [writeV_of_e _ _ _ _ hd]

theorem Pack.pred_of_ne (k : Pack) {d : PReg} (hd : d ≠ 7) : k.pred d = k.p.get d.toNat := if_neg hd

/-- `p7` discards what is written to it (01 R16). -/
theorem Pack.setP_seven (k : Pack) (m f : Mask) : k.setP 7 m f = k := if_pos rfl

theorem Pack.setP_of_ne (k : Pack) {d : PReg} (hd : d ≠ 7) (m f : Mask) :
    k.setP d m f = { k with p := k.p.set d.toNat ((k.p.get d.toNat &&& ~~~m) ||| (f &&& m)) } := if_neg hd

@[simp] theorem Pack.setP_v (k : Pack) (d : PReg) (m f : Mask) : (k.setP d m f).v = k.v := by unfold Pack.setP; split <;> rfl
@[simp] theorem Pack.setP_g (k : Pack) (d : PReg) (m f : Mask) : (k.setP d m f).g = k.g := by unfold Pack.setP; split <;> rfl

/-- A predicate result stands in the lanes of its mask (04 R91). -/
theorem Pack.getLsbD_pred_setP_self (k : Pack) {d : PReg} (hd : d ≠ 7) (m f : Mask) (n : Nat) :
    ((k.setP d m f).pred d).getLsbD n = if m.getLsbD n then f.getLsbD n else (k.pred d).getLsbD n := by
  rw [Pack.pred_of_ne _ hd, Pack.pred_of_ne _ hd, Pack.setP_of_ne _ hd, Words.get_set_self]
  by_cases hn : n < 32
  · cases hm : m.getLsbD n <;> simp [-BitVec.getLsbD_eq_getElem, hn, hm]
  · simp [BitVec.getLsbD_of_ge _ n (Nat.le_of_not_lt hn)]

/-- Every other predicate keeps its value, `p7` among them, which is always true (01 R16). -/
theorem Pack.pred_setP_of_ne (k : Pack) {d r : PReg} (hr : r ≠ d) (m f : Mask) : (k.setP d m f).pred r = k.pred r := by
  by_cases hd : d = 7
  · rw [hd, Pack.setP_seven]
  · have hne : r.toNat ≠ d.toNat := fun h => hr (BitVec.eq_of_toNat_eq h)
    rw [Pack.setP_of_ne _ hd, Pack.pred, Pack.pred, Words.get_set, if_neg hne]

/-- Settles O11: what each register write reads as, for the pack and split that the retired instruction leaves. -/
theorem registerResultsAreRead : Obligations.RegisterResultsAreRead := by
  refine ⟨fun s x d act f _ hid => ?_, fun s x _ hid => ⟨fun d v => ?_, fun d m f => ?_⟩⟩
  · refine ⟨_, _, x.now_retireTo _ _ _ ((writeV_id _ _ d act f).trans hid), ?_⟩
    exact ⟨fun n hn => readV_writeV_self x.k x.sp d act f _ _ hn, fun r n hn hr hne => readV_writeV_of_ne x.k x.sp _ act f hn hr hne,
      writeV_g .., writeV_p .., writeV_t .., writeV_acc .., writeV_queues .., writeV_fpctl .., writeV_fpstat ..,
      (Split.retire_trap ..).trans (writeV_trap ..)⟩
  · exact ⟨_, _, x.now_retireTo _ _ _ hid, x.k.readG_setG_self d.toNat v, fun r hr => x.k.readG_setG_of_ne v hr, rfl, rfl⟩
  · refine ⟨_, _, x.now_retireTo _ _ _ hid, ?_⟩
    exact ⟨fun n hd => x.k.getLsbD_pred_setP_self hd m f n, fun r hr => x.k.pred_setP_of_ne hr m f,
      fun hd => by rw [hd, Pack.setP_seven]; rfl, x.k.setP_v d m f, x.k.setP_g d m f⟩

end Sys2Proof.Machine

/-!
Floating instructions with a vector result (01 R32-R34, 02 R65, R66, 05 R124-R137): each is `fpIssue` of its lanes' results, and the statement O21
from what `fpIssue` answers where its checks pass.
-/

namespace Sys2Proof.Machine

/-- Every floating instruction with a vector result issues its operands and its lanes' results, whatever its mnemonic. -/
theorem FloatOp.exec_eq {i : Instr} {g : PReg} {d : VReg} {os : List Operand} {f : Iss → Nat → LaneRes} (h : FloatOp i g d os f) :
    ∃ mn, ∀ s, exec i s = fpIssue s mn g d os f := by
  cases h <;> exact ⟨_, fun _ => rfl⟩

/-- So does every dot product. -/
theorem DotOp.exec_eq {i : Instr} {g : PReg} {d : VReg} {os : List Operand} {f : Iss → Nat → LaneRes} (h : DotOp i g d os f) :
    ∃ mn, ∀ s, exec i s = fpIssue s mn g d os f := by
  cases h <;> exact ⟨_, fun _ => rfl⟩

/-- A floating instruction that passes its checks finishes with the results of its active lanes. -/
theorem fpIssue_of_ready {s : State} {os : List Operand} {x : Iss} (h : s.Ready os x) (mn : String) (g : PReg) (d : VReg)
    (f : Iss → Nat → LaneRes) : fpIssue s mn g d os f =
      x.fpFinish (x.k.active x.sp g) (resultsOf x g f) fun k sp => writeV k sp d (x.k.active x.sp g) (resultAt (resultsOf x g f)) :=
  issue_of_ready h mn g _

section
variable (x : Iss) (act : Mask) (rs : List (Nat × LaneRes)) (write : Pack → Split → Pack × Split)

/-- With no raised flag enabled, the flags go to `sr.fpstat` and the results are written (01 R34). -/
theorem Iss.fpFinish_of_untrapped (h : raisedFlags (elements rs) &&& x.k.te = 0) : x.fpFinish act rs write =
    .next (x.retire (write (x.k.orFlags (BitVec.ofNat 32 (raisedFlags (elements rs)))) x.sp).1
      (write (x.k.orFlags (BitVec.ofNat 32 (raisedFlags (elements rs)))) x.sp).2) :=
  if_neg (by simp [h])

/-- With an enabled flag raised, FPX is taken and nothing is written (02 R65, R66). -/
theorem Iss.fpFinish_of_trapped (h : raisedFlags (elements rs) &&& x.k.te ≠ 0) :
    x.fpFinish act rs write = x.raise act 0x0C (fpxWord x.k (elements rs)) :=
  if_pos (by simp [h])

end

/-- Settles O21: each form is `fpIssue` of its lanes, which finishes by the flags it raised. -/
theorem floatResults : Obligations.FloatResults := by
  intro i g d os f hop s x hready
  have hexec : ∃ mn, ∀ s, exec i s = fpIssue s mn g d os f := hop.elim FloatOp.exec_eq DotOp.exec_eq
  obtain ⟨mn, hmn⟩ := hexec
  rw [hmn, fpIssue_of_ready hready]
  exact ⟨fun h => x.fpFinish_of_untrapped _ _ _ h, fun h => x.fpFinish_of_trapped _ _ _ h⟩

end Sys2Proof.Machine

/-!
The step and its moves (03 R71, R72, R78, 09 R239, R241, R247, R251-R253, R258, log entries 2, 10, 98): what an event answers, which word a split
issues from the unit of code at its address, what a cycle of a core issues, and the statement O56 from them.
-/

namespace Sys2Proof.Machine

/-! ### Moves -/

/-- A step carries out the first move of the agenda, and gives up every turn that ended in it (log entry 2). -/
theorem step_of_agenda {s : State} {m : Move} {rest : List Move} (h : s.agenda = m :: rest) :
    step s = settled ((s.begin rest).move m) := by
  simp only [step, h]
  rfl

/-- An event that carries out a stalled instruction is an issue of its split (09 R239, R251). -/
theorem State.strike_of_turn {i : Instr} {c slot split : Nat} (h : turnOf i = some (c, slot, split)) (s : State) :
    s.strike i = if s.picks c slot split then exec i (s.takeTurn c slot split) else .refused (.notEnabled "ISSUE") := by
  simp only [State.strike, h]

/-- Any other event comes about where the host complex that makes it, if one does, is in the fabric (18 R380). -/
theorem State.strike_of_noTurn {i : Instr} (h : turnOf i = none) (s : State) :
    s.strike i = if (complexOf i).all fun c => bit s.hosts c then exec i s else .refused (.notEnabled "COMPLEX") := by
  simp only [State.strike, h]

theorem step_event {s : State} {i : Instr} {rest : List Move} (ha : s.agenda = .event i :: rest) (h : turnOf i = none)
    (hc : ∀ c, complexOf i = some c → bit s.hosts c = true) : step s = settled (exec i (s.begin rest)) := by
  have hall : ((complexOf i).all fun c => bit (s.begin rest).hosts c) = true := by
    cases hi : complexOf i with
    | none => rfl
    | some c => exact hc c hi
  rw [step_of_agenda ha, State.move, State.strike_of_noTurn h, if_pos hall]

theorem step_event_absent {s : State} {i : Instr} {rest : List Move} {c : Nat} (ha : s.agenda = .event i :: rest) (h : turnOf i = none)
    (hi : complexOf i = some c) (hc : bit s.hosts c = false) : step s = .refused (.notEnabled "COMPLEX") := by
  have hnone : ((complexOf i).all fun c => bit (s.begin rest).hosts c) ≠ true := by rw [hi]; exact Bool.eq_false_iff.1 hc
  rw [step_of_agenda ha, State.move, State.strike_of_noTurn h, if_neg hnone]
  rfl

theorem step_event_turn {s : State} {i : Instr} {rest : List Move} {c slot split : Nat} (ha : s.agenda = .event i :: rest)
    (h : turnOf i = some (c, slot, split)) : step s =
      if (s.begin rest).picks c slot split then settled (exec i (s.turn rest c slot split)) else .refused (.notEnabled "ISSUE") := by
  rw [step_of_agenda ha, State.move, State.strike_of_turn h, apply_ite settled]
  rfl

theorem step_issue_refused {s : State} {c slot split : Nat} {rest : List Move} (ha : s.agenda = .issue c slot split :: rest)
    (hp : (s.begin rest).picks c slot split = false) : step s = .refused (.notEnabled "ISSUE") := by
  rw [step_of_agenda ha, State.move, State.issueAt, if_neg (by simp [hp])]
  rfl

theorem step_issue {s : State} {c slot split : Nat} {rest : List Move} (ha : s.agenda = .issue c slot split :: rest)
    (hp : (s.begin rest).picks c slot split = true) : step s = settled ((s.begin rest).issueNow c slot split) := by
  rw [step_of_agenda ha, State.move, State.issueAt, if_pos hp]

/-! ### What a split issues (03 R71, R78, 09 R239) -/

/-- Where what a split is stalled at can be carried out, that is what it issues. -/
theorem State.unstall_of_event {s t : State} {c slot : Nat} {sp : Split} {st : Stall} {g : State → Out} (hst : sp.stall = some st)
    (hg : st.event c slot sp.id = some g) (ht : g s = .next t) : s.unstall c slot sp = some (.next t) := by
  simp only [State.unstall, hst, Option.bind_some, hg, ht]

section
variable {s : State} {c slot split : Nat} {k : Pack} {sp : Split} (hk : s.pack c slot = some k) (hsp : k.split split = some sp)
include hk hsp

theorem State.issueNow_stalled {st : Stall} (hst : sp.stall = some st) :
    s.issueNow c slot split = ((s.takeTurn c slot split).unstall c slot sp).getD (.refused (.notEnabled "ISSUE")) := by
  simp only [State.issueNow, hk, hsp, hst]

/-- A latched slot issues the dictionary's entry (03 R78, log entry 10). -/
theorem State.issueNow_slot {e : SlotEntry} (hst : sp.stall = none) (he : sp.slot = some e) :
    s.issueNow c slot split = (s.takeTurn c slot split).runWord
      { core := c, slot := slot, split := split, addr := sp.pc, word := e.word
        next := if e.slot = 1 && e.lastSlot then sp.pc + 2 else sp.pc + 1, dslot := e.slot, dindex := e.index } := by
  simp only [State.issueNow, hk, hsp, hst, he]

/-- A broadcast store that was issued ahead is passed over (log entry 98). -/
theorem State.issueNow_ahead {b : Word} (hst : sp.stall = none) (he : sp.slot = none) (ha : sp.ahead = some (sp.pc, b))
    (hinh : sp.inh = false) : s.issueNow c slot split = .next ((s.takeTurn c slot split).modPack c slot fun k =>
      k.setSplit ({ sp with ahead := none }.goto b (s.takeTurn c slot split).clock)) := by
  have hsome : (sp.ahead.filter fun b => b.1 == sp.pc && !sp.inh) = some (sp.pc, b) := by simp [ha, hinh]
  simp only [State.issueNow, hk, hsp, hst, he, hsome]

theorem State.issueNow_word (hst : sp.stall = none) (he : sp.slot = none) (ha : ∀ b, sp.ahead = some (sp.pc, b) → sp.inh = true) :
    s.issueNow c slot split = (s.takeTurn c slot split).issueWord c slot split k sp := by
  have hnone : (sp.ahead.filter fun b => b.1 == sp.pc && !sp.inh) = none := by
    rw [Option.filter_eq_none_iff]
    rintro ⟨a, b⟩ hab hpass
    obtain ⟨rfl, hinh⟩ : a = sp.pc ∧ sp.inh = false := by simpa using hpass
    rw [ha b hab] at hinh
    cases hinh
  simp only [State.issueNow, hk, hsp, hst, he, hnone]

end

/-! ### The unit of code at an address (03 R71, R72, R77) -/

theorem toNat_fld (w : Word) (lo n : Nat) : (fld w lo n).toNat = w.toNat / 2 ^ lo % 2 ^ n := by
  rw [fld, BitVec.extractLsb'_toNat, Nat.shiftRight_eq_div_pow]

theorem isDict_iff (w : Word) : isDict w = true ↔ 0xFC000000 ≤ w.toNat := by
  have hw := w.isLt
  have htop : isDict w = true ↔ (fld w 26 6).toNat = 63 := by rw [isDict, beq_iff_eq, ← BitVec.toNat_inj]; rfl
  rw [htop, toNat_fld]
  omega

theorem low_eq_zero_iff (w : Word) : fld w 0 16 = 0 ↔ w.toNat % 65536 = 0 := by
  rw [← BitVec.toNat_inj, toNat_fld, pow_zero, Nat.div_one]
  rfl

/-- A dictionary word has a second slot where its low half is not empty (03 R77). -/
theorem secondSlot_iff (w : Word) : (isDict w && fld w 0 16 != 0) = true ↔ 0xFC000000 ≤ w.toNat ∧ w.toNat % 65536 ≠ 0 := by
  rw [Bool.and_eq_true, isDict_iff, bne_iff_ne, ne_eq, low_eq_zero_iff]

theorem State.fetchAt_of_wordAt {s t : State} {c : Nat} {k : Pack} {off : Nat} {w : Word} (h : s.WordAt c k off w t) :
    s.fetchAt c k off = .word w t := by
  obtain ⟨hoff, pa, attr, htr, hpa, rfl⟩ := h
  simp only [State.fetchAt, if_neg (Nat.not_le.2 hoff), htr]
  exact if_pos (decide_eq_true hpa)

theorem State.unitAt_even {s t : State} {c : Nat} {k : Pack} {a w : Word} (he : a.toNat % 2 = 0) (h : s.WordAt c k (2 * a.toNat) w t) :
    s.unitAt c k a = (if isDict w then .slot w 1 else .full w, t) := by
  simp only [State.unitAt, he, Nat.sub_zero, State.fetchAt_of_wordAt h, if_true]

theorem State.unitAt_odd {s t : State} {c : Nat} {k : Pack} {a w : Word} (ho : a.toNat % 2 = 1)
    (h : s.WordAt c k (2 * (a.toNat - 1)) w t) :
    s.unitAt c k a = (if isDict w && fld w 0 16 != 0 then .slot w 2 else .none_ w, t) := by
  simp only [State.unitAt, ho, State.fetchAt_of_wordAt h, if_neg Nat.one_ne_zero]
  split <;> rfl

/-- Beyond the section no instruction stands. -/
theorem State.unitAt_outside {s : State} {c : Nat} {k : Pack} {a : Word} (h : (s.header k).codeSize ≤ 2 * (a.toNat - a.toNat % 2)) :
    s.unitAt c k a = (.none_ 0, s) := by
  simp only [State.unitAt, State.fetchAt, if_pos h]

/-- The focus of a split that stands at `pc`, with no word in it yet. -/
def focusAt (c slot split : Nat) (pc : Word) : Focus := { core := c, slot := slot, split := split, addr := pc, word := 0, next := pc + 2 }

section
variable {s t : State} {c slot split : Nat} {k : Pack} {sp : Split} {w : Word}

theorem State.issueWord_full (h : s.unitAt c k sp.pc = (.full w, t)) :
    s.issueWord c slot split k sp = t.runWord { focusAt c slot split sp.pc with word := w } := by
  simp only [State.issueWord, h]
  rfl

theorem State.issueWord_slot {n : Nat} (h : s.unitAt c k sp.pc = (.slot w n, t)) :
    s.issueWord c slot split k sp =
      t.runWord { focusAt c slot split sp.pc with word := w, next := nextAddr (.slot w n) sp.pc } := by
  simp only [State.issueWord, h]
  rfl

theorem State.issueWord_none (h : s.unitAt c k sp.pc = (.none_ w, t)) :
    s.issueWord c slot split k sp = exec (.illegalInstruction w 7)
      { t with focus := some { focusAt c slot split sp.pc with word := w, dslot := if isDict w && sp.pc.getLsbD 0 then 2 else 0 } } := by
  simp only [State.issueWord, h]
  rfl

end

theorem State.runWord_ok {s : State} {f : Focus} {i : Instr} (h : decodeWord f.word = .ok i) :
    s.runWord f = exec i { s with focus := some f } := by
  simp only [State.runWord, h]

theorem State.runWord_error {s : State} {f : Focus} {r : Nat} (h : decodeWord f.word = .error r) :
    s.runWord f = exec (.illegalInstruction f.word r) { s with focus := some f } := by
  simp only [State.runWord, h]

/-- A dictionary word is refused under no REASON (03 R77, R80). -/
theorem decodeWord_of_dict {w : Word} (h : 0xFC000000 ≤ w.toNat) (r : Nat) : decodeWord w ≠ .error r := by
  have hw := w.isLt
  have hprim : 0x7E ≤ (fld w 25 7).toNat := by rw [toNat_fld]; omega
  have hnone : wordReason w = none := by simp (disch := omega) only [wordReason, if_neg]
  simp [decodeWord, hnone]

/-! ### What a split issues at a word of its section (03 R71, R72, R77) -/

section
variable {s t : State} {c slot split : Nat} {k : Pack} {sp : Split} {w : Word}

theorem State.issueWord_even_plain (he : sp.pc.toNat % 2 = 0) (h : s.WordAt c k (2 * sp.pc.toNat) w t) (hw : w.toNat < 0xFC000000) :
    s.issueWord c slot split k sp = t.runWord { focusAt c slot split sp.pc with word := w } := by
  refine State.issueWord_full ?_
  rw [State.unitAt_even he h, if_neg (by rw [isDict_iff]; omega)]

/-- A dictionary word's first slot goes on to its second, which an empty low half does not have (03 R77). -/
theorem State.issueWord_even_dict (he : sp.pc.toNat % 2 = 0) (h : s.WordAt c k (2 * sp.pc.toNat) w t) (hw : 0xFC000000 ≤ w.toNat) :
    s.issueWord c slot split k sp = t.runWord { focusAt c slot split sp.pc with
      word := w, next := if w.toNat % 65536 = 0 then sp.pc + 2 else sp.pc + 1 } := by
  have hu : s.unitAt c k sp.pc = (.slot w 1, t) := by rw [State.unitAt_even he h, if_pos ((isDict_iff w).2 hw)]
  have hnext : nextAddr (.slot w 1) sp.pc = if w.toNat % 65536 = 0 then sp.pc + 2 else sp.pc + 1 :=
    if_congr (beq_iff_eq.trans (low_eq_zero_iff w)) rfl rfl
  rw [State.issueWord_slot hu, hnext]

theorem State.issueWord_odd_slot (ho : sp.pc.toNat % 2 = 1) (h : s.WordAt c k (2 * (sp.pc.toNat - 1)) w t) (hw : 0xFC000000 ≤ w.toNat)
    (hlow : w.toNat % 65536 ≠ 0) :
    s.issueWord c slot split k sp = t.runWord { focusAt c slot split sp.pc with word := w, next := sp.pc + 1 } := by
  have hu : s.unitAt c k sp.pc = (.slot w 2, t) := by
    rw [State.unitAt_odd ho h, if_pos ((secondSlot_iff w).2 ⟨hw, hlow⟩)]
  rw [State.issueWord_slot hu]
  rfl

/-- An odd address of a word with no second slot is no instruction's (03 R71). -/
theorem State.issueWord_odd_none (ho : sp.pc.toNat % 2 = 1) (h : s.WordAt c k (2 * (sp.pc.toNat - 1)) w t)
    (hw : w.toNat < 0xFC000000 ∨ w.toNat % 65536 = 0) :
    s.issueWord c slot split k sp = exec (.illegalInstruction w 7)
      { t with focus := some { focusAt c slot split sp.pc with word := w, dslot := if 0xFC000000 ≤ w.toNat then 2 else 0 } } := by
  have hu : s.unitAt c k sp.pc = (.none_ w, t) := by
    rw [State.unitAt_odd ho h, if_neg (by rw [secondSlot_iff]; omega)]
  have hodd : sp.pc.getLsbD 0 = true := by simp [BitVec.getLsbD, Nat.testBit_zero, ho]
  have hslot : (isDict w && sp.pc.getLsbD 0) = true ↔ 0xFC000000 ≤ w.toNat := by rw [hodd, Bool.and_true, isDict_iff]
  rw [State.issueWord_none hu, if_congr hslot rfl rfl]

theorem State.issueWord_outside (h : (s.header k).codeSize ≤ 2 * (sp.pc.toNat - sp.pc.toNat % 2)) :
    s.issueWord c slot split k sp = exec (.illegalInstruction 0 7) { s with focus := some (focusAt c slot split sp.pc) } :=
  State.issueWord_none (State.unitAt_outside h)

end

/-! ### A cycle of a deterministic core (09 R251-R253) -/

section
variable {s : State} {c : Nat} (hd : s.detCore c = true)
include hd

theorem State.cycle_pass (hp : s.mustPass c = true) :
    s.cycle c = if (s.nextPack c).isSome then exec (.detPackSwitch c) s else .next s := by
  rw [State.cycle, if_pos hd, if_pos hp]

/-- The current split of the current pack issues where it may. -/
theorem State.cycle_current (hp : s.mustPass c = false) {n i : Nat} {k : Pack} (hn : (s.core c).detCur = some n) (hk : s.pack c n = some k)
    (hi : s.current c n k = some i) : s.cycle c = if s.mayIssue c n i then s.issueAt c n i else .next s := by
  have hissue (h : s.mayIssue c n i = true) : s.issueAt c n i = s.issueNow c n i :=
    if_pos ((if_pos hd : s.picks c n i = _).trans h)
  rw [State.cycle, if_pos hd, if_neg (by simp [hp])]
  simp only [hn, hk, hi, Option.bind_some, Option.map_some]
  exact ite_congr rfl (fun h => (hissue h).symm) fun _ => rfl

end

/-! ### A cycle of a core in normal mode (09 R241, R247, R258) -/

/-- A port passes over a split whose word only waits, and takes any other. -/
theorem State.portGo_cons (s : State) (c : Nat) (q : Nat × Split) (l : List (Nat × Split)) :
    (∃ t, s.issueNow c q.1 q.2.id = .next t ∧ s.wentOn t c q.1 q.2.id = false) ∧ s.portGo c (q :: l) = s.portGo c l ∨
      s.portGo c (q :: l) = some (q, s.issueNow c q.1 q.2.id) := by
  rw [State.portGo]
  cases s.issueNow c q.1 q.2.id with
  | next t =>
    by_cases hwent : s.wentOn t c q.1 q.2.id = true
    · exact .inr (if_pos hwent)
    · exact .inl ⟨⟨t, rfl, Bool.eq_false_iff.2 hwent⟩, if_neg hwent⟩
  | fault f => exact .inr rfl
  | refused r => exact .inr rfl

/-- A port takes the first split of its list that can issue: every split before it only waits. -/
theorem State.portGo_split {s : State} {c : Nat} {l : List (Nat × Split)} {p : Nat × Split} {out : Out} (h : s.portGo c l = some (p, out)) :
    ∃ before after, l = before ++ p :: after ∧ out = s.issueNow c p.1 p.2.id ∧
      ∀ q ∈ before, ∃ t, s.issueNow c q.1 q.2.id = .next t ∧ s.wentOn t c q.1 q.2.id = false := by
  induction l with
  | nil => cases h
  | cons q l ih =>
    rcases s.portGo_cons c q l with ⟨hwaits, hrest⟩ | htakes
    · obtain ⟨before, after, rfl, hout, hbefore⟩ := ih (hrest.symm.trans h)
      exact ⟨q :: before, after, rfl, hout, List.forall_mem_cons.2 ⟨hwaits, hbefore⟩⟩
    · obtain ⟨rfl, rfl⟩ : q = p ∧ s.issueNow c q.1 q.2.id = out := by simpa using htakes.symm.trans h
      exact ⟨[], l, rfl, rfl, List.forall_mem_nil _⟩

/-- The split that issues alone on a core in normal mode is the one its first port takes. -/
theorem State.picks_iff {s : State} {c slot split : Nat} (hd : s.detCore c = false) : s.picks c slot split = true ↔
    ∃ p out, s.portGo c (s.candidates c (s.core c).lastPack) = some (p, out) ∧ p.1 = slot ∧ p.2.id = split := by
  rw [State.picks, if_neg (by simp [hd]), State.firstPort, beq_iff_eq, Option.map_eq_some_iff]
  constructor
  · rintro ⟨⟨p, out⟩, h, heq⟩
    cases heq
    exact ⟨p, out, h, rfl, rfl⟩
  · rintro ⟨p, out, h, rfl, rfl⟩
    exact ⟨(p, out), h, rfl⟩

theorem State.cycle_normal {s : State} {c : Nat} (hd : s.detCore c = false) : s.cycle c = s.bothPorts c := by
  rw [State.cycle, if_neg (by simp [hd])]

section
variable {s : State} {c : Nat}

theorem State.bothPorts_none (h : s.firstPort c = none) : s.bothPorts c = .next s := by
  simp only [State.bothPorts, h]

theorem State.bothPorts_one {p : Nat × Split} {out : Out} (h : s.firstPort c = some (p, out))
    (h2 : s.portGo c ((s.candidates c p.1).filter fun q => !sameSlice p q) = none) : s.bothPorts c = out := by
  simp only [State.bothPorts, h, h2]

/-- The order in which two splits of one cycle are served: by lowest lane, then by slot (09 R241, R258). -/
def servedKey (p : Nat × Split) : Nat := lowLane p.2.mask * 16 + p.1

/-- Two splits issue in one cycle, `a` first and `b` beside it where it still may; the rotation goes on from slot `last`. -/
noncomputable def State.servePair (s : State) (c last : Nat) (a b : Nat × Split) : Out :=
  match s.issueNow c a.1 a.2.id with
  | .next t =>
    match if t.mayIssue c b.1 b.2.id then s.issueBeside t c a b else .next t with
    | .next u => .next (u.setCore c { u.core c with lastPack := last })
    | o => o
  | o => o

/-- Of what both ports take, the split with the lower key is served first. -/
theorem State.bothPorts_two {p q : Nat × Split} {out out' : Out} (h : s.firstPort c = some (p, out))
    (h2 : s.portGo c ((s.candidates c p.1).filter fun q => !sameSlice p q) = some (q, out')) :
    s.bothPorts c = s.servePair c q.1 (if servedKey q < servedKey p then q else p) (if servedKey q < servedKey p then p else q) := by
  simp only [State.bothPorts, h, h2]
  rfl

theorem State.servePair_both {last : Nat} {a b : Nat × Split} {t u : State} (ht : s.issueNow c a.1 a.2.id = .next t)
    (hmay : t.mayIssue c b.1 b.2.id = true) (hu : s.issueBeside t c a b = .next u) :
    s.servePair c last a b = .next (u.setCore c { u.core c with lastPack := last }) := by
  simp only [State.servePair, ht, if_pos hmay, hu]

theorem State.servePair_first {last : Nat} {a b : Nat × Split} {t : State} (ht : s.issueNow c a.1 a.2.id = .next t)
    (hmay : t.mayIssue c b.1 b.2.id = false) : s.servePair c last a b = .next (t.setCore c { t.core c with lastPack := last }) := by
  simp only [State.servePair, ht, hmay, if_neg Bool.false_ne_true]

/-- Two splits of different packs issue one after the other. -/
theorem State.issueBeside_of_ne {t : State} {a b : Nat × Split} (hne : a.1 ≠ b.1) (hs : (s.pack c b.1).isSome) (ht : (t.pack c b.1).isSome) :
    s.issueBeside t c a b = t.issueNow c b.1 b.2.id := by
  obtain ⟨old, hold⟩ := Option.isSome_iff_exists.1 hs
  obtain ⟨first, hfirst⟩ := Option.isSome_iff_exists.1 ht
  simp only [State.issueBeside, hold, hfirst]
  exact if_neg (by simpa using hne)

end

/-- A cycle of a core issues what its current split or its ports have. -/
theorem cycles_by_schedule : cyclesBySchedule := by
  refine ⟨fun s c rest ha hd => ⟨fun hp => ?_, fun n k i hp hn hk hi => ?_⟩, fun y c l p out h => State.portGo_split h,
    fun y c slot split => ⟨fun hd => if_pos hd, State.picks_iff⟩, fun s c rest ha hd => ?_⟩
  · rw [step_of_agenda ha, State.move, State.cycle_pass hd hp, apply_ite settled]
    rfl
  · have hissue : step { s with agenda := .issue c n i :: rest } = settled ((s.begin rest).issueAt c n i) :=
      step_of_agenda (s := { s with agenda := .issue c n i :: rest }) (m := .issue c n i) (rest := rest) rfl
    rw [step_of_agenda ha, State.move, State.cycle_current hd hp hn hk hi, apply_ite settled, hissue]
    rfl
  · have hstep : step s = settled ((s.begin rest).bothPorts c) := by rw [step_of_agenda ha, State.move, State.cycle_normal hd]
    refine ⟨fun h => ?_, fun p out h => ⟨fun h2 => ?_, fun q o h2 => ⟨fun hne t u ht hmay hs hts hu => ?_, fun t ht hmay => ?_⟩⟩⟩
    · rw [hstep, State.bothPorts_none h]
      rfl
    · rw [hstep, State.bothPorts_one h h2]
    · have hbeside := (State.issueBeside_of_ne hne hs hts).trans hu
      exact hstep.trans (congrArg settled ((State.bothPorts_two h h2).trans (State.servePair_both ht hmay hbeside)))
    · exact hstep.trans (congrArg settled ((State.bothPorts_two h h2).trans (State.servePair_first ht hmay)))

/-! ### The statement -/

/-- Settles O56: each move by what it answers, an issue by the unit of code at the split's address. -/
theorem stepRunsDecodedInstruction : Obligations.StepRunsDecodedInstruction := by
  refine ⟨fun s i rest ha => ⟨step_event ha, fun c => step_event_absent ha, fun c slot split => step_event_turn ha⟩,
    fun s ns rest ha => step_of_agenda ha, fun s unit temp rest ha => step_of_agenda ha, fun s n rest t ha ht => ?_,
    fun s n c rest t ha ht => ?_, fun s c slot split rest ha => step_of_agenda ha, fun s ha => ?_,
    fun s c slot split rest ha hp => step_issue_refused ha hp, fun s c slot split rest k sp ha hi => ?_, cycles_by_schedule⟩
  · rw [step_of_agenda ha, State.move, ht]
    rfl
  · rw [step_of_agenda ha, State.move, ht]
    rfl
  · simp only [step, ha]
  obtain ⟨hp, hk, hsp⟩ := hi
  refine ⟨fun st g t hst hg hid ht => ?_, fun e hst he => ?_, fun b hst he hah hinh => ?_, fun hst he hah => ?_⟩
  · have hunstall : ((s.begin rest).takeTurn c slot split).unstall c slot sp = some (.next t) := State.unstall_of_event hst (hid ▸ hg) ht
    rw [step_issue ha hp, State.issueNow_stalled hk hsp hst, hunstall]
    rfl
  · rw [step_issue ha hp, State.issueNow_slot hk hsp hst he]
    simp only [Bool.and_eq_true, decide_eq_true_eq]
    rfl
  · rw [step_issue ha hp, State.issueNow_ahead hk hsp hst he hah hinh]
    rfl
  have hword : step s = settled ((s.turn rest c slot split).issueWord c slot split k sp) := by
    rw [step_issue ha hp, State.issueNow_word hk hsp hst he hah]
    rfl
  rw [hword]
  refine ⟨fun w t heven hw => ⟨fun i hok hplain => ?_, fun i hok hdict => ?_, fun r herr => ?_⟩, fun w t hodd hw hplain => ?_,
    fun w t hodd hw hdict => ⟨fun hlow i hok => ?_, fun hlow => ?_⟩, fun hout => ?_⟩
  · rw [State.issueWord_even_plain heven hw hplain]
    exact congrArg settled (State.runWord_ok hok)
  · rw [State.issueWord_even_dict heven hw hdict]
    exact congrArg settled (State.runWord_ok hok)
  · have hplain : w.toNat < 0xFC000000 := Nat.lt_of_not_le fun hdict => decodeWord_of_dict hdict r herr
    rw [State.issueWord_even_plain heven hw hplain]
    exact congrArg settled (State.runWord_error herr)
  · rw [State.issueWord_odd_none hodd hw (.inl hplain), if_neg (Nat.not_le.2 hplain)]
    rfl
  · rw [State.issueWord_odd_slot hodd hw hdict hlow]
    exact congrArg settled (State.runWord_ok hok)
  · rw [State.issueWord_odd_none hodd hw (.inr hlow), if_pos hdict]
    rfl
  · rw [State.issueWord_outside hout]
    rfl

end Sys2Proof.Machine

/-!
PROOF. The decoder and the encoder undo each other (03 R67-R70). From an instruction to its word, each field the decoder reads
lies within one part of the encoder's concatenation; from a word to its instruction, the encoder's concatenation is taken apart
into the fields that the decoder has read or has required to be constants.
-/

namespace Sys2Proof.Machine

/-! ### Fields of a word -/

theorem fld_all (w : Word) : fld w 0 32 = w := BitVec.extractLsb'_eq_self

/-- A field is its upper part in front of its lower part. -/
theorem fld_add (w : Word) (lo m n : Nat) : fld w lo (m + n) = fld w (lo + n) m ++ fld w lo n :=
  (BitVec.extractLsb'_append_extractLsb'_eq_extractLsb' rfl).symm

/-- The width of the concatenation is left out of the pattern: it stands as a numeral where the lemma is used. -/
theorem extractLsb'_append_upper {m n lo k : Nat} (x : BitVec m) (y : BitVec n) (h : n ≤ lo) :
    @BitVec.extractLsb' (no_index (m + n)) lo k (x ++ y) = BitVec.extractLsb' (lo - n) k x :=
  BitVec.extractLsb'_append_eq_of_le h

theorem extractLsb'_append_lower {m n lo k : Nat} (x : BitVec m) (y : BitVec n) (h : lo + k ≤ n) :
    @BitVec.extractLsb' (no_index (m + n)) lo k (x ++ y) = BitVec.extractLsb' lo k y :=
  BitVec.extractLsb'_append_eq_of_add_le h

theorem append_inj {m n : Nat} {x x' : BitVec m} {y y' : BitVec n} : x ++ y = x' ++ y' ↔ x = x' ∧ y = y' := by
  refine ⟨fun h => ⟨?_, ?_⟩, fun ⟨hx, hy⟩ => hx ▸ hy ▸ rfl⟩
  · simpa [BitVec.extractLsb'_append_eq_of_le] using congrArg (BitVec.extractLsb' n m) h
  · simpa [BitVec.extractLsb'_append_eq_of_add_le] using congrArg (BitVec.extractLsb' 0 n) h

/-- A concatenation is a field if its parts are the parts of the field. -/
theorem append_eq_fld {m n lo : Nat} (w : Word) (x : BitVec m) (y : BitVec n) :
    @Eq (BitVec (no_index (m + n))) (x ++ y) (fld w lo (no_index (m + n))) ↔ x = fld w (lo + n) m ∧ y = fld w lo n := by
  rw [fld_add, append_inj]

theorem ofNat_append (m n c : Nat) : BitVec.ofNat m (c / 2 ^ n) ++ BitVec.ofNat n c = BitVec.ofNat (m + n) c := by
  apply BitVec.eq_of_getLsbD_eq
  intro i hi
  rw [BitVec.getLsbD_append]
  simp only [BitVec.getLsbD_ofNat, Nat.testBit_div_two_pow, hi]
  by_cases h : i < n
  · simp [h]
  · simp [h, Nat.sub_add_cancel (Nat.le_of_not_lt h), show i - n < m by omega]

/-- A constant stands in a field if its parts stand in the parts of the field. -/
theorem ofNat_eq_fld_iff {k : Nat} {w : Word} {c : Nat} (lo m n : Nat) (h : m + n = k) :
    BitVec.ofNat k c = fld w lo k ↔ BitVec.ofNat m (c / 2 ^ n) = fld w (lo + n) m ∧ BitVec.ofNat n c = fld w lo n := by
  subst h
  rw [← append_eq_fld, ofNat_append]

theorem toNat_eq_iff {n : Nat} {x : BitVec n} {c : Nat} (h : c < 2 ^ n) : x.toNat = c ↔ x = BitVec.ofNat n c := by
  rw [← BitVec.toNat_inj, BitVec.toNat_ofNat, Nat.mod_eq_of_lt h]

theorem bit_ne_zero_iff {b : BitVec 1} : ¬b = 0#1 ↔ b = 1#1 := by
  revert b
  decide

/-- The last row of a selector of two bits is what is left when the others are refused. -/
theorem three_eq_of_ne {b : BitVec 2} (h0 : b = 0#2 → False) (h1 : b = 1#2 → False) (h2 : b = 2#2 → False) : 3#2 = b := by
  revert b
  decide

/-! ### What the decoder requires of a word -/

theorem req_eq_none_iff (r : Nat) (c : Bool) (k : Option Nat) : req r c k = none ↔ c = true ∧ k = none := by
  cases c <;> simp [req]

theorem guard_eq (w : Word) : guard w = fld w 22 3 := rfl

theorem decodeWord_ok_iff {w : Word} {i : Instr} : decodeWord w = .ok i ↔ wordReason w = none ∧ buildWord w = i := by
  rw [decodeWord]
  cases wordReason w <;> simp

theorem dict_of_primary_ge {w : Word} (h : 0x7E ≤ (fld w 25 7).toNat) : fld w 26 6 = 0x3F := by
  have hw := w.isLt
  rw [toNat_fld] at h
  rw [← BitVec.toNat_inj, toNat_fld]
  simp only [BitVec.reduceToNat]
  omega

theorem primary_of_dict {w : Word} (h : fld w 26 6 = 0x3F) : 0x7E ≤ (fld w 25 7).toNat := by
  rw [← BitVec.toNat_inj, toNat_fld] at h
  rw [toNat_fld]
  simp only [BitVec.reduceToNat] at h
  omega

theorem wordReason_of_dict {w : Word} (h : fld w 26 6 = 0x3F) : wordReason w = none := by
  have hp := primary_of_dict h
  simp (disch := omega) only [wordReason, if_neg]

theorem buildWord_of_dict {w : Word} (h : fld w 26 6 = 0x3F) : buildWord w = .dictionarySlot (fld w 16 10) (fld w 0 16) := by
  have hp := primary_of_dict h
  simp (disch := omega) only [buildWord, if_neg]

/-- The table that a word is read by, from its primary (03 R68). -/
theorem buildWord_families {w : Word} (h : wordReason w = none) (hdict : fld w 26 6 ≠ 0x3F) {p : Nat}
    (hp : (fld w 25 7).toNat = p) :
    (reasonInt w p = none ∧ buildWord w = buildInt w p) ∨ (reasonFloat w p = none ∧ buildWord w = buildFloat w p) ∨
    (reasonMem w p = none ∧ buildWord w = buildMem w p) ∨ (reasonTile w p = none ∧ buildWord w = buildTile w p) ∨
    (reasonGang w p = none ∧ buildWord w = buildGang w p) ∨ (p = 0x7C ∧ reasonHint w = none ∧ buildWord w = buildHint w) := by
  have hlt : ¬0x7E ≤ p := fun hge => hdict (dict_of_primary_ge (hp ▸ hge))
  simp only [wordReason, buildWord, hp] at h ⊢
  split_ifs at h with h1 h2 h3 h4 h5 h6 h7
  case neg => omega
  all_goals simp only [*, Nat.reduceLT, ↓reduceIte, and_self, true_or, or_true]

/-! ### The words whose constant fields the encoder does not write whole -/

theorem fld_dictionarySlot {w : Word} {i : BitVec 10} {k : BitVec 16} (h : encode (.dictionarySlot i k) = some w) :
    fld w 26 6 = 0x3F ∧ fld w 16 10 = i ∧ fld w 0 16 = k := by
  cases h
  simp (disch := exact Nat.le_of_ble_eq_true rfl) only [fld, extractLsb'_append_upper, extractLsb'_append_lower,
    BitVec.extractLsb'_eq_self, Nat.reduceSub, BitVec.ofNat_eq_ofNat, and_self]

theorem fld_movGv {w : Word} {d : GReg} {a : VReg} {l : BitVec 5} (h : encode (.movGv d a l) = some w) :
    fld w 25 7 = 0x27 ∧ fld w 22 3 = 7 ∧ fld w 21 1 = 0 ∧ fld w 15 6 = d ∧ fld w 8 7 = a ∧ fld w 6 2 = 1 ∧ fld w 1 5 = l ∧
      fld w 0 1 = 0 := by
  cases h
  simp (disch := exact Nat.le_of_ble_eq_true rfl) only [fld, extractLsb'_append_upper, extractLsb'_append_lower,
    BitVec.reduceExtractLsb', BitVec.extractLsb'_eq_self, Nat.reduceSub, BitVec.ofNat_eq_ofNat, and_self]

/-- `mov.gv` holds its lane in the low five bits of FN, above every other FN of its primary (03 R69). -/
theorem fn_movGv {w : Word} (h : fld w 6 2 = 1) : ∃ n, (fld w 1 7).toNat = n + 6 := by
  refine ⟨26 + (fld w 1 5).toNat, ?_⟩
  rw [fld_add w 1 2 5, h, BitVec.toNat_append, ← Nat.shiftLeft_add_eq_or_of_lt (fld w 1 5).isLt]
  simp only [BitVec.reduceToNat, BitVec.ofNat_eq_ofNat, Nat.reduceShiftLeft]
  omega

theorem decodeWord_movGv {w : Word} {d : GReg} {a : VReg} {l : BitVec 5} (h : encode (.movGv d a l) = some w) :
    wordReason w = none ∧ buildWord w = .movGv d a l := by
  obtain ⟨hp, hg, hz, hd, ha, hfn, hl, hm⟩ := fld_movGv h
  obtain ⟨n, hn⟩ := fn_movGv hfn
  simp [wordReason, reasonInt, buildWord, buildInt, req, guard, hp, hg, hz, hd, ha, hfn, hl, hm, hn]

/-! ### From an instruction to its word

In both proofs the first `simp` reads the primary out of the word and picks the table, `whnf` picks the table's row, and the last
`simp` reads the other fields. -/

theorem wordReason_of_encode {w : Word} {i : Instr} (hwf : i.wf = true) (h : encode i = some w) : wordReason w = none := by
  cases i
  case dictionarySlot i k => exact wordReason_of_dict (fld_dictionarySlot h).1
  case movGv d a l => exact (decodeWord_movGv h).1
  case aflush n => obtain rfl | rfl := BitVec.eq_zero_or_eq_one n <;> cases h <;> rfl
  all_goals cases h
  all_goals simp (disch := exact Nat.le_of_ble_eq_true rfl) only [wordReason, fld, extractLsb'_append_upper,
    BitVec.reduceExtractLsb', BitVec.reduceToNat, Nat.reduceSub, Nat.reduceLT, ↓reduceIte]
  all_goals with_reducible_and_instances
    conv => lhs; delta reasonInt reasonFloat reasonMem reasonTile reasonGang reasonHint; whnf
  all_goals simp only [Instr.wf.eq_def, decide_eq_true_eq, Bool.and_eq_true, Bool.or_eq_true, beq_iff_eq, bne_iff_ne, ne_eq,
    BitVec.ofNat_eq_ofNat] at hwf
  all_goals simp (disch := exact Nat.le_of_ble_eq_true rfl) only [hwf, fld, extractLsb'_append_upper,
    extractLsb'_append_lower, BitVec.reduceExtractLsb', BitVec.extractLsb'_eq_self, Nat.reduceSub, guard, req_eq_none_iff,
    BitVec.reduceBEq, BitVec.reduceToNat, Bool.and_eq_true, Bool.or_eq_true, decide_eq_true_eq, beq_iff_eq, bne_iff_ne, ne_eq,
    ↓reduceIte, and_self, not_false_eq_true, BitVec.ofNat_eq_ofNat, Bool.false_eq_true]
  case rotliU | shflXor | shflXori => rfl

theorem buildWord_of_encode {w : Word} {i : Instr} (hwf : i.wf = true) (h : encode i = some w) : buildWord w = i := by
  cases i
  case dictionarySlot i k =>
    obtain ⟨hdict, hi, hk⟩ := fld_dictionarySlot h
    rw [buildWord_of_dict hdict, hi, hk]
  case movGv d a l => exact (decodeWord_movGv h).2
  case aflush n => obtain rfl | rfl := BitVec.eq_zero_or_eq_one n <;> cases h <;> rfl
  all_goals cases h
  all_goals simp (disch := exact Nat.le_of_ble_eq_true rfl) only [buildWord, fld, extractLsb'_append_upper,
    BitVec.reduceExtractLsb', BitVec.reduceToNat, Nat.reduceSub, Nat.reduceLT, ↓reduceIte]
  all_goals with_reducible_and_instances
    conv => lhs; delta buildInt buildFloat buildMem buildTile buildGang buildHint; whnf
  all_goals simp (disch := exact Nat.le_of_ble_eq_true rfl) only [fld, extractLsb'_append_upper, extractLsb'_append_lower,
    BitVec.reduceExtractLsb', BitVec.extractLsb'_eq_self, Nat.reduceSub, BitVec.reduceBEq, BitVec.reduceToNat, beq_iff_eq,
    ↓reduceIte, BitVec.ofNat_eq_ofNat, Bool.false_eq_true]
  case br p o => exact if_neg (by simpa [Instr.wf] using hwf)
  case rotliU | shflXor | shflXori | hintMod => rfl

theorem decodeWord_of_encode {w : Word} {i : Instr} (hwf : i.wf = true) (h : encode i = some w) : decodeWord w = .ok i :=
  decodeWord_ok_iff.2 ⟨wordReason_of_encode hwf h, buildWord_of_encode hwf h⟩

/-! ### From a word to its instruction -/

theorem encode_eq_some {i : Instr} {v w : Word} (hv : encode i = some v) (h : v = fld w 0 32) : encode i = some w := by
  rw [hv, h, fld_all]

theorem encode_buildWord_of_dict {w : Word} (h : fld w 26 6 = 0x3F) :
    (buildWord w).wf = true ∧ encode (buildWord w) = some w := by
  rw [buildWord_of_dict h]
  refine ⟨rfl, encode_eq_some rfl ?_⟩
  rw [append_eq_fld, append_eq_fld, h]
  exact ⟨⟨rfl, rfl⟩, rfl⟩

/-- One case for each row of the tables: what the row requires (`hr`) is brought into the form `fld w lo n = c`, and the encoder's
word is cut where the row cuts its fields; each piece is then a field read or a constant required. -/
theorem encode_buildWord {w : Word} {i : Instr} (hw : wordReason w = none) (hb : buildWord w = i) :
    i.wf = true ∧ encode i = some w := by
  by_cases hdict : fld w 26 6 = 0x3F
  case pos => exact hb ▸ encode_buildWord_of_dict hdict
  generalize hp : (fld w 25 7).toNat = p
  obtain ⟨hr, hi⟩ | ⟨hr, hi⟩ | ⟨hr, hi⟩ | ⟨hr, hi⟩ | ⟨hr, hi⟩ | ⟨rfl, hr, hi⟩ := buildWord_families hw hdict hp <;>
    rw [hi] at hb <;> clear hi hdict hw <;> revert hr
  case' inl => fun_cases reasonInt w p
  case' inr.inl => fun_cases reasonFloat w p
  case' inr.inr.inl => fun_cases reasonMem w p
  case' inr.inr.inr.inl => fun_cases reasonTile w p
  case' inr.inr.inr.inr.inl => fun_cases reasonGang w p
  case' inr.inr.inr.inr.inr => fun_cases reasonHint w
  all_goals intro hr
  all_goals simp only [req_eq_none_iff, reduceCtorEq, and_false] at hr
  all_goals with_reducible_and_instances
    conv at hb => lhs; delta buildInt buildFloat buildMem buildTile buildGang buildHint; whnf
  all_goals try simp only [*, ↓reduceIte, Bool.false_eq_true] at hb
  all_goals subst hb
  all_goals simp (disch := decide) only [guard_eq, bit_ne_zero_iff, toNat_eq_iff, Bool.and_eq_true, beq_iff_eq,
    BitVec.ofNat_eq_ofNat] at *
  all_goals refine ⟨?_, encode_eq_some rfl ?_⟩
  all_goals simp only [*, Instr.wf.eq_def, bne_iff_ne, ne_eq, not_false_eq_true, Bool.and_self,
    and_true, true_and, ↓append_eq_fld, Nat.reduceAdd, Nat.reduceDiv, Nat.reducePow, BitVec.reduceOfNat, BitVec.ofNat_eq_ofNat,
    ofNat_eq_fld_iff (k := 32) 0 24 8 rfl, ofNat_eq_fld_iff (k := 31) 1 24 7 rfl, ofNat_eq_fld_iff (k := 27) 5 13 14 rfl,
    ofNat_eq_fld_iff (k := 24) 8 10 14 rfl, ofNat_eq_fld_iff (k := 22) 0 14 8 rfl, ofNat_eq_fld_iff (k := 17) 15 10 7 rfl,
    ofNat_eq_fld_iff (k := 16) 16 13 3 rfl, ofNat_eq_fld_iff (k := 15) 0 7 8 rfl, ofNat_eq_fld_iff (k := 13) 19 10 3 rfl,
    ofNat_eq_fld_iff (k := 12) 20 10 2 rfl, ofNat_eq_fld_iff (k := 11) 21 10 1 rfl, ofNat_eq_fld_iff (k := 10) 22 7 3 rfl,
    ofNat_eq_fld_iff (k := 8) 0 7 1 rfl, ofNat_eq_fld_iff (k := 5) 0 4 1 rfl]
  -- The rows left: the last of a two-bit selector (`shfl`), `wlpush`, `wldone`, `aflush` (its FN and its bit read as one), `rotli` on uniforms.
  case case10.refine_2 | case14.refine_2 => exact three_eq_of_ne ‹_› ‹_› ‹_›
  case case31.refine_2 hfn =>
    obtain ⟨⟨-, hpad⟩, -⟩ := hr
    exact (ofNat_eq_fld_iff 1 3 4 rfl).2 ⟨hpad.symm, hfn.symm⟩
  case case33.refine_2 hfn =>
    obtain ⟨⟨-, hpad⟩, -⟩ := hr
    obtain ⟨hhigh, hlow⟩ := (ofNat_eq_fld_iff 5 14 3 rfl).1 hpad.symm
    exact ⟨hhigh, (ofNat_eq_fld_iff 1 3 4 rfl).2 ⟨hlow, hfn.symm⟩⟩
  case case53.refine_2 hfn | case54.refine_2 hfn => exact ((ofNat_eq_fld_iff 0 7 1 rfl).1 hfn.symm).1
  case case88.refine_2 =>
    generalize fld w 6 2 = a, fld w 0 1 = b at *
    revert a b
    decide

/-- Settles O55: the two directions of the round trip. -/
theorem decodeEncodeRoundTrip : Obligations.DecodeEncodeRoundTrip := by
  refine ⟨fun i w hwf h => decodeWord_of_encode hwf h, fun w i h => ?_⟩
  obtain ⟨hw, hb⟩ := decodeWord_ok_iff.1 h
  exact encode_buildWord hw hb

end Sys2Proof.Machine

/-!
PROOF. The sample words, undecodable words, hints, dictionary slots and branches of a whole split (03 R67-R81, 04 R106-R112, R115): the
statements O54, O18, O19 and O6.
-/

namespace Sys2Proof.Machine

/-! ### The words that the spec writes out -/

theorem sampleWords_encode : ∀ p ∈ sampleWords, p.2.wf = true ∧ encode p.2 = some p.1 := by
  simp only [sampleWords, List.forall_mem_cons, List.not_mem_nil, false_implies, implies_true, and_true]
  repeat' apply And.intro
  all_goals rfl

/-- Settles O54: each sample is the encoding of its well-formed instruction, and so decodes to it. -/
theorem sampleWordsDecode : Obligations.SampleWordsDecode := by
  intro p hp
  obtain ⟨hwf, henc⟩ := sampleWords_encode p hp
  exact ⟨decodeWord_of_encode hwf henc, hwf, henc⟩

/-! ### A word that is no instruction -/

/-- With no earlier operation of its split outstanding, an exception is taken at once (08 R233). -/
theorem Iss.raise_of_not_busy {x : Iss} (h : x.k.busyFor x.live = false) (act : Mask) (code info : Nat) :
    x.raise act code info = .next (x.s.takeTrap x.f.core x.f.slot x.k x.sp (x.trap act code info)) := by
  rw [Iss.raise, Iss.raiseRec, h]
  rfl

/-- Outside a hint group, a word that is no hint raises its own REASON. -/
theorem execIllegalInstruction_of_issuer {s : State} {x : Iss} (h : s.issuer = some x) {w : Word} (hw : primary w ≠ 0x7C)
    (hh : x.sp.hints = []) (reason : Nat) : execIllegalInstruction w reason s = x.illop reason := by
  by_cases hr : reason = 7
  · simp [execIllegalInstruction, h, hh, hr]
  · simp [execIllegalInstruction, h, hh, hr, hw]

/-- Settles O18: the word raises ILLOP, which is taken at once. -/
theorem undecodableWordTraps : Obligations.UndecodableWordTraps := by
  intro w reason s x hx hw hh hword hbusy
  have hexec : exec (.illegalInstruction w reason) s = x.illop reason := execIllegalInstruction_of_issuer hx hw hh reason
  rw [hexec, Iss.illop, Iss.illopWith, Iss.raise_of_not_busy hbusy, hh, hword]
  rfl

/-! ### Putting a pack and split back -/

theorem Iss.now_put (x : Iss) (k : Pack) {sp : Split} (h : sp.id = x.f.split) : x.now (x.put k sp) = some (k.setSplit sp, sp) := by
  have hp : (x.put k sp).pack x.f.core x.f.slot = some (k.setSplit sp) := by
    simp [Iss.put, State.pack, State.core, State.setCore, State.setPack]
  have hs : (k.setSplit sp).split x.f.split = some sp := by
    rw [← h]
    exact Pack.split_setSplit_self _ _
  simp [Iss.now, hp, hs]

theorem Iss.put_onlyPack (x : Iss) (k : Pack) (sp : Split) : x.onlyPack (x.put k sp) := by
  refine ⟨⟨rfl, fun c hc => ?_⟩, ?_, fun n hn => ?_⟩
  · simp [State.core, State.setCore, Iss.put, State.setPack, Table.getD_put_of_ne _ _ _ hc]
  · simp [State.core, State.setCore, Iss.put, State.setPack]
  · simp [State.pack, State.core, State.setCore, Iss.put, State.setPack, Table.get_put_of_ne _ _ hn]

theorem Iss.put_sameBytes {s : State} {x : Iss} (h : s.issuer = some x) (k : Pack) (sp : Split) : sameBytes s (x.put k sp) := by
  obtain ⟨-, hs, -⟩ := State.issuer_spec h
  refine fun a => ⟨?_, fun seen age n => ?_⟩
  · have hmem : (x.put k sp).mem = x.s.mem := rfl
    rw [hmem, hs]
  · have hlane : (x.put k sp).laneRead seen age a n = x.s.laneRead seen age a n := rfl
    rw [hlane, hs]
    rfl

/-! ### Hints (03 R73, R76) -/

/-- The split with a hint joined to its group. -/
def Iss.hinted (x : Iss) (w : Word) : Split := { x.sp with hints := x.sp.hints ++ [w], hintAt := x.at_, pc := x.f.next }

/-- A hint that joins a group, or opens one that stands, joins the split's hints. -/
theorem hint_of_issuer {s : State} {x : Iss} (h : s.issuer = some x) (mn : String) {w : Word}
    (hg : x.sp.hints ≠ [] ∨ groupReason (w :: (x.s.hintRun x.f.core x.k ((x.s.header x.k).codeSize / 4 + 1) x.f.addr).1.tail)
      (x.s.hintRun x.f.core x.k ((x.s.header x.k).codeSize / 4 + 1) x.f.addr).2 = none) :
    hint mn w s = .next (x.put x.k.started (x.hinted w)) := by
  rw [hint, h]
  obtain hne | hstands := hg
  · simp [hne]
    rfl
  · simp [hstands]
    rfl

theorem hintWord_toNat (kind : Nat) {n : Nat} (i : BitVec n) :
    hintWord kind i.toNat = BitVec.ofNat 32 (0xF9C00000 + kind * 2 ^ 19) + i.setWidth 32 := by
  rw [hintWord, BitVec.ofNat_add, BitVec.ofNat_toNat]

/-- A payload whose lowest part is a field of its own. -/
theorem hintWord_add (kind p : Nat) {n : Nat} (i : BitVec n) : hintWord kind (p + i.toNat) = hintWord kind p + i.setWidth 32 := by
  rw [hintWord, hintWord, ← Nat.add_assoc, BitVec.ofNat_add, BitVec.ofNat_toNat]

theorem ofNat_toNat_mul {n : Nat} (i : BitVec n) (p m : Nat) (h : p = 2 ^ m) :
    BitVec.ofNat 32 (i.toNat * p) = i.setWidth 32 <<< m := by
  rw [h, ← Nat.shiftLeft_eq, ← BitVec.ofNat_toNat]
  apply BitVec.eq_of_toNat_eq
  simp [Nat.shiftLeft_eq]

/-- A hint instruction issues as the word that stands for it. -/
theorem exec_hint {i : Instr} {w : Word} (h : Hints i w) (s : State) : ∃ mn, exec i s = hint mn w s := by
  cases h with
  | imm i => exact ⟨_, congrArg (hint "HINT_IMM" · s) (hintWord_toNat 0 i)⟩
  | immtop i => exact ⟨_, congrArg (hint "HINT_IMMTOP" · s) (hintWord_toNat 1 i)⟩
  | rnd st m =>
    refine ⟨_, congrArg (hint "HINT_RND" · s) ((hintWord_add 2 _ m).trans ?_)⟩
    rw [hintWord, BitVec.ofNat_add, ofNat_toNat_mul st 32 5 rfl]
    rfl
  | cache b c l =>
    refine ⟨_, congrArg (hint "HINT_CACHE" · s) ((hintWord_add 3 _ l).trans ?_)⟩
    rw [hintWord, ← Nat.add_assoc, BitVec.ofNat_add, BitVec.ofNat_add, ofNat_toNat_mul b 16 4 rfl, ofNat_toNat_mul c 4 2 rfl]
    rfl
  | ctl t r =>
    refine ⟨_, congrArg (hint "HINT_CTL" · s) ((hintWord_add 4 _ r).trans ?_)⟩
    rw [hintWord, BitVec.ofNat_add, ofNat_toNat_mul t 1024 10 rfl]
    rfl
  | mod m => exact ⟨_, congrArg (hint "HINT_MOD" · s) (hintWord_toNat 5 m)⟩

theorem hint_joins {i : Instr} {w : Word} (hi : Hints i w) {s : State} {x : Iss} (h : s.issuer = some x) (hid : x.sp.id = x.f.split)
    (hg : x.sp.hints ≠ [] ∨ groupReason (w :: (x.s.hintRun x.f.core x.k ((x.s.header x.k).codeSize / 4 + 1) x.f.addr).1.tail)
      (x.s.hintRun x.f.core x.k ((x.s.header x.k).codeSize / 4 + 1) x.f.addr).2 = none) :
    ∃ t k sp, exec i s = .next t ∧ x.now t = some (k, sp) ∧ sp.hints = x.sp.hints ++ [w] ∧ sp.pc = x.f.next ∧ sp.win = x.sp.win ∧
      sp.mask = x.sp.mask ∧ k.v = x.k.v ∧ k.g = x.k.g ∧ k.p = x.k.p ∧ x.onlyPack t ∧ sameBytes s t := by
  obtain ⟨mn, hexec⟩ := exec_hint hi s
  refine ⟨_, _, _, hexec.trans (hint_of_issuer h mn hg), x.now_put _ hid, rfl, rfl, rfl, rfl, rfl, rfl, rfl, x.put_onlyPack _ _,
    Iss.put_sameBytes h _ _⟩

/-! ### Dictionary slots (03 R77, R78) -/

/-- The split standing at entry `n` of a dictionary, from slot `slot` of the word. -/
def Iss.latched (x : Iss) (d : Dict) (n slot : Nat) (last : Bool) : Split :=
  { x.sp with slot := some { word := Words.get d.words n, index := n, slot := slot, lastSlot := last } }

theorem execDictionarySlot_first {s : State} {x : Iss} {d : Dict} {i : BitVec 10} {k : BitVec 16} (h : s.issuer = some x)
    (hh : x.sp.hints = []) (hd : x.s.dict x.f.core x.k = some d) (heven : x.f.addr.getLsbD 0 = false) (hi : i.toNat < d.count)
    (hk : k = 0 ∨ k.toNat / 1024 = 0x3F ∧ k.toNat % 1024 < d.count) (hok : entryIllegal (Words.get d.words i.toNat) = false) :
    execDictionarySlot i k s = .next (x.put x.k (x.latched d i.toNat 1 (k == 0))) := by
  have hlow : (k != 0 && (!(k.toNat / 1024 == 0x3F) || decide (d.count ≤ k.toNat % 1024))) = false := by
    obtain rfl | ⟨hhigh, hlt⟩ := hk
    · rfl
    · simp [hhigh, hlt]
  have hempty : x.sp.hints.isEmpty = true := List.isEmpty_iff.2 hh
  simp only [execDictionarySlot, h, hempty, hd, heven, Option.elim_some, Bool.not_true, Bool.false_eq_true, ↓reduceIte,
    if_neg (Nat.not_le.2 hi), hlow, hok]
  rfl

theorem execDictionarySlot_second {s : State} {x : Iss} {d : Dict} {i : BitVec 10} {k : BitVec 16} (h : s.issuer = some x)
    (hh : x.sp.hints = []) (hd : x.s.dict x.f.core x.k = some d) (hodd : x.f.addr.getLsbD 0 = true) (hhigh : k.toNat / 1024 = 0x3F)
    (hlt : k.toNat % 1024 < d.count) (hok : entryIllegal (Words.get d.words (k.toNat % 1024)) = false) :
    execDictionarySlot i k s = .next (x.put x.k (x.latched d (k.toNat % 1024) 2 false)) := by
  have hk : (k == 0) = false := by
    rw [beq_eq_false_iff_ne]
    rintro rfl
    simp at hhigh
  have hempty : x.sp.hints.isEmpty = true := List.isEmpty_iff.2 hh
  simp only [execDictionarySlot, h, hempty, hd, hodd, hhigh, Option.elim_some, beq_self_eq_true, Bool.not_true,
    Bool.false_eq_true, ↓reduceIte, if_neg (Nat.not_le.2 hlt), hok, hk]
  rfl

/-- Settles O19: a hint joins its group, and each slot of a dictionary word latches its entry. -/
theorem hintAndDictionarySlotResults : Obligations.HintAndDictionarySlotResults := by
  refine ⟨fun i w hi s x h hid hg => hint_joins hi h hid hg, fun i k s x d h hid hh hd =>
    ⟨fun heven hi hk hok => ?_, fun hodd ⟨hhigh, hlt⟩ hok => ?_⟩⟩
  · exact ⟨_, _, _, execDictionarySlot_first h hh hd heven hi hk hok, x.now_put _ hid, rfl, rfl⟩
  · exact ⟨_, _, _, execDictionarySlot_second h hh hd hodd hhigh hlt hok, x.now_put _ hid, rfl, rfl⟩

/-! ### Branches (04 R106, R110-R112) -/

theorem offsetOf_toNat (o : BitVec 19) : offsetOf 19 o.toNat = o.signExtend 32 := by
  have hint : signedOf 19 o.toNat = o.toInt := by
    rw [BitVec.toInt_eq_toNat_cond, signedOf, Nat.mod_eq_of_lt o.isLt]
    split_ifs <;> omega
  rw [offsetOf, hint, BitVec.signExtend]

theorem lanesOf_ne_nil {m : Mask} (h : m ≠ 0) : lanesOf m ≠ [] := by
  intro hnil
  refine h (BitVec.eq_of_getLsbD_eq fun i hi => ?_)
  have hlane : i ∉ lanesOf m := by simp [hnil]
  rw [mem_lanesOf, not_and, Bool.not_eq_true] at hlane
  exact (hlane hi).trans BitVec.getLsbD_zero.symm

theorem lowLane_mem {m : Mask} (h : m ≠ 0) : lowLane m ∈ lanesOf m := by
  rw [lowLane]
  cases hl : lanesOf m with
  | nil => exact absurd hl (lanesOf_ne_nil h)
  | cons l ls => exact List.mem_cons_self

/-- The first lane that a search finds is the lowest one. -/
theorem find?_lanesOf {m : Mask} {p : Nat → Bool} {l : Nat} (h : (lanesOf m).find? p = some l) :
    p l = true ∧ m.getLsbD l = true ∧ ∀ j, j < l → m.getLsbD j = true → p j = false := by
  rw [lanesOf, List.find?_filter, allLanes, List.find?_range_eq_some] at h
  obtain ⟨hl, -, hbelow⟩ := h
  simp only [Bool.decide_and, Bool.decide_eq_true, Bool.and_eq_true] at hl
  refine ⟨hl.2, hl.1, fun j hj hmj => ?_⟩
  simpa [hmj] using hbelow j hj

/-- Members that are all one number make one group. -/
theorem sortNats_eq_singleton {l : List Nat} {n : Nat} (hne : l ≠ []) (h : ∀ x ∈ l, x = n) : sortNats l = [n] := by
  have hrest : ∀ l : List Nat, (∀ x ∈ l, x = n) → l.foldl insertNat [n] = [n] := by
    intro l h
    induction l with
    | nil => rfl
    | cons x xs ih =>
      obtain ⟨rfl, hxs⟩ := List.forall_mem_cons.1 h
      simpa [insertNat] using ih hxs
  cases l with
  | nil => exact absurd rfl hne
  | cons x xs =>
    obtain ⟨rfl, hxs⟩ := List.forall_mem_cons.1 h
    exact hrest xs hxs

theorem execBr_of_ready {s : State} {x : Iss} (h : s.Ready [] x) (p : PReg) (o : BitVec 19) :
    execBr p o s = .next (if x.live &&& ~~~(x.k.pred p) = 0 then
      x.retireTo (x.k.capture x.f.addr (x.f.addr + o.signExtend 32)) x.sp (x.f.addr + o.signExtend 32) else x.retire x.k x.sp) := by
  rw [execBr, issueU_of_ready h, offsetOf_toNat]
  by_cases hall : x.live &&& ~~~(x.k.pred p) = 0
  · rw [if_pos (by rw [Iss.all, hall]; rfl), if_pos hall, Iss.branch]
  · rw [if_neg (by rwa [Iss.all, beq_iff_eq]), if_neg hall, Iss.done_eq]

theorem execJmp_of_ready {s : State} {x : Iss} (h : s.Ready [] x) (o : BitVec 19) : execJmp o s =
    .next (x.retireTo (x.k.capture x.f.addr (x.f.addr + o.signExtend 32)) x.sp (x.f.addr + o.signExtend 32)) := by
  rw [execJmp, issueU_of_ready h, offsetOf_toNat, Iss.branch]

theorem execJmpi_of_ready {s : State} {x : Iss} {a : VReg} (h : s.Ready [rdV 1 a] x) {target : Word} (hlive : x.live ≠ 0)
    (hagree : ∀ n, x.live.getLsbD n → x.v a n = target) : execJmpi a s = .next (x.retireTo x.k x.sp target) := by
  have hlow : x.v a (lowLane x.live) = target := hagree _ (mem_lanesOf.1 (lowLane_mem hlive)).2
  have hothers : (lanesOf x.live).filter (fun i => x.v a i != target) = [] := by
    refine List.filter_eq_nil_iff.2 fun i hi => ?_
    simp [hagree i (mem_lanesOf.1 hi).2]
  simp only [execJmpi, issueU_of_ready h, hlow, hothers]

/-! ### A call by index (04 R112) -/

theorem State.issuer_header {s : State} {x : Iss} (h : s.issuer = some x) (k : Pack) : x.s.header k = s.header k := by
  rw [(State.issuer_spec h).2.1]
  rfl

/-- The cause word of an index beyond the call table (07 R202). -/
theorem handleWord_lane {l : Nat} (hl : l < 32) (v : Word) :
    handleWord 0x1B (lane := l) (value := v.toNat) = 0x1B + l * 2 ^ 45 + v.toNat * 2 ^ 64 := by
  simp [handleWord, Nat.mod_eq_of_lt hl, Nat.mod_eq_of_lt v.isLt]

section
variable {s : State} {x : Iss} {d a : VReg} {n : Nat} (h : s.Ready [wrV 0 d, rdV 1 a] x) (hlive : x.live ≠ 0)
  (hagree : ∀ l, x.live.getLsbD l → (x.v a l).toNat = n)
include h hlive hagree

/-- The live lanes name the one entry `n` of the table. -/
theorem execCalli_of_inside (hn : n < (s.header x.k).callCount) {t : State} {e : CallEntry}
    (he : x.s.callEntries x.f.core x.k [n] = (t, .ok [e])) :
    execCalli d a s = if e.fits x.k then
        .next (({ x with s := t } : Iss).retireTo (writeV x.k x.sp d x.live fun _ => x.f.next).1
          (writeV x.k x.sp d x.live fun _ => x.f.next).2 e.target)
      else ({ x with s := t } : Iss).raise x.live 0x04 (n + e.target.toNat * 2 ^ 32) := by
  have hinside : (lanesOf x.live).find? (fun i => decide ((x.s.header x.k).callCount ≤ (x.v a i).toNat)) = none := by
    refine List.find?_eq_none.2 fun i hi => ?_
    simpa [State.issuer_header h.issuer, hagree i (mem_lanesOf.1 hi).2] using hn
  have hone : sortNats ((lanesOf x.live).map fun i => (x.v a i).toNat) = [n] := by
    refine sortNats_eq_singleton (by simpa using lanesOf_ne_nil hlive) fun v hv => ?_
    obtain ⟨i, hi, rfl⟩ := List.mem_map.1 hv
    exact hagree i (mem_lanesOf.1 hi).2
  simp only [execCalli, issueU_of_ready h, hinside, hone, he]
  rfl

/-- The live lanes name an index beyond the table: the lowest of them is reported. -/
theorem execCalli_of_beyond (hn : (s.header x.k).callCount ≤ n) :
    ∃ l, x.live.getLsbD l = true ∧ (∀ j, j < l → x.live.getLsbD j = false) ∧
      execCalli d a s = x.raise x.live 0x08 (0x1B + l * 2 ^ 45 + n * 2 ^ 64) := by
  have hbeyond : ∀ i, x.live.getLsbD i = true → decide ((x.s.header x.k).callCount ≤ (x.v a i).toNat) = true := by
    intro i hi
    rw [State.issuer_header h.issuer, hagree i hi]
    exact decide_eq_true hn
  cases hfind : (lanesOf x.live).find? (fun i => decide ((x.s.header x.k).callCount ≤ (x.v a i).toNat)) with
  | none =>
    have hlow := lowLane_mem hlive
    exact absurd (hbeyond _ (mem_lanesOf.1 hlow).2) (List.find?_eq_none.1 hfind _ hlow)
  | some l =>
    obtain ⟨-, hl, hlowest⟩ := find?_lanesOf hfind
    have hlt : l < 32 := (mem_lanesOf.1 (List.mem_of_find?_eq_some hfind)).1
    refine ⟨l, hl, fun j hj => ?_, ?_⟩
    · rw [← Bool.not_eq_true]
      intro hlj
      exact absurd (hbeyond j hlj) (by simp [hlowest j hj hlj])
    · simp only [execCalli, issueU_of_ready h, hfind]
      rw [handleWord_lane hlt, hagree l hl]

end

/-- Settles O6: each branch by its own rule; a `calli` by whether its lanes' entry is in the table. -/
theorem branchResults : Obligations.BranchResults := by
  refine ⟨fun s x => ⟨fun h => ⟨execBr_of_ready h, execJmp_of_ready h, fun g => ?_⟩, fun d i h => ?_, fun a target h =>
    execJmpi_of_ready h⟩, fun d a s x n h hlive hagree => ⟨fun hn t e he => ?_, execCalli_of_beyond h hlive hagree⟩⟩
  · exact issue_of_ready h "NOP" g fun x _ => x.done x.k x.sp
  · exact issueU_of_ready h ..
  · have hcalli := execCalli_of_inside h hlive hagree hn he
    exact ⟨fun hfits => hcalli.trans (if_pos hfits), fun hfits => hcalli.trans (if_neg (Bool.not_eq_true _ ▸ hfits))⟩

end Sys2Proof.Machine

/-!
PROOF. The FP32 comparisons and the raw words of the generator (01 R32-R34, 05 R128, R139): a comparison finishes as any floating instruction does,
its lanes' flags are NV or none, and the statement O22 from what its window raises.
-/

namespace Sys2Proof.Machine

/-! ### The flags and the lanes of a comparison -/

/-- What `fcmp` and `fcmpa` finish with: no word, and NV in the lanes where `nv` holds (05 R128). -/
def nvResults (act : Mask) (nv : Nat → Bool) : List (Nat × LaneRes) :=
  (lanesOf act).map fun n => (n, { word := 0, flags := [(0, nvIf (nv n))] })

theorem nvIf_or (a b : Bool) : nvIf a ||| nvIf b = nvIf (a || b) := by
  cases a <;> cases b <;> rfl

theorem ofNat_nvIf (b : Bool) : BitVec.ofNat 32 (nvIf b) = if b then BitVec.ofNat 32 fNV else 0 := by
  cases b <;> rfl

/-- Results that raise NV or nothing raise NV together where any of them does. -/
theorem foldl_nvIf (nv : Nat → Bool) (lanes : List Nat) (b : Bool) :
    lanes.foldl (fun f n => f ||| nvIf (nv n)) (nvIf b) = nvIf (b || lanes.any nv) := by
  induction lanes generalizing b with
  | nil => simp
  | cons n lanes ih => rw [List.foldl_cons, nvIf_or, ih, List.any_cons, Bool.or_assoc]

theorem raisedFlags_nvResults (act : Mask) (nv : Nat → Bool) :
    raisedFlags (elements (nvResults act nv)) = nvIf ((lanesOf act).any nv) := by
  have hone : elements (nvResults act nv) = (lanesOf act).map fun n => (n, 0, nvIf (nv n)) := by
    rw [elements, nvResults, List.flatMap_map, List.map_eq_flatMap]
    rfl
  rw [hone, raisedFlags, List.foldl_map]
  exact foldl_nvIf nv (lanesOf act) false

/-- No raised flag is enabled where no lane raises NV, or NV is not enabled. -/
theorem nvIf_and_eq_zero {b : Bool} {te : Nat} (h : b = false ∨ te &&& fNV = 0) : nvIf b &&& te = 0 := by
  cases b with
  | false => exact Nat.zero_and te
  | true => exact (Nat.and_comm fNV te).trans (h.resolve_left (by decide))

/-- The active lanes whose outcome is true, as a mask. -/
theorem maskOf_outcomes (act : Mask) (r : Nat → Bool × Bool) :
    maskOf ((((lanesOf act).map fun n => (n, r n)).filter fun c => c.2.1).map (·.1)) = maskWhere fun n => act.getLsbD n && (r n).1 := by
  rw [maskWhere, lanesOf, List.filter_map, List.map_map, List.filter_filter]
  simp [Function.comp_def, Bool.and_comm]

/-! ### The statement -/

/-- A comparison that passes its checks finishes with the NV of its active lanes, and writes its outcomes there, ANDed with the predicate's own
bits in the form `fcmpa` (05 R128). -/
theorem fpCmp_of_ready {s : State} {x : Iss} {a b : VReg} (h : s.Ready [rdV 1 a, rdV 2 b] x) (mn : String) (both : Bool) (g p : PReg)
    (c : BitVec 4) :
    let act := x.k.active x.sp g
    let r := fun n => fcond c.toNat (f32Of (x.v a n)) (f32Of (x.v b n))
    let bits := maskWhere fun n => act.getLsbD n && (r n).1
    fpCmp mn both g p c a b s = x.fpFinish act (nvResults act fun n => (r n).2) fun k sp =>
      (k.setP p act (if both then bits &&& k.p.get p.toNat else bits), sp) := by
  simp only [fpCmp, issue_of_ready h, maskOf_outcomes, List.map_map]
  rfl

/-- Where NV is raised in no lane or is not enabled, it goes to `sr.fpstat` and the results are written (01 R34). -/
theorem Iss.fpFinish_nvResults_of_untrapped (x : Iss) (act : Mask) (nv : Nat → Bool) (write : Pack → Split → Pack × Split)
    (h : (lanesOf act).any nv = false ∨ x.k.te &&& fNV = 0) :
    let w := write (x.k.orFlags (if (lanesOf act).any nv then BitVec.ofNat 32 fNV else 0)) x.sp
    x.fpFinish act (nvResults act nv) write = .next (x.retire w.1 w.2) := by
  have hraised := raisedFlags_nvResults act nv
  have huntrapped : raisedFlags (elements (nvResults act nv)) &&& x.k.te = 0 := hraised ▸ nvIf_and_eq_zero h
  rw [x.fpFinish_of_untrapped _ _ _ huntrapped, hraised, ofNat_nvIf]

theorem execPrng_of_ready {s : State} {x : Iss} {d : VReg} {b : BitVec 5} (h : s.Ready [wrV 0 d, rdV 2 (baseReg b)] x) (g : PReg)
    (e : BitVec 3) : execPrng g d e b s = .next (x.vecNext d (x.k.active x.sp g) fun n =>
      BitVec.ofNat 32 (x.s.generator x.k (x.k.widOf n) x.site e.toNat (x.v (baseReg b) n).toNat)) := by
  rw [execPrng, issue_of_ready h, Iss.doneV_eq]

/-- Settles O22: both comparisons finish with the NV of their lanes, which is no enabled flag; a generator word is a vector result. -/
theorem floatComparisonAndGeneratorResults : Obligations.FloatComparisonAndGeneratorResults := by
  refine ⟨fun g p c a b s x _ h => ?_, fun g d e b s x h => execPrng_of_ready h g e⟩
  intro act r nv k bits huntrapped
  have hcmp (mn : String) (both : Bool) : fpCmp mn both g p c a b s =
      .next (x.retire (k.setP p act (if both then bits &&& k.p.get p.toNat else bits)) x.sp) :=
    (fpCmp_of_ready h mn both g p c).trans (x.fpFinish_nvResults_of_untrapped act _ _ huntrapped)
  exact ⟨hcmp _ false, hcmp _ true⟩

end Sys2Proof.Machine

/-!
Memory accesses as they issue (04 R116, 06 R141-R157): what one access answers where nothing holds it and its requests pass or fail, the
instructions that issue as one access, and the statement O23 from them.
-/

namespace Sys2Proof.Machine

/-! ### One access -/

/-- An access without a request is done at once (06 R141). -/
theorem Iss.access_nil {x : Iss} {a : Acc} (h : x.mustWait a = false) (act : Mask) (hold : Bool) :
    x.access act a [] hold = .next (idleNext x a) := by
  rw [Iss.access, h]
  rfl

/-- An access whose requests all pass leaves one operation (06 R146). -/
theorem Iss.access_of_ready {x : Iss} {a : Acc} {reqs : List Req} (h : accessReady x a reqs) (act : Mask) (hold : Bool) :
    x.access act a reqs hold = .next (accessNext x a reqs hold) := by
  obtain ⟨hne, hwait, hpass, hsc⟩ := h
  have horder : ((x.pend a (laneAccs (x.s.checkAll x.f.core x.k.ctx a.path a.size a.align a.use reqs).2)).sc && x.unperformed) = false :=
    Bool.and_eq_false_iff.2 hsc
  simp only [Iss.access, hwait, List.isEmpty_eq_false_iff.2 hne, hpass, horder, Bool.false_eq_true, if_false, accessNext, Iss.issuedAs]
  cases a.use.writes <;> rfl

/-- What a failed access raises is the first failing check of its lowest failing lane (06 R144, R145). -/
theorem Iss.memTrap_cons (y : Iss) (act : Mask) (path : Path) (write : Bool) (elem : Nat) (part : Bool) (r : Req) (e : XErr)
    (rest : List (Req × XErr)) :
    raisedFor y act e (memWord r.va r.lane elem path write part rest.length) (y.memTrap act path write elem part ((r, e) :: rest)) := by
  refine ⟨fun hecc => ?_, fun pa hpa => ?_⟩
  · cases e with
    | ecc pa => exact absurd rfl (hecc pa)
    | _ => rfl
  · subst hpa
    exact ⟨_, _, rfl, rfl⟩

/-- An access of which a lane fails raises that, with what the walks of its checks did (06 R144, 16 R349). -/
theorem Iss.access_of_failure {x : Iss} {a : Acc} {reqs : List Req} (hne : reqs ≠ []) (hwait : x.mustWait a = false) {r : Req} {e : XErr}
    {rest : List (Req × XErr)} (hfail : failures (x.s.checkAll x.f.core x.k.ctx a.path a.size a.align a.use reqs).2 = (r, e) :: rest)
    (act : Mask) (hold : Bool) :
    raisedFor { x with s := (x.s.checkAll x.f.core x.k.ctx a.path a.size a.align a.use reqs).1 } act e
      (memWord r.va r.lane 0 a.path a.use.writes false rest.length) (x.access act a reqs hold) := by
  simp only [Iss.access, hwait, List.isEmpty_eq_false_iff.2 hne, hfail]
  exact Iss.memTrap_cons _ _ _ _ _ _ _ _ _

/-! ### The instructions that issue as one access -/

/-- The lanes of an instruction that acts for its split as a whole are its live ones (01 R13). -/
theorem State.Ready.live_eq {s : State} {os : List Operand} {x : Iss} (h : s.Ready os x) : x.live = x.k.active x.sp 7 := by
  obtain ⟨-, -, -, -, hlive⟩ := State.issuer_spec h.issuer
  rw [hlive, Pack.active, Pack.pred, if_pos rfl, BitVec.and_allOnes]

/-- Every memory instruction issues as its access, for the active lanes or, where it is uniform, for the split as a whole (R148-R150, R153,
R154). -/
theorem MemoryOp.exec_eq {i : Instr} {g : PReg} {os : List Operand} {a : Acc} {reqs : Iss → Mask → List Req} {hold : Bool}
    (hi : MemoryOp i g os a reqs hold) : ∃ (mn : String) (lanes : Iss → Mask → Mask),
      (∀ s, exec i s = issue s mn g os fun x act => x.access (lanes x act) a (reqs x act) hold) ∧
      ∀ x : Iss, x.live = x.k.active x.sp 7 → lanes x (x.k.active x.sp g) = x.k.active x.sp g := by
  cases hi with
  | lduB32 | lduB64 | stuB32 | stuB64 => exact ⟨_, fun x _ => x.live, fun _ => rfl, fun _ hlive => hlive⟩
  | _ => exact ⟨_, fun _ act => act, fun _ => rfl, fun _ _ => rfl⟩

theorem MemoryOp.exec_of_ready {i : Instr} {g : PReg} {os : List Operand} {a : Acc} {reqs : Iss → Mask → List Req} {hold : Bool}
    (hi : MemoryOp i g os a reqs hold) {s : State} {x : Iss} (h : s.Ready os x) :
    exec i s = x.access (x.k.active x.sp g) a (reqs x (x.k.active x.sp g)) hold := by
  obtain ⟨mn, lanes, hexec, hlanes⟩ := hi.exec_eq
  rw [hexec, issue_of_ready h, hlanes x h.live_eq]

theorem AtomicOp.exec_eq {i : Instr} {fn : Nat} {g : PReg} {d a : VReg} {n : BitVec 1} (hi : AtomicOp i fn g d a n) :
    ∃ mn, ∀ s, exec i s = issue s mn g [rdV 0 d (atomicRegs fn), rdV 1 a 2] fun x act =>
      x.access act (atomicAcc fn d n) (atomicReqs fn d a x act) (decide (fn = 9 ∨ fn = 12)) := by
  cases hi <;> exact ⟨_, fun _ => rfl⟩

theorem AtomicOp.exec_of_ready {i : Instr} {fn : Nat} {g : PReg} {d a : VReg} {n : BitVec 1} (hi : AtomicOp i fn g d a n) {s : State}
    {x : Iss} (h : s.Ready [rdV 0 d (atomicRegs fn), rdV 1 a 2] x) :
    exec i s = x.access (x.k.active x.sp g) (atomicAcc fn d n) (atomicReqs fn d a x (x.k.active x.sp g)) (decide (fn = 9 ∨ fn = 12)) := by
  obtain ⟨mn, hexec⟩ := hi.exec_eq
  rw [hexec, issue_of_ready h]

/-- Settles O23: each memory instruction and atomic is one access, which issues where its requests pass. -/
theorem memoryAccessesIssue : Obligations.MemoryAccessesIssue := by
  refine ⟨fun i g os a reqs hold hi s x h => ?_, fun i fn g d a n hi s x h => ?_⟩
  all_goals
    rw [hi.exec_of_ready h]
    exact ⟨fun hnil hwait => by rw [hnil, Iss.access_nil hwait], fun hready => Iss.access_of_ready hready _ _⟩

end Sys2Proof.Machine

/-!
What device accesses leave alone (10 R261-R263, 11 R285, 16 R349-R354): the caches, translations and memory that a read, a write or a walk
changes are none of what the tasks hold, so each of them keeps every pack, launch and context.
-/

namespace Sys2Proof.Machine

/-! ### What the tasks hold -/

/-- Both states hold the same launches and contexts, and the same of every core but the lines of its L1. -/
structure State.SameTasks (s t : State) : Prop where
  cores : ∀ c, { t.core c with l1 := [] } = { s.core c with l1 := [] }
  launches : t.launches = s.launches
  contexts : t.contexts = s.contexts

namespace State.SameTasks

variable {s t u : State}

theorem refl (s : State) : s.SameTasks s := ⟨fun _ => rfl, rfl, rfl⟩

theorem trans (h : s.SameTasks t) (h' : t.SameTasks u) : s.SameTasks u :=
  ⟨fun c => (h'.cores c).trans (h.cores c), h'.launches.trans h.launches, h'.contexts.trans h.contexts⟩

/-- What changes neither cores nor launches nor contexts keeps what the tasks hold. -/
theorem of_eq (hcores : t.cores = s.cores) (hlaunches : t.launches = s.launches) (hcontexts : t.contexts = s.contexts) : s.SameTasks t :=
  ⟨fun c => by rw [State.core_congr hcores], hlaunches, hcontexts⟩

/-- A fold of changes each of which keeps what the tasks hold keeps it. -/
theorem foldl {α : Type} {f : State → α → State} (h : ∀ (s : State) a, s.SameTasks (f s a)) (l : List α) (s : State) : s.SameTasks (l.foldl f s) := by
  induction l generalizing s with
  | nil => exact refl s
  | cons a l ih => exact (h s a).trans (ih _)

theorem packs (h : s.SameTasks t) (c : Nat) : (t.core c).packs = (s.core c).packs := by
  have hc := congrArg Core.packs (h.cores c)
  exact hc

theorem sram (h : s.SameTasks t) (c : Nat) : (t.core c).sram = (s.core c).sram := by
  have hc := congrArg Core.sram (h.cores c)
  exact hc

theorem pack (h : s.SameTasks t) (c n : Nat) : t.pack c n = s.pack c n := by rw [State.pack, h.packs, State.pack]

theorem context (h : s.SameTasks t) (n : Nat) : t.context n = s.context n := by rw [State.context, h.contexts, State.context]

theorem launch (h : s.SameTasks t) (tag : Tag) : t.launch tag = s.launch tag := by rw [State.launch, h.launches, State.launch]

theorem group (h : s.SameTasks t) (tag : Tag) (x : Nat) : t.group tag x = s.group tag x := by rw [State.group, h.launch, State.group]

end State.SameTasks

/-! ### Cache directories (10 R261-R263) -/

theorem Table.get_map {α β : Type} (m : Table α) (f : Nat × α → β) (k : Nat) :
    Table.get (m.map fun e => (e.1, f e)) k = (Table.get m k).map fun v => f (k, v) := by
  induction m with
  | nil => rfl
  | cons e m ih =>
    rw [List.map_cons, Table.get, Table.get]
    split
    · next h => rw [← h]; rfl
    · exact ih

theorem State.sameTasks_dropL1 (s : State) (cluster line : Nat) : s.SameTasks (s.dropL1 cluster line) := by
  refine ⟨fun c => ?_, rfl, rfl⟩
  have hcores : (s.dropL1 cluster line).cores = s.cores.map fun e =>
      (e.1, if e.1 / 128 == cluster then { e.2 with l1 := e.2.l1.filter fun x => x.line != line } else e.2) :=
    List.map_congr_left fun e _ => by split <;> rfl
  rw [State.core, State.core, hcores, Table.getD, Table.getD, Table.get_map]
  cases s.cores.get c with
  | none => rfl
  | some k => rw [Option.map_some, Option.getD_some, Option.getD_some]; split <;> rfl

theorem State.sameTasks_leaveL2 (s : State) (cluster line : Nat) : s.SameTasks (s.leaveL2 cluster line) :=
  (s.sameTasks_dropL1 cluster line).trans (.of_eq rfl rfl rfl)

theorem State.sameTasks_takeLine (s : State) (cluster : Option Nat) (line : Nat) : s.SameTasks (s.takeLine cluster line) :=
  SameTasks.foldl (f := fun s (e : Nat × List CacheLine) => s.leaveL2 e.1 line) (fun s e => s.sameTasks_leaveL2 e.1 line) _ s

theorem State.sameTasks_useL2 (s : State) (cluster pol line : Nat) (table : Bool) : s.SameTasks (s.useL2 cluster pol line table) := by
  unfold State.useL2
  dsimp only
  split
  · exact (s.sameTasks_leaveL2 cluster _).trans (.of_eq rfl rfl rfl)
  · exact .of_eq rfl rfl rfl

/-- A core that replaces its L1 lines holds what it held. -/
theorem State.sameTasks_setL1 (s : State) (core : Nat) (l1 : List CacheLine) : s.SameTasks (s.setCore core { s.core core with l1 := l1 }) := by
  refine ⟨fun c => ?_, rfl, rfl⟩
  by_cases hc : c = core
  · rw [hc, State.core_setCore_self]
  · rw [State.core_setCore_of_ne _ _ hc]

theorem State.sameTasks_cacheLoad (s : State) (core pol line : Nat) : s.SameTasks (s.cacheLoad core pol line) := by
  have hl1 (c : Prop) [Decidable c] (l1 : List CacheLine) : s.SameTasks (if c then s else s.setCore core { s.core core with l1 := l1 }) := by
    split
    · exact .refl s
    · exact s.sameTasks_setL1 core l1
  unfold State.cacheLoad
  dsimp only
  split
  · exact hl1 _ _
  · exact (hl1 _ _).trans (State.sameTasks_useL2 _ _ _ _ _)

theorem State.sameTasks_cacheWrite (s : State) (core pol line : Nat) : s.SameTasks (s.cacheWrite core pol line) :=
  (s.sameTasks_takeLine _ line).trans (State.sameTasks_useL2 _ _ _ _ _)

/-! Directories hold no bytes of memory. -/

@[simp] theorem State.leaveL2_mem (s : State) (cluster line : Nat) : (s.leaveL2 cluster line).mem = s.mem := rfl

@[simp] theorem State.takeLine_mem (s : State) (cluster : Option Nat) (line : Nat) : (s.takeLine cluster line).mem = s.mem := by
  obtain ⟨_, _, _, h⟩ := s.takeLine_eq cluster line
  rw [h]

@[simp] theorem State.useL2_mem (s : State) (cluster pol line : Nat) (table : Bool) : (s.useL2 cluster pol line table).mem = s.mem := by
  unfold State.useL2
  dsimp only
  split <;> rfl

@[simp] theorem State.cacheLoad_mem (s : State) (core pol line : Nat) : (s.cacheLoad core pol line).mem = s.mem := by
  unfold State.cacheLoad
  dsimp only
  split <;> simp [apply_ite State.mem]

@[simp] theorem State.cacheWrite_mem (s : State) (core pol line : Nat) : (s.cacheWrite core pol line).mem = s.mem := by
  simp [State.cacheWrite]

/-- A fold of changes none of which changes memory changes none. -/
theorem State.foldl_mem {α : Type} {f : State → α → State} (h : ∀ s a, (f s a).mem = s.mem) (l : List α) (s : State) :
    (l.foldl f s).mem = s.mem := by
  induction l generalizing s with
  | nil => rfl
  | cons a l ih => rw [List.foldl_cons, ih, h]

/-! ### Writes at the point of coherence (16 R352, R354) -/

theorem State.sameTasks_outsideWrite (s : State) (pa : Nat) (bs : List Byte) : s.SameTasks (s.outsideWrite pa bs) :=
  (SameTasks.foldl (fun s l => s.sameTasks_takeLine none l) _ s).trans (.of_eq rfl rfl rfl)

theorem State.sameTasks_disturb (s : State) (ctx pa attr : Nat) : s.SameTasks (s.disturb ctx pa attr) := by
  unfold State.disturb
  split
  · exact .refl s
  · split
    · exact .refl s
    · exact s.sameTasks_outsideWrite _ _

/-- A page that no migration has armed is not disturbed (16 R354). -/
theorem State.disturb_of_unarmed (s : State) (ctx pa : Nat) {attr : Nat} (h : bit attr 1 = false) : s.disturb ctx pa attr = s := by
  rw [State.disturb, h]
  rfl

theorem State.sameTasks_devWrite (s : State) (core ctx pa n v attr pol : Nat) : s.SameTasks (s.devWrite core ctx pa n v attr pol) :=
  ((s.sameTasks_disturb ctx pa attr).trans (State.sameTasks_cacheWrite _ core pol (pa / 128))).trans (.of_eq rfl rfl rfl)

/-- A write of a core to an unarmed page changes the bytes it names. -/
theorem State.devWrite_mem (s : State) (core ctx pa n v : Nat) {attr : Nat} (h : bit attr 1 = false) (pol : Nat) :
    (s.devWrite core ctx pa n v attr pol).mem = s.mem.writeLE pa n v := by
  rw [State.devWrite, s.disturb_of_unarmed ctx pa h]
  show Bytes.writeLE (s.cacheWrite core pol (pa / 128)).mem pa n v = _
  rw [State.cacheWrite_mem]

theorem State.sameTasks_engineWrite (s : State) (path : Path) (k : Pack) (core pa attr : Nat) (bs : List Byte) (pol : Nat) :
    s.SameTasks (s.engineWrite path k core pa attr bs pol) :=
  ((SameTasks.foldl (fun s l => (s.sameTasks_cacheWrite core pol l).trans (State.sameTasks_dropL1 _ (clusterOf core) l)) _ s).trans
    (State.sameTasks_disturb _ k.ctx pa attr)).trans (.of_eq rfl rfl rfl)

/-- A write of an engine to an unarmed page changes the bytes it names. -/
theorem State.engineWrite_mem (s : State) (path : Path) (k : Pack) (core pa : Nat) {attr : Nat} (h : bit attr 1 = false) (bs : List Byte)
    (pol : Nat) : (s.engineWrite path k core pa attr bs pol).mem = s.mem.writeList pa bs := by
  have hlines : ((lines128 pa bs.length).foldl (fun s l => (s.cacheWrite core pol l).dropL1 (clusterOf core) l) s).mem = s.mem :=
    State.foldl_mem (f := fun s l => (s.cacheWrite core pol l).dropL1 (clusterOf core) l) (fun s l => s.cacheWrite_mem core pol l) _ s
  rw [State.engineWrite, State.disturb_of_unarmed _ k.ctx pa h]
  exact congrArg (fun m : Bytes => m.writeList pa bs) hlines

/-- What is written reads back, and every byte outside it is as it was. -/
theorem readLE_sameOutside_of_writeLE {s t : State} {pa n v : Nat} (h : t.mem = s.mem.writeLE pa n v) :
    t.mem.readLE pa n = v % 256 ^ n ∧ sameOutside s t pa n :=
  ⟨by rw [h, Bytes.readLE_writeLE], fun b hb => by rw [h, Bytes.get_writeLE_of_outside _ _ hb]⟩

/-! ### Walks (16 R348-R351) -/

theorem State.sameTasks_readTable (s : State) (w : Walker) (at_ : Nat) : s.SameTasks (s.readTable w at_) := by
  unfold State.readTable
  split
  · exact s.sameTasks_useL2 _ _ _ _
  · exact .of_eq rfl rfl rfl

theorem State.sameTasks_fillWalk (s : State) (e : WalkEntry) : s.SameTasks (s.fillWalk e) := .of_eq rfl rfl rfl

theorem State.sameTasks_walk (s : State) (w : Walker) (ctx va l a : Nat) (lines : List Nat) :
    s.SameTasks (s.walk w ctx va l a lines).1 := by
  induction l generalizing s a lines with
  | zero => exact .refl s
  | succ l ih =>
    have hread := s.sameTasks_readTable w (a + 8 * vpn va l)
    unfold State.walk
    dsimp only
    split
    · exact .refl s
    · split
      · exact ih s _ _
      · split
        · exact hread
        · split
          · exact (hread.trans (State.sameTasks_fillWalk _ _)).trans (ih _ _ _)
          · exact hread

theorem State.sameTasks_touchLeaf (s : State) (w : Walker) (at_ leaf : Nat) (write : Bool) :
    s.SameTasks (s.touchLeaf w at_ leaf write).1 := by
  unfold State.touchLeaf
  dsimp only
  generalize leaf ||| 64 ||| (if write = true then 128 else 0) = new
  split
  · exact .refl s
  · exact ((s.sameTasks_takeLine _ _).trans (State.sameTasks_readTable _ w at_)).trans (.of_eq rfl rfl rfl)

theorem State.sameTasks_anyOfSixteen (s : State) (e : TlbEntry) : s.SameTasks (s.anyOfSixteen e).1 := by
  unfold State.anyOfSixteen
  dsimp only
  split
  · exact .refl s
  · exact .of_eq rfl rfl rfl

theorem State.sameTasks_locate (s : State) (core : Nat) (tile : Bool) (c : Context) (va : Nat) :
    s.SameTasks (s.locate core tile c va).1 := by
  unfold State.locate
  split
  · exact s.sameTasks_anyOfSixteen _
  · have hwalk := s.sameTasks_walk (coreWalker core) c.num va 5 c.table []
    split
    · next h => rw [h] at hwalk; exact hwalk
    · next h =>
      rw [h] at hwalk
      dsimp only
      split
      · exact hwalk
      · refine hwalk.trans (.trans ?_ (State.sameTasks_anyOfSixteen _ _))
        cases attrAt _ _ with
        | some a => exact State.sameTasks_readTable _ (coreWalker core) a
        | none => exact .refl _

theorem State.sameTasks_reach (s : State) (core : Nat) (tile : Bool) (ctx : Nat) (va : DWord) (use : Use) :
    s.SameTasks (s.reach core tile ctx va use).1 := by
  unfold State.reach
  split
  · exact .refl s
  · split
    · exact .refl s
    · next c _ =>
      have hlocate := s.sameTasks_locate core tile c va.toNat
      split
      · next h => rw [h] at hlocate; exact hlocate
      · next h =>
        rw [h] at hlocate
        dsimp only
        split
        · exact hlocate
        · exact (hlocate.trans (State.sameTasks_touchLeaf _ _ _ _ _)).trans (.of_eq rfl rfl rfl)

theorem State.sameTasks_tryAccess (s : State) (core : Nat) (tile : Bool) (ctx : Nat) (path : Path) (va : DWord) (size align : Nat)
    (use : Use) : s.SameTasks (s.tryAccess core tile ctx path va size align use).1 := by
  unfold State.tryAccess
  split
  · exact .refl s
  · have hreach := s.sameTasks_reach core tile ctx va use
    dsimp only
    split <;> next h => rw [h] at hreach; exact hreach

theorem State.sameTasks_access {s : State} {core : Nat} {tile : Bool} {ctx : Nat} {path : Path} {va : DWord} {size align : Nat} {use : Use}
    {x : Xlated} (h : s.access core tile ctx path va size align use = .ok x) : s.SameTasks x.s := by
  have htry := s.sameTasks_tryAccess core tile ctx path va size align use
  unfold State.access at h
  split at h
  · next heq => rw [heq] at htry; cases h; exact htry
  · cases h

end Sys2Proof.Machine

/-!
Deterministic atomics as they issue (06 R157-R160, 10 R263): what their contributions leave of the group's accumulators and of the core's
buffer, and the statement O26.
-/

namespace Sys2Proof.Machine

/-! ### Groups after their updates -/

theorem find?_mapIf {α : Type} (l : List α) (p : α → Bool) (f : α → α) (hf : ∀ a, p (f a) = p a) :
    (mapIf p f l).find? p = (l.find? p).map f := by
  induction l with
  | nil => rfl
  | cons a l ih =>
    rw [mapIf, List.map_cons, List.find?_cons, List.find?_cons]
    cases h : p a with
    | true => simp [hf, h]
    | false => simp only [h, Bool.false_eq_true, if_false]; exact ih

theorem State.group_modGroup_self (s : State) (t : Tag) (x : Nat) (f : Group → Group) :
    (s.modGroup t x f).group t x = (s.group t x).map f := by
  have hlaunch : (s.modGroup t x f).launch t = (s.launch t).map fun l => { l with groups := l.groups.update x f } :=
    find?_mapIf s.launches _ _ fun _ => rfl
  rw [State.group, State.group, hlaunch]
  cases s.launch t with
  | none => rfl
  | some l => exact Table.get_update_self _ _ _

/-! ### Contributions to accumulators (06 R158) -/

theorem placeless_add (a : Accum) (v : Nat) : placeless (a.add v) = (placeless a).add v := by
  rw [Accum.add, Accum.add, show (placeless a).fn = a.fn from rfl]
  split
  · cases (adetFmt a.fn).decode v <;> rfl
  · rfl

/-- Which set and way an accumulator holds has no part in what a contribution leaves. -/
theorem map_placeless_contribute (accs : List Accum) (fn : Nat) (l : LaneAcc) (va : DWord) (at_ : Nat × Nat) :
    (contribute accs fn l va at_).map placeless = (contribute (accs.map placeless) fn l va (0, 0)).map placeless := by
  have hany : ((accs.map placeless).any fun a => a.dest == l.pa) = accs.any fun a => a.dest == l.pa := by
    rw [List.any_map]
    rfl
  rw [contribute, contribute, hany]
  split
  · rw [mapIf, mapIf, List.map_map, List.map_map, List.map_map]
    refine List.map_congr_left fun a _ => ?_
    show placeless (if a.dest == l.pa then a.add l.data else a) =
      placeless (if a.dest == l.pa then (placeless a).add l.data else placeless a)
    split
    · rw [placeless_add, placeless_add]
      rfl
    · rfl
  · rw [List.map_append, List.map_append, List.map_map]
    exact congrArg _ (by rw [List.map_singleton, List.map_singleton, placeless_add, placeless_add]; rfl)

theorem map_placeless_contribute_congr {r r' : List Accum} (h : r.map placeless = r'.map placeless) (fn : Nat) (l : LaneAcc) (va : DWord)
    (at_ at' : Nat × Nat) : (contribute r fn l va at_).map placeless = (contribute r' fn l va at').map placeless := by
  rw [map_placeless_contribute, h, ← map_placeless_contribute]

theorem map_placeless_foldl_congr {r r' : List Accum} (h : r.map placeless = r'.map placeless) (fn : Nat) (ps : List (LaneAcc × DWord)) :
    (ps.foldl (fun r p => contribute r fn p.1 p.2 (0, 0)) r).map placeless =
      (ps.foldl (fun r p => contribute r fn p.1 p.2 (0, 0)) r').map placeless := by
  induction ps generalizing r r' with
  | nil => exact h
  | cons p ps ih => exact ih (map_placeless_contribute_congr h fn p.1 p.2 _ _)

theorem State.pinWay_mem (s : State) (cluster dest : Nat) : (s.pinWay cluster dest).1.mem = s.mem := by
  unfold State.pinWay
  dsimp only
  split <;> rfl

theorem State.sameTasks_pinWay (s : State) (cluster dest : Nat) : s.SameTasks (s.pinWay cluster dest).1 := by
  unfold State.pinWay
  dsimp only
  split
  · exact s.sameTasks_leaveL2 _ _
  · exact .refl s
  · exact .refl s

/-- Contributions change no byte and no pack, and each adds to the group's accumulators in its turn. -/
theorem State.contributeAll_spec (k : Pack) (fn : Nat) (ps : List (LaneAcc × DWord)) (s : State) :
    (s.contributeAll k fn ps).mem = s.mem ∧ (∀ c n, (s.contributeAll k fn ps).pack c n = s.pack c n) ∧
      ∀ gr, s.group k.tag k.group = some gr → ∃ gr', (s.contributeAll k fn ps).group k.tag k.group = some gr' ∧
        gr'.accs.map placeless = (ps.foldl (fun r p => contribute r fn p.1 p.2 (0, 0)) gr.accs).map placeless := by
  induction ps generalizing s with
  | nil => exact ⟨rfl, fun _ _ => rfl, fun gr h => ⟨gr, h, rfl⟩⟩
  | cons p ps ih =>
    have hplace : ∃ t, t = (if ((s.group k.tag k.group).any fun g => g.accs.any fun a => a.dest == p.1.pa) = true then (s, 0, 0)
        else s.pinWay ((s.group k.tag k.group).elim 0 (·.cluster)) p.1.pa) ∧ t.1.mem = s.mem ∧ s.SameTasks t.1 := by
      refine ⟨_, rfl, ?_⟩
      split
      · exact ⟨rfl, .refl s⟩
      · exact ⟨s.pinWay_mem _ _, s.sameTasks_pinWay _ _⟩
    obtain ⟨t, ht, hmem, htasks⟩ := hplace
    simp only [State.contributeAll, ← ht]
    obtain ⟨imem, ipack, igroup⟩ := ih (t.1.modGroup k.tag k.group fun g => { g with accs := contribute g.accs fn p.1 p.2 t.2 })
    refine ⟨imem.trans hmem, fun c n => (ipack c n).trans (htasks.pack c n), fun gr hgr => ?_⟩
    have hstep : (t.1.modGroup k.tag k.group fun g => { g with accs := contribute g.accs fn p.1 p.2 t.2 }).group k.tag k.group =
        some { gr with accs := contribute gr.accs fn p.1 p.2 t.2 } := by
      rw [State.group_modGroup_self, htasks.group, hgr]
      rfl
    obtain ⟨gr', hgr', haccs⟩ := igroup _ hstep
    exact ⟨gr', hgr', haccs.trans (map_placeless_foldl_congr (map_placeless_contribute_congr rfl fn p.1 p.2 _ _) fn ps)⟩

/-! ### Issue -/

theorem DetAtomicOp.exec_eq {i : Instr} {fn : Nat} {g : PReg} {d a : VReg} (hi : DetAtomicOp i fn g d a) :
    ∃ mn, ∀ s, exec i s = adetIssue mn fn g d a s := by
  cases hi <;> exact ⟨_, fun _ => rfl⟩

theorem detAcc_use (fn : Nat) : (detAcc fn).use = if fn = 17 || fn = 18 then .atomic else .store := by
  simp [detAcc]

@[simp] theorem detAcc_writes (fn : Nat) : (detAcc fn).use.writes = true := by
  rw [detAcc_use]
  split <;> rfl

theorem detAcc_eta (fn : Nat) :
    ({ cls := .st, use := (detAcc fn).use, size := adetSize fn, align := adetSize fn, kind := .adet } : Acc) = detAcc fn := rfl

theorem detReqs_eq (fn : Nat) (d a : VReg) (x : Iss) (act : Mask) :
    x.laneReqs act a 0 (fun i => if fn = 17 then x.laneData (d.toNat + 1) 1 i else adetOperand fn (x.laneData d.toNat (adetRegs fn) i))
      (if fn = 17 then x.laneData d.toNat 1 else fun _ => 0) = detReqs fn d a x act := rfl

section
variable {s : State} {x : Iss} {fn : Nat} {d a : VReg} (h : s.Ready [rdV 0 d (adetRegs fn), rdV 1 a 2] x) (mn : String) (g : PReg)
include h

theorem adetIssue_of_idle (hwait : x.mustWait (detAcc fn) = false) (hnil : detReqs fn d a x (x.k.active x.sp g) = []) :
    adetIssue mn fn g d a s = .next (idleNext x (detAcc fn)) := by
  rw [adetIssue, issue_of_ready h]
  simp only [← detAcc_use, detAcc_eta, detReqs_eq, hwait, hnil, List.isEmpty_nil, Bool.false_eq_true, if_false, if_true]
  simp only [idleNext, Iss.issuedAs, detAcc_writes, if_true]
  rfl

theorem adetIssue_of_failure (hwait : x.mustWait (detAcc fn) = false) (hne : detReqs fn d a x (x.k.active x.sp g) ≠ []) {r : Req} {e : XErr}
    {rest : List (Req × XErr)}
    (hfail : failures (x.s.checkAll x.f.core x.k.ctx .lane (adetSize fn) (adetSize fn) (detAcc fn).use
      (detReqs fn d a x (x.k.active x.sp g))).2 = (r, e) :: rest) :
    raisedFor { x with s := (x.s.checkAll x.f.core x.k.ctx .lane (adetSize fn) (adetSize fn) (detAcc fn).use
      (detReqs fn d a x (x.k.active x.sp g))).1 } (x.k.active x.sp g) e (memWord r.va r.lane 0 .lane true false rest.length)
      (adetIssue mn fn g d a s) := by
  rw [adetIssue, issue_of_ready h]
  simp only [← detAcc_use, detAcc_eta, detReqs_eq, hwait, List.isEmpty_eq_false_iff.2 hne, hfail, Bool.false_eq_true, if_false]
  exact Iss.memTrap_cons _ _ _ _ _ _ _ _ _

section
variable (hready : accessReady x (detAcc fn) (detReqs fn d a x (x.k.active x.sp g)))
include hready

/-- A commutative contribution that clashes with no accumulator and finds room joins the group's accumulators (06 R158). -/
theorem adetIssue_of_commutes (hfn : fn < 9) :
    let reqs := detReqs fn d a x (x.k.active x.sp g)
    let t := x.s.checkAll x.f.core x.k.ctx .lane (adetSize fn) (adetSize fn) (detAcc fn).use reqs
    let ls := laneAccs t.2
    let accs := (x.s.group x.k.tag x.k.group).elim [] (·.accs)
    (∀ l ∈ ls, ∀ b ∈ accs, b.clash fn l.pa = false) → accs.length + newDests accs (ls.map (·.pa)) ≤ 4096 →
      adetIssue mn fn g d a s = .next (({ x with s := t.1.contributeAll x.k fn (ls.zip (reqs.map (·.va))) } : Iss).commit.retire
        (x.k.addOp (x.pend (detAcc fn) ls)) x.sp) := by
  intro reqs t ls accs hclash hroom
  obtain ⟨hne, hwait, hpass, hsc⟩ := hready
  have hbad : ((reqs.zip ls).filter fun p => accs.any fun a => a.clash fn p.2.pa) = [] := by
    refine List.filter_eq_nil_iff.2 fun p hp => ?_
    have hl := hclash p.2 (List.of_mem_zip hp).2
    simpa using hl
  have horder : ((x.pend (detAcc fn) ls).sc && x.unperformed) = false := Bool.and_eq_false_iff.2 hsc
  have hcomm : adetCommutes fn = true := decide_eq_true hfn
  have hroom' : ¬4096 < accs.length + newDests accs (ls.map (·.pa)) := Nat.not_lt.2 hroom
  rw [adetIssue, issue_of_ready h]
  simp only [reqs, t, ls, accs] at hbad horder hroom' ⊢
  change failures (x.s.checkAll x.f.core x.k.ctx .lane (adetSize fn) (adetSize fn) (detAcc fn).use (detReqs fn d a x (x.k.active x.sp g))).2 = [] at hpass
  simp only [← detAcc_use, detAcc_eta, detReqs_eq, hwait, List.isEmpty_eq_false_iff.2 hne, hpass, horder, hcomm, hbad, hroom', Bool.false_eq_true,
    if_false, if_true]
  rfl

/-- Order-sensitive contributions that find room join the core's buffer of the pack (06 R159). -/
theorem adetIssue_of_ordered (hfn : 9 ≤ fn) :
    let reqs := detReqs fn d a x (x.k.active x.sp g)
    let t := x.s.checkAll x.f.core x.k.ctx .lane (adetSize fn) (adetSize fn) (detAcc fn).use reqs
    let ls := laneAccs t.2
    x.k.det.length + ls.length ≤ 64 → adetIssue mn fn g d a s = .next (({ x with s := t.1 } : Iss).commit.retire
      (((ls.zip (reqs.map (·.va))).foldl (fun k p => k.addEntry fn p.1 p.2) x.k).addOp (x.pend (detAcc fn) ls)) x.sp) := by
  intro reqs t ls hroom
  obtain ⟨hne, hwait, hpass, hsc⟩ := hready
  have horder : ((x.pend (detAcc fn) ls).sc && x.unperformed) = false := Bool.and_eq_false_iff.2 hsc
  have hcomm : adetCommutes fn = false := decide_eq_false (Nat.not_lt.2 hfn)
  have hroom' : ¬64 < x.k.det.length + ls.length := Nat.not_lt.2 hroom
  rw [adetIssue, issue_of_ready h]
  simp only [reqs, t, ls] at horder hroom' ⊢
  change failures (x.s.checkAll x.f.core x.k.ctx .lane (adetSize fn) (adetSize fn) (detAcc fn).use (detReqs fn d a x (x.k.active x.sp g))).2 = [] at hpass
  simp only [← detAcc_use, detAcc_eta, detReqs_eq, hwait, List.isEmpty_eq_false_iff.2 hne, hpass, horder, hcomm, hroom', Bool.false_eq_true,
    if_false]
  rfl

end
end

/-- Settles O26, by what an issue with no request, at the accumulators and at the buffer leaves. -/
theorem deterministicAtomicsIssue : Obligations.DeterministicAtomicsIssue := by
  intro i fn g d a hi s x h act reqs t ls accs op
  obtain ⟨mn, hexec⟩ := hi.exec_eq
  rw [hexec]
  refine ⟨fun hnil hwait => adetIssue_of_idle h mn g hwait hnil, fun hready hfn hclash hroom => ?_,
    fun hready hfn hroom => adetIssue_of_ordered h mn g hready hfn hroom⟩
  exact ⟨_, adetIssue_of_commutes h mn g hready hfn hclash hroom, State.contributeAll_spec x.k fn _ t.1⟩

end Sys2Proof.Machine

/-!
Compress-stores, fences and broadcast stores as they issue (06 R155, R156, R162, R163, R169): the elements of a compress-store up to the first
that fails, what a fence covers, and the statements O24 and O27.
-/

namespace Sys2Proof.Machine

/-! ### The requests of a check, up to the first that fails -/

/-- The outcome of a request's checks. -/
abbrev Checked := Req × Except XErr (Nat × Nat)

theorem State.checkAll_fst (s : State) (core ctx : Nat) (path : Path) (size align : Nat) (use : Use) (reqs : List Req) :
    (s.checkAll core ctx path size align use reqs).2.map (·.1) = reqs := by
  induction reqs generalizing s with
  | nil => rfl
  | cons r reqs ih =>
    rw [State.checkAll]
    split <;> exact congrArg (r :: ·) (ih _)

/-- Where no request fails, all of them pass. -/
theorem takeWhile_of_no_failure {f : Checked → Bool} {l : List Checked} (h : failures l = []) (hok : ∀ r u, f (r, .ok u) = true) :
    l.takeWhile f = l := by
  refine List.takeWhile_eq_self_iff.2 fun p hp => ?_
  obtain ⟨r, e | u⟩ := p
  · have hmem : (r, e) ∈ failures l := List.mem_filterMap.2 ⟨_, hp, rfl⟩
    rw [h] at hmem
    cases hmem
  · exact hok r u

/-- The requests before the first that fails are those that pass first. -/
theorem takeWhile_of_first_failure {f : Checked → Bool} {l : List Checked} {n : Nat} {r : Req} {e : XErr}
    (hpass : ∀ j, j < n → ∃ q u, l[j]? = some (q, .ok u)) (hfail : l[n]? = some (r, .error e)) (hok : ∀ r u, f (r, .ok u) = true)
    (herror : ∀ r e, f (r, .error e) = false) : l.takeWhile f = l.take n := by
  induction n generalizing l with
  | zero =>
    cases l with
    | nil => cases hfail
    | cons p l =>
      obtain rfl : p = (r, .error e) := Option.some.inj hfail
      rw [List.takeWhile_cons, herror]
      rfl
  | succ n ih =>
    obtain ⟨q, u, hq⟩ := hpass 0 (Nat.succ_pos n)
    cases l with
    | nil => cases hq
    | cons p l =>
      obtain rfl : p = (q, .ok u) := Option.some.inj hq
      rw [List.takeWhile_cons, hok, List.take_succ_cons, ih (fun j hj => hpass (j + 1) (Nat.succ_lt_succ hj)) hfail]
      rfl

/-- Requests that pass become one lane part each. -/
theorem map_lane_laneAccs {l : List Checked} (h : ∀ p ∈ l, ∃ q u, p = (q, .ok u)) : (laneAccs l).map (·.lane) = l.map (·.1.lane) := by
  induction l with
  | nil => rfl
  | cons p l ih =>
    obtain ⟨q, u, rfl⟩ := h p List.mem_cons_self
    exact congrArg (q.lane :: ·) (ih fun p hp => h p (List.mem_cons_of_mem _ hp))

/-! ### Registers and masks -/

theorem Pack.readG64_setG64_self (k : Pack) (r : Nat) (v : DWord) : (k.setG64 r v).readG64 r = v := by
  have hlow : (k.setG64 r v).readG r = v.extractLsb' 0 32 := by
    rw [Pack.setG64, Pack.readG_setG_of_ne _ _ (Nat.ne_of_lt (Nat.lt_succ_self r)), Pack.readG_setG_self]
  rw [Pack.readG64, hlow, Pack.setG64, Pack.readG_setG_self]
  exact (BitVec.extractLsb'_append_extractLsb'_eq_extractLsb' rfl).trans BitVec.extractLsb'_eq_self

theorem getLsbD_maskOf (l : List Nat) {n : Nat} (hn : n < 32) : (maskOf l).getLsbD n = l.contains n := by
  suffices h : ∀ m : Mask, (l.foldl (fun m i => m ||| (1#32 <<< i)) m).getLsbD n = (m.getLsbD n || l.contains n) by
    exact (h 0).trans (by simp)
  induction l with
  | nil => intro m; simp
  | cons i l ih =>
    intro m
    have hbit : (1#32 <<< i).getLsbD n = (n == i) := by
      rw [BitVec.getLsbD_shiftLeft, BitVec.getLsbD_one]
      simp only [decide_eq_true hn, Bool.true_and, beq_eq_decide]
      by_cases h : n = i
      · simp [h]
      · simp [h]; omega
    rw [List.foldl_cons, ih, BitVec.getLsbD_or, List.contains_cons, Bool.or_assoc, hbit]

@[simp] theorem Pack.setP_ops (k : Pack) (d : PReg) (m f : Mask) : (k.setP d m f).ops = k.ops := by unfold Pack.setP; split <;> rfl

/-! ### Compress-stores (06 R155, R156) -/

theorem CompressStore.exec_eq {i : Instr} {size : Nat} {g : PReg} {d : GReg} {a : VReg} (hi : CompressStore i size g d a) :
    ∃ mn, ∀ s, exec i s = compressStore mn size g d a s := by
  cases hi <;> exact ⟨_, fun _ => rfl⟩

theorem elementAcc_eta (size : Nat) :
    ({ cls := .st, use := .store, size := size, align := size, kind := .store size } : Acc) = elementAcc size := rfl

theorem elemReqs_eq (size : Nat) (d : GReg) (a : VReg) (x : Iss) (act : Mask) :
    x.elemReqs act (x.k.readG64 d.toNat) size a = storeElements size d a x act := rfl

/-- Whether its group is committed is in the state of an instruction only. -/
theorem Iss.ite_commit (c : Prop) [Decidable c] (y : Iss) : ∃ u, (if c then y.commit else y) = { y with s := u } := by
  split <;> exact ⟨_, rfl⟩

section
variable {s : State} {x : Iss} {size : Nat} {d : GReg} {a : VReg} (h : s.Ready [rdG 0 d 2, rdV 1 a (size / 4)] x) (mn : String) (g : PReg)
include h

theorem compressStore_of_idle (hwait : x.mustWait (elementAcc size) = false) (hnil : storeElements size d a x (x.k.active x.sp g) = []) :
    compressStore mn size g d a s = .next (idleNext x (elementAcc size)) := by
  rw [compressStore, issue_of_ready h]
  simp only [elementAcc_eta, elemReqs_eq, hwait, hnil, List.isEmpty_nil, Bool.false_eq_true, if_false, if_true]
  rfl

/-- A compress-store whose elements all pass stores them and moves its address past them. -/
theorem compressStore_of_ready (hready : accessReady x (elementAcc size) (storeElements size d a x (x.k.active x.sp g))) :
    let reqs := storeElements size d a x (x.k.active x.sp g)
    let t := x.s.checkAll x.f.core x.k.ctx .lane size size .store reqs
    compressStore mn size g d a s = .next (({ x with s := t.1 } : Iss).commit.retire
      ((x.k.addOp (x.pend (elementAcc size) (laneAccs t.2))).setG64 d.toNat
        (x.k.readG64 d.toNat + BitVec.ofNat 64 (reqs.length * size))) x.sp) := by
  intro reqs t
  obtain ⟨hne, hwait, hpass, hsc⟩ := hready
  change failures t.2 = [] at hpass
  have horder : ((x.pend (elementAcc size) (laneAccs t.2)).sc && x.unperformed) = false := Bool.and_eq_false_iff.2 hsc
  have hlength : t.2.length = reqs.length := by
    rw [← List.length_map (f := (·.1)), State.checkAll_fst]
  have hsome : reqs.length ≠ 0 := fun h0 => hne (List.length_eq_zero_iff.1 h0)
  simp only [reqs, t] at hpass horder hlength hsome ⊢
  rw [compressStore, issue_of_ready h]
  simp only [elementAcc_eta, elemReqs_eq, takeWhile_of_no_failure hpass, implies_true, hwait, List.isEmpty_eq_false_iff.2 hne, hpass, horder, hlength,
    hsome, Bool.false_eq_true, if_false]
  rfl

/-- The pack of a compress-store whose element at place `n` is the first to fail: the elements before it leave an operation, the address
moves past them and their guard bits clear (06 R156). -/
def Iss.partlyStored (x : Iss) (g : PReg) (d : GReg) (size n : Nat) (reqs : List Req) (good : List Checked) : Pack :=
  if n = 0 then x.k
  else ((x.k.addOp (x.pend (elementAcc size) (laneAccs good))).setG64 d.toNat (x.k.readG64 d.toNat + BitVec.ofNat 64 (n * size))).setP g
    (reqLanes (reqs.take n)) 0

/-- A compress-store whose element at place `n` is the first to fail raises its failure, with the elements before it stored. -/
theorem compressStore_of_failure (hwait : x.mustWait (elementAcc size) = false) (hperformed : x.unperformed = false) {n : Nat} {r : Req}
    {e : XErr} {rest : List (Req × XErr)} :
    let act := x.k.active x.sp g
    let reqs := storeElements size d a x act
    let t := x.s.checkAll x.f.core x.k.ctx .lane size size .store reqs
    (∀ j, j < n → ∃ q u, t.2[j]? = some (q, .ok u)) → t.2[n]? = some (r, .error e) → failures t.2 = (r, e) :: rest →
    let y : Iss := { x with s := t.1, k := x.partlyStored g d size n reqs (t.2.take n) }
    compressStore mn size g d a s = (if 0 < n then y.commit else y).memTrap act .lane true n (decide (0 < n)) ((r, e) :: rest) := by
  intro act reqs t hpass hfail hfails y
  have hlt : n < t.2.length := (List.getElem?_eq_some_iff.1 hfail).1
  have hlength : (t.2.take n).length = n := List.length_take_of_le (Nat.le_of_lt hlt)
  have hne : reqs ≠ [] := by
    intro hnil
    have hcount : t.2.length = reqs.length := by rw [← List.length_map (f := (·.1)), State.checkAll_fst]
    rw [hcount, hnil] at hlt
    exact absurd hlt (Nat.not_lt_zero n)
  simp only [y, reqs, t, act] at hpass hfail hfails hlength hne ⊢
  rw [compressStore, issue_of_ready h]
  simp only [elementAcc_eta, elemReqs_eq, takeWhile_of_first_failure hpass hfail, implies_true, hwait, List.isEmpty_eq_false_iff.2 hne, hlength, hfails,
    hperformed, Bool.and_false, Bool.false_eq_true, if_false]
  by_cases hn : n = 0
  · subst hn; rfl
  · simp only [hn, if_false, Iss.partlyStored]

end

/-! ### What a failing compress-store leaves of its pack -/

section
variable {x : Iss} {g : PReg} {d : GReg} {size n : Nat} {reqs : List Req} {good : List Checked}

theorem Iss.partlyStored_readG64 :
    (x.partlyStored g d size n reqs good).readG64 d.toNat = x.k.readG64 d.toNat + BitVec.ofNat 64 (n * size) := by
  rw [Iss.partlyStored]
  split
  · next h => subst h; simp
  · rw [Pack.readG64, Pack.readG, Pack.readG, Pack.setP_g]
    exact Pack.readG64_setG64_self _ _ _

theorem Iss.partlyStored_p : (x.partlyStored 7 d size n reqs good).p = x.k.p := by
  rw [Iss.partlyStored]
  split
  · rfl
  · rw [Pack.setP_seven]
    rfl

theorem Iss.partlyStored_pred (hg : g ≠ 7) (l : Nat) : ((x.partlyStored g d size n reqs good).pred g).getLsbD l =
    ((x.k.pred g).getLsbD l && !((reqs.take n).map (·.lane)).contains l) := by
  rw [Iss.partlyStored]
  split
  · next h => subst h; simp
  · by_cases hl : l < 32
    · rw [Pack.getLsbD_pred_setP_self _ hg, reqLanes, getLsbD_maskOf _ hl]
      show (if _ then (0 : Mask).getLsbD l else (x.k.pred g).getLsbD l) = _
      cases ((reqs.take n).map (·.lane)).contains l <;> simp
    · simp [BitVec.getLsbD_of_ge _ l (Nat.le_of_not_lt hl)]

theorem Iss.partlyStored_ops_pos (hn : 0 < n) : ∃ o, (x.partlyStored g d size n reqs good).ops = x.k.ops ++ [o] ∧ o.cls = .st ∧
    o.kind = .store size ∧ o.done = false ∧ o.lanes = laneAccs good := by
  rw [Iss.partlyStored, if_neg (Nat.ne_of_gt hn), Pack.setP_ops]
  exact ⟨_, rfl, rfl, rfl, rfl, rfl⟩

end

/-- The first requests that pass hold the lanes that were asked for. -/
theorem map_lane_laneAccs_take {s : State} {core ctx : Nat} {path : Path} {size align n : Nat} {use : Use} {reqs : List Req}
    (hpass : ∀ j, j < n → ∃ q u, (s.checkAll core ctx path size align use reqs).2[j]? = some (q, .ok u)) :
    (laneAccs ((s.checkAll core ctx path size align use reqs).2.take n)).map (·.lane) = (reqs.take n).map (·.lane) := by
  rw [map_lane_laneAccs]
  · conv_rhs => rw [← State.checkAll_fst s core ctx path size align use reqs, ← List.map_take, List.map_map]
    rfl
  · intro p hp
    obtain ⟨j, hj, hpj⟩ := List.getElem_of_mem hp
    obtain ⟨q, u, hq⟩ := hpass j (Nat.lt_of_lt_of_le hj (List.length_take_le _ _))
    refine ⟨q, u, ?_⟩
    rw [List.getElem_take] at hpj
    rw [← hpj]
    exact (List.getElem?_eq_some_iff.1 hq).2

/-- Settles O24: an access and a deterministic atomic raise the failure of their lowest lane, and a compress-store with what came before it
stored. -/
theorem failingAccessTraps : Obligations.FailingAccessTraps := by
  refine ⟨fun i g os a reqs hold hi s x h => ?_, fun i fn g d a n hi s x h => ?_, fun i fn g d a hi s x h => ?_,
    fun i size g d a hi s x h => ?_⟩
  · intro hne hwait r e rest hfail
    rw [hi.exec_of_ready h]
    exact Iss.access_of_failure hne hwait hfail _ hold
  · intro hne hwait r e rest hfail
    rw [hi.exec_of_ready h]
    exact Iss.access_of_failure hne hwait hfail _ _
  · intro hne hwait r e rest hfail
    obtain ⟨mn, hexec⟩ := hi.exec_eq
    rw [hexec, detAcc_writes]
    exact adetIssue_of_failure h mn g hwait hne hfail
  · intro act reqs t hwait hperformed n r e rest hpass hfail hfails
    obtain ⟨mn, hexec⟩ := hi.exec_eq
    obtain ⟨u, hu⟩ := Iss.ite_commit (0 < n) { x with s := t.1, k := x.partlyStored g d size n reqs (t.2.take n) }
    rw [hexec, compressStore_of_failure h mn g hwait hperformed hpass hfail hfails, hu]
    refine ⟨{ x with s := u, k := x.partlyStored g d size n reqs (t.2.take n) }, Iss.memTrap_cons _ act .lane true n _ r e rest, rfl, rfl, rfl,
      Iss.partlyStored_readG64, fun hg => ?_, fun hg l => Iss.partlyStored_pred hg l, fun hn => ?_, fun hn => ?_⟩
    · subst hg
      exact Iss.partlyStored_p
    · subst hn
      rfl
    · obtain ⟨o, hops, hcls, hkind, hdone, hlanes⟩ := Iss.partlyStored_ops_pos (x := x) (g := g) (d := d) (size := size) (reqs := reqs)
        (good := t.2.take n) hn
      exact ⟨o, hops, hcls, hkind, hdone, hlanes ▸ map_lane_laneAccs_take hpass⟩

/-! ### Fences and broadcast stores (06 R162, R163, R169) -/

section
variable {s : State} {x : Iss}

theorem execFence_of_ready (h : s.Ready [] x) (k : BitVec 2) (sc : BitVec 3) : execFence k sc s =
    .next (x.retire x.k (if k = 2
      then { x.sp with gateSt := x.sp.gateSt ++ (x.covered k.toNat).filter fun o => !x.sp.gateSt.contains o }
      else { x.sp with gateAll := x.sp.gateAll ++ (x.covered k.toNat).filter fun o => !x.sp.gateAll.contains o })) := by
  rw [execFence, issueU_of_ready h]
  dsimp only
  split <;> rfl

theorem execXfence_of_ready (h : s.Ready [] x) (t f sc : BitVec 3) : execXfence t f sc s =
    .next (if x.pathBusy (pathOf f.toNat) then x.s
      else ({ x with s := if sc.toNat < 2 then x.s else x.s.showPath (pathOf f.toNat) x.k } : Iss).retire x.k x.sp) := by
  rw [execXfence, issueU_of_ready h]
  dsimp only
  split
  · rfl
  · split <;> rfl

variable {d : VReg} {a : GReg} (h : s.Ready [rdV 0 d, rdG 1 a 2] x) (g : PReg) (i : BitVec 8) (hroom : x.k.full .st = false)
  (hsc : x.k.scBusy = false)
include h hroom hsc

theorem execBst_of_idle (hact : x.k.active x.sp g = 0) : execBst g d a i s = .next (x.commit.retire
    (x.k.addIdle (x.engineOp .st .broadcast (.bst 0 (x.k.readG64 a.toNat + offI x.sp.hints i) 0 []))) x.sp) := by
  rw [execBst, issue_of_ready h]
  simp only [hroom, hsc, hact, Bool.or_false, Bool.false_eq_true, if_false, if_true]
  rfl

theorem execBst_of_ready (hact : x.k.active x.sp g ≠ 0) {t : Xlated}
    (ht : x.s.access x.f.core false x.k.ctx .broadcast (x.k.readG64 a.toNat + offI x.sp.hints i) 128 128 .store = .ok t) :
    execBst g d a i s = .next (({ x with s := t.s } : Iss).commit.retire (x.k.addOp (x.engineOp .st .broadcast
      (.bst (cut t.pa 7 8) (x.k.readG64 a.toNat + offI x.sp.hints i) (x.k.active x.sp g)
        (wordsOf (x.k.active x.sp g) fun n => x.v d n)))) x.sp) := by
  rw [execBst, issue_of_ready h]
  simp only [hroom, hsc, hact, ht, Bool.or_false, Bool.false_eq_true, if_false]
  rfl

end

/-- Settles O27: each fence and broadcast store by its own rule, and a compress-store whose elements all pass. -/
theorem fencesAndOtherStoresIssue : Obligations.FencesAndOtherStoresIssue := by
  refine ⟨fun s x => ⟨fun h k sc => ⟨fun hk => ?_, fun hk => ?_⟩, fun h t f sc hfree => ?_, fun h t f sc hbusy => ?_,
    fun g d a i h hact hroom hsc => execBst_of_idle h g i hroom hsc hact,
    fun g d a i t h hact hroom hsc ht => execBst_of_ready h g i hroom hsc hact ht⟩, fun i size g d a hi s x h => ?_⟩
  · subst hk
    exact (execFence_of_ready h 2 sc).trans (by rw [if_pos rfl]; rfl)
  · exact (execFence_of_ready h k sc).trans (by rw [if_neg hk])
  · exact (execXfence_of_ready h t f sc).trans (by rw [hfree]; rfl)
  · exact (execXfence_of_ready h t f sc).trans (by rw [hbusy]; rfl)
  · intro acc reqs t
    obtain ⟨mn, hexec⟩ := hi.exec_eq
    rw [hexec]
    exact ⟨fun hnil hwait => compressStore_of_idle h mn g hwait hnil, fun hready => compressStore_of_ready h mn g hready⟩

end Sys2Proof.Machine

/-!
Lane access to the scratchpad and engine queues (06 R164, R172, R173): what each issue and event leaves, and the statements O36 and O35.
-/

namespace Sys2Proof.Machine

/-! ### The scratchpad (06 R164) -/

/-- A scratchpad access that nothing holds leaves one operation, done at once where no lane takes part (06 R141). -/
theorem Iss.scratch_next {x : Iss} {cls : OpClass} {writes : Bool} (hroom : x.k.full cls = false) (hsc : x.k.scBusy = false)
    (hgate : x.k.gated x.sp writes = false) (kind : OpKind) (lanes : List LaneAcc) :
    x.scratch cls kind writes lanes = .next (x.retire ((if lanes.isEmpty then x.k.addIdle else x.k.addOp)
      { id := 0, cls := cls, path := .lane, lineage := x.live, split := x.sp.id, kind := kind, lanes := lanes, stamp := x.s.clock }) x.sp) := by
  simp only [Iss.scratch, hroom, hsc, hgate, Bool.or_false, Bool.false_eq_true, if_false]
  split <;> rfl

theorem padFault_eq_none {len off : Nat} (halign : off % 4 = 0) (hlt : off < len) : padFault len off = none := by
  rw [padFault, if_neg (by simp [halign]), if_neg (Nat.not_le.2 hlt)]

@[simp] theorem lanesOf_zero : lanesOf 0 = [] := by decide

theorem isEmpty_map_lanesOf {α : Type} (m : Mask) (f : Nat → α) : ((lanesOf m).map f).isEmpty = true ↔ m = 0 := by
  rw [List.isEmpty_iff, List.map_eq_nil_iff]
  exact ⟨fun hnil => Decidable.byContradiction fun hne => lanesOf_ne_nil hne hnil, fun hzero => by rw [hzero, lanesOf_zero]⟩

/-- A scratchpad access whose handle and offsets pass is one of the bytes that its lanes name. -/
theorem padAccess_of_ready {s : State} {x : Iss} {writes : Bool} {d : VReg} {a : TReg} {b : VReg}
    (h : s.Ready [if writes then rdV 0 d else wrV 0 d, opT 1 a, rdV 2 b] x) (mn : String) (g : PReg)
    (hhandle : x.k.active x.sp g = 0 ∨ x.badHandle a.toNat [1, 2, 3] = false)
    (hoffset : ∀ n, (x.k.active x.sp g).getLsbD n → (x.v b n).toNat % 4 = 0 ∧ (x.v b n).toNat < hBytes (x.k.readT a.toNat)) :
    padAccess mn writes g d a b s = x.scratch (if writes then .st else .ld) (if writes then .storeS else .loadS d.toNat) writes
      ((lanesOf (x.k.active x.sp g)).map fun n =>
        { lane := n, pa := hByte (x.k.readT a.toNat) + (x.v b n).toNat, data := if writes then (x.v d n).toNat else 0 }) := by
  rw [padAccess, issue_of_ready h]
  by_cases hact : x.k.active x.sp g = 0
  · rw [hact, lanesOf_zero]
    rfl
  · have hgood : x.badHandle a.toNat [1, 2, 3] = false := hhandle.resolve_left hact
    have hbad : (lanesOf (x.k.active x.sp g)).filterMap (fun i =>
        (padFault (hBytes (x.k.readT a.toNat)) (x.v b i).toNat).map fun c => (i, c)) = [] := by
      refine List.filterMap_eq_nil_iff.2 fun i hi => ?_
      obtain ⟨halign, hlt⟩ := hoffset i (mem_lanesOf.1 hi).2
      rw [padFault_eq_none halign hlt]
      rfl
    simp only [hact, hgood, hbad, Bool.false_eq_true, if_false]

/-- Settles O36: both forms are the access of their lanes' bytes. -/
theorem scratchpadAccessesIssue : Obligations.ScratchpadAccessesIssue := by
  intro writes g d a b s x h hhandle hoffset hroom hsc hgate
  have hexec : ∃ mn, exec (if writes then .stsB32 g d a b else .ldsB32 g d a b) s = padAccess mn writes g d a b s := by
    cases writes <;> exact ⟨_, rfl⟩
  obtain ⟨mn, hexec⟩ := hexec
  rw [hexec, padAccess_of_ready h mn g hhandle hoffset, Iss.scratch_next hroom hsc hgate]
  simp only [isEmpty_map_lanesOf]

/-! ### Queues (06 R172, R173) -/

section
variable {x : Iss} (hsc : x.k.scBusy = false) {act : Mask}
include hsc

/-- A push to a queue of another pack of the group that has room. -/
theorem Iss.qpush_peer {q slot r : Nat} {k : Pack} {a : VReg} (hbind : (x.k.queue q).bind = .peer slot r) (hin : x.peerIn slot = true)
    (hne : slot ≠ x.f.slot) (hk : x.s.pack x.f.core slot = some k) : x.qpush act q a =
      if 8 ≤ (k.queue r).entries.length + k.streaming r then none
      else some (.next (({ x with s := x.s.setPack x.f.core slot (k.setQueue r ((k.queue r).push
        { mask := act, vals := wordsOf act fun n => x.v a n })) } : Iss).retire x.k x.sp)) := by
  simp only [Iss.qpush, hsc, hbind, Iss.pushPeer, hin, hne, hk, Bool.not_true, Bool.false_eq_true, if_false]
  rfl

theorem Iss.qpush_own {q r : Nat} {a : VReg} (hbind : (x.k.queue q).bind = .peer x.f.slot r) (hin : x.peerIn x.f.slot = true)
    (hroom : (x.k.queue r).entries.length + x.k.streaming r < 8) : x.qpush act q a =
      some (.next (x.retire (x.k.setQueue r ((x.k.queue r).push { mask := act, vals := wordsOf act fun n => x.v a n })) x.sp)) := by
  simp only [Iss.qpush, hsc, hbind, Iss.pushPeer, hin, Nat.not_le.2 hroom, Bool.not_true, Bool.false_eq_true, if_false, if_true]
  rfl

/-- An entry for a pack that has ended is lost (log entry 18). -/
theorem Iss.qpush_lost {q slot r : Nat} {a : VReg} (hbind : (x.k.queue q).bind = .peer slot r) (hin : x.peerIn slot = false) :
    x.qpush act q a = some (.next (x.retire x.k x.sp)) := by
  simp only [Iss.qpush, hsc, hbind, Iss.pushPeer, hin, Bool.not_false, Bool.false_eq_true, if_false, if_true]
  rfl

theorem Iss.qpush_stream {q : Nat} {base : DWord} {a : VReg} (hbind : (x.k.queue q).bind = .gather base)
    (hroom : (x.k.queue q).entries.length + x.k.streaming q < 8) :
    let t := x.s.checkAll x.f.core x.k.ctx .gather 4 4 .load (x.gatherReqs act base a fun _ => 0)
    failures t.2 = [] → x.qpush act q a = some (.next (({ x with s := t.1 } : Iss).retire
      (x.k.addOp { x.engineOp .none_ .gather (.stream q act) with lanes := laneAccs t.2 }) x.sp)) := by
  intro t hpass
  simp only [t] at hpass ⊢
  simp only [Iss.qpush, hsc, hbind, Iss.pushStream, hpass, Nat.not_le.2 hroom, Bool.false_eq_true, if_false]
  rfl

/-- What a push that does not block answers is what `pushes` says of it. -/
theorem pushes_of_qpush {q : Nat} {a : VReg} {out : Out} (hout : ∀ o, x.qpush act q a = some o → out = o) : pushes x act q a out := by
  refine ⟨fun slot r k hbind hin hne hk hroom => hout _ ?_, fun r hbind hin hroom => hout _ (Iss.qpush_own hsc hbind hin hroom),
    fun slot r hbind hin => hout _ (Iss.qpush_lost hsc hbind hin),
    fun base hbind hroom hpass => hout _ (Iss.qpush_stream hsc hbind hroom hpass)⟩
  rw [Iss.qpush_peer hsc hbind hin hne hk, if_neg (Nat.not_le.2 hroom)]

/-- A pop takes the oldest entry of a bound queue, zero in the lanes it lacks. -/
theorem Iss.qpop_next {d q : Nat} {e : QEntry} {rest : List QEntry} (hbind : (x.k.queue q).bind ≠ .unbound)
    (hentries : (x.k.queue q).entries = e :: rest) : x.qpop act d q =
      some (.next (x.retire ((x.k.setQueue q { x.k.queue q with entries := rest }).setLanes d act fun n =>
        if e.mask.getLsbD n then Words.get e.vals n else 0) x.sp)) := by
  simp only [Iss.qpop, hsc, hentries, Bool.false_eq_true, if_false]
  rfl

end

section
variable {s : State} {x : Iss} (g : PReg) (hsc : x.k.scBusy = false)
include hsc

theorem execQpush_of_ready {a : VReg} (h : s.Ready [rdV 1 a] x) (d : QReg) : execQpush g d a s =
    if x.k.active x.sp g = 0 then .next (x.retire x.k x.sp)
    else (x.qpush (x.k.active x.sp g) d.toNat a).getD (.next (x.stalledAt (.qpush g d.toNat a.toNat))) := by
  rw [execQpush, issue_of_ready h]
  simp only [hsc, Bool.false_eq_true, if_false]
  rfl

theorem execQpop_of_ready {d : VReg} (h : s.Ready [wrV 0 d] x) (a : QReg) : execQpop g d a s =
    if x.k.active x.sp g = 0 then .next (x.retire x.k x.sp)
    else (x.qpop (x.k.active x.sp g) d.toNat a.toNat).getD (.next (x.stalledAt (.qpop g d.toNat a.toNat))) := by
  rw [execQpop, issue_of_ready h]
  simp only [hsc, Bool.false_eq_true, if_false]
  rfl

end

/-- The event that ends a stall carries out what the split is stalled at. -/
theorem onStall_of_stalled {s : State} {core slot split : Nat} {x : Iss} {st : Stall} (h : s.stalled core slot split = some x)
    (hst : x.sp.stall = some st) (mn : String) (f : Iss → Stall → Option Out) :
    onStall mn s core slot split f = (f x st).getD (.refused (.notEnabled mn)) := by
  rw [onStall, h]
  simp only [hst, Option.bind_some]
  cases f x st <;> rfl

theorem execQunbind_of_ready {s : State} {x : Iss} (h : s.Ready [] x) {d : QReg} (hempty : x.k.holds d.toNat = false) :
    execQunbind d s = .next (x.retire (x.k.bindQueue d.toNat .unbound) x.sp) := by
  rw [execQunbind, issueU_of_ready h]
  simp only [hempty, Bool.false_eq_true, if_false]
  rfl

theorem execQbindPeer_of_ready {s : State} {x : Iss} {a : GReg} (h : s.Ready [rdG 1 a] x) {d : QReg} (hempty : x.k.holds d.toNat = false)
    (hlt : (x.g a).toNat < 128) (hin : x.peerIn ((x.g a).toNat % 16) = true) :
    execQbindPeer d a s = .next (x.retire (x.k.bindQueue d.toNat (.peer ((x.g a).toNat % 16) (cut (x.g a).toNat 4 3))) x.sp) := by
  rw [execQbindPeer, issueU_of_ready h]
  simp only [hempty, hin, Nat.div_eq_of_lt hlt, bne_self_eq_false, Bool.not_true, Bool.false_eq_true, if_false]
  rfl

theorem execQbindGather_of_ready {s : State} {x : Iss} {a : GReg} (h : s.Ready [rdG 1 a 2] x) {d : QReg} (hempty : x.k.holds d.toNat = false) :
    execQbindGather d a s = .next (x.retire (x.k.bindQueue d.toNat (.gather (x.k.readG64 a.toNat))) x.sp) := by
  rw [execQbindGather, issueU_of_ready h]
  simp only [hempty, Bool.false_eq_true, if_false]
  rfl

/-! ### Completions (06 R146) -/

/-- An event on an outstanding operation of the kind it is for answers the state it leaves. -/
theorem withOp_of_some {s t : State} {core slot op : Nat} {k : Pack} {o : PendOp} {f : Pack → PendOp → Option State}
    (hk : s.pack core slot = some k) (ho : k.ops.find? (fun p => p.id == op) = some o) (hf : f k o = some t) (mn : String) :
    withOp mn s core slot op f = .next t := by
  rw [withOp, hk]
  simp only [ho, Option.bind_some, hf]

@[simp] theorem State.cacheLoads_mem (s : State) (core : Nat) (o : PendOp) (ls : List LaneAcc) : (s.cacheLoads core o ls).mem = s.mem := by
  unfold State.cacheLoads
  split
  · refine State.foldl_mem (fun s l => ?_) ls s
    split
    · rfl
    · split
      · exact s.cacheLoad_mem _ _ _
      · exact s.useL2_mem _ _ _ _
  · rfl

/-- The oldest stream entry of a queue enters it with the words that memory then holds (06 R173). -/
theorem execGatherStreamResult_next {s : State} {core slot op : Nat} {k : Pack} {o : PendOp} {q : Nat} {m : Mask}
    (hk : s.pack core slot = some k) (ho : k.ops.find? (fun p => p.id == op) = some o) (hkind : o.kind = .stream q m)
    (hfirst : ∀ p ∈ k.ops.takeWhile fun p => p.id != o.id, p.done = true ∨ ∀ m', p.kind ≠ .stream q m') :
    execGatherStreamResult core slot op s = .next ((s.cacheLoads core o o.lanes).setPack core slot
      (((k.setOp { o with done := true }).sees o (o.lanes.foldl (fun t l => s.seeOwn t l.pa 4) (k.seenBy o))).setQueue q ((k.queue q).push
        ⟨m, o.lanes.foldl (fun w l => Words.set w l.lane (BitVec.ofNat 32 (s.physRead l.pa 4))) []⟩))) := by
  refine withOp_of_some hk ho ?_ _
  simp only [hkind]
  rw [if_neg]
  · rfl
  · rw [Bool.not_eq_true, List.any_eq_false]
    intro p hp
    rcases hfirst p hp with hdone | hother
    · simp [hdone]
    · split
      · next r m' hstream =>
        have hne : r ≠ q := fun h => hother m' (h ▸ hstream)
        simp [hne]
      · simp

/-- Settles O35: bindings, pushes, pops and stream results by what each leaves. -/
theorem queueResults : Obligations.QueueResults := by
  refine ⟨fun d s x hempty => ⟨fun h => execQunbind_of_ready h hempty, fun a h hlt hin => execQbindPeer_of_ready h hempty hlt hin,
      fun a h => execQbindGather_of_ready h hempty⟩,
    fun g q a s x hact hsc => ⟨fun h => (execQpush_of_ready g hsc h q).trans (if_pos hact),
      fun h => (execQpop_of_ready g hsc h q).trans (if_pos hact)⟩,
    fun g d a s x h hact hsc => ?_, fun core slot split s x g q a h hst hsc => ?_, fun g d a s x e rest h hact hsc hbind hentries => ?_,
    fun core slot split s x g d q e rest h hst hsc hbind hentries => ?_, fun core slot op s k o q m hk ho hkind hfirst => ?_⟩
  · have hexec : exec (.qpush g d a) s = _ := (execQpush_of_ready g hsc h d).trans (if_neg hact)
    refine ⟨pushes_of_qpush hsc fun o ho => by rw [hexec, ho]; rfl, fun slot r k hbind hin hne hk hfull => ?_⟩
    rw [hexec, Iss.qpush_peer hsc hbind hin hne hk, if_pos hfull]
    rfl
  · have hexec : exec (.queueUnblock core slot split) s = _ := onStall_of_stalled h hst "QUEUE_UNBLOCK" _
    refine pushes_of_qpush hsc fun o ho => ?_
    simp only [hexec, BitVec.ofNat_toNat, BitVec.setWidth_eq, ho, Option.getD_some]
  · have hexec : exec (.qpop g d a) s = _ := (execQpop_of_ready g hsc h a).trans (if_neg hact)
    rw [hexec, Iss.qpop_next hsc hbind hentries]
    rfl
  · have hexec : exec (.queueUnblock core slot split) s = _ := onStall_of_stalled h hst "QUEUE_UNBLOCK" _
    simp only [hexec, Iss.qpop_next hsc hbind hentries, Option.getD_some]
  · refine ⟨_, _, execGatherStreamResult_next hk ho hkind hfirst, State.pack_setPack_self _ _ _ _,
      (State.setPack_mem _ _ _ _).trans (State.cacheLoads_mem _ _ _ _), _, congrArg Queue.entries (Table.getD_put_self _ _ _ _), fun l hl => ?_⟩
    rw [hl]
    exact Words.get_set_self _ _ _

end Sys2Proof.Machine

/-!
Bank modes and FIFO banks (06 R170, R171): what `bankcfg`, the end of its switch, pushes, pops and their unblocking leave, and the statement
O34.
-/

namespace Sys2Proof.Machine

/-! ### FIFO banks (06 R171) -/

section
variable {x : Iss} (hsc : x.k.scBusy = false) {act : Mask}
include hsc

theorem Iss.fpush_of_room {b a : Nat} (hroom : ((x.s.core x.f.core).fifo b).full = false) : x.fpush act b a =
    some (.next (({ x with s := x.s.setCore x.f.core ((x.s.core x.f.core).setFifo b
      (((x.s.core x.f.core).fifo b).push (wordsOf act fun n => x.k.readV x.sp a n))) } : Iss).retire x.k x.sp)) := by
  simp only [Iss.fpush, hroom, hsc, Bool.or_false, Bool.false_eq_true, if_false]
  rfl

omit hsc in
theorem Iss.fpush_of_full {b a : Nat} (hfull : ((x.s.core x.f.core).fifo b).full = true) : x.fpush act b a = none := by
  simp only [Iss.fpush, hfull, Bool.true_or, if_true]

theorem Iss.fpop_of_entry {d b : Nat} {e : Words} {rest : List Words} (hentries : ((x.s.core x.f.core).fifo b).entries = e :: rest) :
    x.fpop act d b = some (.next (({ x with s := x.s.setCore x.f.core ((x.s.core x.f.core).setFifo b
      { (x.s.core x.f.core).fifo b with entries := rest, head := (((x.s.core x.f.core).fifo b).head + 1) % 512 }) } : Iss).retire
        (x.k.setLanes d act fun n => Words.get e n) x.sp)) := by
  simp only [Iss.fpop, hentries, hsc, Bool.false_eq_true, if_false]
  rfl

theorem Iss.fpop_of_empty {d b : Nat} (hentries : ((x.s.core x.f.core).fifo b).entries = []) : x.fpop act d b = none := by
  simp only [Iss.fpop, hentries, hsc, Bool.false_eq_true, if_false]

end

theorem Fifo.full_eq_false {f : Fifo} (h : f.entries.length + f.promised < 512) : f.full = false := decide_eq_false (Nat.not_le.2 h)

section
variable {s : State} {x : Iss} (g : PReg) (hsc : x.k.scBusy = false) (b : Bank)
include hsc

theorem execFpush_of_idle {a : VReg} (h : s.Ready [rdV 1 a] x) (hact : x.k.active x.sp g = 0) :
    execFpush g b a s = .next (x.retire x.k x.sp) := by
  rw [execFpush, issue_of_ready h]
  simp only [hsc, hact, Bool.false_eq_true, if_false, if_true]
  rfl

theorem execFpop_of_idle {d : VReg} (h : s.Ready [wrV 0 d] x) (hact : x.k.active x.sp g = 0) :
    execFpop g d b s = .next (x.retire x.k x.sp) := by
  rw [execFpop, issue_of_ready h]
  simp only [hsc, hact, Bool.false_eq_true, if_false, if_true]
  rfl

variable (hact : x.k.active x.sp g ≠ 0) (hbank : (x.s.core x.f.core).bank b.toNat = .fifo)
include hbank

theorem execFcount_of_ready {d : GReg} (h : s.Ready [wrG 0 d] x) : execFcount d b s =
    .next (x.uniNext d (BitVec.ofNat 32 ((x.s.core x.f.core).fifo b.toNat).entries.length)) := by
  rw [execFcount, issueU_of_ready h]
  simp only [hsc, hbank, bne_self_eq_false, Bool.false_eq_true, if_false]
  rfl

include hact

theorem execFpush_of_ready {a : VReg} (h : s.Ready [rdV 1 a] x) : execFpush g b a s =
    (x.fpush (x.k.active x.sp g) b.toNat a.toNat).getD (.next (x.stalledAt (.fpush g b.toNat a.toNat))) := by
  rw [execFpush, issue_of_ready h]
  simp only [hsc, hact, hbank, bne_self_eq_false, Bool.false_eq_true, if_false]
  rfl

theorem execFpop_of_ready {d : VReg} (h : s.Ready [wrV 0 d] x) : execFpop g d b s =
    (x.fpop (x.k.active x.sp g) d.toNat b.toNat).getD (.next (x.stalledAt (.fpop g d.toNat b.toNat))) := by
  rw [execFpop, issue_of_ready h]
  simp only [hsc, hact, hbank, bne_self_eq_false, Bool.false_eq_true, if_false]
  rfl

end

/-- Retiring leaves the banks of the issuing core. -/
theorem Iss.core_retire (x : Iss) (k : Pack) (sp : Split) : ∃ packs last,
    (x.retire k sp).core x.f.core = { x.s.core x.f.core with packs := packs, lastPack := last } :=
  ⟨_, _, by simp only [Iss.retire, Iss.retireTo, Iss.put, State.core_setPack_self]; exact State.core_setCore_self _ _ _⟩

/-- A FIFO bank holds what it is set to, once the instruction that set it has retired. -/
theorem Iss.fifo_retire_setFifo (x : Iss) (k : Pack) (sp : Split) (b : Nat) (f : Fifo) :
    ((({ x with s := x.s.setCore x.f.core ((x.s.core x.f.core).setFifo b f) } : Iss).retire k sp).core x.f.core).fifo b = f := by
  obtain ⟨_, _, hcore⟩ := Iss.core_retire { x with s := x.s.setCore x.f.core ((x.s.core x.f.core).setFifo b f) } k sp
  rw [State.core_setCore_self] at hcore
  rw [hcore]
  exact Table.getD_put_self _ _ _ _

/-! ### Bank switches (06 R170) -/

theorem BankConfig.exec_eq {i : Instr} {m : BankMode} {a : GReg} (hi : BankConfig i m a) : ∃ mn, ∀ s, exec i s = bankcfg mn m a s := by
  cases hi <;> exact ⟨_, fun _ => rfl⟩

theorem bankcfg_of_ready {s : State} {x : Iss} {a : GReg} (h : s.Ready [rdG 1 a] x) (hlt : (x.g a).toNat < 2 ^ 16)
    (halone : ∀ p ∈ (x.s.core x.f.core).packs, p.2.tag = x.k.tag) (hfree : (x.s.core x.f.core).switching = none) (mn : String)
    (m : BankMode) : bankcfg mn m a s = .next (({ x with s := x.s.setCore x.f.core { x.s.core x.f.core with
      switching := some { slot := x.f.slot, split := x.sp.id, banks := x.g a, mode := m } } } : Iss).stalledAt .bankcfg) := by
  have hother : ((x.s.core x.f.core).packs.any fun p => p.2.tag != x.k.tag) = false :=
    List.any_eq_false.2 fun p hp => by simp [halone p hp]
  rw [bankcfg, issueU_of_ready h]
  simp only [Nat.div_eq_of_lt hlt, hother, hfree, bne_self_eq_false, Option.isSome_none, Bool.false_eq_true, if_false]
  rfl

/-- What a key reads as once the entries that fail a test of their key are dropped. -/
theorem Table.get_filter_key {α : Type} (m : Table α) (p : Nat → Bool) (a : Nat) :
    Table.get (m.filter fun e => p e.1) a = if p a then Table.get m a else none := by
  induction m with
  | nil => simp [Table.get]
  | cons e m ih => grind [Table.get]

theorem Bytes.get_clear (m : Bytes) (lo hi a : Nat) : Bytes.get (m.clear lo hi) a = if lo ≤ a ∧ a < hi then 0 else m.get a := by
  have h := Table.get_filter_key m (fun e => decide (e < lo) || decide (hi ≤ e)) a
  simp only [Bytes.get, Store.read, Bytes.clear, h, Bool.or_eq_true, decide_eq_true_eq]
  by_cases hin : lo ≤ a ∧ a < hi
  · rw [if_neg (by omega), if_pos hin]
    rfl
  · rw [if_pos (by omega), if_neg hin]

theorem Core.bank_setBank (c : Core) (b : Nat) (m : BankMode) (j : Nat) :
    (c.setBank b m).bank j = if j = b then m else c.bank j := by
  unfold Core.setBank
  split
  · next h =>
    split
    · next hj => rw [hj, eq_of_beq h]
    · rfl
  · by_cases hm : m = .cache
    · by_cases hj : j = b
      · simp [Core.bank, Table.getD, hm, hj]
      · simp [Core.bank, Table.getD, hm, hj, Table.get_del_of_ne]
    · by_cases hj : j = b
      · simp [Core.bank, hm, hj]
      · simp [Core.bank, hm, hj, Table.getD_put_of_ne]

/-- A bank that changes its mode holds zeros, and no byte elsewhere changes. -/
theorem Core.sram_setBank (c : Core) (b : Nat) (m : BankMode) (a : Nat) : (c.setBank b m).sram.get a =
    if c.bank b ≠ m ∧ 65536 * b ≤ a ∧ a < 65536 * (b + 1) then 0 else c.sram.get a := by
  unfold Core.setBank
  by_cases h : c.bank b = m
  · simp [h]
  · simp [h, Bytes.get_clear]

theorem Core.packs_setBank (c : Core) (b : Nat) (m : BankMode) : (c.setBank b m).packs = c.packs := by
  unfold Core.setBank
  split <;> rfl

theorem Core.switching_setBank (c : Core) (b : Nat) (m : BankMode) : (c.setBank b m).switching = c.switching := by
  unfold Core.setBank
  split <;> rfl

/-- What setting the mode of several banks leaves. -/
theorem Core.foldl_setBank (bs : List Nat) (m : BankMode) (c : Core) :
    let c' := bs.foldl (fun c b => c.setBank b m) c
    c'.packs = c.packs ∧ c'.switching = c.switching ∧ (∀ j, c'.bank j = if j ∈ bs then m else c.bank j) ∧
      (∀ a, c.sram.get a = 0 → c'.sram.get a = 0) ∧
      ∀ b ∈ bs, c.bank b ≠ m → ∀ a, a < 65536 → c'.sram.get (65536 * b + a) = 0 := by
  induction bs generalizing c with
  | nil => exact ⟨rfl, rfl, fun j => rfl, fun a h => h, fun b hb => nomatch hb⟩
  | cons b0 bs ih =>
    obtain ⟨hpacks, hswitch, hbank, hkeep, hzero⟩ := ih (c.setBank b0 m)
    refine ⟨hpacks.trans (c.packs_setBank b0 m), hswitch.trans (c.switching_setBank b0 m), fun j => ?_, fun a h => hkeep a ?_,
      fun b hb hne a ha => ?_⟩
    · rw [List.foldl_cons, hbank, Core.bank_setBank]
      by_cases hj : j = b0
      · simp [hj]
      · simp [hj]
    · rw [Core.sram_setBank, h, ite_self]
    · by_cases hb0 : b = b0
      · refine hkeep _ ?_
        rw [Core.sram_setBank, if_pos ⟨hb0 ▸ hne, by omega, by omega⟩]
      · refine hzero b ((List.mem_cons.1 hb).resolve_left hb0) ?_ a ha
        rwa [Core.bank_setBank, if_neg hb0]

/-- No blocked operation is cut off where none waits at the banks. -/
theorem State.cutFifos_of_none {s : State} {core : Nat} {bs : List Nat}
    (h : ∀ p ∈ (s.core core).packs, ∀ e ∈ p.2.splits, e.2.blockedOn bs = false) : s.cutFifos core bs = s := by
  rw [State.cutFifos]
  suffices hfold : ∀ ps : List (Nat × Pack), (∀ p ∈ ps, ∀ e ∈ p.2.splits, e.2.blockedOn bs = false) →
      ps.foldl (fun s p => (p.2.splits.filter fun e => e.2.blockedOn bs).foldl
        (fun s e => s.handleAtStall core p.1 e.1 false (handleWord 0x1C)) s) s = s from hfold _ h
  intro ps hps
  induction ps with
  | nil => rfl
  | cons p ps ih =>
    have hnone : (p.2.splits.filter fun e => e.2.blockedOn bs) = [] :=
      List.filter_eq_nil_iff.2 fun e he => by simp [hps p List.mem_cons_self e he]
    rw [List.foldl_cons, hnone]
    exact ih fun p hp => hps p (List.mem_cons_of_mem _ hp)

/-! ### Stalled splits (09 R239) -/

/-- A split is the issuer of the instruction it is stalled at. -/
theorem State.stalled_of_split {s : State} {core slot split : Nat} {k : Pack} {sp : Split} (hk : s.pack core slot = some k)
    (hsp : k.split split = some sp) (hstall : sp.stall.isNone = false) (hspill : sp.spill.isSome = false)
    (hpending : sp.pending.isSome = false) : ∃ x, s.stalled core slot split = some x ∧
      x.s = { s with focus := none } ∧ x.k = k ∧ x.sp = sp ∧ x.f.core = core ∧ x.f.slot = slot ∧ x.f.split = split := by
  simp only [State.stalled, hk, hsp, hstall, hspill, hpending, Bool.or_false, Bool.false_eq_true, if_false]
  refine ⟨_, rfl, rfl, rfl, rfl, ?_⟩
  split <;> exact ⟨rfl, rfl, rfl⟩

/-- What stands where a split is stalled. -/
theorem State.of_stalled {s : State} {core slot split : Nat} {x : Iss} (h : s.stalled core slot split = some x) :
    s.pack core slot = some x.k ∧ x.k.split split = some x.sp ∧ x.sp.stall.isNone = false ∧ x.sp.spill.isSome = false ∧
      x.sp.pending.isSome = false ∧ x.s = { s with focus := none } ∧ x.f.core = core ∧ x.f.slot = slot ∧ x.f.split = split := by
  unfold State.stalled at h
  split at h
  · cases h
  · next k hk =>
    split at h
    · cases h
    · next sp hsp =>
      split at h
      · cases h
      · next hfree =>
        simp only [Bool.or_eq_true, not_or, Bool.not_eq_true] at hfree
        obtain ⟨⟨hstall, hspill⟩, hpending⟩ := hfree
        obtain ⟨x', hx', hs, hk', hsp', hcore, hslot, hsplit⟩ := State.stalled_of_split hk hsp hstall hspill hpending
        simp only [State.stalled, hk, hsp, hstall, hspill, hpending, Bool.or_false, Bool.false_eq_true, if_false] at hx'
        obtain rfl : x' = x := Option.some.inj (hx'.symm.trans h)
        exact ⟨hk' ▸ hk, by rw [hk', hsp', hsp], hsp' ▸ hstall, hsp' ▸ hspill, hsp' ▸ hpending, hs, hcore, hslot, hsplit⟩

theorem Split.retire_stall (sp : Split) (pc : Word) (c : Nat) : (sp.retire pc c).stall = none := by
  unfold Split.retire Split.goto
  split <;> rfl

/-- The pack that a retired instruction leaves. -/
theorem Iss.pack_retire (x : Iss) (k : Pack) (sp : Split) :
    (x.retire k sp).pack x.f.core x.f.slot = some (k.started.setSplit (sp.retire x.f.next x.s.clock)) := by
  simp [Iss.retire, Iss.retireTo, State.pack, State.core, State.setCore, Iss.put, State.setPack]

@[simp] theorem State.voidPromises_core (s : State) (c j : Nat) : (s.voidPromises c).core j = s.core j := rfl

/-- The core once its switch is over. -/
def State.switched (s : State) (core : Nat) (w : BankSwitch) : Core := ((s.core core).changing w).foldl (fun c b => c.setBank b w.mode)
  { s.core core with switching := none, owner := (s.pack core w.slot).map (·.ctx) }

theorem mem_changing {c : Core} {w : BankSwitch} {b : Nat} :
    b ∈ c.changing w ↔ (b < 16 ∧ w.banks.getLsbD b = true) ∧ c.bank b ≠ w.mode := by
  simp [Core.changing, banksOf]
  tauto

/-- What a switch leaves of its core. -/
theorem State.switched_spec (s : State) (core : Nat) (w : BankSwitch) :
    (s.switched core w).packs = (s.core core).packs ∧ (s.switched core w).switching = none ∧
      (∀ b, b < 16 → (s.switched core w).bank b = if w.banks.getLsbD b then w.mode else (s.core core).bank b) ∧
      ∀ b, b < 16 → w.banks.getLsbD b = true → (s.core core).bank b ≠ w.mode → ∀ a, a < 65536 →
        (s.switched core w).sram.get (65536 * b + a) = 0 := by
  obtain ⟨hpacks, hswitch, hbank, -, hzero⟩ := Core.foldl_setBank ((s.core core).changing w) w.mode
    { s.core core with switching := none, owner := (s.pack core w.slot).map (·.ctx) }
  refine ⟨hpacks, hswitch, fun b hb => (hbank b).trans ?_, fun b hb hin hne => hzero b (mem_changing.2 ⟨⟨hb, hin⟩, hne⟩) hne⟩
  show (if b ∈ (s.core core).changing w then w.mode else (s.core core).bank b) = _
  by_cases hin : w.banks.getLsbD b = true
  · by_cases hmode : (s.core core).bank b = w.mode
    · simp [mem_changing, hin, hmode]
    · simp [mem_changing, hb, hin, hmode]
  · simp [mem_changing, hin]

/-- A switch that nothing in flight holds up ends, and its `bankcfg` retires. -/
theorem execBankSwitchCompletion_next {s : State} {core : Nat} {w : BankSwitch} {x : Iss} (hw : (s.core core).switching = some w)
    (hquiet : (s.core core).touching (banksOf w.banks) = false)
    (hblocked : ∀ p ∈ (s.core core).packs, ∀ e ∈ p.2.splits, e.2.blockedOn ((s.core core).changing w) = false)
    (hx : s.stalled core w.slot w.split = some x) (hstall : x.sp.stall = some .bankcfg) :
    ∃ y : Iss, exec (.bankSwitchCompletion core) s = .next (y.retire x.k x.sp) ∧ y.f.core = core ∧ y.f.slot = w.slot ∧ y.f.split = w.split ∧
      y.s.core core = s.switched core w ∧ y.s.mem = s.mem := by
  obtain ⟨hk, hsp, hnone, hspill, hpending, -⟩ := State.of_stalled hx
  have hready : s.switcherSpilled core w = false := by simp [State.switcherSpilled, hk, hsp, hspill]
  have hpack : ((s.setCore core (s.switched core w)).voidPromises core).pack core w.slot = some x.k := by
    rw [State.pack, State.voidPromises_core, State.core_setCore_self, (s.switched_spec core w).1]
    exact hk
  obtain ⟨y, hy, hys, hyk, hysp, hcore, hslot, hsplit⟩ := State.stalled_of_split hpack hsp hnone hspill hpending
  refine ⟨y, ?_, hcore, hslot, hsplit, ?_, by rw [hys]; rfl⟩
  · show execBankSwitchCompletion core s = _
    simp only [execBankSwitchCompletion, hw, hquiet, hready, State.cutFifos_of_none hblocked, Bool.or_false, Bool.false_eq_true, if_false]
    rw [State.switched] at hy
    simp only [hy, hysp, hyk, hstall, beq_self_eq_true, if_true]
    rfl
  · rw [hys]
    exact State.core_setCore_self _ _ _

/-- Settles O34: the switch by what it leaves of its core, pushes and pops by what they leave of their bank. -/
theorem bankResults : Obligations.BankResults := by
  refine ⟨fun i m a hi s x h hlt halone hfree => ?_, fun core s w x hw hquiet hblocked hx hstall hid => ?_,
    fun g a b s x hact hsc => ⟨fun h => execFpush_of_idle g hsc b h hact, fun h => execFpop_of_idle g hsc b h hact⟩,
    fun g a b s x h hact hsc hbank => ?_, fun g d b s x h hact hsc hbank => ?_,
    fun d b s x h hsc hbank => execFcount_of_ready hsc b hbank h, fun core slot split s x hx hsc => ?_⟩
  · obtain ⟨mn, hexec⟩ := hi.exec_eq
    rw [hexec, bankcfg_of_ready h hlt halone hfree]
  · obtain ⟨y, hexec, rfl, hslot, hsplit, hcore, hmem⟩ := execBankSwitchCompletion_next hw hquiet hblocked hx hstall
    obtain ⟨_, _, hrest⟩ := y.core_retire x.k x.sp
    obtain ⟨-, hnone, hbank, hzero⟩ := s.switched_spec y.f.core w
    rw [hcore] at hrest
    refine ⟨_, _, x.sp.retire y.f.next y.s.clock, hexec, hslot ▸ y.pack_retire x.k x.sp, ?_, Split.retire_stall _ _ _, by rw [hrest, hnone],
      fun b hb => by rw [hrest, ← hbank b hb]; rfl, fun b hb hin hne a ha => by rw [hrest, hzero b hb hin hne a ha], hmem⟩
    rw [← hid, ← Split.retire_id x.sp y.f.next y.s.clock]
    exact Pack.split_setSplit_self _ _
  · have hexec : exec (.fpush g b a) s = _ := execFpush_of_ready g hsc b hact hbank h
    refine ⟨fun hroom => ?_, fun hfull => ?_⟩
    · rw [hexec, Iss.fpush_of_room hsc (Fifo.full_eq_false hroom)]
      rfl
    · rw [hexec, Iss.fpush_of_full (decide_eq_true hfull)]
      rfl
  · have hexec : exec (.fpop g d b) s = _ := execFpop_of_ready g hsc b hact hbank h
    refine ⟨fun e rest hentries => ?_, fun hempty => ?_⟩
    · rw [hexec, Iss.fpop_of_entry hsc hentries]
      rfl
    · rw [hexec, Iss.fpop_of_empty hsc hempty]
      rfl
  · refine ⟨fun g b a hst hroom => ?_, fun g d b e rest hst hentries => ?_⟩
    · have hexec : exec (.fifoUnblock core slot split) s = _ := onStall_of_stalled hx hst "FIFO_UNBLOCK" _
      simp only [Iss.fpush_of_room hsc hroom] at hexec
      exact ⟨_, hexec, congrArg Fifo.entries (Iss.fifo_retire_setFifo x x.k x.sp b _)⟩
    · have hexec : exec (.fifoUnblock core slot split) s = _ := onStall_of_stalled hx hst "FIFO_UNBLOCK" _
      simp only [Iss.fpop_of_entry hsc hentries] at hexec
      exact ⟨_, hexec, congrArg Fifo.entries (Iss.fifo_retire_setFifo x _ x.sp b _)⟩

end Sys2Proof.Machine

/-!
Completed stores (06 R146, R148, R164): what the lanes performed leave of device memory and of the scratchpad, and the statement O29.
-/

namespace Sys2Proof.Machine

/-! ### Changed packs -/

theorem State.modPack_of_some {s : State} {c n : Nat} {k : Pack} (h : s.pack c n = some k) (f : Pack → Pack) :
    s.modPack c n f = s.setPack c n (f k) := by
  rw [State.modPack, h]

theorem State.modPack_of_none {s : State} {c n : Nat} (h : s.pack c n = none) (f : Pack → Pack) : s.modPack c n f = s := by
  rw [State.modPack, h]

@[simp] theorem State.modPack_mem (s : State) (c n : Nat) (f : Pack → Pack) : (s.modPack c n f).mem = s.mem := by
  cases h : s.pack c n with
  | none => rw [State.modPack_of_none h]
  | some k => rw [State.modPack_of_some h, State.setPack_mem]

/-- A changed pack changes nothing else of a core. -/
theorem State.core_modPack (s : State) (c n : Nat) (f : Pack → Pack) (j : Nat) :
    ∃ packs, (s.modPack c n f).core j = { s.core j with packs := packs } := by
  cases h : s.pack c n with
  | none => exact ⟨_, by rw [State.modPack_of_none h]⟩
  | some k =>
    rw [State.modPack_of_some h]
    by_cases hj : j = c
    · subst hj
      exact ⟨_, s.core_setPack_self j n (f k)⟩
    · exact ⟨_, s.core_setPack_of_ne n (f k) hj⟩

theorem State.sram_modPack (s : State) (c n : Nat) (f : Pack → Pack) (j : Nat) : ((s.modPack c n f).core j).sram = (s.core j).sram := by
  obtain ⟨_, hcore⟩ := s.core_modPack c n f j
  rw [hcore]

/-! ### Performed stores -/

/-- A store to an unarmed page writes the low bytes of its data, on whatever path. -/
theorem State.storePart_mem {s : State} {core : Nat} {k : Pack} {o : PendOp} {l : LaneAcc} {n : Nat} (hkind : o.kind = .store n)
    (harmed : bit l.attr 1 = false) : (s.storePart core k o l).mem = s.mem.writeLE l.pa n l.data := by
  simp only [State.storePart, hkind, OpKind.space]
  split
  · exact s.devWrite_mem core k.ctx l.pa n l.data harmed o.pol
  · exact (s.engineWrite_mem o.path k core l.pa harmed _ o.pol).trans (Bytes.writeList_bytesLE _ _ _ _)

theorem State.storePart_of_storeS {s : State} {core : Nat} {k : Pack} {o : PendOp} {l : LaneAcc} (hkind : o.kind = .storeS) :
    s.storePart core k o l = s.setCore core { s.core core with sram := (s.core core).sram.writeLE l.pa 4 l.data } := by
  simp only [State.storePart, hkind, OpKind.space]

theorem State.storePart_of_adet {s : State} {core : Nat} {k : Pack} {o : PendOp} {l : LaneAcc} (hkind : o.kind = .adet) :
    s.storePart core k o l = s := by
  simp only [State.storePart, hkind, OpKind.space]

/-- The state once the stores of some lanes are performed, before the operation's record of it. -/
def State.stored (s : State) (core : Nat) (k : Pack) (o : PendOp) (lanes : Mask) : State :=
  (o.picked lanes).foldl (fun s l => s.storePart core k o l) s

theorem State.stored_of_one {s : State} {core : Nat} {k : Pack} {o : PendOp} {lanes : Mask} {l : LaneAcc} (h : o.picked lanes = [l]) :
    s.stored core k o lanes = s.storePart core k o l := by
  rw [State.stored, h, List.foldl_cons, List.foldl_nil]

theorem State.stored_of_adet {s : State} {core : Nat} {k : Pack} {o : PendOp} (hkind : o.kind = .adet) (lanes : Mask) :
    s.stored core k o lanes = s := by
  rw [State.stored]
  induction o.picked lanes with
  | nil => rfl
  | cons l ls ih => rw [List.foldl_cons, State.storePart_of_adet hkind, ih]

/-- A store completes: its lanes are performed, and the operation then says so. -/
theorem execStoreCompletion_next {s : State} {core slot op : Nat} {lanes : Mask} {k : Pack} {o : PendOp} (hk : s.pack core slot = some k)
    (ho : k.ops.find? (fun p => p.id == op) = some o) (hkind : (∃ n, o.kind = .store n) ∨ o.kind = .storeS ∨ o.kind = .adet)
    (hmay : k.mayPerform o lanes = true) (hheld : s.detHeld core o = false) :
    ∃ f, exec (.storeCompletion core slot op lanes) s = .next ((s.stored core k o lanes).modPack core slot f) := by
  refine ⟨fun k' => (k'.setOp (o.perform id lanes)).sees o ((o.picked lanes).foldl (fun t l => s.storeSeen o t l) (k.seenBy o)),
    withOp_of_some hk ho ?_ "STORE_COMPLETION"⟩
  rcases hkind with ⟨n, hkind⟩ | hkind | hkind <;>
    simp only [hkind, hmay, hheld, Bool.not_false, Bool.and_self, if_true] <;> rfl

/-- Settles O29: what the one lane performed writes. -/
theorem storesComplete : Obligations.StoresComplete := by
  intro core slot op lanes s k o hk ho hkind hmay hheld
  obtain ⟨f, hexec⟩ := execStoreCompletion_next hk ho hkind hmay hheld
  refine ⟨_, hexec, fun n l hstore hone harmed => ?_, fun l hpad hone => ?_, fun hadet => ?_⟩
  · refine readLE_sameOutside_of_writeLE ?_
    rw [State.modPack_mem, State.stored_of_one hone, State.storePart_mem hstore harmed]
  · rw [State.modPack_mem, State.sram_modPack, State.stored_of_one hone, State.storePart_of_storeS hpad, State.core_setCore_self]
    exact ⟨rfl, Bytes.readLE_writeLE _ _ _ _, fun a ha => Bytes.get_writeLE_of_outside _ _ ha⟩
  · rw [State.modPack_mem, State.sram_modPack, State.stored_of_adet hadet]
    exact ⟨rfl, rfl⟩

end Sys2Proof.Machine

/-!
Copies (06 R165-R168): what an issue leaves, what a part of a copy moves, and the statement O33.
-/

namespace Sys2Proof.Machine

/-! ### Bytes moved -/

/-- What a byte reads as once a list of bytes is written. -/
theorem Bytes.get_writeList (m : Bytes) (a : Nat) (bs : List Byte) (j : Nat) :
    Bytes.get (m.writeList a bs) j = if a ≤ j ∧ j < a + bs.length then bs.getD (j - a) 0 else m.get j := by
  induction bs generalizing m a with
  | nil => rw [if_neg (by simp only [List.length_nil]; omega)]; rfl
  | cons b bs ih =>
    rw [Bytes.writeList, ih, Bytes.get_set, List.length_cons]
    by_cases hj : j = a
    · subst hj
      rw [if_neg (by omega), if_pos rfl, if_pos (by omega), Nat.sub_self]
      rfl
    · by_cases hin : a + 1 ≤ j ∧ j < a + 1 + bs.length
      · obtain ⟨n, rfl⟩ : ∃ n, j = a + 1 + n := ⟨j - (a + 1), by omega⟩
        rw [if_pos hin, if_pos (by omega), show a + 1 + n - (a + 1) = n by omega, show a + 1 + n - a = n + 1 by omega]
        rfl
      · rw [if_neg hin, if_neg hj, if_neg (by omega)]

@[simp] theorem State.useRuns_mem (s : State) (core pol : Nat) (rs : Runs) : (s.useRuns core pol rs).mem = s.mem :=
  State.foldl_mem (fun s _ => State.foldl_mem (fun s l => s.useL2_mem _ _ l _) _ s) rs s

theorem State.sameTasks_useRuns (s : State) (core pol : Nat) (rs : Runs) : s.SameTasks (s.useRuns core pol rs) :=
  SameTasks.foldl (fun s _ => SameTasks.foldl (fun s l => s.sameTasks_useL2 _ _ l _) _ s) rs s

theorem State.sameTasks_writeRuns (path : Path) (k : Pack) (core : Nat) (rs : Runs) (bs : List Byte) (s : State) :
    s.SameTasks (s.writeRuns path k core rs bs) := by
  induction rs generalizing s bs with
  | nil => exact .refl s
  | cons r rs ih => exact (s.sameTasks_engineWrite path k core r.1 r.2.2 _ _).trans (ih _ _)

/-- Runs in unarmed pages take the bytes in their order. -/
theorem State.writeRuns_mem (path : Path) (k : Pack) (core : Nat) {rs : Runs} (h : unarmed rs) (bs : List Byte) (s : State) :
    (s.writeRuns path k core rs bs).mem = runsWritten s.mem rs bs := by
  induction rs generalizing s bs with
  | nil => rfl
  | cons r rs ih =>
    refine (ih (fun q hq => h q (List.mem_cons_of_mem _ hq)) _ _).trans ?_
    rw [s.engineWrite_mem path k core r.1 (h r List.mem_cons_self)]
    rfl

/-! ### Page lists (16 R351) -/

theorem State.dropLists_keeps (s : State) (p : PageList → Bool) : (s.dropLists p).mem = s.mem ∧ (s.dropLists p).cores = s.cores := by
  unfold State.dropLists
  suffices h : ∀ (ls : List PageList) (t : State), t.mem = s.mem ∧ t.cores = s.cores →
      (ls.foldl (fun s l => s.modContext l.ctx fun c => c.giveBack l.granule) t).mem = s.mem ∧
        (ls.foldl (fun s l => s.modContext l.ctx fun c => c.giveBack l.granule) t).cores = s.cores from h _ _ ⟨rfl, rfl⟩
  intro ls
  induction ls with
  | nil => exact fun _ h => h
  | cons l ls ih => exact fun t h => ih _ h

/-- The page list of a copy goes with its last byte, and touches neither memory nor cores. -/
theorem State.unlistIf_keeps (c : Prop) [Decidable c] (s : State) (core slot op : Nat) :
    (if c then s.unlist core slot op else s).mem = s.mem ∧ (if c then s.unlist core slot op else s).cores = s.cores := by
  split
  · exact s.dropLists_keeps _
  · exact ⟨rfl, rfl⟩

/-! ### Issue and the write pointer (06 R165, R168) -/

section
variable {s : State} {x : Iss}

/-- The core with one copy more in the queue of channel `ch`. -/
def Core.queueCopy (c : Core) (ch seq slot op : Nat) : Core :=
  { c with copySeq := c.copySeq.put ch ((seq + 1) % 2048), copyQ := c.copyQ ++ [(ch, slot, op)] }

/-- The sequence number of the next copy of channel `ch`. -/
def Iss.copySeq (x : Iss) (ch : Nat) : Nat := (x.s.core x.f.core).copySeq.getD ch 0

/-- The issuer once its copy has been queued, before it retires. -/
def Iss.copyQueued (x : Iss) (v : State) (into : Bool) (ch : Nat) : Iss :=
  let y : Iss := { x with s := v.setCore x.f.core ((v.core x.f.core).queueCopy ch (x.copySeq ch) x.f.slot x.k.nextOp) }
  if into then y else y.commit

/-- The operation that a copy leaves (06 R165). -/
def Iss.copyOp (x : Iss) (into : Bool) (ch base n : Nat) (runs : Runs) : PendOp :=
  x.engineOp .cp .copy (.copy ch (x.copySeq ch) into base n 0 runs)

theorem Iss.copyQueued_spec (x : Iss) (v : State) (into : Bool) (ch : Nat) :
    (x.copyQueued v into ch).f = x.f ∧ (x.copyQueued v into ch).s.mem = v.mem ∧
      ((x.copyQueued v into ch).s.core x.f.core).copyQ = (v.core x.f.core).copyQ ++ [(ch, x.f.slot, x.k.nextOp)] := by
  have hcore := v.core_setCore_self x.f.core ((v.core x.f.core).queueCopy ch (x.copySeq ch) x.f.slot x.k.nextOp)
  cases into <;> exact ⟨rfl, rfl, congrArg (fun c : Core => c.copyQ) hcore⟩

/-- An instruction that retires with one operation more leaves it last among the pack's. -/
theorem Iss.now_retire_addOp (y : Iss) (k : Pack) (o : PendOp) (sp : Split) (hid : sp.id = y.f.split) : ∃ k' sp',
    y.now (y.retire (k.addOp o) sp) = some (k', sp') ∧ sp'.pc = y.f.next ∧
      k'.ops = k.ops ++ [{ o with id := k.nextOp, after := k.earlier o.lineage }] :=
  ⟨_, _, y.now_retireTo (k.addOp o) sp y.f.next hid, Split.retire_pc _ _ _, rfl⟩

theorem copyIssue_of_ready {d a : TReg} {b : GReg} (h : s.Ready [opT 0 d, opT 1 a, rdG 2 b] x) (mn : String) (into : Bool) {r : Tsr}
    {t : State × Runs} {v : State} (hdst : x.badHandle d.toNat [1] = false) (hsrc : x.badHandle a.toNat [3] = false)
    (hroom : (x.s.core x.f.core).copyQ.length < 128) (hfull : x.k.full .cp = false) (hsc : x.k.scBusy = false)
    (hstoring : x.storing = false) (hbusy : x.recordBusy a.toNat (x.g b) = false)
    (hrecord : x.record a.toNat (x.g b) 11 (.elements !into) (fun _ => false) = (r, 0))
    (hsize : r.elementBytes ≤ hBytes (x.k.readT d.toNat))
    (hruns : x.s.checkRuns x.f.core x.k.ctx .copy (if into then .load else .store) (pagePieces r.elementRuns) = .ok t)
    (hlist : t.1.listPages x.f.core x.f.slot x.k.nextOp x.k.ctx (pagePieces r.elementRuns) = some v) :
    copyIssue mn into d a b s = .next ((x.copyQueued v into (cut (x.g b).toNat 8 3)).retire
      (x.k.addOp (x.copyOp into (cut (x.g b).toNat 8 3) (hByte (x.k.readT d.toNat)) r.elementBytes t.2)) x.sp) := by
  rw [copyIssue, issueU_of_ready h]
  simp only [hdst, hsrc, Nat.not_le.2 hroom, decide_false, hfull, hsc, hstoring, hbusy, hrecord, Nat.not_lt.2 hsize, hruns, hlist, bne_self_eq_false,
    Bool.or_false, Bool.false_eq_true, if_false]
  cases into <;> rfl

theorem reached_iff {value target : Word} : reached value target = true ↔ (value - target).toNat < 2 ^ 31 := by
  rw [reached, BitVec.msb_eq_decide]
  simp

theorem execMovGc_of_ready {d : GReg} (h : s.Ready [wrG 0 d] x) (hsc : x.k.scBusy = false) (a : QReg) :
    execMovGc d a s = .next (x.uniNext d (Words.get (x.s.core x.f.core).cwp a.toNat)) := by
  rw [execMovGc, issueU_of_ready h]
  simp only [hsc, Bool.false_eq_true, if_false]
  rfl

theorem execCwpwait_of_ready {d : GReg} (h : s.Ready [rdG 0 d] x) (hsc : x.k.scBusy = false) (a : QReg) :
    execCwpwait d a s = .next (if ((Words.get (x.s.core x.f.core).cwp a.toNat) - x.g d).toNat < 2 ^ 31 then x.retire x.k x.sp
      else x.stalledAt (.cwpwait d.toNat a.toNat)) := by
  rw [execCwpwait, issueU_of_ready h]
  simp only [hsc, Bool.false_eq_true, if_false, reached_iff]
  split <;> rfl

end

/-! ### Parts of a copy (06 R166, R167) -/

/-- What a part of a copy leaves: its bytes in the scratchpad or over its runs, and nothing else of either. -/
theorem State.moveBytes_spec (s : State) (core : Nat) (k : Pack) (into : Bool) (base lo upto : Nat) (runs : Runs) :
    let t := s.moveBytes core k into base lo upto runs
    (into = true → t.mem = s.mem ∧ wrote (s.core core).sram (t.core core).sram (base + lo) (s.runBytes (sliceRuns runs lo upto))) ∧
    (into = false → (t.core core).sram = (s.core core).sram ∧ (unarmed (sliceRuns runs lo upto) →
      t.mem = runsWritten s.mem (sliceRuns runs lo upto) ((s.core core).sram.readList (base + lo) (upto - lo)))) := by
  refine ⟨?_, ?_⟩
  · rintro rfl
    refine ⟨s.useRuns_mem core 0 _, fun j => ?_⟩
    simp only [State.moveBytes, if_true, State.core_setCore_self, (s.sameTasks_useRuns core 0 _).sram, Bytes.get_writeList]
  · rintro rfl
    exact ⟨(State.sameTasks_writeRuns _ _ _ _ _ s).sram core, fun harmed => State.writeRuns_mem _ _ _ harmed _ s⟩

/-- The core once its channel's current copy has written its bytes below `upto`. -/
def Core.copied (c : Core) (e : Nat × Nat × Nat) (ch seq n upto : Nat) : Core :=
  { c with
    cwp := Words.set c.cwp ch (BitVec.ofNat 32 (seq * 2 ^ 21 + upto))
    copyQ := if upto = n then c.copyQ.filter (· != e) else c.copyQ }

/-- A part of a copy is moved, and the write pointer follows. -/
theorem execCopyCompletion_next {s : State} {core channel upto slot op : Nat} {k : Pack} {o : PendOp} {ch seq base n lo : Nat} {into : Bool}
    {runs : Runs} (he : (s.core core).copyQ.find? (fun e => e.1 == channel) = some (channel, slot, op)) (hk : s.pack core slot = some k)
    (ho : k.ops.find? (fun p => p.id == op) = some o) (hkind : o.kind = .copy ch seq into base n lo runs) (hlo : lo ≤ upto) (hn : upto ≤ n)
    (hheld : s.detHeld core o = false) :
    let u := s.moveBytes core k into base lo upto runs
    ∃ t packs, exec (.copyCompletion core channel upto) s = .next t ∧ t.mem = u.mem ∧
      t.core core = { (u.core core).copied (channel, slot, op) ch seq n upto with packs := packs } := by
  intro u
  obtain ⟨packs, hpacks⟩ := (u.setCore core ((u.core core).copied (channel, slot, op) ch seq n upto)).core_modPack core slot
    (fun k => k.setOp { o with kind := .copy ch seq into base n upto runs, done := upto == n }) core
  obtain ⟨hmem, hcores⟩ := State.unlistIf_keeps (upto = n) ((u.setCore core ((u.core core).copied (channel, slot, op) ch seq n upto)).modPack
    core slot fun k => k.setOp { o with kind := .copy ch seq into base n upto runs, done := upto == n }) core slot op
  refine ⟨_, packs, ?_, hmem.trans (State.modPack_mem _ _ _ _), (State.core_congr hcores core).trans (hpacks.trans ?_)⟩
  · show execCopyCompletion core channel upto s = _
    rw [execCopyCompletion, he]
    refine withOp_of_some hk ho ?_ "COPY_COMPLETION"
    simp only [hkind, Nat.not_lt.2 hlo, Nat.not_lt.2 hn, decide_false, hheld, Bool.or_false, Bool.false_eq_true, if_false]
    rfl
  · rw [State.core_setCore_self]

/-- Settles O33: the issue, the write pointer's two instructions, and each part by what it moves. -/
theorem copyResults : Obligations.CopyResults := by
  refine ⟨fun into d a b s x r t v h hid hdst hsrc hroom hfull hsc hstoring hbusy hrecord hsize hruns hlist => ?_,
    fun d a s x hsc => ⟨fun h => execMovGc_of_ready h hsc a, fun h => execCwpwait_of_ready h hsc a⟩,
    fun core slot split s x d a hx hst hsc hreached => ?_,
    fun core channel upto s k o slot op ch seq into base n lo runs he hk ho hkind hlo hn hheld => ?_⟩
  · have hexec : ∃ mn, exec (if into then .cpyIn d a b else .cpyOut d a b) s = copyIssue mn into d a b s := by
      cases into <;> exact ⟨_, rfl⟩
    obtain ⟨mn, hexec⟩ := hexec
    obtain ⟨hf, hmem, hqueue⟩ := x.copyQueued_spec v into (cut (x.g b).toNat 8 3)
    have hretire := copyIssue_of_ready h mn into hdst hsrc hroom hfull hsc hstoring hbusy hrecord hsize hruns hlist
    obtain ⟨k, sp, hnow, hpc, hops⟩ := (x.copyQueued v into (cut (x.g b).toNat 8 3)).now_retire_addOp x.k
      (x.copyOp into (cut (x.g b).toNat 8 3) (hByte (x.k.readT d.toNat)) r.elementBytes t.2) x.sp (by rw [hf, hid])
    obtain ⟨_, _, hcore⟩ := (x.copyQueued v into (cut (x.g b).toNat 8 3)).core_retire
      (x.k.addOp (x.copyOp into (cut (x.g b).toNat 8 3) (hByte (x.k.readT d.toNat)) r.elementBytes t.2)) x.sp
    rw [hf] at hcore hpc
    simp only [Iss.now, hf] at hnow
    refine ⟨_, k, sp, _, hexec.trans hretire, hnow, hpc, hops, rfl, rfl, rfl, ?_, hmem⟩
    rw [hcore, hqueue]
  · refine (onStall_of_stalled hx hst "CWPWAIT_PASS" _).trans ?_
    simp only [hsc, reached_iff.2 hreached, Bool.not_false, Bool.and_self, if_true]
    rfl
  · obtain ⟨t, packs, hexec, hmem, hcore⟩ := execCopyCompletion_next he hk ho hkind hlo hn hheld
    have hsram : (t.core core).sram = ((s.moveBytes core k into base lo upto runs).core core).sram := by
      rw [hcore, Core.copied]
    obtain ⟨hin, hout⟩ := s.moveBytes_spec core k into base lo upto runs
    refine ⟨t, hexec, ?_, fun hi => ?_, fun hi => ?_, fun hlast => ?_⟩
    · rw [hcore]
      exact Words.get_set_self _ _ _
    · rw [hmem, hsram]
      exact hin hi
    · rw [hmem, hsram]
      exact hout hi
    · rw [hcore]
      simp [Core.copied, hlast]

end Sys2Proof.Machine

/-!
The flush of deterministic atomics (06 R161): the arrival at `aflush`, what the flush leaves of memory, of its group and of the group's packs, and
the statement O31.
-/

namespace Sys2Proof.Machine

/-! ### Changes of a group's packs -/

theorem State.modPack_keeps (s : State) (c n : Nat) (f : Pack → Pack) :
    (s.modPack c n f).launches = s.launches ∧ (s.modPack c n f).clock = s.clock := by
  cases h : s.pack c n with
  | none => rw [State.modPack_of_none h]; exact ⟨rfl, rfl⟩
  | some k => rw [State.modPack_of_some h]; exact ⟨rfl, rfl⟩

theorem State.pack_modPack (s : State) (c n : Nat) (f : Pack → Pack) (j m : Nat) :
    (s.modPack c n f).pack j m = (s.pack j m).map fun k => if (j, m) = (c, n) then f k else k := by
  by_cases hkey : (j, m) = (c, n)
  · obtain ⟨rfl, rfl⟩ := Prod.mk.inj hkey
    cases h : s.pack j m with
    | none => rw [State.modPack_of_none h, h]; rfl
    | some k => rw [State.modPack_of_some h, State.pack_setPack_self]; simp
  · simp only [hkey, if_false, Option.map_id']
    cases h : s.pack c n with
    | none => rw [State.modPack_of_none h]
    | some k =>
      rw [State.modPack_of_some h]
      by_cases hj : j = c
      · subst hj
        exact s.pack_setPack_of_slot_ne j (f k) fun hm => hkey (by rw [hm])
      · exact s.pack_setCore_of_ne _ m hj

/-- Changing some packs keeps memory, launches and the order counter. -/
theorem State.foldl_modPack_keeps (f : State → Pack → Pack) (ps : List (Nat × Nat)) (s : State) :
    let t := ps.foldl (fun s p => s.modPack p.1 p.2 (f s)) s
    t.mem = s.mem ∧ t.launches = s.launches ∧ t.clock = s.clock := by
  induction ps generalizing s with
  | nil => exact ⟨rfl, rfl, rfl⟩
  | cons p ps ih =>
    obtain ⟨hmem, hlaunches, hclock⟩ := ih (s.modPack p.1 p.2 (f s))
    obtain ⟨hl, hc⟩ := s.modPack_keeps p.1 p.2 (f s)
    exact ⟨hmem.trans (s.modPack_mem _ _ _), hlaunches.trans hl, hclock.trans hc⟩

/-- Where a change done twice is the change, each pack named is changed once, however often it is named. -/
theorem State.pack_foldl_modPack {f : Pack → Pack} (hf : ∀ k, f (f k) = f k) (ps : List (Nat × Nat)) (s : State) (j m : Nat) :
    (ps.foldl (fun s p => s.modPack p.1 p.2 f) s).pack j m = (s.pack j m).map fun k => if (j, m) ∈ ps then f k else k := by
  induction ps generalizing s with
  | nil => simp
  | cons p ps ih =>
    rw [List.foldl_cons, ih, State.pack_modPack, Option.map_map]
    refine Option.map_congr fun k _ => ?_
    by_cases hhead : (j, m) = p <;> by_cases htail : (j, m) ∈ ps <;> simp [hhead, htail, hf]

/-! ### Release from the barrier (06 R161, 08 R210) -/

/-- A released split is on its way, or stops at its reconvergence address. -/
theorem Split.released_spec (sp : Split) (clock : Nat) : (sp.released clock).pc = sp.pc ∧ (sp.released clock).mask = sp.mask ∧
    (sp.released clock).status = if sp.pc = sp.reconv ∧ sp.reconv ≠ 0xFFFFFFFF then .stoppedReconv else .ready := by
  refine ⟨Split.goto_pc _ _ _, Split.goto_mask _ _ _, ?_⟩
  rw [Split.released, Split.goto, Split.stopsAt]
  by_cases hstop : sp.pc = sp.reconv ∧ sp.reconv ≠ 0xFFFFFFFF
  · rw [if_pos hstop, if_pos (by simpa using hstop)]
  · rw [if_neg hstop, if_neg (by simpa using hstop)]

/-- What the release leaves of a split whose pack has the operations `ops` still to be done (01 R35). -/
def Split.pastBarrier (clock : Nat) (ops : List Nat) (sp : Split) : Split :=
  if sp.status == .barrier then { sp.released clock with flagOps := ops } else sp

theorem Split.pastBarrier_of_ne {sp : Split} (h : sp.status ≠ .barrier) (clock : Nat) (ops : List Nat) : sp.pastBarrier clock ops = sp :=
  if_neg (by simpa using h)

theorem Split.pastBarrier_ne_barrier (sp : Split) (clock : Nat) (ops : List Nat) : (sp.pastBarrier clock ops).status ≠ .barrier := by
  unfold Split.pastBarrier
  split
  · show (sp.released clock).status ≠ .barrier
    rw [(sp.released_spec clock).2.2]
    split <;> decide
  · next h => simpa using h

theorem Pack.splits_releaseBarrier (k : Pack) (clock : Nat) : (k.releaseBarrier clock).splits =
    k.splits.map fun e => (e.1, e.2.pastBarrier clock ((k.ops.filter fun o => !o.done).map (·.id))) := by
  refine List.map_congr_left fun e _ => ?_
  unfold Split.pastBarrier
  split <;> rfl

/-- What a pack's barrier splits become. -/
theorem Pack.split_releaseBarrier {k : Pack} {i : Nat} {sp : Split} (h : k.split i = some sp) (hbarrier : sp.status = .barrier) (clock : Nat) :
    ∃ sp', (k.releaseBarrier clock).split i = some sp' ∧ sp'.pc = sp.pc ∧ sp'.mask = sp.mask ∧
      sp'.status = if sp.pc = sp.reconv ∧ sp.reconv ≠ 0xFFFFFFFF then .stoppedReconv else .ready := by
  refine ⟨{ sp.released clock with flagOps := (k.ops.filter fun o => !o.done).map (·.id) }, ?_, sp.released_spec clock⟩
  rw [Pack.split] at h
  rw [Pack.split, Pack.splits_releaseBarrier, Table.get_map, h, Option.map_some, Split.pastBarrier, hbarrier, beq_self_eq_true, if_pos rfl]

theorem Pack.releaseBarrier_idem (k : Pack) (clock : Nat) : (k.releaseBarrier clock).releaseBarrier clock = k.releaseBarrier clock := by
  have hsplits : ((k.releaseBarrier clock).releaseBarrier clock).splits = (k.releaseBarrier clock).splits := by
    rw [Pack.splits_releaseBarrier, Pack.splits_releaseBarrier, List.map_map]
    refine List.map_congr_left fun e _ => ?_
    exact Prod.ext rfl (Split.pastBarrier_of_ne (Split.pastBarrier_ne_barrier _ _ _) _ _)
  exact congrArg (fun sps => { k.releaseBarrier clock with splits := sps }) hsplits

/-- What the release of a group leaves: its packs without barrier splits, and memory and launches as they were. -/
theorem State.releaseGroup_spec (s : State) (g : Group) :
    (s.releaseGroup g id).mem = s.mem ∧ (s.releaseGroup g id).launches = s.launches ∧
      ∀ j m, (s.releaseGroup g id).pack j m = (s.pack j m).map fun k => if (j, m) ∈ g.packs then k.releaseBarrier s.clock else k := by
  obtain ⟨hmem, hlaunches, -⟩ := State.foldl_modPack_keeps (fun s k => k.releaseBarrier s.clock) g.packs s
  refine ⟨hmem, hlaunches, fun j m => ?_⟩
  rw [← State.pack_foldl_modPack (fun k => k.releaseBarrier_idem s.clock) g.packs s j m]
  suffices h : ∀ (ps : List (Nat × Nat)) (t : State), t.clock = s.clock →
      ps.foldl (fun t p => t.modPack p.1 p.2 fun k => k.releaseBarrier t.clock) t =
      ps.foldl (fun t p => t.modPack p.1 p.2 fun k => k.releaseBarrier s.clock) t by
    rw [← h g.packs s rfl]
    rfl
  intro ps
  induction ps with
  | nil => exact fun _ _ => rfl
  | cons p ps ih =>
    intro t ht
    rw [List.foldl_cons, List.foldl_cons, ht]
    exact ih _ ((t.modPack_keeps _ _ _).2.trans ht)

/-! ### The flush (06 R161) -/

theorem State.sameTasks_applyEntry (s : State) (d : Drained) : s.SameTasks (s.applyEntry d) := by
  unfold State.applyEntry
  split
  · exact s.sameTasks_devWrite _ _ _ _ _ _ _
  · exact s.sameTasks_devWrite _ _ _ _ _ _ _
  · refine .trans ?_ (State.sameTasks_devWrite _ _ _ _ _ _ _ _)
    split
    · split
      · next x hx => exact (State.sameTasks_access hx).trans (State.sameTasks_devWrite _ _ _ _ _ _ _ _)
      · exact s.sameTasks_tryAccess _ _ _ _ _ _ _ _
    · exact .refl s

/-- The state once a group's entries are applied and its accumulators' results written. -/
def State.gathered (s : State) (t : Tag) (g : Group) : State :=
  g.accs.foldl (fun u a => u.writeAccum ((g.packs.head?.map (·.1)).getD 0) (((s.launch t).map (·.ctx)).getD 0) a)
    ((s.drained g).foldl State.applyEntry s)

theorem State.group_congr {s t : State} (h : t.launches = s.launches) (tag : Tag) (x : Nat) : t.group tag x = s.group tag x := by
  rw [State.group, State.group, State.launch, State.launch, h]

theorem State.sameTasks_gathered (s : State) (t : Tag) (g : Group) : s.SameTasks (s.gathered t g) :=
  (SameTasks.foldl State.sameTasks_applyEntry (s.drained g) s).trans
    (SameTasks.foldl (fun u _ => u.sameTasks_devWrite _ _ _ _ _ _ _) g.accs _)

/-- A pack once its group is flushed: no entry, and the flags of the roundings where it wants them. -/
def Pack.emptied (k : Pack) (raised : Nat) : Pack :=
  { (if k.wantFlags then k.orFlags (BitVec.ofNat 32 raised) else k) with det := [], detSeq := [], wantFlags := false }

theorem Pack.emptied_idem (k : Pack) (raised : Nat) : (k.emptied raised).emptied raised = k.emptied raised := rfl

theorem Pack.fpstat_emptied (k : Pack) (raised : Nat) :
    (k.emptied raised).fpstat = if k.wantFlags then k.fpstat ||| (BitVec.ofNat 32 raised &&& 0x1F) else k.fpstat := by
  unfold Pack.emptied
  split <;> rfl

theorem Pack.split_emptied (k : Pack) (raised i : Nat) : (k.emptied raised).split i = k.split i := by
  unfold Pack.emptied
  split <;> rfl

/-- The flags of the roundings of a group's accumulators (06 R161 step 3). -/
def Group.raised (g : Group) : Nat := g.accs.foldl (fun f a => f ||| a.result.flags) 0

/-- What a flush leaves: the memory of what it gathered, no accumulator, and emptied packs. -/
theorem State.flushGroup_spec (s : State) (t : Tag) (g : Group) :
    (s.flushGroup t g true).mem = (s.gathered t g).mem ∧
      (s.flushGroup t g true).group t g.x = (s.group t g.x).map (fun g => { g with accs := [] }) ∧
      ∀ j m, (s.flushGroup t g true).pack j m = (s.pack j m).map fun k => if (j, m) ∈ g.packs then k.emptied g.raised else k := by
  have heq : s.flushGroup t g true = g.packs.foldl (fun s p => s.modPack p.1 p.2 fun k => k.emptied g.raised)
    ((s.gathered t g).modGroup t g.x fun g => { g with accs := [] }) := rfl
  obtain ⟨hmem, hlaunches, -⟩ := State.foldl_modPack_keeps (fun _ k => k.emptied g.raised) g.packs
    ((s.gathered t g).modGroup t g.x fun g => { g with accs := [] })
  rw [heq]
  refine ⟨hmem, ?_, fun j m => ?_⟩
  · rw [State.group_congr hlaunches, State.group_modGroup_self, (s.sameTasks_gathered t g).group]
  · rw [State.pack_foldl_modPack (fun k => k.emptied_idem g.raised), ← (s.sameTasks_gathered t g).pack]
    rfl

/-! ### What is gathered -/

section
variable {s : State} {t : Tag} {g : Group}

theorem State.drained_of_empty (h : ∀ p ∈ s.groupPacks g, p.2.2.det = []) : s.drained g = [] := by
  have hnone : ((s.groupPacks g).flatMap fun p => p.2.2.det.map fun e =>
      ({ core := p.1, ctx := p.2.2.ctx, key := (p.2.2.lpack * 32 + e.lane) * 2 ^ 32 + e.seq, e := e } : Drained)) = [] :=
    List.flatMap_eq_nil_iff.2 fun p hp => by rw [h p hp, List.map_nil]
  rw [State.drained, hnone]
  rfl

/-- A flush of a group that has gathered nothing writes nothing. -/
theorem State.gathered_of_nothing (hdet : ∀ p ∈ s.groupPacks g, p.2.2.det = []) (haccs : g.accs = []) : s.gathered t g = s := by
  rw [State.gathered, State.drained_of_empty hdet, haccs]
  rfl

/-- A sole accumulator's result is written at its destination. -/
theorem State.gathered_mem_of_accum {l : Launch} {a : Accum} (hl : s.launch t = some l) (hdet : ∀ p ∈ s.groupPacks g, p.2.2.det = [])
    (haccs : g.accs = [a]) (harmed : bit (s.attrNow l.ctx a.dest) 1 = false) :
    (s.gathered t g).mem = s.mem.writeLE a.dest (adetSize a.fn) a.result.bits := by
  rw [State.gathered, State.drained_of_empty hdet, haccs, hl]
  exact s.devWrite_mem _ _ _ _ _ harmed _

/-- A sole exchange or compare-and-swap entry is an atomic at its address. -/
theorem State.gathered_mem_of_entry {p : Nat × Nat × Pack} {e : DetEntry} (hpacks : s.groupPacks g = [p]) (hdet : p.2.2.det = [e])
    (hfn : e.fn = 16 ∨ e.fn = 17) (haccs : g.accs = []) (harmed : bit (s.attrNow p.2.2.ctx e.addr) 1 = false) :
    (s.gathered t g).mem = s.mem.writeLE e.addr 4
      (if e.fn = 16 ∨ s.mem.readLE e.addr 4 = e.compare then e.operand else s.mem.readLE e.addr 4) := by
  have hdrained : s.drained g =
      [{ core := p.1, ctx := p.2.2.ctx, key := (p.2.2.lpack * 32 + e.lane) * 2 ^ 32 + e.seq, e := e }] := by
    rw [State.drained, hpacks, List.flatMap_singleton, hdet]
    rfl
  rw [State.gathered, haccs, hdrained]
  simp only [List.foldl_cons, List.foldl_nil, State.applyEntry]
  rcases hfn with hfn | hfn
  · simp only [hfn, true_or, if_true]
    exact s.devWrite_mem _ _ _ _ _ harmed _
  · simp only [hfn, Nat.reduceEqDiff, false_or]
    exact s.devWrite_mem _ _ _ _ _ harmed _

end

/-! ### The instruction and the event -/

/-- The state that a split leaves which stops where it has arrived (06 R161, 08 R210). -/
def Iss.arrived (x : Iss) (k : Pack) (sp : Split) : State :=
  let s := { x.put k sp with clock := x.s.clock + 1 }
  s.setCore x.f.core { s.core x.f.core with lastPack := x.f.slot }

theorem Iss.now_arrived (x : Iss) (k : Pack) {sp : Split} (h : sp.id = x.f.split) : x.now (x.arrived k sp) = some (k.setSplit sp, sp) := by
  have hpack : (x.arrived k sp).pack x.f.core x.f.slot = some (k.setSplit sp) := by
    simp [Iss.arrived, State.pack, State.core, State.setCore, Iss.put, State.setPack]
  have hsplit : (k.setSplit sp).split x.f.split = some sp := h ▸ Pack.split_setSplit_self k sp
  simp [Iss.now, hpack, hsplit]

/-- An `aflush` commits its group and leaves its split at the group's flush. -/
theorem execAflush_next {s : State} {x : Iss} (h : s.Ready [] x) (n : BitVec 1) :
    execAflush n s = .next (x.commit.arrived { x.k.started with wantFlags := x.k.wantFlags || n == 0 } (x.commit.arrive true)) :=
  issueU_of_ready h "AFLUSH" _

theorem State.group_of_launch {s : State} {t : Tag} {x : Nat} {l : Launch} {gr : Group} (hl : s.launch t = some l)
    (hgr : l.groups.get x = some gr) : s.group t x = some gr := by
  rw [State.group, hl]
  exact hgr

theorem mem_groupPacks {s : State} {g : Group} {p : Nat × Nat × Pack} :
    p ∈ s.groupPacks g ↔ (p.1, p.2.1) ∈ g.packs ∧ s.pack p.1 p.2.1 = some p.2.2 := by
  simp only [State.groupPacks, List.mem_filterMap, Option.map_eq_some_iff]
  constructor
  · rintro ⟨q, hq, k, hk, rfl⟩
    exact ⟨hq, hk⟩
  · exact fun ⟨hq, hk⟩ => ⟨_, hq, _, hk, rfl⟩

theorem execAflushFlush_next {s : State} {queue index group : Nat} {gr : Group}
    (hgroup : s.group { queue := queue, index := index } group = some gr) (hfull : s.barrierFull gr true = true)
    (hinflight : ∀ b ∈ s.inflight, ¬(b.tag = { queue := queue, index := index } ∧ b.group = group))
    (hquiet : ∀ p ∈ s.groupPacks gr, ∀ o ∈ p.2.2.ops, o.done = true ∨ (o.path ≠ .lane ∧ o.kind.stores = false)) :
    execAflushFlush queue index group s = .next ((s.flushGroup { queue := queue, index := index } gr true).releaseGroup gr id) := by
  have hall : ((s.groupPacks gr).all fun p => p.2.2.ops.all fun o => o.done || (o.path != .lane && !o.kind.stores)) = true := by
    simpa using fun p hp => hquiet p hp
  have hany : (s.inflight.any fun b => b.tag == { queue := queue, index := index } && b.group == group) = false :=
    List.any_eq_false.2 fun b hb => by simpa using hinflight b hb
  simp only [execAflushFlush, hgroup, hfull, hall, hany, Bool.not_false, Bool.and_self, if_true]

/-- The packs of a flushed and released group. -/
theorem flushed_of_mem {s : State} {t : Tag} {gr : Group} {p : Nat × Nat × Pack} (hp : p ∈ s.groupPacks gr) :
    flushed ((s.flushGroup t gr true).releaseGroup gr id) gr p := by
  obtain ⟨hin, hk⟩ := mem_groupPacks.1 hp
  have hpack : ((s.flushGroup t gr true).releaseGroup gr id).pack p.1 p.2.1 =
      some ((p.2.2.emptied gr.raised).releaseBarrier (s.flushGroup t gr true).clock) := by
    rw [(State.releaseGroup_spec _ gr).2.2, (s.flushGroup_spec t gr).2.2, hk, Option.map_some, Option.map_some, if_pos hin, if_pos hin]
  refine ⟨_, hpack, rfl, rfl, p.2.2.fpstat_emptied gr.raised, fun i sp hsp hbarrier => ?_⟩
  obtain ⟨sp', hsp', hpc, hmask, hstatus⟩ := Pack.split_releaseBarrier ((p.2.2.split_emptied gr.raised i).trans hsp) hbarrier
    (s.flushGroup t gr true).clock
  exact ⟨_, sp', hpack, hsp', hpc, hmask, hstatus⟩

/-- Settles O31: the arrival, and the flush by what it gathers, empties and releases. -/
theorem flushResults : Obligations.FlushResults := by
  refine ⟨fun n s x h hid => ?_, fun queue index group s gr l hl hgr hx hfull hinflight hquiet => ?_⟩
  · exact ⟨_, _, _, execAflush_next h n, x.commit.now_arrived _ hid, rfl, rfl, rfl, rfl⟩
  · have hgroup := State.group_of_launch hl hgr
    obtain ⟨hmem, hlaunches, -⟩ := (s.flushGroup { queue := queue, index := index } gr true).releaseGroup_spec gr
    obtain ⟨hgathered, haccs, -⟩ := s.flushGroup_spec { queue := queue, index := index } gr
    refine ⟨_, execAflushFlush_next hgroup hfull hinflight hquiet, fun p hp => flushed_of_mem hp, fun g hg => ?_, fun hdet hno => ?_,
      fun a hdet hone harmed => readLE_sameOutside_of_writeLE ?_, fun p e hpacks hdet hfn hno harmed => readLE_sameOutside_of_writeLE ?_⟩
    · rw [State.group_congr hlaunches, ← hx, haccs, hx, hgroup] at hg
      cases hg
      rfl
    · rw [hmem, hgathered, State.gathered_of_nothing hdet hno]
    · rw [hmem, hgathered, State.gathered_mem_of_accum hl hdet hone harmed]
    · rw [hmem, hgathered, State.gathered_mem_of_entry hpacks hdet hfn hno harmed]

end Sys2Proof.Machine

/-!
Loads and atomics that a split awaits, where the table of splits breaks its form (06 R152, R153, 09 R243): the statements O28 and O30 speak of
every state, also of those in which a split stands under another key than its ID, and there the split that a spill writes out is not the victim.
-/

namespace Sys2Proof.Machine

/-- A split that awaits operation 0 at address 4, within a hint group that began at address 2. -/
def hintedSplit : Split := { id := 0, pc := 4, mask := 3, reconv := 0xFFFFFFFF, parent := none, hints := [0], hintAt := 2, await := some 0 }

/-- A stopped split that carries the awaiting split's ID. -/
def namesakeSplit : Split := { id := 0, pc := 8, mask := 0, reconv := 0xFFFFFFFF, parent := none, status := .stoppedReconv }

/-- Lanes 0 and 1 on four bytes each, to compare them with 0 and with 1. -/
def comparedLanes : List LaneAcc := [{ lane := 0, pa := 0, data := 0, aux := 0 }, { lane := 1, pa := 4, data := 1, aux := 1 }]

/-- An operation of those lanes: where memory holds zeros, one lane finds its value and the other does not. -/
def comparingOp (kind : OpKind) : PendOp :=
  { id := 0, cls := .ld, path := .lane, lineage := 3, split := 0, kind := kind, lanes := comparedLanes }

/-- A pack that holds all 128 entries of its core's split table, of which those under the keys 64 to 190 all carry the ID 0. -/
def crowdedPack (kind : OpKind) : Pack :=
  { ctx := 0, tag := { queue := 0, index := 0 }, group := 0, lpack := 0, role := 0, slices := 8, nv := 8, ng := 8, na := 0
    splits := (0, hintedSplit) :: (List.range 127).map fun n => (n + 64, namesakeSplit)
    order := [0], ops := [comparingOp kind], nextOp := 1 }

/-- The pack on core 0, of a launch whose header has one spill record. -/
def crowdedState (kind : OpKind) : State :=
  { State.reset with
    cores := [(0, { packs := [(0, crowdedPack kind)] })]
    launches := [{ tag := { queue := 0, index := 0 }, kind := 0, bytes := [], ctx := 0, hdr := { spill := 1152 } }] }

/-- The address at which an answer leaves split 0 of the pack in slot 0 of core 0. -/
def Out.pcOfFirst : Out → Option Word
  | .next t => (t.pack 0 0).bind fun k => (k.split 0).map (·.pc)
  | _ => none

/-- Where an answer leaves split 0, by the split it leaves. -/
theorem pcOfFirst_of_split {out : Out} {t : State} {k : Pack} {sp : Split} (hout : out = .next t) (hk : t.pack 0 0 = some k)
    (hsp : k.split 0 = some sp) : Out.pcOfFirst out = some sp.pc := by
  rw [hout, Out.pcOfFirst, hk, Option.bind_some, hsp, Option.map_some]

/-- The hinted split alone awaits the operation. -/
theorem awaitedBy_hintedSplit (kind : OpKind) : awaitedBy (crowdedPack kind) (comparingOp kind) 0 hintedSplit := by
  refine ⟨rfl, rfl, rfl, fun e he hawait => ?_⟩
  rcases List.mem_cons.1 he with rfl | hrest
  · rfl
  · obtain ⟨n, -, rfl⟩ := List.mem_map.1 hrest
    cases hawait

theorem wholeAtOnce_comparingOp (kind : OpKind) : wholeAtOnce (comparingOp kind) 3 :=
  (by decide : (∀ l ∈ comparedLanes, l.done = false ∧ (3 : Mask).getLsbD l.lane = true) ∧ (comparedLanes.map (·.lane)).Nodup)

/-- The victim's ID is the awaiting split's: that split is written out, and goes back to the address of its hint group. -/
theorem pcOfFirst_loadCompletion : Out.pcOfFirst (exec (.loadCompletion 0 0 0 3 0) (crowdedState (.poll 0 4))) = some 2 := by decide +kernel

theorem pcOfFirst_atomicCompletion : Out.pcOfFirst (exec (.atomicCompletion 0 0 0 3) (crowdedState (.atomic 9 none))) = some 2 := by
  decide +kernel

/-- Refutes O28: in a table whose form is broken, where a stopped split under another key carries the awaiting split's ID, a polling load whose
lanes divide spills the awaiting split, which moves to the start of its hint group (address 2, from 4). -/
theorem not_loadsComplete : ¬ Obligations.LoadsComplete := by
  intro h
  obtain ⟨t, hexec, -, -, hvoted⟩ := h 0 0 0 3 0 (crowdedState (.poll 0 4)) (crowdedPack (.poll 0 4)) (comparingOp (.poll 0 4)) rfl rfl rfl
    (by decide +kernel) (by decide +kernel)
  obtain ⟨k, sp, hk, hsp, hpc, -⟩ := hvoted 0 4 0 hintedSplit rfl rfl (wholeAtOnce_comparingOp _) (awaitedBy_hintedSplit _)
  have hmoved := pcOfFirst_loadCompletion.symm.trans (pcOfFirst_of_split hexec hk hsp)
  rw [hpc] at hmoved
  exact absurd hmoved (by decide)

/-- Refutes O30: in the same broken table, a `cas` whose lanes divide moves the awaiting split to the start of its hint group (address 2, from
4). -/
theorem not_atomicsComplete : ¬ Obligations.AtomicsComplete := by
  intro h
  obtain ⟨t, hexec, -, hwhole⟩ := h 0 0 0 3 (crowdedState (.atomic 9 none)) (crowdedPack (.atomic 9 none)) (comparingOp (.atomic 9 none)) 9 none
    rfl rfl rfl (by decide +kernel)
  obtain ⟨-, -, hvoted⟩ := hwhole (by decide) (wholeAtOnce_comparingOp _) (by
    show ∀ l ∈ comparedLanes, _
    decide)
  obtain ⟨k, sp, hk, hsp, hpc, -⟩ := hvoted 0 hintedSplit (awaitedBy_hintedSplit _)
  have hmoved := pcOfFirst_atomicCompletion.symm.trans (pcOfFirst_of_split hexec hk hsp)
  rw [hpc] at hmoved
  exact absurd hmoved (by decide)

end Sys2Proof.Machine

/-!
Tile operations at issue and accumulators (07 R187, R188, R198-R201): the one operation that each leaves, the moves of a granule's row, and the
statement O38.
-/

namespace Sys2Proof.Machine

/-! ### What an issue leaves -/

/-- An instruction that retires with a tile operation leaves that and nothing else, whatever state its checks have left. -/
theorem Iss.tileIssued_retire {x y : Iss} {v : State} (hid : x.sp.id = x.f.split) (hf : y.f = x.f) (hmem : y.s.mem = v.mem)
    (hcores : y.s.cores = v.cores) (kind : OpKind) : tileIssued x v (y.retire (x.k.addOp (x.engineOp .tl .matrix kind)) x.sp) kind := by
  obtain ⟨_, _, hcore⟩ := y.core_retire (x.k.addOp (x.engineOp .tl .matrix kind)) x.sp
  have hnow := y.now_retireTo (x.k.addOp (x.engineOp .tl .matrix kind)) x.sp y.f.next (hid.trans (congrArg Focus.split hf).symm)
  have hsame : x.now = y.now := funext fun u => by rw [Iss.now, Iss.now, hf]
  rw [hf] at hcore
  refine ⟨hmem, ?_, _, _, _, (congrFun hsame _).trans hnow, ?_, rfl, rfl, rfl, rfl, rfl, rfl, rfl⟩
  · rw [hcore, State.core_congr hcores]
  · rw [Split.retire_pc, hf]

section
variable {s : State} {x : Iss}

/-- A granule operation of no region issues once nothing ahead of it makes it wait (07 R198). -/
theorem accIssue_of_ready {os : List Operand} (h : s.Ready os x) (hwait : x.tileWait = false) (mn : String) (fn d a : Nat) :
    accIssue mn os none fn d a s = .next (x.retire (x.k.addOp (x.engineOp .tl .matrix (.acc fn d a 0))) x.sp) := by
  rw [accIssue, issueU_of_ready h]
  simp only [hwait, Bool.false_eq_true, if_false]
  rfl

/-- One of a region issues besides where the region's handle passes (07 R198). -/
theorem accIssue_of_handle {os : List Operand} (h : s.Ready os x) (hwait : x.tileWait = false) {t : Nat} (hh : x.badHandle t [1] = false)
    (mn : String) (fn d a : Nat) : accIssue mn os (some t) fn d a s =
      .next (x.retire (x.k.addOp (x.engineOp .tl .matrix (.acc fn d a (hByte (x.k.readT t))))) x.sp) := by
  rw [accIssue, issueU_of_ready h]
  simp only [hwait, hh, Bool.false_eq_true, if_false]
  rfl

/-! ### Additions and epilogues (07 R198, R200, R201) -/

/-- With no flag enabled no result of a matrix instruction traps (02 R66). -/
theorem matrixFpx_of_no_enable (hs : List Hit) (nx : Nat) : matrixFpx 0 hs nx = none := by
  simp only [matrixFpx, Nat.and_zero, if_true]

/-- The element that `aadd` leaves at (i, j) of granule `d`. -/
def Iss.accSum (x : Iss) (d a : AReg) (e : Nat × Nat) : FRes :=
  Fmt.f32.add 0 (f32Of (x.k.readAcc d.toNat e.1 e.2)) (f32Of (x.k.readAcc a.toNat e.1 e.2))

theorem execAadd_of_ready {d a : AReg} (h : s.Ready [opA 0 d, opA 1 a] x) (hwait : x.tileWait = false)
    (hbusy : (x.s.core x.f.core).tileBusy x.f.slot [] [d.toNat, a.toNat] x.s.clock = false) (hte : x.k.te = 0) :
    ∃ flags, execAadd d a s = .next (x.retire (x.k.addOp (x.engineOp .tl .matrix (.tile [] [d.toNat, a.toNat] []
      (elements1024.map fun e => (accKey d.toNat e.1 e.2, BitVec.ofNat 32 (x.accSum d a e).bits)) flags 0))) x.sp) := by
  rw [execAadd, issueU_of_ready h]
  simp only [hwait, hbusy, hte, matrixFpx_of_no_enable, Bool.or_false, Bool.false_eq_true, if_false]
  exact ⟨_, rfl⟩

/-- The element that an epilogue makes of (i, j) of granule `a`, with the bias read from byte `bias` on (07 R201). -/
def Iss.epiResult (x : Iss) (e : Epi) (a : AReg) (bias : Nat) (p : Nat × Nat) : FRes :=
  epiElement e (x.k.readAcc a.toNat p.1 p.2) ((x.s.core x.f.core).sram.readLE (bias + 4 * p.2) 4)
    (if fwRnd e.fmt = 5 then
      x.s.generator x.k (x.k.widOf 0) (cut e.p2 16 11) ((cut e.p6 0 11 + p.1) * 1024 + (cut e.p6 16 10 + p.2)) e.call
    else 0)

theorem epilogue_of_ready {d : TReg} {a : AReg} {b : GReg} (h : s.Ready [opT 0 d, opA 1 a, rdG 2 b 8] x) (mn : String) (clr : Bool) :
    let e := x.epi b.toNat
    let h := x.k.readT d.toNat
    let bias := hByte (x.k.readT e.biasTile) + e.biasOff
    let spans := (hByte h + e.doff, e.outBytes) :: if e.bias then [(bias, 128)] else []
    fwCheck e.fmt = 0 → x.badHandle d.toNat [1] = false → e.bad = false → e.doff + e.outBytes ≤ hBytes h →
    (e.bias = true → x.badHandle e.biasTile [1, 2, 3] = false ∧ e.biasOff + 128 ≤ hBytes (x.k.readT e.biasTile)) →
    x.tileWait = false → (x.s.core x.f.core).tileBusy x.f.slot spans [a.toNat] x.s.clock = false → x.k.te = 0 →
    ∃ flags, epilogue mn clr d a b s = .next (x.retire (x.k.addOp (x.engineOp .tl .matrix (.tile spans [a.toNat]
      [(hByte h + e.doff, packBits (fmtBits (fwOut e.fmt)) (elements1024.map fun p => (x.epiResult e a bias p).bits))]
      (if clr then elements1024.map fun p => (accKey a.toNat p.1 p.2, 0) else []) flags 0))) x.sp) := by
  intro e hd bias spans hfmt hhandle hbad hfits hbias hwait hbusy hte
  have hbiasHandle : (e.bias && x.badHandle e.biasTile [1, 2, 3]) = false := by
    cases hb : e.bias with
    | false => rfl
    | true => exact (hbias hb).1
  have hbiasFits : (e.bias && decide (hBytes (x.k.readT e.biasTile) < e.biasOff + 128)) = false := by
    cases hb : e.bias with
    | false => rfl
    | true => exact decide_eq_false (Nat.not_lt.2 (hbias hb).2)
  rw [epilogue, issueU_of_ready h]
  simp only [e, hd, bias, spans] at hfmt hhandle hbad hfits hwait hbusy hbiasHandle hbiasFits
  simp only [hfmt, hhandle, hbad, hbiasHandle, hbiasFits, hwait, hbusy, hte, matrixFpx_of_no_enable, Nat.not_lt.2 hfits, decide_false, bne_self_eq_false,
    Bool.or_false, Bool.false_eq_true, if_false, List.map_map]
  exact ⟨_, rfl⟩

/-! ### Rows (07 R199) -/

variable {g : PReg} {a : AReg} {b : GReg}

theorem execAget_of_idle {d : VReg} (h : s.Ready [wrV 0 d, opA 1 a, rdG 2 b] x) (hact : x.k.active x.sp g = 0) :
    execAget g d a b s = .next (x.vecNext d 0 fun _ => 0) := by
  rw [execAget, issue_of_ready h]
  simp only [hact, if_true]
  rfl

theorem execAset_of_idle {d : VReg} (h : s.Ready [rdV 0 d, opA 1 a, rdG 2 b] x) (hact : x.k.active x.sp g = 0) :
    execAset g d a b s = .next (x.retire x.k x.sp) := by
  rw [execAset, issue_of_ready h]
  simp only [hact, if_true]
  rfl

section
variable (hact : x.k.active x.sp g ≠ 0) (hrow : (x.g b).toNat < 32) (hbusy : x.k.accBusy a.toNat = false)
include hact hrow hbusy

theorem execAget_of_ready {d : VReg} (h : s.Ready [wrV 0 d, opA 1 a, rdG 2 b] x) : execAget g d a b s =
    .next (x.vecNext d (x.k.active x.sp g) fun n => x.k.readAcc a.toNat (x.g b).toNat n) := by
  rw [execAget, issue_of_ready h]
  simp only [hact, Nat.not_le.2 hrow, hbusy, Bool.false_eq_true, if_false]
  rfl

theorem execAset_of_ready {d : VReg} (h : s.Ready [rdV 0 d, opA 1 a, rdG 2 b] x) : execAset g d a b s =
    .next (x.retire ((lanesOf (x.k.active x.sp g)).foldl (fun k n => k.setAcc a.toNat (x.g b).toNat n (x.v d n)) x.k) x.sp) := by
  rw [execAset, issue_of_ready h]
  simp only [hact, Nat.not_le.2 hrow, hbusy, Bool.false_eq_true, if_false]
  rfl

end
end

/-- Settles O38: the sum, the moves of a row, and the epilogue, each by the operation or the registers it leaves. -/
theorem accumulatorResults : Obligations.AccumulatorResults := by
  refine ⟨fun d a s x h hid hwait hbusy hte => ?_,
    fun g d a b s x hact => ⟨fun h => execAget_of_idle h hact, fun h => execAset_of_idle h hact⟩,
    fun g d a b s x hact hrow hbusy => ⟨execAget_of_ready hact hrow hbusy, execAset_of_ready hact hrow hbusy⟩,
    ?_⟩
  · obtain ⟨flags, hexec⟩ := execAadd_of_ready h hwait hbusy hte
    exact ⟨_, _, flags, hexec, Iss.tileIssued_retire hid rfl rfl rfl _, rfl⟩
  · intro clr d a b s x h hid e hd bias spans hfmt hhandle hbad hfits hbias hwait hbusy hte
    have hform : ∃ mn, exec (if clr then .aepiClr d a b else .aepi d a b) s = epilogue mn clr d a b s := by
      cases clr <;> exact ⟨_, rfl⟩
    obtain ⟨mn, hform⟩ := hform
    obtain ⟨flags, hexec⟩ := epilogue_of_ready h mn clr hfmt hhandle hbad hfits hbias hwait hbusy hte
    exact ⟨_, flags, hform.trans hexec, Iss.tileIssued_retire hid rfl rfl rfl _⟩

end Sys2Proof.Machine

/-!
Tile layouts in the scratchpad (07 R184-R187): which bytes a memory holds from an address on, and the headers, areas and scales that the bytes of
a tile load are.
-/

namespace Sys2Proof.Machine

/-! ### Bytes held from an address on -/

/-- The memory holds the bytes `l` from `a` up. -/
def Bytes.holds (m : Bytes) (a : Nat) (l : List Byte) : Prop := ∀ i b, l[i]? = some b → m.get (a + i) = b

theorem Bytes.holds_writeList (m : Bytes) (a : Nat) (l : List Byte) : (m.writeList a l).holds a l := by
  intro i b h
  obtain ⟨hi, rfl⟩ := List.getElem?_eq_some_iff.1 h
  rw [Bytes.get_writeList, if_pos (by omega), Nat.add_sub_cancel_left]
  exact (List.getElem_eq_getD 0).symm

namespace Bytes.holds

variable {m : Bytes} {a n w : Nat}

theorem append {l l' : List Byte} (h : m.holds a (l ++ l')) : m.holds a l ∧ m.holds (a + l.length) l' := by
  refine ⟨fun i b hb => h i b ?_, fun i b hb => ?_⟩
  · rw [List.getElem?_append_left (List.getElem?_eq_some_iff.1 hb).1, hb]
  · rw [Nat.add_assoc]
    exact h (l.length + i) b (by rw [List.getElem?_append_right (by omega), Nat.add_sub_cancel_left, hb])

/-- Element `i` of a row of bytes given by a function. -/
theorem range {f : Nat → Byte} (h : m.holds a ((List.range n).map f)) {i : Nat} (hi : i < n) : m.get (a + i) = f i :=
  h i (f i) (by simp [hi])

/-- Piece `i` of pieces of one length. -/
theorem flatMap {f : Nat → List Byte} (hw : ∀ i, (f i).length = w) (h : m.holds a ((List.range n).flatMap f)) {i : Nat} (hi : i < n) :
    m.holds (a + i * w) (f i) := by
  induction n with
  | zero => omega
  | succ n ih =>
    rw [List.range_succ, List.flatMap_append] at h
    obtain ⟨hinit, hlast⟩ := h.append
    rcases Nat.lt_succ_iff_lt_or_eq.1 hi with hlt | rfl
    · exact ih hinit hlt
    · simpa [List.length_flatMap, hw] using hlast

theorem readLE {v : Nat} (h : m.holds a (bytesLE n v)) : m.readLE a n = v % 256 ^ n := by
  induction n generalizing a v with
  | zero => rw [Nat.pow_zero, Nat.mod_one, Bytes.readLE]
  | succ n ih =>
    have hhead : m.get a = BitVec.ofNat 8 v := h 0 _ rfl
    have htail : m.holds (a + 1) (bytesLE n (v / 256)) := (append (l := [BitVec.ofNat 8 v]) h).2
    rw [Bytes.readLE, hhead, ih htail, Nat.pow_succ, Nat.mul_comm (256 ^ n), Nat.mod_mul, BitVec.toNat_ofNat]

theorem replicate {b : Byte} (h : m.holds a (List.replicate n b)) {i : Nat} (hi : i < n) : m.get (a + i) = b :=
  h i b (by simp [hi])

end Bytes.holds

theorem length_flatMap_range {α : Type} {f : Nat → List α} {w : Nat} (hw : ∀ i, (f i).length = w) (n : Nat) :
    ((List.range n).flatMap f).length = n * w := by
  simp [List.length_flatMap, hw]

/-! ### The bytes of a tile load -/

/-- The tile that some bytes from memory are (07 R180). -/
def tileOf (fmt smode k rows : Nat) (src : List Byte) : TileSrc :=
  { bytes := fun n => (src.getD n 0).toNat, fmt := fmt, smode := smode, k := k, rows := rows }

section
variable (fmt planes smode rows k : Nat)

theorem length_tileHeader : (tileHeader fmt planes smode rows k).length = 64 := by
  simp [tileHeader, asBytes]

/-- The fields of a header held at `base` (07 R184). -/
theorem header_of_holds {m : Bytes} {base : Nat} (h : m.holds base (tileHeader fmt planes smode rows k)) :
    m.readLE base 1 = fmt % 256 ∧ m.readLE (base + 1) 1 = planes % 256 ∧ m.readLE (base + 2) 1 = smode % 256 ∧ m.readLE (base + 3) 1 = 0 ∧
      m.readLE (base + 4) 2 = rows % 65536 ∧ m.readLE (base + 6) 2 = 0 ∧ m.readLE (base + 8) 4 = k % 2 ^ 32 ∧
      ∀ n, 12 ≤ n → n < 64 → m.get (base + n) = 0 := by
  have hbytes : tileHeader fmt planes smode rows k =
      bytesLE 1 fmt ++ (bytesLE 1 planes ++ (bytesLE 1 smode ++ (bytesLE 1 0 ++ (bytesLE 2 rows ++ (bytesLE 2 0 ++ (bytesLE 4 k ++
        List.replicate 52 0)))))) := by
    simp [tileHeader, asBytes, bytesLE]
  rw [hbytes] at h
  obtain ⟨hfmt, h⟩ := h.append
  obtain ⟨hplanes, h⟩ := h.append
  obtain ⟨hsmode, h⟩ := h.append
  obtain ⟨hzero, h⟩ := h.append
  obtain ⟨hrows, h⟩ := h.append
  obtain ⟨hzeros, h⟩ := h.append
  obtain ⟨hk, hrest⟩ := h.append
  simp only [length_bytesLE, Nat.add_assoc, Nat.reduceAdd] at hplanes hsmode hzero hrows hzeros hk hrest
  refine ⟨hfmt.readLE, hplanes.readLE, hsmode.readLE, hzero.readLE, hrows.readLE, hzeros.readLE, hk.readLE, fun n hlo hhi => ?_⟩
  rw [← hrest.replicate (i := n - 12) (by omega)]
  congr 1
  omega

end

/-! ### The areas of a layout (07 R185, R186) -/

theorem asBytes_flatMap (f : Nat → List Nat) (n : Nat) : asBytes ((List.range n).flatMap f) = (List.range n).flatMap fun i => asBytes (f i) :=
  List.map_flatMap

theorem asBytes_range (f : Nat → Nat) (n : Nat) : asBytes ((List.range n).map f) = (List.range n).map fun i => BitVec.ofNat 8 (f i) :=
  List.map_map

namespace TileSrc

/-- The padded rows of elements of a parallel layout. -/
def elementArea (t : TileSrc) : List Byte :=
  (List.range (padRows t.rows)).flatMap fun i => (List.range (padBlocks t.k * fmtBits t.fmt)).map fun o =>
    BitVec.ofNat 8 (if i < t.rows && o < t.row then t.bytes (i * t.row + o) else 0)

/-- The block scales of a parallel layout. -/
def scaleArea (t : TileSrc) : List Byte :=
  (List.range (padRows t.rows)).flatMap fun i => (List.range (padBlocks t.k)).map fun j => BitVec.ofNat 8 (t.scale i j)

/-- The band scales of either layout. -/
def bandArea (t : TileSrc) : List Byte := (List.range (ceilDiv (padRows t.rows) 64)).flatMap fun b => bytesLE 2 (t.band b)

/-- Value `c` of block (i, j) as a planed layout holds it. -/
def planedValue (t : TileSrc) (planes i j c : Nat) : Int := (t.aligned planes i j).q.getD c 0

/-- The planes of a planed layout. -/
def planeArea (t : TileSrc) (planes : Nat) : List Byte :=
  (List.range (padRows t.rows / 32 * padBlocks t.k * planes * 32)).map fun n =>
    BitVec.ofNat 8 (planeByte (t.planedValue planes) (padBlocks t.k) planes n)

/-- The exponent and the scale of block (i, j) as a planed layout holds them. -/
def blockMeta (t : TileSrc) (planes i j : Nat) : List Byte :=
  bytesLE 2 (if (t.aligned planes i j).nan then 0x8000 else wrap 16 (t.aligned planes i j).u) ++ (bytesLE 1 (t.scale i j) ++ bytesLE 1 0)

/-- The exponents and scales of a planed layout. -/
def metaArea (t : TileSrc) (planes : Nat) : List Byte :=
  (List.range (padRows t.rows)).flatMap fun i => (List.range (padBlocks t.k)).flatMap fun j => t.blockMeta planes i j

variable (t : TileSrc)

theorem parallelBytes_eq : parallelBytes t = t.elementArea ++ t.scaleArea ++ t.bandArea := by
  simp only [parallelBytes, asBytes_flatMap, asBytes_range, elementArea, scaleArea, bandArea]

theorem planedBytes_eq (planes : Nat) : planedBytes t planes = t.planeArea planes ++ t.metaArea planes ++ t.bandArea := by
  simp only [planedBytes, layoutOf, if_true, Nat.add_sub_cancel_left, asBytes_range]
  rfl

theorem length_elementArea : t.elementArea.length = padRows t.rows * (padBlocks t.k * fmtBits t.fmt) :=
  length_flatMap_range (fun _ => by rw [List.length_map, List.length_range]) _

theorem length_scaleArea : t.scaleArea.length = padRows t.rows * padBlocks t.k :=
  length_flatMap_range (fun _ => by rw [List.length_map, List.length_range]) _

theorem length_bandArea : t.bandArea.length = ceilDiv (padRows t.rows) 64 * 2 := length_flatMap_range (fun _ => length_bytesLE _ _) _

theorem length_planeArea (planes : Nat) : (t.planeArea planes).length = padRows t.rows / 32 * padBlocks t.k * planes * 32 := by
  rw [planeArea, List.length_map, List.length_range]

theorem length_blockMeta (planes i j : Nat) : (t.blockMeta planes i j).length = 4 := rfl

theorem length_metaArea (planes : Nat) : (t.metaArea planes).length = padRows t.rows * (padBlocks t.k * 4) :=
  length_flatMap_range (fun _ => length_flatMap_range (t.length_blockMeta planes _) _) _

variable {t} {m : Bytes} {a planes : Nat}

theorem get_of_elementArea (h : m.holds a t.elementArea) {i o : Nat} (hi : i < padRows t.rows) (ho : o < padBlocks t.k * fmtBits t.fmt) :
    m.get (a + i * (padBlocks t.k * fmtBits t.fmt) + o) =
      BitVec.ofNat 8 (if i < t.rows && o < t.row then t.bytes (i * t.row + o) else 0) :=
  (h.flatMap (fun _ => by rw [List.length_map, List.length_range]) hi).range ho

theorem get_of_scaleArea (h : m.holds a t.scaleArea) {i j : Nat} (hi : i < padRows t.rows) (hj : j < padBlocks t.k) :
    m.get (a + i * padBlocks t.k + j) = BitVec.ofNat 8 (t.scale i j) :=
  (h.flatMap (fun _ => by rw [List.length_map, List.length_range]) hi).range hj

theorem readLE_of_bandArea (h : m.holds a t.bandArea) {b : Nat} (hb : b < ceilDiv (padRows t.rows) 64) :
    m.readLE (a + b * 2) 2 = t.band b % 65536 :=
  (h.flatMap (fun _ => length_bytesLE _ _) hb).readLE

/-- The exponent, the scale and the padding of a block. -/
theorem readLE_of_metaArea (h : m.holds a (t.metaArea planes)) {i j : Nat} (hi : i < padRows t.rows) (hj : j < padBlocks t.k) :
    let at_ := a + i * (padBlocks t.k * 4) + j * 4
    m.readLE at_ 2 = (if (t.aligned planes i j).nan then 0x8000 else (BitVec.ofInt 16 (t.aligned planes i j).u).toNat) ∧
      m.readLE (at_ + 2) 1 = t.scale i j % 256 ∧ m.readLE (at_ + 3) 1 = 0 := by
  have hblock : m.holds (a + i * (padBlocks t.k * 4) + j * 4) (t.blockMeta planes i j) :=
    (h.flatMap (fun _ => length_flatMap_range (t.length_blockMeta planes _) _) hi).flatMap (t.length_blockMeta planes _) hj
  obtain ⟨hexp, hrest⟩ := hblock.append
  obtain ⟨hscale, hzero⟩ := hrest.append
  refine ⟨hexp.readLE.trans ?_, hscale.readLE, hzero.readLE⟩
  split
  · rfl
  · rw [BitVec.toNat_ofInt]
    exact Nat.mod_eq_of_lt (by rw [wrap]; omega)

end TileSrc

/-! ### Bits of planes (07 R185) -/

theorem bit_eq_testBit (x i : Nat) : bit x i = x.testBit i := by
  rw [bit, Nat.testBit_eq_decide_div_mod_eq]
  rfl

/-- A sum of distinct powers of two has the bits of their choice. -/
theorem testBit_sum_pow (f : Nat → Bool) (n : Nat) :
    ((List.range n).map fun r => if f r then 2 ^ r else 0).sum < 2 ^ n ∧
      ∀ r, r < n → (((List.range n).map fun r => if f r then 2 ^ r else 0).sum).testBit r = f r := by
  induction n with
  | zero => simp
  | succ n ih =>
    obtain ⟨hlt, hbits⟩ := ih
    simp only [List.range_succ, List.map_append, List.sum_append, List.map_cons, List.map_nil, List.sum_singleton]
    generalize ((List.range n).map fun r => if f r then 2 ^ r else 0).sum = x at hlt hbits
    cases hf : f n with
    | false =>
      refine ⟨by simp only [Nat.pow_succ]; simp; omega, fun r hr => ?_⟩
      rcases Nat.lt_succ_iff_lt_or_eq.1 hr with hr | rfl
      · exact hbits r hr
      · simpa [hf] using Nat.testBit_lt_two_pow hlt
    | true =>
      refine ⟨by simp only [Nat.pow_succ, if_true]; omega, fun r hr => ?_⟩
      rw [if_pos rfl, Nat.add_comm]
      rcases Nat.lt_succ_iff_lt_or_eq.1 hr with hr | rfl
      · rw [Nat.testBit_two_pow_add_gt hr, hbits r hr]
      · rw [Nat.testBit_two_pow_add_eq, Nat.testBit_lt_two_pow hlt, hf, Bool.not_false]

theorem bit_wrap (n p : Nat) (v : Int) : bit (wrap n v) p = (BitVec.ofInt n v).getLsbD p := by
  rw [bit_eq_testBit, BitVec.getLsbD, BitVec.toNat_ofInt]
  rfl

/-- Where the bit of value `c` of block (i, j) in plane `p` lies. -/
theorem getLsbD_planeByte (q : Nat → Nat → Nat → Int) {nb planes i j c p : Nat} (hj : j < nb) (hc : c < 8) (hp : p < planes) :
    (BitVec.ofNat 8 (planeByte q nb planes (((i / 32 * nb + j) * planes + p) * 32 + 4 * c + i % 32 / 8))).getLsbD (i % 8) =
      (BitVec.ofInt planes (q i j c)).getLsbD p := by
  generalize hn : ((i / 32 * nb + j) * planes + p) * 32 + 4 * c + i % 32 / 8 = n
  have hblk : n / 32 = (i / 32 * nb + j) * planes + p := by omega
  have hplane : n / 32 % planes = p := by rw [hblk, Nat.mul_comm, Nat.mul_add_mod, Nat.mod_eq_of_lt hp]
  have hblock : n / 32 / planes = i / 32 * nb + j := by
    rw [hblk, Nat.mul_comm, Nat.mul_add_div (by omega), Nat.div_eq_of_lt hp, Nat.add_zero]
  have hcol : (i / 32 * nb + j) % nb = j := by rw [Nat.mul_comm, Nat.mul_add_mod, Nat.mod_eq_of_lt hj]
  have hgrp : (i / 32 * nb + j) / nb = i / 32 := by
    rw [Nat.mul_comm, Nat.mul_add_div (by omega), Nat.div_eq_of_lt hj, Nat.add_zero]
  have hval : n % 32 / 4 = c := by omega
  have hrow : 32 * (i / 32) + 8 * (n % 4) + i % 8 = i := by omega
  obtain ⟨hlt, hbits⟩ := testBit_sum_pow (fun r => bit (wrap planes (q (32 * (i / 32) + 8 * (n % 4) + r) j c)) p) 8
  have hbyte : planeByte q nb planes n =
      ((List.range 8).map fun r => if bit (wrap planes (q (32 * (i / 32) + 8 * (n % 4) + r) j c)) p then 2 ^ r else 0).sum := by
    simp only [planeByte, hplane, hblock, hcol, hgrp, hval]
  rw [BitVec.getLsbD, BitVec.toNat_ofNat, hbyte, Nat.mod_eq_of_lt hlt, hbits (i % 8) (by omega), hrow, bit_wrap]

theorem TileSrc.getLsbD_of_planeArea {t : TileSrc} {m : Bytes} {a planes : Nat} (h : m.holds a (t.planeArea planes)) {i j c p : Nat}
    (hi : i < padRows t.rows) (hj : j < padBlocks t.k) (hc : c < 8) (hp : p < planes) :
    (m.get (a + (((i / 32 * padBlocks t.k + j) * planes + p) * 32 + 4 * c + i % 32 / 8))).getLsbD (i % 8) =
      (BitVec.ofInt planes (t.planedValue planes i j c)).getLsbD p := by
  rw [h.range, getLsbD_planeByte _ hj hc hp]
  have hgrp : i / 32 + 1 ≤ padRows t.rows / 32 := by rw [padRows, roundUp] at hi ⊢; omega
  have hblk : i / 32 * padBlocks t.k + j + 1 ≤ padRows t.rows / 32 * padBlocks t.k := by
    calc i / 32 * padBlocks t.k + j + 1 ≤ (i / 32 + 1) * padBlocks t.k := by rw [Nat.succ_mul]; omega
      _ ≤ _ := Nat.mul_le_mul_right _ hgrp
  have hplane : (i / 32 * padBlocks t.k + j) * planes + p + 1 ≤ padRows t.rows / 32 * padBlocks t.k * planes := by
    calc (i / 32 * padBlocks t.k + j) * planes + p + 1 ≤ (i / 32 * padBlocks t.k + j + 1) * planes := by rw [Nat.succ_mul]; omega
      _ ≤ _ := Nat.mul_le_mul_right _ hblk
  omega

/-! ### The bytes of a tile load (07 R187) -/

/-- What a tile load leaves: the header, 64 bytes of padding, and the areas of its layout. -/
def tileBytes (planed : Bool) (planes : Nat) (t : TileSrc) (gap : List Byte) : List Byte :=
  tileHeader t.fmt (if planed then planes else 0) t.smode t.rows t.k ++ gap ++ if planed then planedBytes t planes else parallelBytes t

theorem length_tileBytes (planed : Bool) (planes : Nat) (t : TileSrc) {gap : List Byte} (hgap : gap.length = 64) :
    (tileBytes planed planes t gap).length = (layoutOf planed planes t.fmt t.rows t.k).size := by
  cases planed with
  | false =>
    simp only [tileBytes, layoutOf, Bool.false_eq_true, if_false, List.length_append, length_tileHeader, hgap, t.parallelBytes_eq,
      t.length_elementArea, t.length_scaleArea, t.length_bandArea, Nat.mul_assoc]
    omega
  | true =>
    simp only [tileBytes, layoutOf, if_true, List.length_append, length_tileHeader, hgap, t.planedBytes_eq,
      t.length_planeArea, t.length_metaArea, t.length_bandArea, Nat.mul_assoc]
    omega

/-- The planes of a tile take one bit for each row, value and plane. -/
theorem planeBytes_eq (rows nb planes : Nat) : padRows rows / 32 * nb * planes * 32 = padRows rows * nb * planes := by
  rw [padRows, roundUp, Nat.mul_div_cancel _ (by omega)]
  ring

section
variable {m : Bytes} {planes base fmt smode k rows : Nat} {src gap : List Byte}

theorem tileLoaded_of_parallel (hgap : gap.length = 64) (h : m.holds base (tileBytes false planes (tileOf fmt smode k rows src) gap)) :
    tileLoaded m false planes base fmt smode k rows src := by
  rw [tileBytes, if_neg Bool.false_ne_true, if_neg Bool.false_ne_true, TileSrc.parallelBytes_eq] at h
  obtain ⟨hhead, h⟩ := h.append
  obtain ⟨hhead, -⟩ := hhead.append
  obtain ⟨h, hbands⟩ := h.append
  obtain ⟨helems, hscales⟩ := h.append
  simp only [List.length_append, length_tileHeader, hgap, TileSrc.length_elementArea, TileSrc.length_scaleArea, Nat.reduceAdd] at hbands hscales helems
  obtain ⟨hfmt, hplanes, hsmode, hzero, hrows, hzeros, hk, hrest⟩ := header_of_holds _ _ _ _ _ hhead
  refine ⟨⟨hfmt, hplanes, hsmode, hzero, hrows, hzeros, hk, hrest⟩, fun _ i o hi ho => ?_, fun _ i j hi hj => ?_, nofun, nofun, fun b hb => ?_⟩
  · refine (TileSrc.get_of_elementArea helems hi ho).trans ?_
    by_cases hin : i < rows ∧ o < k * fmtBits fmt / 8
    · rw [if_pos hin, if_pos (by simpa [tileOf, TileSrc.row] using hin)]
      exact BitVec.ofNat_toNat _ _
    · rw [if_neg hin, if_neg (by simpa [tileOf, TileSrc.row] using hin)]
      rfl
  · have hget := congrArg BitVec.toNat (TileSrc.get_of_scaleArea hscales hi hj)
    rwa [BitVec.toNat_ofNat, ← Nat.mul_assoc, Nat.add_assoc base] at hget
  · have hread := TileSrc.readLE_of_bandArea hbands hb
    rwa [← Nat.mul_assoc, Nat.add_assoc base, ← Nat.add_assoc 128, Nat.mul_comm b] at hread

theorem tileLoaded_of_planed (h : m.holds base (tileBytes true planes (tileOf fmt smode k rows src) (List.replicate 64 0))) :
    tileLoaded m true planes base fmt smode k rows src := by
  rw [tileBytes, if_pos rfl, if_pos rfl, TileSrc.planedBytes_eq] at h
  obtain ⟨hhead, h⟩ := h.append
  obtain ⟨hhead, hgap⟩ := hhead.append
  obtain ⟨h, hbands⟩ := h.append
  obtain ⟨hplane, hmeta⟩ := h.append
  simp only [List.length_append, length_tileHeader, List.length_replicate, TileSrc.length_planeArea, TileSrc.length_metaArea, Nat.reduceAdd]
    at hbands hmeta hplane hgap
  obtain ⟨hfmt, hplanes, hsmode, hzero, hrows, hzeros, hk, hrest⟩ := header_of_holds _ _ _ _ _ hhead
  refine ⟨⟨hfmt, hplanes, hsmode, hzero, hrows, hzeros, hk, fun n hlo hhi => ?_⟩, nofun, nofun, fun _ i j c p hi hj hc hp => ?_,
    fun _ i j hi hj => ?_, fun b hb => ?_⟩
  · by_cases hn : n < 64
    · exact hrest n hlo hn
    · obtain ⟨j, rfl⟩ : ∃ j, n = 64 + j := ⟨n - 64, by omega⟩
      rw [← Nat.add_assoc]
      exact hgap.replicate (by simp only [if_true] at hhi; omega)
  · have hbit := TileSrc.getLsbD_of_planeArea hplane hi hj hc hp
    rwa [← Nat.add_assoc, ← Nat.add_assoc] at hbit
  · have hread := TileSrc.readLE_of_metaArea hmeta hi hj
    have haddr : ∀ w nb, base + 128 + w + i * (nb * 4) + j * 4 = base + (128 + w) + 4 * (i * nb + j) := fun w nb => by ring
    rwa [haddr, planeBytes_eq] at hread
  · have hread := TileSrc.readLE_of_bandArea hbands hb
    rwa [planeBytes_eq, ← Nat.mul_assoc, Nat.add_assoc base, ← Nat.add_assoc 128, Nat.mul_comm b] at hread

end

end Sys2Proof.Machine

/-!
Tile registers, `tdesc`, tile loads and tile stores at issue (07 R178, R182, R187, R188).
-/

namespace Sys2Proof.Machine

section
variable {s : State} {x : Iss} {a : TReg} {b : GReg}

/-- The operation that a tile load leaves, once its record and every byte of its tile pass (07 R187). -/
theorem tload_of_ready {d : TReg} (h : s.Ready [opT 0 d, opT 1 a, rdG 2 b] x) (mn : String) (planed : Bool) {r : Tsr} {t : State × Runs} {v : State} :
    let h := x.k.readT d.toNat
    let planes := if planed then hPlanes h else 0
    let size := (layoutOf planed planes r.fmt r.ext1 r.ext0).size
    x.badHandle d.toNat [if planed then 2 else 1] = false → x.badHandle a.toNat [3] = false → x.tileWait = false →
    x.recordBusy a.toNat (x.g b) = false →
    (x.record a.toNat (x.g b) 8 .load fun r =>
      r.ext2 != 1 || decide (2048 < r.ext1) || r.fmt == 8 || (planed && decide (planes < minPlanes r.fmt))) = (r, 0) →
    size ≤ hBytes h → x.s.checkRuns x.f.core x.k.ctx .matrix .load (pagePieces (r.elementRuns ++ r.scaleRuns)) = .ok t →
    t.1.listPages x.f.core x.f.slot x.k.nextOp x.k.ctx (pagePieces (r.elementRuns ++ r.scaleRuns)) = some v →
    tload mn planed d a b s = .next (({ x with s := v } : Iss).retire
      (x.k.addOp (x.engineOp .tl .matrix (.tload planed planes (hByte h) r.fmt r.smode r.ext0 r.ext1 size t.2))) x.sp) := by
  intro hd planes size hdst hsrc hwait hbusy hrecord hfits hruns hlist
  rw [tload, issueU_of_ready h]
  simp only [hdst, hsrc, hwait, hbusy, Bool.or_false, Bool.false_eq_true, if_false]
  rw [hrecord]
  simp only [hruns, hlist, bne_self_eq_false, Bool.false_eq_true, if_false]
  exact if_neg (Nat.not_lt.2 hfits)

theorem execTstore_of_ready {d : TReg} (h : s.Ready [opT 0 d, opT 1 a, rdG 2 b] x) {r : Tsr} {t : State × Runs} {v : State}
    (hdst : x.badHandle d.toNat [1] = false) (hsrc : x.badHandle a.toNat [3] = false) (hwait : x.tileWait = false)
    (hbusy : x.recordBusy a.toNat (x.g b) = false) (hrecord : x.record a.toNat (x.g b) 8 (.elements true) (fun _ => false) = (r, 0))
    (hfits : r.elementBytes ≤ hBytes (x.k.readT d.toNat))
    (hruns : x.s.checkRuns x.f.core x.k.ctx .matrix .store (pagePieces r.elementRuns) = .ok t)
    (hlist : t.1.listPages x.f.core x.f.slot x.k.nextOp x.k.ctx (pagePieces r.elementRuns) = some v) :
    execTstore d a b s = .next (({ x with s := v } : Iss).commit.retire
      (x.k.addOp (x.engineOp .tl .matrix (.tstore (hByte (x.k.readT d.toNat)) r.elementBytes t.2))) x.sp) := by
  rw [execTstore, issueU_of_ready h]
  simp only [hdst, hsrc, hwait, hbusy, hrecord, hruns, hlist, Nat.not_lt.2 hfits, bne_self_eq_false, Bool.or_false, Bool.false_eq_true, if_false]
  rfl

/-! ### `tdesc` (07 R182) -/

/-- The code that `tdesc` reports: that of the record, or else of its pages. -/
def Iss.tdescResult (x : Iss) (write : Bool) (a : TReg) (b : GReg) : Nat :=
  let r := x.record a.toNat (x.g b) 8 (.general write) fun _ => false
  if r.2 != 0 then r.2
  else
    match x.s.soundDram.checkRuns x.f.core x.k.ctx .matrix (if write then .store else .load) (pagePieces (r.1.elementRuns ++ r.1.scaleRuns)) with
    | .ok _ => 0
    | .error e => tdescCode e.1

theorem tdesc_of_ready {d : GReg} (h : s.Ready [wrG 0 d, opT 1 a, rdG 2 b] x) (mn : String) (write : Bool) (hsrc : x.badHandle a.toNat [3] = false)
    (hstoring : x.storing = false) (hbusy : x.recordBusy a.toNat (x.g b) = false) :
    tdesc mn write d a b s = .next (x.uniNext d (BitVec.ofNat 32 (x.tdescResult write a b))) := by
  rw [tdesc, issueU_of_ready h]
  simp only [hsrc, hstoring, hbusy, Bool.or_false, Bool.false_eq_true, if_false]
  rfl

theorem Iss.tdescResult_of_code {write : Bool} (h : (x.record a.toNat (x.g b) 8 (.general write) fun _ => false).2 ≠ 0) :
    x.tdescResult write a b = (x.record a.toNat (x.g b) 8 (.general write) fun _ => false).2 :=
  if_pos (bne_iff_ne.2 h)

theorem Iss.tdescResult_of_pages {write : Bool} (h : (x.record a.toNat (x.g b) 8 (.general write) fun _ => false).2 = 0) :
    let r := x.record a.toNat (x.g b) 8 (.general write) fun _ => false
    let pages := x.s.soundDram.checkRuns x.f.core x.k.ctx .matrix (if write then .store else .load)
      (pagePieces (r.1.elementRuns ++ r.1.scaleRuns))
    (∀ t, pages = .ok t → x.tdescResult write a b = 0) ∧ ∀ e va, pages = .error (e, va) → x.tdescResult write a b = tdescCode e := by
  intro r pages
  have hzero : (r.2 != 0) = false := bne_eq_false_iff_eq.2 h
  refine ⟨fun t ht => ?_, fun e va he => ?_⟩
  · rw [Iss.tdescResult, if_neg (by rw [hzero]; exact Bool.false_ne_true)]
    simp only [pages, r] at ht
    rw [ht]
  · rw [Iss.tdescResult, if_neg (by rw [hzero]; exact Bool.false_ne_true)]
    simp only [pages, r] at he
    rw [he]

/-! ### Tile registers (07 R178) -/

theorem execTset_of_ready {d : TReg} {a : GReg} (h : s.Ready [opT 0 d, rdG 1 a] x) :
    execTset d a s = .next (x.retire { x.k with t := x.k.t.set d.toNat (x.g a) } x.sp) := issueU_of_ready h _ _

theorem execTget_of_ready {d : GReg} (h : s.Ready [wrG 0 d, opT 1 a] x) : execTget d a s = .next (x.uniNext d (x.k.readT a.toNat)) :=
  issueU_of_ready h _ _

theorem execTclr_of_ready {d : TReg} (h : s.Ready [opT 0 d] x) : execTclr d s = .next (x.retire { x.k with t := x.k.t.set d.toNat 0 } x.sp) :=
  issueU_of_ready h _ _

end

end Sys2Proof.Machine

/-!
Completed tile operations (07 R177, R187, R188, R193, R198): the granules, the scratchpad bytes and the memory that each kind leaves, the parts of a
joint, which complete together, and the statement O37.
-/

namespace Sys2Proof.Machine

/-! ### Granules (01 R36, 07 R198) -/

theorem mem_elements1024 {e : Nat × Nat} : e ∈ elements1024 ↔ e.1 < 32 ∧ e.2 < 32 := by
  simp [elements1024, Prod.ext_iff]

theorem accKey_inj {a i j a' i' j' : Nat} (hi : i < 32) (hj : j < 32) (hi' : i' < 32) (hj' : j' < 32) :
    accKey a i j = accKey a' i' j' ↔ a = a' ∧ (i, j) = (i', j') := by
  simp only [accKey, Prod.mk.injEq]
  omega

theorem Pack.readAcc_setAcc (k : Pack) {a i j a' i' j' : Nat} (w : Word) (hi : i < 32) (hj : j < 32) (hi' : i' < 32) (hj' : j' < 32) :
    (k.setAcc a' i' j' w).readAcc a i j = if a = a' ∧ (i, j) = (i', j') then w else k.readAcc a i j := by
  simp only [Pack.readAcc, Pack.setAcc, Words.get_set, accKey_inj hi hj hi' hj']

/-- Every element of a granule that is replaced, and of no other. -/
theorem Pack.readAcc_setGranule (k : Pack) (d : Nat) (f : Nat → Nat → Word) {a i j : Nat} (hi : i < 32) (hj : j < 32) :
    (k.setGranule d f).readAcc a i j = if a = d then f i j else k.readAcc a i j := by
  suffices h : ∀ (l : List (Nat × Nat)) (k : Pack), (∀ e ∈ l, e.1 < 32 ∧ e.2 < 32) →
      (l.foldl (fun k e => k.setAcc d e.1 e.2 (f e.1 e.2)) k).readAcc a i j =
        if a = d ∧ (i, j) ∈ l then f i j else k.readAcc a i j by
    rw [Pack.setGranule, h _ k fun e he => mem_elements1024.1 he]
    simp only [mem_elements1024, hi, hj, and_self, and_true]
  intro l
  induction l with
  | nil => simp
  | cons e l ih =>
    intro k hl
    obtain ⟨hrow, hcol⟩ := hl e List.mem_cons_self
    rw [List.foldl_cons, ih _ fun e he => hl e (List.mem_cons_of_mem _ he), k.readAcc_setAcc _ hi hj hrow hcol]
    by_cases hd : a = d
    · by_cases he : (i, j) = e
      · subst he
        simp [hd]
      · simp [hd, he]
    · simp [hd]

/-- The bytes of a granule are rows of 32 words. -/
theorem Pack.granuleBytes_rows (k : Pack) (a : Nat) :
    k.granuleBytes a = (List.range 32).flatMap fun i => (List.range 32).flatMap fun j => bytesLE 4 (k.readAcc a i j).toNat := by
  simp only [Pack.granuleBytes, elements1024, List.flatMap_assoc, List.flatMap_map]

theorem granuleBytes_of_holds {k : Pack} {a base : Nat} {m : Bytes} (h : m.holds base (k.granuleBytes a)) {i j : Nat} (hi : i < 32)
    (hj : j < 32) : m.readLE (base + 128 * i + 4 * j) 4 = (k.readAcc a i j).toNat := by
  rw [k.granuleBytes_rows] at h
  have hrow := h.flatMap (w := 32 * 4) (fun _ => length_flatMap_range (fun _ => length_bytesLE _ _) _) hi
  have hword := (hrow.flatMap (fun _ => length_bytesLE _ _) hj).readLE
  rw [show 256 ^ 4 = 2 ^ 32 from rfl, Nat.mod_eq_of_lt (k.readAcc a i j).isLt] at hword
  rw [← hword, Nat.mul_comm i, Nat.mul_comm j]

theorem Pack.length_granuleBytes (k : Pack) (a : Nat) : (k.granuleBytes a).length = 4096 := by
  rw [k.granuleBytes_rows, length_flatMap_range fun _ => length_flatMap_range (fun _ => length_bytesLE _ _) _]

/-! ### Operations that leave (04 R116) -/

theorem mem_of_mem_retireOps {o : PendOp} {l : List PendOp} {b : List OpClass} (h : o ∈ retireOps l b) : o ∈ l := by
  induction l generalizing b with
  | nil => exact h
  | cons p l ih =>
    rw [retireOps] at h
    split at h
    · rcases List.mem_cons.1 h with rfl | h
      · exact List.mem_cons_self
      · exact List.mem_cons_of_mem _ (ih h)
    · exact List.mem_cons_of_mem _ (ih h)

/-- An operation replaced is the only one of its number that the pack still holds. -/
theorem Pack.eq_of_mem_setOp {k : Pack} {o r : PendOp} (h : r ∈ (k.setOp o).ops) (hid : r.id = o.id) : r = o := by
  obtain ⟨p, -, hp⟩ := List.mem_map.1 (mem_of_mem_retireOps h)
  split at hp
  · exact hp.symm
  · next hne =>
    subst hp
    simp [hid] at hne

/-! ### What a tile load leaves (07 R187) -/

/-- A tile load writes the bytes of its layout from its region's first byte on, with some padding behind the header, and no memory. -/
theorem State.finishTload_spec (s : State) (core : Nat) (planed : Bool) (planes base fmt smode k rows : Nat) (runs : Runs) :
    let t := s.finishTload core planed planes base fmt smode k rows runs
    t.mem = s.mem ∧ ∃ gap, gap.length = 64 ∧ (planed = true → gap = List.replicate 64 0) ∧
      (t.core core).sram = (s.core core).sram.writeList base (tileBytes planed planes (tileOf fmt smode k rows (s.runBytes runs)) gap) := by
  have hsram := (s.sameTasks_useRuns core 0 runs).sram core
  cases planed with
  | true =>
    refine ⟨s.useRuns_mem core 0 runs, List.replicate 64 0, List.length_replicate, fun _ => rfl, ?_⟩
    simp only [State.finishTload, State.core_setCore_self, hsram, tileBytes, tileOf, if_true]
  | false =>
    refine ⟨s.useRuns_mem core 0 runs, ((s.useRuns core 0 runs).freeBytes 64).1, by rw [State.freeBytes, List.length_map, List.length_range], nofun, ?_⟩
    have hfree : (((s.useRuns core 0 runs).freeBytes 64).2.core core).sram = (s.core core).sram := hsram
    simp only [State.finishTload, State.core_setCore_self, hfree, tileBytes, tileOf, Bool.false_eq_true, if_false]

/-- A memory that holds the bytes of a tile load is a loaded tile. -/
theorem tileLoaded_of_holds {m : Bytes} {planed : Bool} {planes base fmt smode k rows : Nat} {src gap : List Byte} (hgap : gap.length = 64)
    (hzero : planed = true → gap = List.replicate 64 0) (h : m.holds base (tileBytes planed planes (tileOf fmt smode k rows src) gap)) :
    tileLoaded m planed planes base fmt smode k rows src := by
  cases planed with
  | true => exact tileLoaded_of_planed (hzero rfl ▸ h)
  | false => exact tileLoaded_of_parallel hgap h

/-! ### Completions (07 R177) -/

/-- The pack once an operation whose results are known has left them. -/
def Pack.ended (k : Pack) (words : Words) (flags : Word) (o : PendOp) : Pack :=
  (({ k with acc := words.foldl (fun (m : Words) (w : Nat × Word) => m.set w.1 w.2) k.acc } : Pack).orFlags flags).setOp { o with done := true }

/-- The scratchpad once such an operation has left its bytes. -/
def Core.ended (c : Core) (bytes : List (Nat × List Byte)) : Core :=
  { c with sram := bytes.foldl (fun m b => Bytes.writeList m b.1 b.2) c.sram }

theorem State.endTile_of_kind (s : State) (core slot : Nat) {o : PendOp} {spans : List (Nat × Nat)} {grans : List Nat}
    {bytes : List (Nat × List Byte)} {words : Words} {flags : Word} {joint : Nat} (h : o.kind = .tile spans grans bytes words flags joint) :
    s.endTile core slot o =
      (s.setCore core ((s.core core).ended bytes)).modPack core slot fun k => k.ended words flags o := by
  simp only [State.endTile, Pack.ended, Core.ended, h]

/-- Replacing a core by one with the same packs changes no pack. -/
theorem State.pack_setCore_of_packs (s : State) {c : Nat} {k : Core} (h : k.packs = (s.core c).packs) (j n : Nat) :
    (s.setCore c k).pack j n = s.pack j n := by
  by_cases hj : j = c
  · rw [hj, State.pack, State.core_setCore_self, h, State.pack]
  · exact s.pack_setCore_of_ne k n hj

/-- What ending an operation leaves: memory, and every pack but its own. -/
theorem State.endTile_spec (s : State) (core slot : Nat) {o : PendOp} {spans : List (Nat × Nat)} {grans : List Nat}
    {bytes : List (Nat × List Byte)} {words : Words} {flags : Word} {joint : Nat} (h : o.kind = .tile spans grans bytes words flags joint) :
    (s.endTile core slot o).mem = s.mem ∧ ((s.endTile core slot o).core core).sram = ((s.core core).ended bytes).sram ∧
      ∀ j n, (s.endTile core slot o).pack j n = (s.pack j n).map fun k => if (j, n) = (core, slot) then k.ended words flags o else k := by
  rw [s.endTile_of_kind core slot h]
  refine ⟨State.modPack_mem _ _ _ _, ?_, fun j n => ?_⟩
  · rw [State.sram_modPack, State.core_setCore_self]
  · rw [State.pack_modPack, State.pack_setCore_of_packs s (k := (s.core core).ended bytes) rfl]

section
variable {s : State} {core slot op : Nat} {k : Pack} {o : PendOp} (hk : s.pack core slot = some k)
  (ho : k.ops.find? (fun p => p.id == op) = some o) (hdone : o.done = false)
  (hbusy : (s.core core).tileBusy slot o.kind.spans o.kind.grans o.stamp = false) (hheld : s.detHeld core o = false)
include hk ho hdone hbusy hheld

theorem tileOpCompletion_acc {fn d a base : Nat} (hkind : o.kind = .acc fn d a base) :
    exec (.tileOpCompletion core slot op) s = .next ((if fn = 4 then
        s.setCore core { s.core core with sram := (s.core core).sram.writeList base (k.granuleBytes a) } else s).setPack core slot
      ((k.finishAcc (s.core core).sram fn d a base).setOp { o with done := true })) := by
  refine withOp_of_some hk ho ?_ "TILE_OP_COMPLETION"
  rw [hdone, hbusy, hheld, Bool.or_self, Bool.or_self, if_neg Bool.false_ne_true]
  simp only [hkind]

theorem tileOpCompletion_tload {planed : Bool} {planes base fmt smode k' rows size : Nat} {runs : Runs}
    (hkind : o.kind = .tload planed planes base fmt smode k' rows size runs) : exec (.tileOpCompletion core slot op) s =
      .next (((s.finishTload core planed planes base fmt smode k' rows runs).setPack core slot
        ((k.orFlags (BitVec.ofNat 32 (tloadFlags s planed planes fmt smode k' rows runs))).setOp { o with done := true })).unlist
          core slot op) := by
  refine withOp_of_some hk ho ?_ "TILE_OP_COMPLETION"
  rw [hdone, hbusy, hheld, Bool.or_self, Bool.or_self, if_neg Bool.false_ne_true]
  simp only [hkind]

theorem tileOpCompletion_tstore {base n : Nat} {runs : Runs} (hkind : o.kind = .tstore base n runs) :
    exec (.tileOpCompletion core slot op) s = .next (((s.writeRuns .matrix k core runs ((s.core core).sram.readList base n)).modPack core slot
      fun k => k.setOp { o with done := true }).unlist core slot op) := by
  refine withOp_of_some hk ho ?_ "TILE_OP_COMPLETION"
  rw [hdone, hbusy, hheld, Bool.or_self, Bool.or_self, if_neg Bool.false_ne_true]
  simp only [hkind]

section
variable {spans : List (Nat × Nat)} {grans : List Nat} {bytes : List (Nat × List Byte)} {words : Words} {flags : Word}

theorem tileOpCompletion_tile (hkind : o.kind = .tile spans grans bytes words flags 0) :
    exec (.tileOpCompletion core slot op) s = .next (s.endTile core slot o) := by
  refine withOp_of_some hk ho ?_ "TILE_OP_COMPLETION"
  rw [hdone, hbusy, hheld, Bool.or_self, Bool.or_self, if_neg Bool.false_ne_true]
  simp only [hkind]

theorem tileOpCompletion_joint {j : Nat} (hkind : o.kind = .tile spans grans bytes words flags (j + 1))
    (hfree : ∀ p ∈ s.jointOps (j + 1), (s.core p.1).tileBusy p.2.1 p.2.2.kind.spans p.2.2.kind.grans p.2.2.stamp = false) :
    exec (.tileOpCompletion core slot op) s = .next ((s.jointOps (j + 1)).foldl (fun s p => s.endTile p.1 p.2.1 p.2.2) s) := by
  have hnone : ((s.jointOps (j + 1)).any fun p => (s.core p.1).tileBusy p.2.1 p.2.2.kind.spans p.2.2.kind.grans p.2.2.stamp) = false :=
    List.any_eq_false.2 fun p hp => by rw [hfree p hp]; exact Bool.false_ne_true
  refine withOp_of_some hk ho ?_ "TILE_OP_COMPLETION"
  rw [hdone, hbusy, hheld, Bool.or_self, Bool.or_self, if_neg Bool.false_ne_true]
  simp only [hkind, hnone, Bool.false_eq_true, if_false]

end
end

/-! ### The parts of a joint (07 R193, R197) -/

/-- Every operation that completes with a joint has its results. -/
theorem State.kind_of_mem_jointOps {s : State} {joint : Nat} {p : Nat × Nat × PendOp} (h : p ∈ s.jointOps joint) :
    ∃ spans grans bytes words flags, p.2.2.kind = .tile spans grans bytes words flags joint := by
  obtain ⟨c, -, h⟩ := List.mem_flatMap.1 h
  obtain ⟨q, -, h⟩ := List.mem_flatMap.1 h
  obtain ⟨o, ho, rfl⟩ := List.mem_map.1 h
  obtain ⟨-, hkind⟩ := Bool.and_eq_true_iff.1 (List.mem_filter.1 ho).2
  split at hkind
  · next j heq => exact ⟨_, _, _, _, _, beq_iff_eq.1 hkind ▸ heq⟩
  · cases hkind

/-- Ending operations of other packs leaves a pack, and memory, as they are. -/
theorem State.foldl_endTile_keeps {joint : Nat} {l : List (Nat × Nat × PendOp)}
    (hkind : ∀ p ∈ l, ∃ spans grans bytes words flags, p.2.2.kind = .tile spans grans bytes words flags joint) (s : State) :
    let t := l.foldl (fun s p => s.endTile p.1 p.2.1 p.2.2) s
    t.mem = s.mem ∧ ∀ c n, (∀ p ∈ l, (c, n) ≠ (p.1, p.2.1)) → t.pack c n = s.pack c n := by
  induction l generalizing s with
  | nil => exact ⟨rfl, fun _ _ _ => rfl⟩
  | cons p l ih =>
    obtain ⟨_, _, _, _, _, hp⟩ := hkind p List.mem_cons_self
    obtain ⟨hmem, -, hpack⟩ := s.endTile_spec p.1 p.2.1 hp
    obtain ⟨hmem', hpack'⟩ := ih (fun q hq => hkind q (List.mem_cons_of_mem _ hq)) (s.endTile p.1 p.2.1 p.2.2)
    refine ⟨hmem'.trans hmem, fun c n hother => ?_⟩
    rw [List.foldl_cons, hpack' c n fun q hq => hother q (List.mem_cons_of_mem _ hq), hpack]
    simp [hother p List.mem_cons_self]

/-- A pack with one operation among those that end has that one's results. -/
theorem State.pack_foldl_endTile {joint : Nat} {l : List (Nat × Nat × PendOp)}
    (hkind : ∀ p ∈ l, ∃ spans grans bytes words flags, p.2.2.kind = .tile spans grans bytes words flags joint) (hnodup : l.Nodup)
    {p : Nat × Nat × PendOp} (hp : p ∈ l) (halone : ∀ r ∈ l, r.1 = p.1 → r.2.1 = p.2.1 → r = p) {s : State} {q : Pack}
    (hq : s.pack p.1 p.2.1 = some q) {spans : List (Nat × Nat)} {grans : List Nat} {bytes : List (Nat × List Byte)} {words : Words}
    {flags : Word} (hpk : p.2.2.kind = .tile spans grans bytes words flags joint) :
    (l.foldl (fun s p => s.endTile p.1 p.2.1 p.2.2) s).pack p.1 p.2.1 = some (q.ended words flags p.2.2) := by
  obtain ⟨l₁, l₂, rfl⟩ := List.append_of_mem hp
  have hne := List.nodup_middle.1 hnodup
  have hother : ∀ r ∈ l₁ ++ l₂, (p.1, p.2.1) ≠ (r.1, r.2.1) := by
    intro r hr heq
    obtain ⟨hcore, hslot⟩ := Prod.mk.inj heq
    have hrp : r = p := halone r (by simp only [List.mem_append, List.mem_cons] at hr ⊢; tauto) hcore.symm hslot.symm
    exact (List.nodup_cons.1 hne).1 (hrp ▸ hr)
  have hkeep₁ := (State.foldl_endTile_keeps (fun r hr => hkind r (List.mem_append_left _ hr)) s).2 p.1 p.2.1
    fun r hr => hother r (List.mem_append_left _ hr)
  have hkeep₂ := fun u => (State.foldl_endTile_keeps (fun r hr => hkind r (List.mem_append_right _ (List.mem_cons_of_mem _ hr))) u).2 p.1 p.2.1
    fun r hr => hother r (List.mem_append_right _ hr)
  rw [List.foldl_append, List.foldl_cons, hkeep₂, (State.endTile_spec _ p.1 p.2.1 hpk).2.2, hkeep₁, hq, Option.map_some, if_pos rfl]

/-! ### What a completion keeps -/

theorem Pack.readAcc_setOp (k : Pack) (o : PendOp) (e i j : Nat) : (k.setOp o).readAcc e i j = k.readAcc e i j := rfl

section
variable (k : Pack) (m : Bytes) (d a base : Nat)

/-! A granule operation by its FN: clear, copy and load (07 R198). -/

theorem Pack.finishAcc_clear : k.finishAcc m 0 d a base = k.setGranule d fun _ _ => 0 := by rw [Pack.finishAcc]

theorem Pack.finishAcc_copy : k.finishAcc m 1 d a base = k.setGranule d fun i j => k.readAcc a i j := by rw [Pack.finishAcc]

theorem Pack.finishAcc_load :
    k.finishAcc m 3 d a base = k.setGranule d fun i j => BitVec.ofNat 32 (m.readLE (base + 128 * i + 4 * j) 4) := by
  rw [Pack.finishAcc]

end

theorem State.unlist_keeps (s : State) (core slot op : Nat) :
    (s.unlist core slot op).mem = s.mem ∧ ∀ c, (s.unlist core slot op).core c = s.core c :=
  ⟨(s.dropLists_keeps _).1, State.core_congr (s.dropLists_keeps _).2⟩

section
variable {s : State} {core slot op : Nat} {k : Pack} {o : PendOp} (hk : s.pack core slot = some k)
  (ho : k.ops.find? (fun p => p.id == op) = some o) (hdone : o.done = false)
  (hbusy : (s.core core).tileBusy slot o.kind.spans o.kind.grans o.stamp = false) (hheld : s.detHeld core o = false)
include hk ho hdone hbusy hheld

/-! ### What each completion leaves -/

/-- A granule operation that replaces its granule (07 R198). -/
theorem tileOpCompletion_replaces {fn d a base : Nat} (hkind : o.kind = .acc fn d a base) {f : Nat → Nat → Word}
    (hfn : k.finishAcc (s.core core).sram fn d a base = k.setGranule d f) :
    ∃ t k', exec (.tileOpCompletion core slot op) s = .next t ∧ t.pack core slot = some k' ∧
      ∀ e i j, e < 16 → i < 32 → j < 32 → k'.readAcc e i j = if e = d then f i j else k.readAcc e i j := by
  refine ⟨_, _, tileOpCompletion_acc hk ho hdone hbusy hheld hkind, State.pack_setPack_self _ _ _ _, fun e i j _ hi hj => ?_⟩
  rw [Pack.readAcc_setOp, hfn, Pack.readAcc_setGranule _ _ _ hi hj]

/-- One that writes it to the region (07 R198). -/
theorem tileOpCompletion_ast {d a base : Nat} (hkind : o.kind = .acc 4 d a base) :
    ∃ t, exec (.tileOpCompletion core slot op) s = .next t ∧ t.mem = s.mem ∧
      (∀ i j, i < 32 → j < 32 → (t.core core).sram.readLE (base + 128 * i + 4 * j) 4 = (k.readAcc a i j).toNat) ∧
      ∀ b, b < base ∨ base + 4096 ≤ b → (t.core core).sram.get b = (s.core core).sram.get b := by
  refine ⟨_, tileOpCompletion_acc hk ho hdone hbusy hheld hkind, rfl, ?_⟩
  simp only [State.core_setPack_self, if_true, State.core_setCore_self]
  exact ⟨fun i j hi hj => granuleBytes_of_holds (Bytes.holds_writeList _ _ _) hi hj,
    fun b hb => Bytes.get_writeList_of_outside _ _ (by rwa [Pack.length_granuleBytes])⟩

/-- A tile load (07 R187). -/
theorem tileOpCompletion_loads {planed : Bool} {planes base fmt smode ext0 ext1 size : Nat} {runs : Runs}
    (hkind : o.kind = .tload planed planes base fmt smode ext0 ext1 size runs) :
    ∃ t, exec (.tileOpCompletion core slot op) s = .next t ∧ t.mem = s.mem ∧
      tileLoaded (t.core core).sram planed planes base fmt smode ext0 ext1 (s.runBytes runs) ∧
      ∀ b, b < base ∨ base + (layoutOf planed planes fmt ext1 ext0).size ≤ b → (t.core core).sram.get b = (s.core core).sram.get b := by
  obtain ⟨hmem, gap, hgap, hzero, hsram⟩ := s.finishTload_spec core planed planes base fmt smode ext0 ext1 runs
  refine ⟨_, tileOpCompletion_tload hk ho hdone hbusy hheld hkind, (State.unlist_keeps _ _ _ _).1.trans hmem, ?_⟩
  rw [(State.unlist_keeps _ _ _ _).2, State.core_setPack_self, hsram]
  exact ⟨tileLoaded_of_holds hgap hzero (Bytes.holds_writeList _ _ _),
    fun b hb => Bytes.get_writeList_of_outside _ _ (by rwa [length_tileBytes _ _ _ hgap])⟩

/-- A tile store (07 R188). -/
theorem tileOpCompletion_stores {base n : Nat} {runs : Runs} (hkind : o.kind = .tstore base n runs) :
    ∃ t, exec (.tileOpCompletion core slot op) s = .next t ∧ (t.core core).sram = (s.core core).sram ∧
      (unarmed runs → t.mem = runsWritten s.mem runs ((s.core core).sram.readList base n)) := by
  refine ⟨_, tileOpCompletion_tstore hk ho hdone hbusy hheld hkind, ?_, fun harmed => ?_⟩
  · rw [(State.unlist_keeps _ _ _ _).2, State.sram_modPack, (State.sameTasks_writeRuns _ _ _ _ _ _).sram]
  · rw [(State.unlist_keeps _ _ _ _).1, State.modPack_mem, State.writeRuns_mem _ _ _ harmed]

section
variable {spans : List (Nat × Nat)} {grans : List Nat} {bytes : List (Nat × List Byte)} {words : Words} {flags : Word}

/-- An operation of one pack whose results are known since its issue (07 R200). -/
theorem tileOpCompletion_ends (hkind : o.kind = .tile spans grans bytes words flags 0) :
    ∃ t k', exec (.tileOpCompletion core slot op) s = .next t ∧ t.pack core slot = some k' ∧ t.mem = s.mem ∧ k'.v = k.v ∧ k'.g = k.g ∧
      (t.core core).sram = bytes.foldl (fun m b => Bytes.writeList m b.1 b.2) (s.core core).sram ∧
      k'.acc = words.foldl (fun m w => Words.set m w.1 w.2) k.acc := by
  obtain ⟨hmem, hsram, hpack⟩ := s.endTile_spec core slot hkind
  refine ⟨_, k.ended words flags o, tileOpCompletion_tile hk ho hdone hbusy hheld hkind, ?_, hmem, rfl, rfl, hsram, rfl⟩
  rw [hpack, hk, Option.map_some, if_pos rfl]

/-- The parts of a joint or cooperative set (07 R193, R197). -/
theorem tileOpCompletion_endsJoint {j : Nat} (hkind : o.kind = .tile spans grans bytes words flags (j + 1))
    (hfree : ∀ p ∈ s.jointOps (j + 1), (s.core p.1).tileBusy p.2.1 p.2.2.kind.spans p.2.2.kind.grans p.2.2.stamp = false) :
    ∃ t, exec (.tileOpCompletion core slot op) s = .next t ∧ t.mem = s.mem ∧
      ((s.jointOps (j + 1)).Nodup → ∀ p ∈ s.jointOps (j + 1), ∀ q, s.pack p.1 p.2.1 = some q →
        (∀ r ∈ s.jointOps (j + 1), r.1 = p.1 → r.2.1 = p.2.1 → r = p) →
        ∃ q', t.pack p.1 p.2.1 = some q' ∧ (∀ r ∈ q'.ops, r.id = p.2.2.id → r.done = true) ∧
          ∀ sp gr bs ws fl, p.2.2.kind = .tile sp gr bs ws fl (j + 1) → q'.acc = ws.foldl (fun m w => Words.set m w.1 w.2) q.acc) := by
  have hkinds : ∀ p ∈ s.jointOps (j + 1), ∃ sp gr bs ws fl, p.2.2.kind = .tile sp gr bs ws fl (j + 1) := fun p hp => State.kind_of_mem_jointOps hp
  refine ⟨_, tileOpCompletion_joint hk ho hdone hbusy hheld hkind hfree, (State.foldl_endTile_keeps hkinds s).1,
    fun hnodup p hp q hq halone => ?_⟩
  obtain ⟨_, _, _, ws, fl, hpk⟩ := hkinds p hp
  refine ⟨_, State.pack_foldl_endTile hkinds hnodup hp halone hq hpk, fun r hr hid => ?_, fun sp gr bs ws fl hkind' => ?_⟩
  · rw [Pack.eq_of_mem_setOp hr hid]
  · cases hpk.symm.trans hkind'
    rfl

end
end

/-! ### The statement -/

/-- Settles O37: the operation that each issue leaves, the completions by the kind of the operation, and the tile registers. -/
theorem tileOperationResults : Obligations.TileOperationResults := by
  refine ⟨⟨?_, ?_, fun s x hwait hid => ⟨fun d h => ?_, fun d a h => ?_, fun d a h hh => ?_, fun d a h hh => ?_⟩,
    fun core slot op s k o hk ho hdone hbusy hheld => ⟨?_, ?_, ?_, ?_, ?_, ?_, ?_, ?_⟩⟩, fun d a s x h => execTset_of_ready h,
    fun d a s x h => execTget_of_ready h, fun d s x h => execTclr_of_ready h, ?_⟩
  · intro planed d a b s x r t v h hid hd planes size hdst hsrc hwait hbusy hrecord hfits hruns hlist
    have hform : ∃ mn, exec (if planed then .tloadP d a b else .tloadR d a b) s = tload mn planed d a b s := by
      cases planed <;> exact ⟨_, rfl⟩
    obtain ⟨mn, hform⟩ := hform
    exact ⟨_, hform.trans (tload_of_ready h mn planed hdst hsrc hwait hbusy hrecord hfits hruns hlist),
      Iss.tileIssued_retire (y := { x with s := v }) hid rfl rfl rfl _⟩
  · intro d a b s x r t v h hid hdst hsrc hwait hbusy hrecord hfits hruns hlist
    exact ⟨_, execTstore_of_ready h hdst hsrc hwait hbusy hrecord hfits hruns hlist,
      Iss.tileIssued_retire (y := ({ x with s := v } : Iss).commit) hid rfl rfl rfl _⟩
  · exact ⟨_, accIssue_of_ready h hwait _ _ _ _, Iss.tileIssued_retire hid rfl rfl rfl _⟩
  · exact ⟨_, accIssue_of_ready h hwait _ _ _ _, Iss.tileIssued_retire hid rfl rfl rfl _⟩
  · exact ⟨_, accIssue_of_handle h hwait hh _ _ _ _, Iss.tileIssued_retire hid rfl rfl rfl _⟩
  · exact ⟨_, accIssue_of_handle h hwait hh _ _ _ _, Iss.tileIssued_retire hid rfl rfl rfl _⟩
  · exact fun d a base hkind _ => tileOpCompletion_replaces hk ho hdone hbusy hheld hkind (Pack.finishAcc_clear _ _ _ _ _)
  · exact fun d a base hkind _ _ => tileOpCompletion_replaces hk ho hdone hbusy hheld hkind (Pack.finishAcc_copy _ _ _ _ _)
  · exact fun d a base hkind _ => tileOpCompletion_replaces hk ho hdone hbusy hheld hkind (Pack.finishAcc_load _ _ _ _ _)
  · exact fun d a base hkind => tileOpCompletion_ast hk ho hdone hbusy hheld hkind
  · exact fun planed planes base fmt smode ext0 ext1 size runs hkind => tileOpCompletion_loads hk ho hdone hbusy hheld hkind
  · exact fun base n runs hkind => tileOpCompletion_stores hk ho hdone hbusy hheld hkind
  · exact fun spans grans bytes words flags hkind => tileOpCompletion_ends hk ho hdone hbusy hheld hkind
  · exact fun spans grans bytes words flags j hkind hfree => tileOpCompletion_endsJoint hk ho hdone hbusy hheld hkind hfree
  · intro write d a b s x h hsrc hstoring hbusy r pages
    have hform : ∃ mn, exec (if write then .tdescW d a b else .tdescR d a b) s = tdesc mn write d a b s := by
      cases write <;> exact ⟨_, rfl⟩
    obtain ⟨mn, hform⟩ := hform
    refine ⟨_, hform.trans (tdesc_of_ready h mn write hsrc hstoring hbusy), Iss.tdescResult_of_code, fun hzero => ?_⟩
    obtain ⟨hok, herr⟩ := Iss.tdescResult_of_pages hzero
    refine ⟨hok, fun e va he => (herr e va he).trans ?_⟩
    cases e <;> rfl

end Sys2Proof.Machine

/-!
Joints and cooperative sets (07 R189-R197): arrivals at the rendezvous, what each participant is left with when its joint or set is complete, and
the statement O39.
-/

namespace Sys2Proof.Machine

/-! ### Arrivals (07 R189-R191, R194, R196) -/

section
variable {s : State} {x : Iss}

theorem execMuster_of_ready {a : GReg} (h : s.Ready [rdG 1 a] x) : execMuster a s = .next (x.retire { x.k with mst := x.g a } x.sp) :=
  issueU_of_ready h _ _

theorem execRdmst_of_ready {d : GReg} (h : s.Ready [wrG 0 d] x) : execRdmst d s = .next (x.uniNext d x.k.mst) := issueU_of_ready h _ _

/-- The state in which an arrival waits with the others of its core. -/
def Iss.arrives (x : Iss) (r : Arrival) : State :=
  ({ x with s := x.s.setCore x.f.core { x.s.core x.f.core with latch := (x.s.core x.f.core).latch ++ [r] } } : Iss).stalledAt .joint

/-- The arrival of an `mmj` (07 R191). -/
def Iss.jointArrival (x : Iss) (d : AReg) (a : VReg) (b : TReg) : Arrival :=
  { slot := x.f.slot, split := x.sp.id, mst := x.k.mst, acc := d.toNat, tile := b.toNat, voters := x.live, words := x.formatWords a, coop := [] }

/-- An `mmj` that passes its own checks, and whose mask clashes with no waiting arrival's, waits at the latch. -/
theorem execMmj_of_ready {d : AReg} {a : VReg} {b : TReg} (h : s.Ready [opA 0 d, rdV 1 a, opT 2 b 2] x)
    (hlatch : ∀ r ∈ (x.s.core x.f.core).latch, r.coop = [] →
      r.slot ≠ x.f.slot ∧ (r.mst = x.k.mst ∨ (r.mst.getLsbD x.f.slot = false ∧ x.k.mst.getLsbD r.slot = false)))
    (hwait : x.tileWait = false) (hbusy : (x.s.core x.f.core).tileBusy x.f.slot (x.pairSpans b.toNat) [d.toNat] x.s.clock = false)
    (hmuster : x.badMuster = false) (hplaned : x.badHandle b.toNat [2] = false) (hparallel : x.badHandle (b.toNat + 1) [1] = false)
    (hheads : ∀ n, n < 2 → (headerAt (x.s.core x.f.core).sram (hByte (x.k.readT (b.toNat + n)))).rows ≤ 32 ∧
      (headerAt (x.s.core x.f.core).sram (hByte (x.k.readT (b.toNat + n)))).rsv = false) :
    execMmj d a b s = .next (x.arrives (x.jointArrival d a b)) := by
  have hown : ((x.s.core x.f.core).latch.any fun r => r.slot == x.f.slot && r.coop.isEmpty) = false :=
    List.any_eq_false.2 fun r hr hin => by
      obtain ⟨hslot, hcoop⟩ := Bool.and_eq_true_iff.1 hin
      exact (hlatch r hr (List.isEmpty_iff.1 hcoop)).1 (beq_iff_eq.1 hslot)
  have hclash : ((x.s.core x.f.core).latch.filter fun r =>
      r.coop.isEmpty && (r.mst.getLsbD x.f.slot || x.k.mst.getLsbD r.slot) && r.mst != x.k.mst) = [] :=
    List.filter_eq_nil_iff.2 fun r hr hin => by
      simp only [Bool.and_eq_true, Bool.or_eq_true, List.isEmpty_iff, bne_iff_ne] at hin
      obtain ⟨⟨hcoop, hnamed⟩, hne⟩ := hin
      rcases (hlatch r hr hcoop).2 with heq | ⟨hmine, hits⟩
      · exact hne heq
      · rw [hmine, hits] at hnamed
        simp at hnamed
  obtain ⟨hrows, hrsv⟩ := hheads 0 (by omega)
  obtain ⟨hrows', hrsv'⟩ := hheads 1 (by omega)
  rw [Nat.add_zero] at hrows hrsv
  rw [execMmj, issueU_of_ready h]
  simp only [hown, hwait, hbusy, hmuster, hplaned, hparallel, hclash, hrsv, hrsv', Nat.not_lt.2 hrows, Nat.not_lt.2 hrows', decide_false,
    List.find?_cons, List.find?_nil, List.isEmpty_nil, Bool.or_false, Bool.false_eq_true, if_false, if_true]
  rfl

/-- The cooperation record of an `mmc` (07 R194). -/
def Iss.coopWords (x : Iss) (d : GReg) : List Word := (List.range 8).map fun j => x.k.readG (d.toNat + j)

/-- The arrival of an `mmc` (07 R196). -/
def Iss.coopArrival (x : Iss) (d : GReg) (a : VReg) (b : TReg) : Arrival :=
  { slot := x.f.slot, split := x.sp.id, mst := 0, acc := 0, tile := b.toNat, voters := x.live, words := x.formatWords a, coop := x.coopWords d }

/-- An `mmc` that passes its own checks, and whose rank has not arrived before, waits at its rendezvous. -/
theorem execMmc_of_ready {d : GReg} {a : VReg} {b : TReg}
    (h : s.Ready [rdG 0 d 8, rdV 1 a, opT 2 b 2, { field := 3, cls := .a, idx := 0, cnt := 16 }] x) (hwait : x.tileWait = false)
    (hbusy : (x.s.core x.f.core).tileBusy x.f.slot (x.pairSpans b.toNat) (List.range 16) x.s.clock = false)
    (hrecord : (coopOf (x.coopWords d)).bad = false) (hplaned : x.badHandle b.toNat [2] = false)
    (hparallel : x.badHandle (b.toNat + 1) [1] = false)
    (hheads : ∀ n, n < 2 → (headerAt (x.s.core x.f.core).sram (hByte (x.k.readT (b.toNat + n)))).rows ≤ 128)
    (hranks : ∀ r ∈ x.s.coopSet x.k.ctx (coopOf (x.coopWords d)).id, (coopOf r.2.coop).rank ≠ (coopOf (x.coopWords d)).rank) :
    execMmc d a b s = .next (x.arrives (x.coopArrival d a b)) := by
  have hfirst : ((x.s.coopSet x.k.ctx (coopOf (x.coopWords d)).id).any fun r => (coopOf r.2.coop).rank == (coopOf (x.coopWords d)).rank) = false :=
    List.any_eq_false.2 fun r hr heq => hranks r hr (beq_iff_eq.1 heq)
  have hrows := hheads 0 (by omega)
  have hrows' := hheads 1 (by omega)
  rw [Nat.add_zero] at hrows
  rw [Iss.coopWords] at hrecord hfirst
  rw [execMmc, issueU_of_ready h]
  simp only [hwait, hbusy, hrecord, hplaned, hparallel, Nat.not_lt.2 hrows, Nat.not_lt.2 hrows', hfirst, Bool.or_false, Bool.false_eq_true, if_false]
  rfl

end

/-! ### Participants -/

/-- A participant is a waiting arrival and the split that is stalled with it. -/
theorem State.of_part {s : State} {core : Nat} {a : Arrival} {p : Part} (h : s.part core a = some p) :
    p.a = a ∧ p.x.f.core = core ∧ p.x.f.slot = a.slot ∧ s.stalled core a.slot a.split = some p.x := by
  obtain ⟨x, hx, rfl⟩ := Option.map_eq_some_iff.1 h
  obtain ⟨-, -, -, -, -, -, hcore, hslot, -⟩ := State.of_stalled hx
  exact ⟨rfl, hcore, hslot, hx⟩

/-- The participant's pack and split still stand at the rendezvous. -/
structure Part.StandsIn (p : Part) (t : State) : Prop where
  pack : t.pack p.x.f.core p.a.slot = some p.x.k
  split : p.x.k.split p.a.split = some p.x.sp
  stall : p.x.sp.stall.isNone = false
  spill : p.x.sp.spill.isSome = false
  pending : p.x.sp.pending.isSome = false
  slot : p.x.f.slot = p.a.slot
  id : p.x.sp.id = p.a.split

theorem State.standsIn_of_part {s : State} {core : Nat} {a : Arrival} {p : Part} (h : s.part core a = some p) (hid : p.x.sp.id = p.a.split) :
    p.StandsIn s := by
  obtain ⟨rfl, rfl, hslot, hx⟩ := State.of_part h
  obtain ⟨hpack, hsplit, hstall, hspill, hpending, -, -, -, -⟩ := State.of_stalled hx
  exact ⟨hpack, hsplit, hstall, hspill, hpending, hslot, hid⟩

theorem Part.StandsIn.of_pack {p : Part} {s t : State} (h : p.StandsIn s) (hpack : t.pack p.x.f.core p.a.slot = s.pack p.x.f.core p.a.slot) :
    p.StandsIn t := { h with pack := hpack.trans h.pack }

/-- The participant's split has gone on, and its pack holds an operation of this kind. -/
def Part.leftWith (p : Part) (t : State) (kind : OpKind) : Prop :=
  ∃ k sp o, t.pack p.x.f.core p.a.slot = some k ∧ k.split p.a.split = some sp ∧ sp.stall = none ∧ o ∈ k.ops ∧ o.kind = kind

/-- A split that is stalled at nothing issues nothing by an event. -/
theorem State.stalled_of_stall_none {s : State} {core slot split : Nat} {k : Pack} {sp : Split} (hk : s.pack core slot = some k)
    (hsp : k.split split = some sp) (hstall : sp.stall = none) : s.stalled core slot split = none := by
  simp only [State.stalled, hk, hsp, hstall, Option.isNone_none, Bool.true_or, if_true]

section
variable {s : State} {p : Part} {kind : OpKind} {stamp till : Nat}

/-- Retiring a participant leaves memory and every pack but its own as they are. -/
theorem State.retirePart_keeps (s : State) (p : Part) (kind : OpKind) (stamp till : Nat) : (s.retirePart p kind stamp till).mem = s.mem ∧
    ∀ c n, (c, n) ≠ (p.x.f.core, p.x.f.slot) → (s.retirePart p kind stamp till).pack c n = s.pack c n := by
  unfold State.retirePart
  split
  · exact ⟨rfl, fun _ _ _ => rfl⟩
  · next x hx =>
    obtain ⟨-, -, -, -, -, hs, hcore, hslot, -⟩ := State.of_stalled hx
    obtain ⟨⟨-, hcores⟩, -, hpacks⟩ :=
      x.retireTo_onlyPack (x.k.addOp { x.engineOp .tl .matrix kind with stamp := stamp, till := till }) x.sp x.f.next
    refine ⟨by rw [Iss.retire, Iss.retireTo_mem, hs], fun c n hne => ?_⟩
    have hsame : x.s.pack c n = s.pack c n := by rw [hs]; rfl
    rw [← hcore, ← hslot] at hne
    rw [← hsame]
    by_cases hc : c = x.f.core
    · subst hc
      exact hpacks n fun hn => hne (by rw [hn])
    · rw [State.pack, State.pack, Iss.retire, hcores c hc]

/-- A participant that stands at the rendezvous goes on with its part. -/
theorem Part.StandsIn.leftWith (h : p.StandsIn s) : p.leftWith (s.retirePart p kind stamp till) kind := by
  obtain ⟨x, hx, -, hk, hsp, hcore, hslot, -⟩ := State.stalled_of_split h.pack h.split h.stall h.spill h.pending
  have hpack := x.pack_retire (x.k.addOp { x.engineOp .tl .matrix kind with stamp := stamp, till := till }) x.sp
  have hsplit := Pack.split_setSplit_self (x.k.addOp { x.engineOp .tl .matrix kind with stamp := stamp, till := till }).started
    (x.sp.retire x.f.next x.s.clock)
  rw [hcore, hslot] at hpack
  rw [Split.retire_id, hsp, h.id, ← hsp] at hsplit
  refine ⟨_, _, _, ?_, hsplit, Split.retire_stall _ _ _, List.mem_append_right _ List.mem_cons_self, rfl⟩
  rw [State.retirePart, h.slot, h.id, hx]
  exact hpack

/-- One that has gone on is not touched again. -/
theorem Part.leftWith.retirePart {kind' : OpKind} (h : p.leftWith s kind) (hslot : p.x.f.slot = p.a.slot) (hid : p.x.sp.id = p.a.split) :
    s.retirePart p kind' stamp till = s := by
  obtain ⟨k, sp, o, hk, hsp, hstall, -, -⟩ := h
  rw [State.retirePart, hslot, hid, State.stalled_of_stall_none hk hsp hstall]

end

/-! ### A complete joint or set (07 R193, R197) -/

section
variable (K : Part → OpKind) (stamp : Nat) (till : Part → Nat)

theorem State.foldl_retirePart_mem (ps : List Part) (s : State) :
    (ps.foldl (fun s p => s.retirePart p (K p) stamp (till p)) s).mem = s.mem :=
  State.foldl_mem (fun s p => (s.retirePart_keeps p _ _ _).1) ps s

/-- Every participant that stands at the rendezvous alone goes on with its part, whatever the order in which they retire. -/
theorem leftWith_foldl_retirePart {p : Part} (hslot : p.x.f.slot = p.a.slot) (hid : p.x.sp.id = p.a.split) {ps : List Part}
    (hslots : ∀ q ∈ ps, q.x.f.slot = q.a.slot) (halone : ∀ q ∈ ps, q.x.f.core = p.x.f.core → q.a.slot = p.a.slot → q = p) {s : State}
    (h : (p ∈ ps ∧ p.StandsIn s) ∨ p.leftWith s (K p)) : p.leftWith (ps.foldl (fun s p => s.retirePart p (K p) stamp (till p)) s) (K p) := by
  induction ps generalizing s with
  | nil => exact h.resolve_left fun hin => List.not_mem_nil hin.1
  | cons q ps ih =>
    rw [List.foldl_cons]
    refine ih (fun r hr => hslots r (List.mem_cons_of_mem _ hr)) (fun r hr => halone r (List.mem_cons_of_mem _ hr)) ?_
    by_cases hkey : (p.x.f.core, p.a.slot) = (q.x.f.core, q.x.f.slot)
    · obtain ⟨hcore, hqslot⟩ := Prod.mk.inj hkey
      obtain rfl := halone q List.mem_cons_self hcore.symm (by rw [hqslot, hslots q List.mem_cons_self])
      rcases h with ⟨-, hstands⟩ | hleft
      · exact .inr hstands.leftWith
      · exact .inr (by rwa [hleft.retirePart hslot hid])
    · have hpack := (s.retirePart_keeps q (K q) stamp (till q)).2 _ _ hkey
      rcases h with ⟨hin, hstands⟩ | ⟨k, sp, o, hk, hrest⟩
      · refine .inl ⟨(List.mem_cons.1 hin).resolve_left fun hpq => hkey ?_, hstands.of_pack hpack⟩
        rw [← hpq, hslot]
      · exact .inr ⟨k, sp, o, hpack.trans hk, hrest⟩

end

theorem jointTe_of_no_enable {ps : List Part} (h : ∀ p ∈ ps, p.x.k.te = 0) : jointTe ps = 0 := by
  suffices hfold : ∀ (l : List Part) n, (∀ p ∈ l, p.x.k.te = 0) → l.foldl (fun f p => f ||| p.x.k.te) n = n from hfold ps 0 h
  intro l
  induction l with
  | nil => exact fun _ _ => rfl
  | cons p l ih =>
    intro n hl
    rw [List.foldl_cons, hl p List.mem_cons_self, Nat.or_zero, ih n fun q hq => hl q (List.mem_cons_of_mem _ hq)]

/-- With no flag enabled, each participant alone at its place goes on with its part, and memory stays as it is. -/
theorem State.finishJoint_spec {s : State} {ps : List Part} (hte : ∀ p ∈ ps, p.x.k.te = 0) (hstands : ∀ p ∈ ps, p.StandsIn s) (hits : List Hit)
    (nx : Bool) (n : Nat) (kind : Part → Word → Nat → OpKind) : (s.finishJoint ps hits nx n kind).mem = s.mem ∧
      ∀ p ∈ ps, (∀ q ∈ ps, q.x.f.core = p.x.f.core → q.a.slot = p.a.slot → q = p) →
        ∃ flags, p.leftWith (s.finishJoint ps hits nx n kind) (kind p flags (s.clock + 1)) := by
  simp only [State.finishJoint, jointTe_of_no_enable hte, matrixFpx_of_no_enable]
  generalize BitVec.ofNat 32 _ = flags
  refine ⟨State.foldl_retirePart_mem (fun p => kind p flags (s.clock + 1)) s.clock (fun p => s.engineEnd p.x.f.core + p.engineTime n) ps s,
    fun p hp halone => ⟨flags, ?_⟩⟩
  exact leftWith_foldl_retirePart (fun p => kind p flags (s.clock + 1)) s.clock (fun p => s.engineEnd p.x.f.core + p.engineTime n)
    (hstands p hp).slot (hstands p hp).id (fun q hq => (hstands q hq).slot) halone (.inl ⟨hp, hstands p hp⟩)

/-- Arrivals that leave a latch leave memory, the order counter and every pack as they are. -/
theorem State.leaveLatch_keeps (s : State) (core : Nat) (f : Arrival → Bool) : (s.leaveLatch core f).mem = s.mem ∧
    (s.leaveLatch core f).clock = s.clock ∧ ∀ c n, (s.leaveLatch core f).pack c n = s.pack c n :=
  ⟨rfl, rfl, s.pack_setCore_of_packs (c := core) rfl⟩

/-- Every value gathered from a list comes from a member of it. -/
theorem exists_of_mem_mapM {α β : Type} {f : α → Option β} {l : List α} {ps : List β} (h : l.mapM f = some ps) {p : β} (hp : p ∈ ps) :
    ∃ a ∈ l, f a = some p := by
  induction l generalizing ps with
  | nil =>
    cases h
    cases hp
  | cons a l ih =>
    simp only [List.mapM_cons, Option.bind_eq_bind, Option.bind_eq_some_iff, Option.pure_def, Option.some.injEq] at h
    obtain ⟨b, hb, bs, hbs, rfl⟩ := h
    rcases List.mem_cons.1 hp with rfl | hp
    · exact ⟨a, List.mem_cons_self, hb⟩
    · obtain ⟨c, hc, hfc⟩ := ih hbs hp
      exact ⟨c, List.mem_cons_of_mem _ hc, hfc⟩

/-! ### Formation of a joint (07 R191-R193) -/

/-- The arrivals that a mask names: those of its slots with the same mask. -/
def Core.named (c : Core) (mst : Word) : List (Option Arrival) :=
  (slotsOf mst).map fun i => c.latch.find? fun a => a.coop.isEmpty && a.slot == i && a.mst == mst

/-- A pack has one arrival among those named. -/
theorem Part.eq_of_named {s : State} {core : Nat} {mst : Word} {ps : List Part}
    (h : ((s.core core).named mst).mapM (fun a => a.bind (s.part core)) = some ps) {p q : Part} (hp : p ∈ ps) (hq : q ∈ ps)
    (hslot : q.a.slot = p.a.slot) : q = p := by
  have hfound : ∀ r ∈ ps, ((s.core core).latch.find? fun a => a.coop.isEmpty && a.slot == r.a.slot && a.mst == mst).bind (s.part core) = some r := by
    intro r hr
    obtain ⟨o, ho, hpart⟩ := exists_of_mem_mapM h hr
    obtain ⟨i, -, rfl⟩ := List.mem_map.1 ho
    obtain ⟨a, ha, hr'⟩ := Option.bind_eq_some_iff.1 hpart
    have hi := List.find?_some ha
    simp only [Bool.and_eq_true, beq_iff_eq] at hi
    rw [(State.of_part hr').1, hi.1.2]
    exact hpart
  have hfq := hfound q hq
  rw [hslot, hfound p hp] at hfq
  exact (Option.some.inj hfq).symm

/-- What a joint leaves in the pack of a participant. -/
def Part.jointKind (w : Word) (p : Part) (flags : Word) (joint : Nat) : OpKind :=
  .tile (p.x.pairSpans p.a.tile) [p.a.acc] [] ((p.granule w).map fun e => (accKey p.a.acc e.1 e.2.1, BitVec.ofNat 32 e.2.2.bits)) flags joint

theorem execJointFormation_next {core slot : Nat} {s : State} {a0 : Arrival} {ps : List Part}
    (hfirst : (s.core core).latch.find? (fun a => a.coop.isEmpty && a.slot == slot) = some a0)
    (hparts : ((s.core core).named a0.mst).mapM (fun a => a.bind (s.part core)) = some ps)
    (hfree : ∀ p ∈ ps, p.x.k.full .tl = false ∧
      (s.core core).tileBusy p.x.f.slot (p.x.pairSpans p.a.tile) [p.a.acc] s.clock = false) (hchecks : (jointFail ps).isNone) :
    ∃ f hits nx, execJointFormation core slot s =
      .next ((s.leaveLatch core f).finishJoint ps hits nx ps.length (Part.jointKind (votedWord ps))) := by
  have hnone : (ps.any fun p => p.x.k.full .tl || (s.core core).tileBusy p.x.f.slot (p.x.pairSpans p.a.tile) [p.a.acc] s.clock) = false :=
    List.any_eq_false.2 fun p hp => by rw [(hfree p hp).1, (hfree p hp).2]; exact Bool.false_ne_true
  rw [Core.named] at hparts
  simp only [execJointFormation, hfirst, hparts, hnone, Option.isNone_iff_eq_none.1 hchecks, Bool.false_eq_true, if_false]
  exact ⟨_, _, _, rfl⟩

/-! ### Completion of a cooperative set (07 R196, R197) -/

theorem mem_insertBy {α : Type} {key : α → Nat} {x y : α} {l : List α} : y ∈ insertBy key x l ↔ y = x ∨ y ∈ l := by
  induction l with
  | nil => exact List.mem_singleton.trans (by simp)
  | cons z l ih =>
    rw [insertBy]
    split
    · exact List.mem_cons
    · rw [List.mem_cons, ih, List.mem_cons]
      tauto

theorem mem_sortBy {α : Type} {key : α → Nat} {y : α} {l : List α} : y ∈ sortBy key l ↔ y ∈ l := by
  suffices h : ∀ (l acc : List α), y ∈ l.foldl (fun acc x => insertBy key x acc) acc ↔ y ∈ l ∨ y ∈ acc from
    (h l []).trans (by simp)
  intro l
  induction l with
  | nil => simp
  | cons x l ih =>
    intro acc
    rw [List.foldl_cons, ih, mem_insertBy, List.mem_cons]
    tauto

/-- The state once the arrivals of some participants have left their latches. -/
def State.leaveAll (s : State) (ps : List Part) : State := ps.foldl (fun s p => s.leaveLatch p.x.f.core fun a => a == p.a) s

theorem State.leaveAll_keeps (ps : List Part) (s : State) :
    (s.leaveAll ps).mem = s.mem ∧ (s.leaveAll ps).clock = s.clock ∧ ∀ c n, (s.leaveAll ps).pack c n = s.pack c n := by
  induction ps generalizing s with
  | nil => exact ⟨rfl, rfl, fun _ _ => rfl⟩
  | cons p ps ih =>
    obtain ⟨hmem, hclock, hpack⟩ := s.leaveLatch_keeps p.x.f.core fun a => a == p.a
    obtain ⟨hmem', hclock', hpack'⟩ := ih (s.leaveLatch p.x.f.core fun a => a == p.a)
    exact ⟨hmem'.trans hmem, hclock'.trans hclock, fun c n => (hpack' c n).trans (hpack c n)⟩

/-- What a cooperative set leaves in the pack of a participant. -/
def Part.coopKind (rs : List Part) (p : Part) (flags : Word) (joint : Nat) : OpKind :=
  .tile (p.x.pairSpans p.a.tile) (List.range 16) (p.received rs)
    (share.map fun e => (shareKey e.1 e.2, BitVec.ofNat 32 (p.final rs (votedWord rs) e.1 e.2).bits)) flags joint

theorem execCoopRendezvous_next {ctx coopid : Nat} {s : State} {ps : List Part}
    (hparts : (s.coopSet ctx coopid).mapM (fun e => s.part e.1 e.2) = some ps)
    (hready : ∃ e ∈ s.coopSet ctx coopid, ∀ r, r < (coopOf e.2.coop).ranks → ∃ f ∈ s.coopSet ctx coopid, (coopOf f.2.coop).rank = r)
    (hfree : ∀ p ∈ ps, p.x.k.full .tl = false ∧
      (s.core p.x.f.core).tileBusy p.x.f.slot (p.x.pairSpans p.a.tile) (List.range 16) s.clock = false)
    (hchecks : (coopFail (sortBy (fun p : Part => p.coop.rank) ps)).isNone) :
    let rs := sortBy (fun p : Part => p.coop.rank) ps
    ∃ hits nx, execCoopRendezvous ctx coopid s = .next ((s.leaveAll rs).finishJoint rs hits nx 16 (Part.coopKind rs)) := by
  have hnone : (ps.any fun p =>
      p.x.k.full .tl || (s.core p.x.f.core).tileBusy p.x.f.slot (p.x.pairSpans p.a.tile) (List.range 16) s.clock) = false :=
    List.any_eq_false.2 fun p hp => by rw [(hfree p hp).1, (hfree p hp).2]; exact Bool.false_ne_true
  have hall : ((s.coopSet ctx coopid).any fun e => (List.range (coopOf e.2.coop).ranks).all fun r =>
      (s.coopSet ctx coopid).any fun e => (coopOf e.2.coop).rank == r) = true := by
    obtain ⟨e, he, hranks⟩ := hready
    refine List.any_eq_true.2 ⟨e, he, List.all_eq_true.2 fun r hr => ?_⟩
    obtain ⟨f, hf, hrank⟩ := hranks r (List.mem_range.1 hr)
    exact List.any_eq_true.2 ⟨f, hf, beq_iff_eq.2 hrank⟩
  simp only [execCoopRendezvous, hparts, hnone, hall, Option.isNone_iff_eq_none.1 hchecks, Bool.not_true, Bool.or_self, Bool.false_eq_true, if_false]
  exact ⟨_, _, rfl⟩

/-- Settles O39: arrivals by where they wait, and a complete joint or set by what each participant is left with. -/
theorem jointResults : Obligations.JointResults := by
  refine ⟨fun s x => ⟨fun a h => execMuster_of_ready h, fun d h => execRdmst_of_ready h⟩, ?_, ?_, ?_, ?_⟩
  · intro d a b s x h c head hlatch hwait hbusy hmuster hplaned hparallel hheads
    exact execMmj_of_ready h hlatch hwait hbusy hmuster hplaned hparallel hheads
  · intro core slot s a0 ps hfirst hparts hready hchecks
    obtain ⟨f, hits, nx, hexec⟩ := execJointFormation_next hfirst hparts
      (fun p hp => by obtain ⟨-, hfull, -, hbusy⟩ := hready p hp; exact ⟨hfull, hbusy⟩) hchecks
    obtain ⟨hmem, hclock, hpack⟩ := s.leaveLatch_keeps core f
    have hpart : ∀ p ∈ ps, ∃ a, s.part core a = some p := fun p hp => by
      obtain ⟨o, -, hp⟩ := exists_of_mem_mapM hparts hp
      obtain ⟨a, -, hp⟩ := Option.bind_eq_some_iff.1 hp
      exact ⟨a, hp⟩
    have hstands : ∀ p ∈ ps, p.StandsIn (s.leaveLatch core f) := fun p hp => by
      obtain ⟨a, ha⟩ := hpart p hp
      exact (State.standsIn_of_part ha (hready p hp).1).of_pack (hpack _ _)
    obtain ⟨hmem', hleft⟩ := State.finishJoint_spec (fun p hp => (hready p hp).2.2.1) hstands hits nx ps.length
      (Part.jointKind (votedWord ps))
    refine ⟨_, hexec, hmem'.trans hmem, fun p hp => ?_⟩
    obtain ⟨flags, k, sp, o, hk, hsp, hstall, ho, hkind⟩ := hleft p hp fun q hq _ hslot => Part.eq_of_named hparts hp hq hslot
    obtain ⟨a, ha⟩ := hpart p hp
    obtain ⟨-, hcore, -, -⟩ := State.of_part ha
    exact ⟨k, sp, o, flags, hcore ▸ hk, hsp, hstall, ho, by rw [hkind, hclock]; rfl⟩
  · intro d a b s x h c words head hwait hbusy hrecord hplaned hparallel hheads hranks
    exact execMmc_of_ready h hwait hbusy hrecord hplaned hparallel hheads hranks
  · intro ctx coopid s ps hparts hcomplete hready rs hchecks
    obtain ⟨hits, nx, hexec⟩ := execCoopRendezvous_next hparts hcomplete
      (fun p hp => by obtain ⟨-, hfull, -, hbusy⟩ := hready p hp; exact ⟨hfull, hbusy⟩) hchecks
    obtain ⟨hmem, hclock, hpack⟩ := State.leaveAll_keeps rs s
    have hstands : ∀ p ∈ rs, p.StandsIn (s.leaveAll rs) := fun p hp => by
      obtain ⟨e, -, hpart⟩ := exists_of_mem_mapM hparts (mem_sortBy.1 hp)
      exact (State.standsIn_of_part hpart (hready p (mem_sortBy.1 hp)).1).of_pack (hpack _ _)
    obtain ⟨hmem', hleft⟩ := State.finishJoint_spec (fun p hp => (hready p (mem_sortBy.1 hp)).2.2.1) hstands hits nx 16 (Part.coopKind rs)
    refine ⟨_, hexec, hmem'.trans hmem, fun p hp halone => ?_⟩
    obtain ⟨flags, k, sp, o, hk, hsp, hstall, ho, hkind⟩ := hleft p (mem_sortBy.2 hp) fun q hq => halone q (mem_sortBy.1 hq)
    exact ⟨k, sp, o, flags, hk, hsp, hstall, ho, by rw [hkind, hclock]; rfl⟩

end Sys2Proof.Machine

/-!
The split as a whole and work identifiers (08 R208, R209, R215): votes over the live lanes, the source lane of a shuffle, and the statement O12.
-/

namespace Sys2Proof.Machine

/-! ### Votes (08 R208) -/

/-- No lane of a mask lies outside a predicate exactly where the predicate holds in all of them. -/
theorem and_not_eq_zero_iff (m p : Mask) : m &&& ~~~p = 0 ↔ p &&& m = m := by
  constructor <;> intro h <;> refine BitVec.eq_of_getLsbD_eq fun n hn => ?_
  · have hbit := congrArg (BitVec.getLsbD · n) h
    simpa [hn] using hbit
  · have hbit := congrArg (BitVec.getLsbD · n) h
    simpa [hn] using hbit

theorem execVall_of_ready {s : State} {x : Iss} (h : s.Ready [] x) (d a : PReg) : execVall d a s =
    .next (x.predNext d x.live (if x.k.pred a &&& x.live = x.live then BitVec.allOnes 32 else 0)) := by
  rw [execVall, issueU_of_ready h]
  simp only [and_not_eq_zero_iff]
  rfl

/-! ### Shuffles (08 R209) -/

/-- A selector names the lane of R209. -/
theorem Shfl.source_eq (m : Shfl) (i : Nat) (b : Word) : m.source i b = shuffleLane m i b.toNat := by
  cases m with
  | idx => simp only [Shfl.source, shuffleLane, Option.filter, decide_eq_true_eq]
  | up => by_cases h : b.toNat ≤ i <;> simp [Shfl.source, shuffleLane, Option.filter, h]
  | down => simp only [Shfl.source, shuffleLane, Option.filter, decide_eq_true_eq]
  | xor => simp only [Shfl.source, shuffleLane, Option.filter, decide_eq_true_eq]

theorem Shuffles.exec_eq {i : Instr} {m : Shfl} {g : PReg} {d a : VReg} {v : PReg} (h : Shuffles i m g d a v) :
    ∃ mn, ∀ s, exec i s = shfl mn m g d a v s := by
  cases h <;> exact ⟨_, fun _ => rfl⟩

theorem ShufflesBy.exec_eq {i : Instr} {m : Shfl} {g : PReg} {d a : VReg} {n : BitVec 5} (h : ShufflesBy i m g d a n) :
    ∃ mn, ∀ s, exec i s = shfli mn m g d a n s := by
  cases h <;> exact ⟨_, fun _ => rfl⟩

/-- The lane that lane `l` of a shuffle under selector `n` reads, where it is live in the split (08 R209). -/
def Iss.shuffleFrom (x : Iss) (m : Shfl) (l n : Nat) : Option Nat := (shuffleLane m l n).filter fun j => x.live.getLsbD j

/-- What a shuffle leaves: the source lanes' words, and its validity bits. -/
theorem Iss.shuffle_eq (x : Iss) (act : Mask) (m : Shfl) (d a : VReg) (v : PReg) (sel : Nat → Word) :
    let r := writeV x.k x.sp d act fun l => x.v a ((x.shuffleFrom m l (sel l).toNat).getD l)
    x.shuffle act m d a v sel = .next (x.retire (r.1.setP v act (maskWhere fun l => (x.shuffleFrom m l (sel l).toNat).isSome)) r.2) := by
  simp only [Iss.shuffle, Iss.shflFrom, Shfl.source_eq]
  rfl

/-! ### Work identifiers (08 R215) -/

theorem execWid_of_ready {s : State} {x : Iss} {d : VReg} (h : s.Ready [wrV 0 d 2] x) (g : PReg) :
    execWid g d s = .next (x.pairNext d (x.k.active x.sp g) x.k.widOf) := by
  rw [execWid, issue_of_ready h]
  rfl

theorem execWidf_of_ready {s : State} {x : Iss} {d : VReg} (h : s.Ready [wrV 0 d 2] x) (g : PReg) (n : BitVec 3) : execWidf g d n s =
    .next (x.pairNext d (x.k.active x.sp g) fun l => widField (s.header x.k).widths (x.k.widOf l) n.toNat) := by
  rw [execWidf, issue_of_ready h, State.issuer_header h.issuer]
  rfl

/-- Settles O12: votes and identifiers as they issue, and shuffles by the lane that each selector names. -/
theorem gangResults : Obligations.GangResults := by
  refine ⟨fun s x => ⟨fun d h => ⟨issueU_of_ready h _ _, issueU_of_ready h _ _, fun a => issueU_of_ready h _ _⟩,
    fun h d a => ⟨issueU_of_ready h _ _, execVall_of_ready h d a⟩, fun g d h => ⟨execWid_of_ready h g, execWidf_of_ready h g⟩⟩,
    fun i m g d a v hi s x h => ?_, fun i m g d a n hi s x h => ?_⟩
  · obtain ⟨mn, hexec⟩ := hi.exec_eq
    rw [hexec, shfl, issue_of_ready h, Iss.shuffle_eq]
    rfl
  · obtain ⟨mn, hexec⟩ := hi.exec_eq
    rw [hexec, shfli, issue_of_ready h, Iss.shuffle_eq, Pack.setP_seven]
    have hsel : (n.setWidth 32).toNat = n.toNat := (BitVec.toNat_setWidth ..).trans (Nat.mod_eq_of_lt (by omega))
    rw [hsel]
    rfl

end Sys2Proof.Machine

/-!
Exceptions (08 R229-R235): what a trap leaves of its split where a handler runs and where none does, what `hret` leaves, and the statements O15,
O16 and O17.
-/

namespace Sys2Proof.Machine

/-! ### The trap registers (08 R229, R230) -/

/-- INH stands at bit 13 of a cause word (08 R229). -/
theorem getLsbD_causeWord_inh (r : TrapRec) (ends det inh : Bool) : (causeWord r ends det inh).getLsbD 13 = inh := by
  have hbit (n : Nat) (hn : n < 8192) : (n + if inh then 8192 else 0).testBit 13 = inh := by
    rw [Nat.testBit_eq_decide_div_mod_eq]
    cases inh with
    | false => exact decide_eq_false (by rw [if_neg Bool.false_ne_true]; omega)
    | true => exact decide_eq_true (by rw [if_pos rfl]; omega)
  have hfield (b : Bool) (n : Nat) : (if b then n else 0) ≤ n := by cases b <;> simp
  have hjoint := hfield r.joint 256
  have hends := hfield ends 512
  have hdet := hfield det 4096
  rw [causeWord, BitVec.getLsbD_ofNat, hbit _ (by omega)]
  rfl

/-- The four information registers hold the trap's 128 bits (08 R230). -/
theorem Split.record_info (sp : Split) (det : Bool) (r : TrapRec) (inh : Bool) :
    (sp.record det r inh).trap.info3 ++ (sp.record det r inh).trap.info2 ++ (sp.record det r inh).trap.info1 ++
      (sp.record det r inh).trap.info0 = r.info := by
  show r.info.extractLsb' 96 32 ++ r.info.extractLsb' 64 32 ++ r.info.extractLsb' 32 32 ++ r.info.extractLsb' 0 32 = r.info
  rw [BitVec.extractLsb'_append_extractLsb'_eq_extractLsb' (show 96 = 64 + 32 from rfl),
    BitVec.extractLsb'_append_extractLsb'_eq_extractLsb' (show 64 = 32 + 32 from rfl),
    BitVec.extractLsb'_append_extractLsb'_eq_extractLsb' (show 32 = 0 + 32 from rfl)]
  exact BitVec.extractLsb'_eq_self

/-! ### Taking a trap (08 R233, R234) -/

/-- A trap goes to a handler or a host where INH is 0, its cause is none that is marked ends, and there is a handler or the cause is BRK or
SYSCALL (08 R232, R234). -/
theorem trapEnds_eq_false {h : KHeader} {r : TrapRec} (hlease : r.code ≠ 0x0B) (hecc : r.code ≠ 0x0D)
    (hmark : ¬(r.code = 0x08 ∧ r.info.extractLsb' 0 8 = 0x1D)) (hserved : h.noHandler = false ∨ r.code = 0x0E ∨ r.code = 0x0F) :
    trapEnds h false r = false := by
  have hserved' : ¬((h.noHandler = true ∧ r.code ≠ 0x0E) ∧ r.code ≠ 0x0F) := by
    rcases hserved with hno | hbrk | hsyscall
    · simp [hno]
    · simp [hbrk]
    · simp [hsyscall]
  rw [Bool.eq_false_iff, trapEnds]
  simp only [Bool.or_eq_true, Bool.and_eq_true, beq_iff_eq, bne_iff_ne, hlease, hecc, hmark, hserved', Bool.false_eq_true, or_self,
    not_false_eq_true, ne_eq]

theorem State.takeTrap_of_handler {s : State} {k : Pack} {sp : Split} {r : TrapRec} (hends : trapEnds (s.header k) sp.inh r = false)
    (hhandler : (s.header k).noHandler = false) (core slot : Nat) :
    s.takeTrap core slot k sp r = s.setPack core slot (k.started.setSplit (sp.enter (s.header k) r)) := by
  simp only [State.takeTrap, hends, hhandler, Bool.false_eq_true, if_false]

theorem State.takeTrap_of_noHandler {s : State} {k : Pack} {sp : Split} {r : TrapRec} (hends : trapEnds (s.header k) sp.inh r = false)
    (hhandler : (s.header k).noHandler = true) (core slot : Nat) : s.takeTrap core slot k sp r =
      (s.setPack core slot (k.started.setSplit (sp.suspend (s.header k) r))).trapEvent 2 core k sp.id r false false := by
  simp only [State.takeTrap, hends, hhandler, Bool.false_eq_true, if_false, if_true]

theorem Pack.split_setSplit_of_id (k : Pack) {sp : Split} {i : Nat} (h : sp.id = i) : (k.setSplit sp).split i = some sp :=
  h ▸ k.split_setSplit_self sp

/-- Entering the handler keeps the split's name, its lanes and its scratch registers (08 R230, R233). -/
theorem Split.enter_keeps (sp : Split) (h : KHeader) (r : TrapRec) : (sp.enter h r).id = sp.id ∧ (sp.enter h r).mask = sp.mask ∧
    (sp.enter h r).trap.scratch0 = sp.trap.scratch0 ∧ (sp.enter h r).trap.scratch3 = sp.trap.scratch3 := by
  simp only [Split.enter, Split.record, Split.clean, and_self]

theorem Split.suspend_id (sp : Split) (h : KHeader) (r : TrapRec) : (sp.suspend h r).id = sp.id := by
  simp only [Split.suspend, Split.record, Split.clean]

/-- Settles O15: with a handler the split enters it. -/
theorem trapEntersHandler : Obligations.TrapEntersHandler := by
  intro s core slot k sp r hhandler hinh hlease hecc hmark
  have hends : trapEnds (s.header k) sp.inh r = false := by
    rw [hinh]
    exact trapEnds_eq_false hlease hecc hmark (.inl hhandler)
  rw [State.takeTrap_of_handler hends hhandler]
  obtain ⟨hid, hmask, hscratch0, hscratch3⟩ := sp.enter_keeps (s.header k) r
  exact ⟨_, _, s.pack_setPack_self core slot _, Pack.split_setSplit_of_id k.started hid, rfl, hmask, rfl, rfl, rfl,
    getLsbD_causeWord_inh r false (s.header k).det true, rfl, rfl, rfl, Split.record_info sp.clean (s.header k).det r true, hscratch0, hscratch3,
    fun _ => ⟨rfl, fun _ _ _ => rfl⟩⟩

/-! ### `trap` and `brk` (08 R231) -/

/-- A trap that no earlier operation holds up is taken at once (08 R233). -/
theorem Iss.raise_of_idle {x : Iss} (hidle : x.k.busyFor x.live = false) (act : Mask) (code info : Nat) :
    x.raise act code info = .next (x.s.takeTrap x.f.core x.f.slot x.k x.sp (x.trap act code info)) := by
  rw [Iss.raise, Iss.raiseRec, hidle]
  rfl

/-- Settles O16: both instructions raise their cause at once, and with no handler the split is suspended. -/
theorem trapInstructionsTrap : Obligations.TrapInstructionsTrap := by
  refine ⟨fun i s x h hidle => ⟨?_, ?_⟩, fun s core slot k sp r hhandler hinh hcode => ?_⟩
  · have hexec : exec (.trap i) s = x.commit.raise x.live 0x0F (immZ x.sp.hints i).toNat := issueU_of_ready h _ _
    rw [hexec, Iss.raise_of_idle (x := x.commit) hidle]
    rfl
  · have hexec : exec (.brk i) s = x.commit.raise x.live 0x0E (immZ x.sp.hints i).toNat := issueU_of_ready h _ _
    rw [hexec, Iss.raise_of_idle (x := x.commit) hidle]
    rfl
  · have hends : trapEnds (s.header k) sp.inh r = false := by
      rw [hinh]
      exact trapEnds_eq_false (by omega) (by omega) (fun hmark => by omega) (.inr hcode)
    rw [State.takeTrap_of_noHandler hends hhandler]
    exact ⟨_, _, _, s.pack_setPack_self core slot _, Pack.split_setSplit_of_id k.started (sp.suspend_id (s.header k) r), rfl,
      getLsbD_causeWord_inh r false (s.header k).det false, rfl, rfl, rfl, rfl, rfl⟩

/-! ### Returning from a handler (08 R235) -/

/-- A split that leaves its handler has INH clear. -/
theorem Split.leave_inh (sp : Split) (pc : Word) (clock : Nat) : (sp.leave pc clock).inh = false := by
  rw [Split.inh, Split.leave, Split.goto_trap]
  show (sp.trap.cause &&& ~~~(1#32 <<< 13)).getLsbD 13 = false
  rw [BitVec.getLsbD_and, show (~~~(1#32 <<< 13)).getLsbD 13 = false from rfl, Bool.and_false]

/-- What leaving a handler leaves of its split. -/
theorem Iss.leave_next {x : Iss} (hid : x.sp.id = x.f.split) (pc : Word) : ∃ t k sp, x.leave pc = .next t ∧ x.now t = some (k, sp) ∧
    sp.pc = pc ∧ sp.inh = false ∧ sp.win = x.sp.saved ∧ sp.mask = x.sp.mask :=
  ⟨_, _, x.sp.leave pc x.s.clock, rfl, x.now_put x.k.started ((Split.goto_id _ _ _).trans hid), Split.goto_pc .., x.sp.leave_inh pc _,
    Split.goto_win .., Split.goto_mask ..⟩

/-- `hret.skip` goes on past the unit at `sr.tepc`, a REGBUDGET group's reconvergence address being that same address. -/
theorem Iss.skipTarget_eq (x : Iss) : x.skipTarget = x.s.skipFrom x.f.core x.k x.sp.trap.epc := by
  unfold Iss.skipTarget
  dsimp only
  split
  · next h =>
    simp only [Bool.and_eq_true, beq_iff_eq] at h
    exact h.2
  · rfl

/-- Settles O17: each return by whether INH stands. -/
theorem handlerReturns : Obligations.HandlerReturns := by
  refine ⟨fun s x h => ⟨fun hinh hid => ⟨?_, ?_⟩, fun hinh => ?_⟩, fun s x h hinh => (issueU_of_ready h _ _).trans (if_pos hinh)⟩
  · have hexec : exec .hretRetry s = x.leave x.sp.trap.epc := (issueU_of_ready h _ _).trans (if_pos hinh)
    rw [hexec]
    exact Iss.leave_next hid _
  · have hexec : exec .hretSkip s = x.leave x.skipTarget := (issueU_of_ready h _ _).trans (if_pos hinh)
    rw [hexec, x.skipTarget_eq]
    exact Iss.leave_next hid _
  · have hout : ¬x.sp.inh = true := by simp [hinh]
    exact ⟨(issueU_of_ready h _ _).trans (if_neg hout), (issueU_of_ready h _ _).trans (if_neg hout),
      (issueU_of_ready h _ _).trans (if_neg hout)⟩

end Sys2Proof.Machine

/-!
Fetch-work and device-side launch (08 R216, R217, 15 R319, R330): the bytes of a mailbox, what an answer and a queued record leave, and the
statement O41.
-/

namespace Sys2Proof.Machine

/-! ### Numbers in memory -/

/-- A number read depends on the bytes it is made of only. -/
theorem Bytes.readLE_congr {m m' : Bytes} {a n : Nat} (h : ∀ j, a ≤ j → j < a + n → m.get j = m'.get j) : m.readLE a n = m'.readLE a n := by
  induction n generalizing a with
  | zero => rfl
  | succ n ih => rw [Bytes.readLE, Bytes.readLE, h a (by omega) (by omega), ih fun j h1 h2 => h j (by omega) (by omega)]

/-- A write leaves every number outside it alone. -/
theorem Bytes.readLE_writeLE_of_outside (m : Bytes) {a n b k : Nat} (v : Nat) (h : a + n ≤ b ∨ b + k ≤ a) :
    (m.writeLE b k v).readLE a n = m.readLE a n :=
  Bytes.readLE_congr fun j h1 h2 => Bytes.get_writeLE_of_outside _ _ (by omega)

/-! ### `fetchw` (08 R216) -/

/-- The instruction with READY of the mailbox at byte `b` cleared. -/
def Iss.unreadied (x : Iss) (b : Nat) : Iss :=
  { x with s := x.s.setCore x.f.core { x.s.core x.f.core with sram := (x.s.core x.f.core).sram.writeLE (b + 12) 4 0 } }

theorem execFetchw_of_ready {s : State} {x : Iss} {d : TReg} {a : GReg} (h : s.Ready [opT 0 d, rdG 1 a] x)
    (hhandle : x.badHandle d.toNat [1, 2, 3] = false) (hoffset : offsetBad (x.k.readT d.toNat) (x.g a) 0xFFFF0000 16 = false)
    (hfetch : x.k.fetch = none) (hstoring : x.storing = false) :
    let b := phaseByte (x.k.readT d.toNat) (x.g a)
    execFetchw d a s = .next ((x.unreadied b).commit.retire { x.k with fetch := some { mailbox := b } } x.sp) := by
  rw [execFetchw, issueU_of_ready h]
  simp only [hhandle, hoffset, hfetch, hstoring, Option.isSome_none, Bool.false_eq_true, if_false]
  rfl

/-! ### The distributor's answer (15 R330) -/

/-- The state once WID, STATUS and then READY stand in a mailbox of a core. -/
def State.posted (s : State) (core mailbox wid status : Nat) : State :=
  s.setCore core { s.core core with
    sram := (((s.core core).sram.writeLE mailbox 8 wid).writeLE (mailbox + 8) 4 status).writeLE (mailbox + 12) 4 1 }

/-- What stands in a mailbox that was posted to. -/
theorem State.posted_spec (s : State) (core mailbox wid status : Nat) :
    ((s.posted core mailbox wid status).core core).sram.readLE (mailbox + 12) 4 = 1 ∧
      ((s.posted core mailbox wid status).core core).sram.readLE (mailbox + 8) 4 = status % 2 ^ 32 ∧
      ((s.posted core mailbox wid status).core core).sram.readLE mailbox 8 = wid % 2 ^ 64 := by
  rw [State.posted, State.core_setCore_self]
  refine ⟨Bytes.readLE_writeLE _ _ _ _, ?_, ?_⟩
  · rw [Bytes.readLE_writeLE_of_outside _ _ (by omega), Bytes.readLE_writeLE]
    rfl
  · rw [Bytes.readLE_writeLE_of_outside _ _ (by omega), Bytes.readLE_writeLE_of_outside _ _ (by omega), Bytes.readLE_writeLE]
    rfl

/-- A mailbox is no part of a pack. -/
theorem State.pack_posted (s : State) (core mailbox wid status c n : Nat) : (s.posted core mailbox wid status).pack c n = s.pack c n := by
  rw [State.posted]
  exact State.pack_setCore_of_packs _ (by rfl) _ _

/-- What the distributor answers a fetch of a launch: WID, STATUS and the group it grants (15 R330). -/
def Launch.answer (l : Launch) : Nat × Nat × List Nat :=
  if l.hdr.persist then
    match l.unplaced with
    | some n => ((l.groupBase n).toNat, 1, [n])
    | none => (0, 2, [])
  else (0, 3, [])

/-- An answer posts to the mailbox and ends the fetch, granting what it names. -/
theorem State.answerFetch_spec (s : State) (core slot : Nat) (k : Pack) (f : Fetch) (l : Launch) : ∃ (u : State) (k' : Pack),
    s.answerFetch core slot k f l = (u.setPack core slot k').posted core f.mailbox l.answer.1 l.answer.2.1 ∧ u.mem = s.mem ∧
      k'.fetch = none ∧ k'.granted = k.granted ++ l.answer.2.2 := by
  unfold State.answerFetch Launch.answer
  cases l.hdr.persist with
  | false => exact ⟨s, _, rfl, rfl, rfl, (List.append_nil _).symm⟩
  | true =>
    cases l.unplaced with
    | none => exact ⟨s, _, rfl, rfl, rfl, (List.append_nil _).symm⟩
    | some n => exact ⟨_, _, rfl, rfl, rfl, rfl⟩

theorem execFetchwAnswer_of_fetch {s : State} {core slot : Nat} {k : Pack} {f : Fetch} {l : Launch} (hk : s.pack core slot = some k)
    (hf : k.fetch = some f) (hl : s.launch k.tag = some l) : execFetchwAnswer core slot s = .next (s.answerFetch core slot k f l) := by
  simp only [execFetchwAnswer, hk, hf, hl]

/-! ### `launch` (08 R217, 15 R319) -/

theorem State.enqueue_of_refused {s : State} {ctx : Nat} {bs : List Byte} (h : s.launchRefused ctx bs = true) : s.enqueue ctx bs = (s, 2) := by
  simp only [State.enqueue, h, if_true]

theorem State.enqueue_of_full {s : State} {ctx : Nat} {bs : List Byte} (h : s.launchRefused ctx bs = false)
    (hfull : s.qSlots (recField bs 2 2) ≤ (s.qReserve (recField bs 2 2) + 2 ^ 32 - s.qHead (recField bs 2 2)) % 2 ^ 32) :
    s.enqueue ctx bs = (s, 1) := by
  simp only [State.enqueue, h, hfull, Bool.false_eq_true, if_false, if_true]

theorem State.enqueue_of_room {s : State} {ctx : Nat} {bs : List Byte} (h : s.launchRefused ctx bs = false)
    (hroom : (s.qReserve (recField bs 2 2) + 2 ^ 32 - s.qHead (recField bs 2 2)) % 2 ^ 32 < s.qSlots (recField bs 2 2)) :
    (s.enqueue ctx bs).2 = 0 := by
  simp only [State.enqueue, h, Nat.not_le.2 hroom, Bool.false_eq_true, if_false]

/-- Nothing on the lane path is still to be performed. -/
theorem lanePath_performed {ops : List PendOp} (h : ∀ o ∈ ops, o.done = true ∨ o.path ≠ .lane) :
    (ops.any fun o => !o.done && o.path == .lane) = false :=
  List.any_eq_false.2 fun o ho => by rcases h o ho with hd | hp <;> simp [*]

theorem execLaunch_of_ready {s : State} {x : Iss} {t : Xlated} {d a : GReg} (h : s.Ready [wrG 0 d, rdG 1 a 2] x) (hsc : x.k.scBusy = false)
    (hgate : x.k.gated x.sp true = false) (hops : ∀ o ∈ x.k.ops, o.done = true ∨ o.path ≠ .lane)
    (ht : x.s.access x.f.core false x.k.ctx .lane (x.k.readG64 a.toNat) 64 64 .load = .ok t)
    (hordered : bit t.attr 0 = true → x.unperformed = false) :
    let r := t.s.enqueue x.k.ctx (t.s.mem.readList t.pa 64)
    execLaunch d a s =
      .next (({ x with s := r.1 } : Iss).commit.retire (x.k.setG d.toNat (BitVec.ofNat 32 r.2)) (x.saw t.pa 64)) := by
  have hordered' : (bit t.attr 0 && x.unperformed) = false := by
    cases hb : bit t.attr 0 with
    | false => rfl
    | true => exact hordered hb
  rw [execLaunch, issueU_of_ready h]
  simp only [hsc, hgate, lanePath_performed hops, ht, hordered', Bool.or_false, Bool.false_eq_true, if_false]
  rfl

/-- Settles O41: `fetchw` and its answer by what stands in the mailbox, `launch` by what becomes of its record. -/
theorem fetchAndLaunchResults : Obligations.FetchAndLaunchResults := by
  refine ⟨fun d a s x h hid hhandle hoffset hfetch hstoring => ?_, fun core slot s k f l hk hf hl => ?_,
    fun d a s x t h hsc hgate hops ht hordered => ?_⟩
  · intro b
    let y := (x.unreadied b).commit
    obtain ⟨_, _, hcore⟩ := y.core_retire { x.k with fetch := some { mailbox := b } } x.sp
    have hmem : s.mem = x.s.mem := by rw [(State.issuer_spec h.issuer).2.1]
    refine ⟨_, _, _, execFetchw_of_ready h hhandle hoffset hfetch hstoring, y.now_retireTo _ _ _ hid, rfl, ?_, Split.retire_pc .., hmem.symm⟩
    have hsram : ((y.retire { x.k with fetch := some { mailbox := b } } x.sp).core x.f.core).sram =
        (x.s.core x.f.core).sram.writeLE (b + 12) 4 0 :=
      (congrArg Core.sram hcore).trans (congrArg Core.sram (State.core_setCore_self x.s x.f.core _))
    rw [hsram]
    exact Bytes.readLE_writeLE _ _ _ _
  · obtain ⟨u, k', hanswer, hmem, hfetch, hgranted⟩ := s.answerFetch_spec core slot k f l
    obtain ⟨hready, hstatus, hwid⟩ := (u.setPack core slot k').posted_spec core f.mailbox l.answer.1 l.answer.2.1
    refine ⟨_, k', execFetchwAnswer_of_fetch hk hf hl, ?_⟩
    rw [hanswer, hready, hstatus, hwid, hgranted]
    refine ⟨(State.pack_posted ..).trans (State.pack_setPack_self ..), hfetch, rfl, hmem, ?_, fun n hp hn => ?_⟩
    · unfold Launch.answer
      cases l.hdr.persist with
      | false => rfl
      | true => cases l.unplaced <;> rfl
    · simp only [Launch.answer, hp, hn, if_true]
      exact ⟨Nat.mod_eq_of_lt (l.groupBase n).isLt, trivial⟩
  · intro bs q y
    refine ⟨(t.s.enqueue x.k.ctx bs).2, execLaunch_of_ready h hsc hgate hops ht hordered, fun hr => ?_, fun hr hroom => ?_, fun hr hfull => ?_⟩
    · simp only [y, State.enqueue_of_refused hr, and_self]
    · exact State.enqueue_of_room hr hroom
    · simp only [y, State.enqueue_of_full hr hfull, and_self]

end Sys2Proof.Machine

/-!
Queue tokens and work lists (08 R218-R222, 15 R331): the location that a release leaves, what a token's readers retire with, what a push
appends and a pop takes, and the statement O42.
-/

namespace Sys2Proof.Machine

/-! ### The two words of a token (08 R218) -/

theorem Bytes.readLE_lt (m : Bytes) (a n : Nat) : m.readLE a n < 256 ^ n := by
  induction n generalizing a with
  | zero => simp [Bytes.readLE]
  | succ n ih =>
    have hlow := (m.get a).isLt
    have hrest := ih (a + 1)
    rw [Bytes.readLE, Nat.pow_succ]
    omega

/-- A number read is that of its first bytes below that of the others. -/
theorem Bytes.readLE_add (m : Bytes) (a n k : Nat) : m.readLE a (n + k) = m.readLE a n + 256 ^ n * m.readLE (a + n) k := by
  induction n generalizing a with
  | zero => simp [Bytes.readLE]
  | succ n ih =>
    rw [Nat.add_right_comm, Bytes.readLE, ih, Bytes.readLE, Nat.pow_succ, show a + 1 + n = a + (n + 1) by omega]
    ring

/-- COUNT and the location of a token are the halves of its eight bytes. -/
theorem Bytes.readLE_halves (m : Bytes) (a : Nat) :
    m.readLE a 4 = m.readLE a 8 % 2 ^ 32 ∧ m.readLE (a + 4) 4 = m.readLE a 8 / 2 ^ 32 := by
  have hsum := m.readLE_add a 4 4
  have hlow := m.readLE_lt a 4
  norm_num at hsum hlow ⊢
  omega

/-! ### A release (08 R219) -/

/-- A release leaves the location that R219 gives for the slot of its core. -/
theorem widenToken_eq (hi : Nat) {core slot : Nat} (hslot : slot < 16) (hcore : core < 20480) :
    widenToken hi core slot = locationAfter hi core slot := by
  have hkind : cut hi 30 2 < 4 := Nat.mod_lt _ (by omega)
  have hown : slot % 16 + core % 2 ^ 15 * 16 = 16 * core + slot := by omega
  have hnear : core / 128 * 128 * 16 = 16 * (core / 128 * 128) := Nat.mul_comm _ _
  have hlow : cut hi 0 4 = hi % 16 := by simp [cut]
  unfold widenToken locationAfter
  simp only [hlow, hown, hnear, Bool.and_eq_true, beq_iff_eq]
  generalize cut hi 30 2 = kind at hkind ⊢
  generalize cut hi 4 15 = at_
  generalize 16 * (core / 128 * 128) = near
  interval_cases kind
  · simp [Nat.add_assoc]
  · by_cases hsame : hi % 16 = slot ∧ at_ = core
    · simp [hsame, Nat.add_assoc]
    · by_cases hcluster : at_ / 128 = core / 128
      · simp [hsame, hcluster]
      · simp [hsame, hcluster]
  · by_cases hcluster : at_ / 128 = core / 128
    · simp [hcluster]
    · simp [hcluster]
  · simp

theorem locationAfter_lt (hi : Nat) {core slot : Nat} (hslot : slot < 16) (hcore : core < 20480) : locationAfter hi core slot < 2 ^ 32 := by
  unfold locationAfter
  dsimp only
  split
  · omega
  · split <;> omega

/-- A token word after a release that adds `n`, by the pack of a slot of a core. -/
def releasedToken (w n core slot : Nat) : Nat := (w % 2 ^ 32 + n) % 2 ^ 32 + widenToken (w / 2 ^ 32) core slot * 2 ^ 32

/-- What a release reads back as: its COUNT, and its location where the core and slot are ones of the module. -/
theorem readLE_releasedToken {m m' : Bytes} {a n core slot : Nat} (h : m' = m.writeLE a 8 (releasedToken (m.readLE a 8) n core slot)) :
    m'.readLE a 4 = (m.readLE a 4 + n) % 2 ^ 32 ∧
      (slot < 16 → core < 20480 → m'.readLE (a + 4) 4 = locationAfter (m.readLE (a + 4) 4) core slot) := by
  obtain ⟨hcount, hloc⟩ := m.readLE_halves a
  obtain ⟨hcount', hloc'⟩ := m'.readLE_halves a
  have hword : m'.readLE a 8 = releasedToken (m.readLE a 8) n core slot % 256 ^ 8 := by rw [h, Bytes.readLE_writeLE]
  rw [hcount', hloc', hword, hcount, hloc, releasedToken]
  refine ⟨by omega, fun hslot hcore => ?_⟩
  have hlt := locationAfter_lt (m.readLE a 8 / 2 ^ 32) hslot hcore
  rw [widenToken_eq _ hslot hcore]
  omega

section
variable {s : State} {x : Iss} {t : Xlated}

/-- The state once a release has added `n` to the token that an address translates to. -/
def Iss.tokenReleased (x : Iss) (t : Xlated) (n : Nat) : State :=
  t.s.devWrite x.f.core x.k.ctx t.pa 8 (releasedToken (t.s.mem.readLE t.pa 8) n x.f.core x.f.slot) t.attr

theorem execQtokRel_of_ready {d a : GReg} (h : s.Ready [rdG 0 d, rdG 1 a 2] x) (ht : x.tokenAt a.toNat = some (.ok t))
    (hops : ∀ o ∈ x.k.ops, o.done = true ∨ o.path ≠ .lane) :
    let y : Iss := { x with s := x.tokenReleased t (x.g d).toNat }
    execQtokRel d a s = .next (y.commit.retire x.k (y.saw t.pa 8)) := by
  rw [execQtokRel, issueU_of_ready h]
  simp only [ht, lanePath_performed hops, Bool.false_eq_true, if_false]
  rfl

/-! ### Reading a token (08 R219) -/

/-- A reader that takes the token's COUNT retires with it; any other has nothing. -/
theorem Iss.readToken_of_ok {a : Nat} (ht : x.tokenAt a = some (.ok t)) (d : Nat) (ok : Nat → Nat → Bool) :
    let y : Iss := { x with s := t.s }
    x.readToken d a ok = if ok (t.s.mem.readLE t.pa 4) (x.k.readG d).toNat = true then
      some (.next (y.retire (x.k.setG d (BitVec.ofNat 32 (t.s.mem.readLE t.pa 4))) (y.saw t.pa 8))) else none := by
  rw [Iss.readToken, ht]
  rfl

theorem countReached_iff {n target : Nat} : countReached n target = true ↔ (n + 2 ^ 32 - target) % 2 ^ 32 < 2 ^ 31 := decide_eq_true_iff

theorem execQtokAcq_of_ready {d a : GReg} (h : s.Ready [rdG 0 d, rdG 1 a 2] x) (ht : x.tokenAt a.toNat = some (.ok t)) :
    let y : Iss := { x with s := t.s }
    execQtokAcq d a s = .next (if (t.s.mem.readLE t.pa 4 + 2 ^ 32 - (x.k.readG d.toNat).toNat) % 2 ^ 32 < 2 ^ 31 then
      y.retire (x.k.setG d.toNat (BitVec.ofNat 32 (t.s.mem.readLE t.pa 4))) (y.saw t.pa 8) else x.stalledAt (.acquire d.toNat a.toNat)) := by
  intro y
  rw [execQtokAcq, issueU_of_ready h, Iss.readToken_of_ok ht]
  simp only [countReached_iff]
  split <;> rfl

theorem execQtokTry_of_ready {d a : GReg} (h : s.Ready [wrG 0 d, rdG 1 a 2] x) (ht : x.tokenAt a.toNat = some (.ok t)) :
    let y : Iss := { x with s := t.s }
    execQtokTry d a s = .next (y.retire (x.k.setG d.toNat (BitVec.ofNat 32 (t.s.mem.readLE t.pa 4))) (y.saw t.pa 8)) := by
  rw [execQtokTry, issueU_of_ready h, Iss.readToken_of_ok ht]
  rfl

theorem execQtokAcqPass_of_reached {core slot split d a : Nat} (hx : s.stalled core slot split = some x) (hst : x.sp.stall = some (.acquire d a))
    (ht : x.tokenAt a = some (.ok t)) (hreached : (t.s.mem.readLE t.pa 4 + 2 ^ 32 - (x.k.readG d).toNat) % 2 ^ 32 < 2 ^ 31) :
    let y : Iss := { x with s := t.s }
    execQtokAcqPass core slot split s =
      .next (y.retire (x.k.setG d (BitVec.ofNat 32 (t.s.mem.readLE t.pa 4))) (y.saw t.pa 8)) := by
  rw [execQtokAcqPass, onStall_of_stalled hx hst]
  simp only [Iss.readToken_of_ok ht, countReached_iff.2 hreached, ht, Option.isNone_some, Bool.false_eq_true, if_true, if_false]
  rfl

end

/-! ### Pushes (08 R220) -/

/-- An item pushed changes neither the pack nor the split of the instruction. -/
theorem foldl_pushItem_keeps (list : Nat → Nat) (item : Nat → Word) (ns : List Nat) (y : Iss) :
    (ns.foldl (fun y n => pushItem y (list n) (item n)) y).k = y.k ∧ (ns.foldl (fun y n => pushItem y (list n) (item n)) y).sp = y.sp := by
  have hone (y : Iss) (l : Nat) (w : Word) : (pushItem y l w).k = y.k ∧ (pushItem y l w).sp = y.sp := by
    unfold pushItem
    split <;> exact ⟨rfl, rfl⟩
  induction ns generalizing y with
  | nil => exact ⟨rfl, rfl⟩
  | cons n ns ih => exact ⟨(ih _).1.trans (hone y _ _).1, (ih _).2.trans (hone y _ _).2⟩

section
variable {s : State} {x : Iss} {g : PReg} {act : Mask} {d a : Nat}

/-- The instruction with the items of its active lanes in their lists, in lane order. -/
def Iss.pushed (x : Iss) (act : Mask) (d a : Nat) : Iss :=
  (lanesOf act).foldl (fun y n => pushItem y (x.k.readV x.sp d n).toNat (x.k.readV x.sp a n)) x

theorem Iss.pushed_k : (x.pushed act d a).k = x.k := (foldl_pushItem_keeps _ _ _ x).1
theorem Iss.pushed_sp : (x.pushed act d a).sp = x.sp := (foldl_pushItem_keeps _ _ _ x).2

theorem Iss.wlpush_of_fits (hfits : x.fits act d = true) :
    x.wlpush act d a = some (.next ((x.pushed act d a).commit.retire (x.pushed act d a).k (x.pushed act d a).sp)) := by
  simp only [Iss.wlpush, hfits, if_true]
  rfl

theorem Iss.wlpush_of_full (hfull : x.fits act d = false) : x.wlpush act d a = none := by
  simp only [Iss.wlpush, hfull, Bool.false_eq_true, if_false]

theorem execWlpush_of_idle {d a : VReg} (h : s.Ready [rdV 0 d, rdV 1 a] x) (hact : x.k.active x.sp g = 0) :
    execWlpush g d a s = .next (x.commit.retire x.k x.sp) := by
  rw [execWlpush, issue_of_ready h]
  simp only [hact, if_true]
  rfl

/-- A push whose lanes all name lists of the context appends or stalls. -/
theorem execWlpush_of_named {d a : VReg} (h : s.Ready [rdV 0 d, rdV 1 a] x) (hlists : x.lists ≠ []) (hact : x.k.active x.sp g ≠ 0)
    (hnamed : ∀ n, (x.k.active x.sp g).getLsbD n → (x.lists.get (x.v d n).toNat).isSome) : execWlpush g d a s =
      (x.wlpush (x.k.active x.sp g) d.toNat a.toNat).getD (.next (x.commit.stalledAt (.wlpush g d.toNat a.toNat))) := by
  have hnone : ((lanesOf (x.k.active x.sp g)).filter fun n => (x.lists.get (x.v d n).toNat).isNone) = [] :=
    List.filter_eq_nil_iff.2 fun n hn => by simp [Option.isSome_iff_ne_none.1 (hnamed n (mem_lanesOf.1 hn).2)]
  rw [execWlpush, issue_of_ready h]
  simp only [hact, List.isEmpty_eq_false_iff.2 hlists, hnone, Bool.false_eq_true, if_false]
  rfl

/-! ### What a pop takes (08 R221) -/

/-- The number of items that a pop of a list takes. -/
def Iss.popCount (x : Iss) (act : Mask) (w : WorkList) : Nat := if x.quiet then 0 else min w.count (popcount act)

/-- The pack with `n` items of a list in the lowest lanes of a mask, each with its predicate bit, and counted as held. -/
def Iss.popPack (x : Iss) (act : Mask) (d : Nat) (p : PReg) (w : WorkList) (n : Nat) : Pack :=
  let takers := (lanesOf act).take n
  let k := (x.k.setLanes d (maskOf takers) fun i => (x.items w n).getD ((takers.idxOf? i).getD 0) 0).setP p act (maskOf takers)
  { k with wlhold := k.wlhold + n }

/-- The instruction with the `n` oldest items out of a list. -/
def Iss.popList (x : Iss) (l : Nat) (w : WorkList) (n : Nat) : Iss :=
  if n = 0 then x else x.setLists (x.lists.put l { w with head := (w.head + n) % w.cap, count := w.count - n }) false

theorem Iss.wlpop_of_empty {p : PReg} {w : WorkList} (hw : x.lists.get (x.k.readG a).toNat = some w) (hcount : w.count = 0)
    (hquiet : x.quiet = false) : x.wlpop act d a p = none := by
  simp [Iss.wlpop, hw, hcount, hquiet]

theorem Iss.wlpop_of_items {p : PReg} {w : WorkList} (hw : x.lists.get (x.k.readG a).toNat = some w) (hitems : w.count ≠ 0 ∨ x.quiet = true) :
    x.wlpop act d a p = some (.next ((x.popList (x.k.readG a).toNat w (x.popCount act w)).commit.retire
      (x.popPack act d p w (x.popCount act w)) (x.popList (x.k.readG a).toNat w (x.popCount act w)).sp)) := by
  have hnone : ¬(decide (w.count = 0) && !x.quiet) = true := by
    rcases hitems with h | h <;> simp [h]
  simp only [Iss.wlpop, hw, if_neg hnone]
  rfl

theorem execWlpop_of_idle {d : VReg} {a : GReg} {p : PReg} (h : s.Ready [wrV 0 d, rdG 1 a] x) (hact : x.k.active x.sp g = 0) :
    execWlpop g d a p s = .next (x.commit.retire x.k x.sp) := by
  rw [execWlpop, issue_of_ready h]
  simp only [hact, if_true]
  rfl

/-- A pop from a list of the context retires or stalls. -/
theorem execWlpop_of_named {d : VReg} {a : GReg} {p : PReg} {w : WorkList} (h : s.Ready [wrV 0 d, rdG 1 a] x) (hlists : x.lists ≠ [])
    (hact : x.k.active x.sp g ≠ 0) (hw : x.lists.get (x.g a).toNat = some w) : execWlpop g d a p s =
      (x.wlpop (x.k.active x.sp g) d.toNat a.toNat p).getD (.next (x.commit.stalledAt (.wlpop g d.toNat a.toNat p))) := by
  rw [execWlpop, issue_of_ready h]
  simp only [hact, List.isEmpty_eq_false_iff.2 hlists, hw, Option.isNone_some, Bool.false_eq_true, if_false]
  rfl

/-! ### Holds given back (08 R222) -/

theorem execWldone_of_idle (h : s.Ready [] x) (hact : x.k.active x.sp g = 0) : execWldone g s = .next (x.retire x.k x.sp) := by
  rw [execWldone, issue_of_ready h]
  simp only [hact, if_true]
  rfl

theorem execWldone_of_held (h : s.Ready [] x) (hlists : x.lists ≠ []) (hheld : popcount (x.k.active x.sp g) ≤ x.k.wlhold) :
    execWldone g s = .next (x.retire { x.k with wlhold := x.k.wlhold - popcount (x.k.active x.sp g) } x.sp) := by
  by_cases hact : x.k.active x.sp g = 0
  · rw [execWldone_of_idle h hact, hact]
    rfl
  · rw [execWldone, issue_of_ready h]
    simp only [hact, List.isEmpty_eq_false_iff.2 hlists, Nat.not_lt.2 hheld, Bool.false_eq_true, if_false]
    rfl

/-! ### What a pop leaves (08 R221) -/

theorem Pack.setP_wlhold (k : Pack) (p : PReg) (m f : Mask) : (k.setP p m f).wlhold = k.wlhold := by unfold Pack.setP; split <;> rfl

theorem Pack.pred_setLanes (k : Pack) (r : Nat) (m : Mask) (f : Nat → Word) (p : PReg) : (k.setLanes r m f).pred p = k.pred p := by
  rw [Pack.v_setLanes]
  rfl

theorem Pack.wlhold_setLanes (k : Pack) (r : Nat) (m : Mask) (f : Nat → Word) : (k.setLanes r m f).wlhold = k.wlhold := by
  rw [Pack.v_setLanes]

/-- A write of lanes leaves every other word of the vector registers. -/
theorem Pack.get_setLanes_of_ne (k : Pack) {r q : Nat} {m : Mask} (f : Nat → Word) (h : ∀ i, i < 32 → m.getLsbD i = true → q ≠ 32 * r + i) :
    (k.setLanes r m f).v.get q = k.v.get q := by
  have hq : q = 32 * (q / 32) + q % 32 := (Nat.div_add_mod q 32).symm
  have hlt : q % 32 < 32 := Nat.mod_lt _ (by omega)
  rw [hq, Pack.get_setLanes _ _ _ hlt, if_neg]
  rintro ⟨hr, hm⟩
  exact h (q % 32) hlt hm (by omega)

/-- The lanes of a mask are 32 numbers at most, each once. -/
theorem getLsbD_maskOf_take {act : Mask} {n i : Nat} (hi : i < 32) :
    (maskOf ((lanesOf act).take n)).getLsbD i = decide (i ∈ (lanesOf act).take n) := by
  rw [getLsbD_maskOf _ hi, List.contains_eq_mem]

theorem mem_take_of_getElem? {l : List Nat} {n j i : Nat} (hj : j < n) (h : l[j]? = some i) : i ∈ l.take n :=
  List.mem_of_getElem? ((List.getElem?_take_of_lt hj).trans h)

/-- The place of a lane among the lowest of a mask. -/
theorem idxOf?_take_lanesOf {act : Mask} {n j i : Nat} (hj : j < n) (h : (lanesOf act)[j]? = some i) :
    (((lanesOf act).take n).idxOf? i).getD 0 = j := by
  have htake : ((lanesOf act).take n)[j]? = some i := (List.getElem?_take_of_lt hj).trans h
  obtain ⟨hlt, hget⟩ := List.getElem?_eq_some_iff.1 htake
  have hidx : ((lanesOf act).take n).idxOf i = j := by
    rw [← hget]
    exact ((lanesOf_nodup act).sublist (List.take_sublist n _)).idxOf_getElem _ hlt
  rw [List.idxOf_eq_getD_idxOf?] at hidx
  obtain ⟨m, hm⟩ := Option.isSome_iff_exists.1 (List.isSome_idxOf?.2 (mem_take_of_getElem? hj h))
  rw [hm] at hidx ⊢
  exact hidx

theorem Iss.getD_items (x : Iss) (w : WorkList) {n j : Nat} (hj : j < n) :
    (x.items w n).getD j 0 = BitVec.ofNat 32 (x.s.mem.readLE (w.ring + 4 * ((w.head + j) % w.cap)) 4) := by
  simp [Iss.items, hj]

variable (p : PReg) (w : WorkList) (n : Nat)

theorem Iss.popPack_wlhold : (x.popPack act d p w n).wlhold = x.k.wlhold + n := by
  show (Pack.setP _ p act _).wlhold + n = _
  rw [Pack.setP_wlhold, Pack.wlhold_setLanes]

theorem Iss.popPack_v : (x.popPack act d p w n).v = (x.k.setLanes d (maskOf ((lanesOf act).take n)) fun i =>
    (x.items w n).getD ((((lanesOf act).take n).idxOf? i).getD 0) 0).v := Pack.setP_v _ p act _

variable {p w n}

theorem Iss.popPack_pred (hp : p ≠ 7) (i : Nat) : ((x.popPack act d p w n).pred p).getLsbD i =
    if act.getLsbD i then decide (i ∈ (lanesOf act).take n) else (x.k.pred p).getLsbD i := by
  show ((Pack.setP _ p act _).pred p).getLsbD i = _
  rw [Pack.getLsbD_pred_setP_self _ hp, Pack.pred_setLanes]
  by_cases hi : i < 32
  · rw [getLsbD_maskOf_take hi]
  · rw [BitVec.getLsbD_of_ge act i (Nat.le_of_not_lt hi)]
    rfl

theorem Iss.popPack_taken {j i : Nat} (hj : j < n) (hi : (lanesOf act)[j]? = some i) : (x.popPack act d p w n).v.get (32 * d + i) =
    BitVec.ofNat 32 (x.s.mem.readLE (w.ring + 4 * ((w.head + j) % w.cap)) 4) := by
  have hlt : i < 32 := (mem_lanesOf.1 (List.mem_of_getElem? hi)).1
  have htaken : (maskOf ((lanesOf act).take n)).getLsbD i = true :=
    (getLsbD_maskOf_take hlt).trans (decide_eq_true (mem_take_of_getElem? hj hi))
  rw [Iss.popPack_v, Pack.get_setLanes _ _ _ hlt, if_pos ⟨rfl, htaken⟩, idxOf?_take_lanesOf hj hi, x.getD_items w hj]

theorem Iss.popPack_others {r : Nat} (h : ∀ j i, j < n → (lanesOf act)[j]? = some i → r ≠ 32 * d + i) :
    (x.popPack act d p w n).v.get r = x.k.v.get r := by
  rw [Iss.popPack_v, Pack.get_setLanes_of_ne]
  intro i hi hm
  rw [getLsbD_maskOf_take hi, decide_eq_true_eq] at hm
  obtain ⟨j, hj⟩ := List.mem_iff_getElem?.1 hm
  have hjn : j < n := by
    have := (List.getElem?_eq_some_iff.1 hj).1
    rw [List.length_take] at this
    omega
  exact h j i hjn ((List.getElem?_take_of_lt hjn).symm.trans hj)

/-- A pop changes the context's lists only where it takes an item. -/
theorem Iss.popList_spec {l : Nat} (hw : x.lists.get l = some w) (n : Nat) : ∃ u, x.popList l w n = { x with s := u } ∧
    (0 < n → ∃ c, u.context x.k.ctx = some c ∧ c.lists.get l = some { w with head := (w.head + n) % w.cap, count := w.count - n }) := by
  unfold Iss.popList
  split
  · next hzero => exact ⟨x.s, rfl, fun hpos => absurd hzero (Nat.ne_of_gt hpos)⟩
  · refine ⟨_, rfl, fun _ => ?_⟩
    cases hc : x.s.context x.k.ctx with
    | none => simp [Iss.lists, hc, Table.get] at hw
    | some c => exact ⟨_, (Table.get_update_self _ _ _).trans (congrArg _ hc), Table.get_put_self _ _ _⟩

/-- A pack that goes on with a split retired keeps its registers and the items it holds. -/
theorem Pack.setSplit_started_keeps (k : Pack) (sp : Split) : (k.started.setSplit sp).wlhold = k.wlhold ∧
    (k.started.setSplit sp).v = k.v ∧ ∀ p, (k.started.setSplit sp).pred p = k.pred p :=
  ⟨rfl, rfl, fun _ => rfl⟩

/-- What a pop leaves of its pack, its split and the context's lists. -/
theorem popped_popList (hid : x.sp.id = x.f.split) {l : Nat} (hw : x.lists.get l = some w) :
    popped x act d l p w ((x.popList l w (x.popCount act w)).commit.retire (x.popPack act d p w (x.popCount act w))
      (x.popList l w (x.popCount act w)).sp) := by
  unfold popped
  intro n
  have hn : x.popCount act w = n := rfl
  rw [hn]
  clear_value n
  obtain ⟨u, hu, hlists⟩ := x.popList_spec hw n
  rw [hu]
  let y : Iss := { x with s := u }
  have hnow : x.now (y.commit.retire (x.popPack act d p w n) x.sp) = _ := y.commit.now_retireTo (x.popPack act d p w n) x.sp x.f.next hid
  obtain ⟨hhold, hv, hpred⟩ := (x.popPack act d p w n).setSplit_started_keeps (x.sp.retire x.f.next y.commit.s.clock)
  refine ⟨_, _, hnow, hhold.trans (Iss.popPack_wlhold p w n), Split.retire_pc .., fun hp i => ?_, ?_, ?_, hlists⟩
  · rw [hpred]
    exact Iss.popPack_pred hp i
  · rw [hv]
    exact fun j i => Iss.popPack_taken
  · rw [hv]
    exact fun r => Iss.popPack_others

end

/-- Settles O42: tokens by what their readers retire with, lists by what a push appends and a pop takes. -/
theorem tokenAndWorkListResults : Obligations.TokenAndWorkListResults := by
  refine ⟨⟨fun d a s x t ht hmem => ⟨fun h => ⟨fun hops harmed => ?_, ?_⟩, fun h => ?_⟩,
      fun core slot split s x t d a hx hst ht hreached => execQtokAcqPass_of_reached hx hst ht hreached⟩,
    fun g d a s x h hlists hact hnamed => ⟨fun hfits => ?_, fun hfull => ?_⟩,
    fun g d a p w s x h hid hlists hact hw => ⟨fun hcount hquiet => ?_, fun hitems => ?_⟩,
    fun g s x hact => ⟨fun d a h => execWlpush_of_idle h hact, fun d a p h => execWlpop_of_idle h hact, fun h => execWldone_of_idle h hact⟩,
    fun g s x h hlists hheld => execWldone_of_held h hlists hheld,
    fun core slot split s x hx => ⟨fun g d a hst hfits => ?_, fun g d a p w hst hw hitems hid => ?_⟩⟩
  · have hwritten : (x.tokenReleased t (x.g d).toNat).mem =
        s.mem.writeLE t.pa 8 (releasedToken (s.mem.readLE t.pa 8) (x.g d).toNat x.f.core x.f.slot) := by
      rw [Iss.tokenReleased, State.devWrite_mem _ _ _ _ _ _ harmed, hmem]
    exact ⟨_, execQtokRel_of_ready h ht hops, (readLE_sameOutside_of_writeLE hwritten).2, readLE_releasedToken hwritten⟩
  · rw [← hmem]
    exact execQtokAcq_of_ready h ht
  · rw [← hmem]
    exact execQtokTry_of_ready h ht
  · have hexec : exec (.wlpush g d a) s = _ := execWlpush_of_named h hlists hact hnamed
    rw [hexec, Iss.wlpush_of_fits hfits]
    exact ⟨rfl, Iss.pushed_k⟩
  · have hexec : exec (.wlpush g d a) s = _ := execWlpush_of_named h hlists hact hnamed
    rw [hexec, Iss.wlpush_of_full hfull]
    rfl
  · have hexec : exec (.wlpop g d a p) s = _ := execWlpop_of_named h hlists hact hw
    rw [hexec, Iss.wlpop_of_empty hw hcount hquiet]
    rfl
  · have hexec : exec (.wlpop g d a p) s = _ := execWlpop_of_named h hlists hact hw
    rw [Iss.wlpop_of_items hw hitems] at hexec
    exact ⟨_, hexec, popped_popList hid hw⟩
  · have hexec : exec (.wlpushResume core slot split) s = _ := onStall_of_stalled hx hst "WLPUSH_RESUME" _
    simp only [Iss.wlpush_of_fits hfits, Iss.pushed_k, Iss.pushed_sp] at hexec
    exact ⟨_, hexec, rfl⟩
  · have hexec : exec (.wlpopResume core slot split) s = _ := onStall_of_stalled hx hst "WLPOP_RESUME" _
    simp only [Iss.wlpop_of_items hw hitems] at hexec
    obtain ⟨-, -, -, -, -, -, -, -, hsplit⟩ := State.of_stalled hx
    exact ⟨_, hexec, popped_popList (hid.trans hsplit.symm) hw⟩

end Sys2Proof.Machine

/-!
The Trail's instructions (08 R223-R226, 20 R411-R418): what an accepted record leaves of its sequence, and records, emissions, marks and
truncations that pass their checks, with the statement O43.
-/

namespace Sys2Proof.Machine

/-! ### Sequences after their updates -/

theorem State.seq_congr {s t : State} (h : t.contexts = s.contexts) (ctx n : Nat) : t.seq ctx n = s.seq ctx n := by
  rw [State.seq, State.seq, State.context, State.context, h]

/-- A change of a context that leaves its sequences alone changes none. -/
theorem State.seq_modContext_of_seqs (s : State) (ctx n : Nat) {f : Context → Context} (h : ∀ c, (f c).seqs = c.seqs) :
    (s.modContext ctx f).seq ctx n = s.seq ctx n := by
  have hcontext : (s.modContext ctx f).context ctx = (s.context ctx).map f := Table.get_update_self _ _ _
  rw [State.seq, State.seq, hcontext]
  cases s.context ctx with
  | none => rfl
  | some c => exact congrArg (fun m : Table Seq => m.get n) (h c)

theorem State.seq_modSeq_self (s : State) (ctx n : Nat) (f : Seq → Seq) : (s.modSeq ctx n f).seq ctx n = (s.seq ctx n).map f := by
  have hcontext : (s.modSeq ctx n f).context ctx = (s.context ctx).map fun c => { c with seqs := c.seqs.update n f } :=
    Table.get_update_self _ _ _
  rw [State.seq, State.seq, hcontext]
  cases s.context ctx with
  | none => rfl
  | some c => exact Table.get_update_self _ _ _

theorem State.seq_unask (s : State) (ctx n : Nat) (a : Asker) : (s.unask ctx a).seq ctx n = s.seq ctx n :=
  s.seq_modContext_of_seqs ctx n fun _ => rfl

/-- An instruction that retires leaves every sequence. -/
theorem Iss.seq_commit_retire (x : Iss) (k : Pack) (sp : Split) (ctx n : Nat) : (x.commit.retire k sp).seq ctx n = x.s.seq ctx n :=
  State.seq_congr rfl ctx n

theorem Iss.seq_unask_commit_retire (x : Iss) (k : Pack) (sp : Split) (n : Nat) :
    (x.unask.commit.retire k sp).seq x.k.ctx n = x.s.seq x.k.ctx n :=
  (Iss.seq_commit_retire ..).trans (State.seq_unask ..)

/-! ### Appending a record (20 R412, R413) -/

/-- Shipping moves on what a sequence has shipped, and nothing else of it. -/
theorem State.seq_ship {s : State} {ctx n : Nat} {q : Seq} (h : s.seq ctx n = some q) :
    ∃ m, (s.ship ctx n).seq ctx n = some { q with shipped := m } := by
  unfold State.ship
  split
  · next p q' hp hq =>
    obtain rfl : q = q' := Option.some.inj (h.symm.trans hq)
    split
    · exact ⟨q.shipped, h⟩
    · exact ⟨q.sidx, (State.seq_congr rfl ctx n).trans ((State.seq_modSeq_self _ ctx n _).trans (congrArg _
        ((State.seq_congr (by split <;> rfl) ctx n).trans h)))⟩
  · exact ⟨q.shipped, h⟩

/-- The record that a sequence appends next. -/
def Seq.nextRecord (q : Seq) (ctx seq kind ord pos : Nat) (payload : DWord) : JRec :=
  { kind := kind, ord := ord, seq := seq, pos := pos, ctx := ctx, sidx := q.sidx, payload := payload }

/-- A record appended stands last in its stream. -/
theorem State.seq_appendRecord {s : State} {ctx n : Nat} {q : Seq} (h : s.seq ctx n = some q) (kind ord pos : Nat) (payload : DWord) :
    ∃ m, (s.appendRecord ctx n kind ord pos payload).seq ctx n =
      some { q with stream := q.stream ++ [q.nextRecord ctx n kind ord pos payload], sidx := q.sidx + 1, shipped := m } :=
  State.seq_ship ((s.seq_modSeq_self ctx n _).trans (congrArg _ h))

/-! ### What acceptance does to a sequence (08 R224, 20 R418) -/

/-- Acceptance moves NEXT on for a token, and leaves the stream and the emissions as they are. -/
theorem Seq.accept_keeps (q : Seq) (kind pos : Nat) (payload : DWord) :
    (q.accept kind pos payload).q.next = (if kind = 1 then q.next + 1 else q.next) ∧ (q.accept kind pos payload).q.emit = q.emit ∧
      (q.accept kind pos payload).q.held = q.held ∧ (q.accept kind pos payload).q.stream = q.stream ∧
      (q.accept kind pos payload).q.sidx = q.sidx := by
  unfold Seq.accept
  dsimp only
  cases q.journalled kind pos <;> split <;> exact ⟨rfl, rfl, rfl, rfl, rfl⟩

/-- A journalled record is in force and nothing is appended; another payload than the program's forces what is emitted. -/
theorem Seq.accept_of_journalled {q : Seq} {kind pos : Nat} {j : JRec} (h : q.journalled kind pos = some j) (payload : DWord) :
    (q.accept kind pos payload).append = false ∧ (q.accept kind pos payload).payload = j.payload ∧
      (j.payload ≠ payload → (q.accept kind pos payload).q.forced = true) := by
  unfold Seq.accept
  simp only [h]
  split
  · exact ⟨rfl, rfl, fun hne => by simp [Seq.endStep, Seq.counted, hne]⟩
  · exact ⟨rfl, rfl, fun hne => by simp [Seq.counted, hne]⟩

/-- A record that is not journalled is appended with the program's payload. -/
theorem Seq.accept_of_new {q : Seq} {kind pos : Nat} (h : q.journalled kind pos = none) (payload : DWord) :
    (q.accept kind pos payload).append = true ∧ (q.accept kind pos payload).payload = payload := by
  unfold Seq.accept
  simp only [h]
  split <;> exact ⟨rfl, rfl⟩

theorem State.seq_foldl_journalEvent (s : State) (head : List Byte) (ctx n pos : Nat) (events : List (Nat × Nat × Nat × DWord × DWord)) :
    (events.foldl (fun s e => s.journalEvent head ctx e.1 e.2.1 e.2.2.1 n pos 0 e.2.2.2.1 e.2.2.2.2) s).seq ctx n = s.seq ctx n := by
  induction events generalizing s with
  | nil => rfl
  | cons e es ih => exact (ih _).trans (State.seq_congr rfl ctx n)

/-- A record whose turn it is is accepted: its sequence is as acceptance makes it, with the record last where it is appended. -/
theorem State.acceptRecord_spec {s : State} {who : Asker} {ctx n : Nat} {q : Seq} (hseq : s.seq ctx n = some q)
    (hturn : s.recordTurn ctx (some who) 1 = true) (head : List Byte) (kind : Nat) (payload : DWord) :
    let a := q.accept kind q.next payload
    ∃ t q', s.acceptRecord who head ctx n kind q payload = some (t, a.payload) ∧ t.seq ctx n = some q' ∧
      q'.next = a.q.next ∧ q'.emit = a.q.emit ∧ q'.held = a.q.held ∧ q'.forced = a.q.forced ∧ q'.stream = a.q.stream ++
        if a.append then [a.q.nextRecord ctx n kind (q.ordinal kind q.next) q.next payload] else [] := by
  intro a
  have haccept : s.acceptRecord who head ctx n kind q payload = some (a.events.foldl
      (fun s e => s.journalEvent head ctx e.1 e.2.1 e.2.2.1 n q.next 0 e.2.2.2.1 e.2.2.2.2)
      (if a.append then (s.modSeq ctx n fun _ => a.q).appendRecord ctx n kind (q.ordinal kind q.next) q.next payload
        else s.modSeq ctx n fun _ => a.q), a.payload) := by
    simp only [State.acceptRecord, hturn, Bool.not_true, Bool.and_false, Bool.false_eq_true, if_false]
    rfl
  have hchanged : (s.modSeq ctx n fun _ => a.q).seq ctx n = some a.q := (s.seq_modSeq_self ctx n _).trans (congrArg _ hseq)
  cases happend : a.append with
  | false =>
    rw [happend] at haccept
    exact ⟨_, _, haccept, (State.seq_foldl_journalEvent ..).trans hchanged, rfl, rfl, rfl, rfl, (List.append_nil _).symm⟩
  | true =>
    obtain ⟨m, happended⟩ := State.seq_appendRecord hchanged kind (q.ordinal kind q.next) q.next payload
    rw [happend] at haccept
    exact ⟨_, _, haccept, (State.seq_foldl_journalEvent ..).trans happended, rfl, rfl, rfl, rfl, rfl⟩

/-! ### Records (08 R224) -/

section
variable {s : State} {x : Iss} {q : Seq}

/-- An instruction whose checks all pass goes on with its sequence (08 R223). -/
theorem Iss.jrnl_of_passes {a : Nat} (hjournal : (x.s.header x.k).journal = true) (hseq : x.s.seq x.k.ctx (x.jseq a) = some q)
    {own : Seq → List (Nat × Bool × Nat)} (hown : ∀ e ∈ own q, e.2.1 = false) : x.jrnl a own = .ok q := by
  have hfind : (own q).find? (·.2.1) = none := List.find?_eq_none.2 fun e he => by simp [hown e he]
  simp only [Iss.jrnl, hjournal, hseq, hfind, Bool.not_true, Bool.false_eq_true, if_false]

/-- A `jrec` that can be accepted is, and leaves what an accepted record leaves. -/
theorem Iss.jrec_of_canRecord {kind d a : Nat} (h : canRecord x a kind q) (hid : x.sp.id = x.f.split) :
    ∃ t, x.jrec kind d a = some (.next t) ∧ recorded x d a kind q t := by
  obtain ⟨hjournal, hseq, hpos, hreplay, hordinal, hturn⟩ := h
  obtain ⟨t, q', haccept, hseq', hnext, hemit, hheld, hforced, hstream⟩ :=
    State.acceptRecord_spec hseq hturn (x.eventHead 6) kind (x.jpayload a)
  obtain ⟨hnext', hemit', hheld', hstream', hsidx'⟩ := q.accept_keeps kind q.next (x.jpayload a)
  have hdet : (q.replay && !(x.s.header x.k).det) = false := by
    cases hr : q.replay with
    | false => rfl
    | true => simp [hreplay hr]
  have hjrnl : x.jrnl a (fun q => [(0x03, x.jpos a != q.next, q.next), (0x07, q.replay && !(x.s.header x.k).det, 0),
      (0x08, decide (255 < q.ordinal kind (x.jpos a)), 0)]) = .ok q := by
    refine Iss.jrnl_of_passes hjournal hseq ?_
    simp [hpos, hdet, hordinal]
  let y : Iss := { x with s := t }
  refine ⟨y.unask.commit.retire (x.k.setG64 d (q.accept kind q.next (x.jpayload a)).payload) x.sp, ?_, ?_⟩
  · simp only [Iss.jrec, hjrnl, haccept]
    rfl
  · refine ⟨_, _, q', y.unask.commit.now_retireTo _ x.sp x.f.next hid, Split.retire_pc .., (Iss.seq_unask_commit_retire y _ _ _).trans hseq',
      hnext.trans hnext', hemit.trans hemit', hheld.trans hheld', ?_⟩
    have hpayload : (Pack.started (x.k.setG64 d (q.accept kind q.next (x.jpayload a)).payload)).readG64 d = _ :=
      Pack.readG64_setG64_self x.k d _
    split
    · next j hj =>
      obtain ⟨happend, hpay, hforce⟩ := Seq.accept_of_journalled hj (x.jpayload a)
      rw [happend, hstream', if_neg Bool.false_ne_true, List.append_nil] at hstream
      exact ⟨hpayload.trans hpay, hstream, fun hne => hforced.trans (hforce hne)⟩
    · next hj =>
      obtain ⟨happend, hpay⟩ := Seq.accept_of_new hj (x.jpayload a)
      rw [happend, hstream', if_pos rfl] at hstream
      exact ⟨hpayload.trans hpay, _, hstream, rfl, rfl, rfl, rfl, hsidx'⟩

theorem JournalRecord.exec_eq {i : Instr} {kind : Nat} {d a : GReg} (h : JournalRecord i kind d a) :
    ∃ mn, ∀ s, exec i s = jrecIssue mn kind d a s := by
  cases h <;> exact ⟨_, fun _ => rfl⟩

theorem jrecIssue_of_room {d a : GReg} (h : s.Ready [wrG 0 d 2, rdG 1 a 4] x) (hroom : (x.s.core x.f.core).portRecords < 64) (mn : String)
    (kind : Nat) : jrecIssue mn kind d a s =
      (x.jrec kind d.toNat a.toNat).getD (x.ask.commit.stallAt (.jrec kind d.toNat a.toNat)) := by
  rw [jrecIssue, issueU_of_ready h]
  simp only [Nat.not_le.2 hroom, if_false]

/-! ### Emissions, marks and truncations (08 R225, R226) -/

/-- The emission at EMIT moves EMIT on; it is suppressed at or below LEFTMAX, and held above (08 R225, 20 R418). -/
theorem Seq.emitted_spec (q : Seq) : q.emitted.emit = q.emit + 1 ∧ q.emitted.stream = q.stream ∧
    (posLe q.emit q.leftMax = true → q.emitted.held = q.held) ∧ (posLe q.emit q.leftMax = false → ∃ e, q.emitted.held = q.held ++ [e] ∧
      e.pos = q.emit ∧ e.token = Words.get q.toks q.emit ∧ e.resent = posLe q.emit q.lastJ) := by
  cases hleft : posLe q.emit q.leftMax with
  | true => simp [Seq.emitted, hleft]
  | false => simp [Seq.emitted, hleft]

variable {a : GReg} (h : s.Ready [rdG 1 a 4] x) (hjournal : (x.s.header x.k).journal = true)
  (hseq : x.s.seq x.k.ctx (x.jseq a.toNat) = some q)
include h hjournal hseq

/-- An emission that passes its checks and has room leaves its sequence as emitted. -/
theorem execJemit_next (hemit : x.jpos a.toNat = q.emit) (hnext : x.jpos a.toNat < q.next) (hzero : x.jpayload a.toNat = 0)
    (hroom : posLe (x.jpos a.toNat) q.leftMax = true ∨ x.s.heldEmissions < 4096) :
    ∃ t, execJemit a s = .next t ∧ t.seq x.k.ctx (x.jseq a.toNat) = some q.emitted := by
  have hjrnl : x.jrnl a.toNat (fun q => [(0x04, x.jpos a.toNat != q.emit, q.emit), (0x04, decide (q.next ≤ x.jpos a.toNat), q.next),
      (0x06, x.jpayload a.toNat != 0, 0)]) = .ok q := by
    refine Iss.jrnl_of_passes hjournal hseq ?_
    simp [hemit, hemit ▸ hnext, hzero]
  have hgo : (!posLe (x.jpos a.toNat) q.leftMax && decide (4096 ≤ x.s.heldEmissions)) = false := by
    rcases hroom with hleft | hheld
    · rw [hleft]; rfl
    · rw [decide_eq_false (Nat.not_le.2 hheld), Bool.and_false]
  rw [execJemit, issueU_of_ready h]
  simp only [hjrnl, hgo, Bool.false_eq_true, if_false]
  exact ⟨_, rfl, (Iss.seq_commit_retire ..).trans ((State.seq_modSeq_self ..).trans (congrArg _ hseq))⟩

/-- A mark below NEXT stands in its sequence, and its record last in the stream. -/
theorem execJmark_next (hnext : x.jpos a.toNat < q.next) (hturn : x.s.recordTurn x.k.ctx (some x.asker) 1 = true) :
    ∃ t m, execJmark a s = .next t ∧ t.seq x.k.ctx (x.jseq a.toNat) = some { q with
      marks := q.marks ++ [(x.jpos a.toNat, x.jpayload a.toNat)]
      stream := q.stream ++ [q.nextRecord x.k.ctx (x.jseq a.toNat) 4 0 (x.jpos a.toNat) (x.jpayload a.toNat)]
      sidx := q.sidx + 1, shipped := m } := by
  have hjrnl : x.jrnl a.toNat (fun q => [(0x05, decide (q.next ≤ x.jpos a.toNat), q.next)]) = .ok q := by
    refine Iss.jrnl_of_passes hjournal hseq ?_
    simp [hnext]
  have hmarked : (x.s.modSeq x.k.ctx (x.jseq a.toNat) fun q =>
      { q with marks := q.marks ++ [(x.jpos a.toNat, x.jpayload a.toNat)] }).seq x.k.ctx (x.jseq a.toNat) = _ :=
    (State.seq_modSeq_self ..).trans (congrArg _ hseq)
  obtain ⟨m, happended⟩ := State.seq_appendRecord hmarked 4 0 (x.jpos a.toNat) (x.jpayload a.toNat)
  rw [execJmark, issueU_of_ready h]
  simp only [hjrnl, hturn, Bool.not_true, Bool.false_eq_true, if_false]
  exact ⟨_, m, rfl, (Iss.seq_unask_commit_retire ..).trans happended⟩

/-- A truncation at or below DURABLE drops the records up to its position, and its own stands last. -/
theorem execJtrunc_next (hdurable : posLe (x.jpos a.toNat) q.durable = true) (hzero : x.jpayload a.toNat = 0) (hnext : x.jpos a.toNat < q.next)
    (hleft : q.left = [])
    (hroom : x.s.truncRoom (x.s.modSeq x.k.ctx (x.jseq a.toNat) fun q => q.truncate (x.jpos a.toNat)) x.k.ctx x.asker = true) :
    ∃ t q', execJtrunc a s = .next t ∧ t.seq x.k.ctx (x.jseq a.toNat) = some q' ∧ q'.stream =
      (q.stream.filter fun e => decide (x.jpos a.toNat < e.pos)) ++ [q.nextRecord x.k.ctx (x.jseq a.toNat) 6 0 (x.jpos a.toNat) 0] := by
  have hjrnl : x.jrnl a.toNat (fun q => [(0x05, !posLe (x.jpos a.toNat) q.durable, durableWord q.durable),
      (0x06, x.jpayload a.toNat != 0, 0), (0x06, decide (q.next ≤ x.jpos a.toNat), q.next)]) = .ok q := by
    refine Iss.jrnl_of_passes hjournal hseq ?_
    simp [hdurable, hzero, hnext]
  have htruncated : (x.s.modSeq x.k.ctx (x.jseq a.toNat) fun q => q.truncate (x.jpos a.toNat)).seq x.k.ctx (x.jseq a.toNat) = _ :=
    (State.seq_modSeq_self ..).trans (congrArg _ hseq)
  obtain ⟨m, happended⟩ := State.seq_appendRecord htruncated 6 0 (x.jpos a.toNat) 0
  rw [execJtrunc, issueU_of_ready h]
  simp only [hjrnl, hroom, hleft, State.settleLeft, Bool.not_true, Bool.false_eq_true, if_false]
  have hsettled := (State.seq_modSeq_self _ x.k.ctx (x.jseq a.toNat) fun q => { q with left := [] }).trans (congrArg _ happended)
  exact ⟨_, _, rfl, (Iss.seq_unask_commit_retire ..).trans ((State.seq_unask ..).trans hsettled), rfl⟩

end

/-- Settles O43: a `jrec` by what acceptance does to its sequence, the others by what each leaves of theirs. -/
theorem journalInstructionResults : Obligations.JournalInstructionResults := by
  refine ⟨fun i kind d a hi s x q h hid hcan hroom => ?_, fun core slot split s x kind d a q hx hid hst hcan => ?_,
    fun a s x q h hjournal hseq => ⟨fun hemit hnext hzero hroom => ?_, fun hnext hturn => ?_, fun hdurable hzero hnext hleft hroom => ?_⟩⟩
  · obtain ⟨mn, hexec⟩ := hi.exec_eq
    obtain ⟨t, hjrec, hrecorded⟩ := Iss.jrec_of_canRecord (d := d.toNat) hcan hid
    rw [hexec, jrecIssue_of_room h hroom, hjrec]
    exact ⟨t, rfl, hrecorded⟩
  · obtain ⟨-, -, -, -, -, -, -, -, hsplit⟩ := State.of_stalled hx
    obtain ⟨t, hjrec, hrecorded⟩ := Iss.jrec_of_canRecord (d := d) hcan (hid.trans hsplit.symm)
    have hexec : exec (.jrecAcceptance core slot split) s = _ := onStall_of_stalled hx hst "JREC_ACCEPTANCE" _
    simp only [hjrec] at hexec
    exact ⟨t, hexec, hrecorded⟩
  · obtain ⟨t, hexec, hemitted⟩ := execJemit_next h hjournal hseq hemit hnext hzero hroom
    obtain ⟨hemit', hstream, hsuppressed, hheld⟩ := q.emitted_spec
    rw [← hemit] at hsuppressed hheld
    exact ⟨t, q.emitted, hexec, hemitted, hemit', hstream, hsuppressed, hheld⟩
  · obtain ⟨t, m, hexec, hmarked⟩ := execJmark_next h hjournal hseq hnext hturn
    exact ⟨t, _, _, hexec, hmarked, rfl, rfl, rfl, rfl, rfl⟩
  · obtain ⟨t, q', hexec, htruncated, hstream⟩ := execJtrunc_next h hjournal hseq hdurable hzero hnext hleft hroom
    exact ⟨t, q', _, hexec, htruncated, hstream, rfl, rfl⟩

end Sys2Proof.Machine

/-!
The optics and the rings of the Sett (10 R271, 19 R397-R407, 20 R424): what reports and requests leave, ring failures, laser modules, ports,
planes and the chunks of a collective, with the statements O52 and O59.
-/

namespace Sys2Proof.Machine

/-! ### Reset -/

/-- Settles O59: every table is empty at reset, and each register reads its default. -/
theorem resetRegisters : Obligations.ResetRegisters :=
  ⟨fun _ => rfl, fun _ => rfl, fun _ => rfl, fun _ => rfl, fun _ => rfl, fun _ _ => (by decide : Link.word {} = 0),
    by decide, rfl, rfl, rfl, rfl, fun _ _ => rfl, fun _ => rfl⟩

/-! ### What the module tells (10 R270, 18 R384, 20 R420) -/

/-- What each step of a fold keeps, the fold keeps. -/
theorem foldl_keeps {σ α β : Type} {f : σ → α → σ} {g : σ → β} (h : ∀ s a, g (f s a) = g s) (l : List α) (s : σ) :
    g (l.foldl f s) = g s := by
  induction l generalizing s with
  | nil => rfl
  | cons a l ih => exact (ih _).trans (h s a)

/-- The state without what the module tells of itself: its events, records and messages, and the generation of the Sett status block. States that
agree in it differ in reports only. -/
def State.untold (s : State) : State := { s with settGen := 0, events := [], errSeq := 0, errors := [], mgmt := {}, outbox := [] }

theorem State.untold_datagram (s : State) (dest port type : Nat) (body : List Byte) : (s.datagram dest port type body).untold = s.untold := by
  unfold State.datagram
  split <;> rfl

theorem State.untold_toCollectors (s : State) (type : Nat) (body : List Byte) : (s.toCollectors type body).untold = s.untold := by
  refine (foldl_keeps (g := State.untold) (fun s (c : Nat × Nat) => s.untold_datagram c.1 c.2 type body) _ _).trans ?_
  split <;> rfl

theorem State.untold_announce (s old : State) : (s.announce old).untold = s.untold := by
  unfold State.announce
  split
  · exact s.untold_toCollectors _ _
  · rfl

theorem State.untold_settChange (s : State) : s.settChange.untold = s.untold := by
  unfold State.settChange
  split <;> rfl

theorem State.untold_reportError (s : State) (e : ErrorReport) (split : Option Nat) : (s.reportError e split).1.untold = s.untold := by
  unfold State.reportError
  split
  · rfl
  · dsimp only
    split
    · exact State.untold_toCollectors _ _ _
    · rfl

/-- A request for replacement raises REPLREQ, and is told. -/
theorem State.untold_requestReplacement (s : State) : s.requestReplacement.untold = ({ s with replReq := true } : State).untold := by
  unfold State.requestReplacement
  split
  · next h => rw [State.untold, State.untold, h]
  · exact (State.untold_announce _ _).trans (State.untold_settChange _)

section
variable {s t : State} (h : t.untold = s.untold)
include h

/-! What is not told is the same in states that differ in reports only. -/

theorem State.link_of_untold (p bus : Nat) : t.link p bus = s.link p bus := (congrArg (fun u : State => u.link p bus) h :)
theorem State.laser_of_untold (m : Nat) : t.laser m = s.laser m := (congrArg (fun u : State => u.laser m) h :)
theorem State.port_of_untold (k : Nat) : t.port k = s.port k := (congrArg (fun u : State => u.port k) h :)
theorem State.replReq_of_untold : t.replReq = s.replReq := (congrArg State.replReq h :)
theorem State.settRelay_of_untold : t.settRelay = s.settRelay := (congrArg State.settRelay h :)
theorem State.sparesOf_of_untold (bus wg : Nat) : t.sparesOf bus wg = s.sparesOf bus wg := (congrArg (fun u : State => u.sparesOf bus wg) h :)
theorem State.ringDead_of_untold (bus wg g p : Nat) (rx : Bool) : t.ringDead bus wg g p rx = s.ringDead bus wg g p rx :=
  (congrArg (fun u : State => u.ringDead bus wg g p rx) h :)

end

/-! ### Ports one by one (19 R402) -/

theorem State.port_modPort (s : State) (k : Nat) (f : Port → Port) (j : Nat) :
    (s.modPort k f).port j = if j = k then f (s.port k) else s.port j := by
  unfold State.port State.modPort
  split
  · next h => rw [h, Table.getD_put_self]; rfl
  · next h => exact Table.getD_put_of_ne _ _ _ h

theorem State.port_modPort_self (s : State) (k : Nat) (f : Port → Port) : (s.modPort k f).port k = f (s.port k) := by
  rw [State.port_modPort, if_pos rfl]

/-- Changing some ports changes ports only, each of those named once. -/
theorem State.foldl_modPort_spec (f : Port → Port) {ks : List Nat} (hks : ks.Nodup) (s : State) :
    ∃ ports, ks.foldl (fun s k => s.modPort k f) s = { s with ports := ports } ∧
      ∀ j, (ks.foldl (fun s k => s.modPort k f) s).port j = if j ∈ ks then f (s.port j) else s.port j := by
  induction ks generalizing s with
  | nil => exact ⟨s.ports, rfl, fun j => by simp⟩
  | cons k ks ih =>
    obtain ⟨hk, hks⟩ := List.nodup_cons.1 hks
    obtain ⟨ports, heq, hport⟩ := ih hks (s.modPort k f)
    refine ⟨ports, heq, fun j => (hport j).trans ?_⟩
    rw [State.port_modPort]
    by_cases hj : j = k
    · subst hj
      simp [hk]
    · simp [hj]

/-- A failure of the chip changes the ports, becomes fail-silent and is told. -/
theorem State.untold_chipFail (s : State) (cause : Nat) :
    ∃ ports silent, (s.chipFail cause).untold = ({ s with ports := ports, failSilent := silent } : State).untold := by
  unfold State.chipFail
  split
  · exact ⟨s.ports, s.failSilent, rfl⟩
  · obtain ⟨ports, heq, -⟩ := State.foldl_modPort_spec (fun p => { p with state := .gated }) List.nodup_range s (ks := List.range portCount)
    rw [heq]
    exact ⟨ports, true, State.untold_reportError _ _ _⟩

/-! ### Links of the Sett (10 R271) -/

/-- MOVES stands in the upper half of a link's word. -/
theorem Link.word_div (l : Link) : l.word / 65536 = min l.moves 65535 := by
  unfold Link.word
  omega

theorem State.link_setLink (s : State) (p bus : Nat) (l : Link) (q c : Nat) :
    (s.setLink p bus l).link q c = if 8 * q + c = 8 * p + bus then l else s.link q c := by
  unfold State.link State.setLink
  split
  · next h => rw [h, Table.getD_put_self]
  · next h => exact Table.getD_put_of_ne _ _ _ h

@[simp] theorem State.link_setLink_self (s : State) (p bus : Nat) (l : Link) : (s.setLink p bus l).link p bus = l := by
  rw [State.link_setLink, if_pos rfl]

/-- What a link is apart from the frame from which its new slots go out. -/
def Link.unheld (l : Link) : Link := { l with resume := 0 }

theorem State.reemitSlot_eq (s : State) (bus n : Nat) (ps : List Payload) :
    ∃ inflight, (s.reemitSlot bus n ps).1 = { s with inflight := inflight } := by
  unfold State.reemitSlot
  split
  · exact ⟨_, rfl⟩
  · split <;> exact ⟨_, rfl⟩

/-- New slots that wait change how long their senders' links wait, and nothing else. -/
theorem State.holdNew_spec (s : State) (bus : Nat) (ps : List Payload) :
    ∃ links, s.holdNew bus ps = { s with links := links } ∧ ∀ p b, ((s.holdNew bus ps).link p b).unheld = (s.link p b).unheld := by
  unfold State.holdNew
  induction ps generalizing s with
  | nil => exact ⟨s.links, rfl, fun _ _ => rfl⟩
  | cons q ps ih =>
    rw [List.foldl_cons]
    obtain ⟨links, heq, hlink⟩ := ih _
    refine ⟨links, heq, fun p b => (hlink p b).trans ?_⟩
    rw [State.link_setLink]
    split
    · next h => unfold State.link; rw [h]; rfl
    · rfl

/-- Slots that go out again move payloads in flight and what waits behind them, and nothing else. -/
theorem State.reemit_spec (s : State) (bus : Nat) (ps : List Payload) (n : Nat) :
    ∃ inflight links, s.reemit bus ps n = { s with inflight := inflight, links := links } ∧
      ∀ p b, ((s.reemit bus ps n).link p b).unheld = (s.link p b).unheld := by
  have hslots (fs : List Nat) (r : State × Nat) :
      ∃ inflight, (fs.foldl (fun r f => r.1.reemitSlot bus r.2 (ps.filter fun p => p.frame == f)) r).1 = { r.1 with inflight := inflight } := by
    induction fs generalizing r with
    | nil => exact ⟨_, rfl⟩
    | cons f fs ih =>
      obtain ⟨inflight, h⟩ := r.1.reemitSlot_eq bus r.2 (ps.filter fun p => p.frame == f)
      obtain ⟨inflight', h'⟩ := ih (r.1.reemitSlot bus r.2 (ps.filter fun p => p.frame == f))
      exact ⟨inflight', h'.trans (by rw [h])⟩
  obtain ⟨inflight, hinflight⟩ := hslots (framesOf ps) (s, n)
  obtain ⟨links, heq, hlink⟩ := State.holdNew_spec { s with inflight := inflight } bus ps
  rw [State.reemit, hinflight]
  exact ⟨inflight, links, heq, hlink⟩

/-! ### Ring failures (19 R397, R398) -/

theorem State.untold_checkRelays (s : State) (bus : Nat) :
    ∃ ports silent, (s.checkRelays bus).untold = ({ s with ports := ports, failSilent := silent } : State).untold := by
  unfold State.checkRelays
  split
  · exact s.untold_chipFail 2
  · exact ⟨s.ports, s.failSilent, rfl⟩

/-- A participant that enters relay has made one move more, the flag of relay stands and replacement is requested. -/
theorem State.enterRelay_spec (s : State) (bus p : Nat) : ((s.enterRelay bus p).link p bus).state = 2 ∧
    ((s.enterRelay bus p).link p bus).moves = (s.link p bus).moves + 1 ∧ (s.enterRelay bus p).settRelay = true ∧
    (s.enterRelay bus p).replReq = true := by
  let l : Link := { s.link p bus with state := 2, moves := (s.link p bus).moves + 1, unread := 0, vetoed := 0 }
  let t := ({ (s.setLink p bus l).settChange with settRelay := true, replReq := true } : State).announce s
  let u := t.reemit bus (s.unconfirmed bus p) (t.frame + 4)
  let v := (u.reportError (s.settError 6 3 bus p false true)).1
  have ht : t.untold = ({ s.setLink p bus l with settRelay := true, replReq := true } : State).untold :=
    (State.untold_announce _ _).trans
      (congrArg (fun u : State => { u with settRelay := true, replReq := true }) (State.untold_settChange (s.setLink p bus l)) :)
  obtain ⟨inflight, links, hu, hlink⟩ := t.reemit_spec bus (s.unconfirmed bus p) (t.frame + 4)
  have hv : v.untold = u.untold := State.untold_reportError _ _ _
  obtain ⟨ports, silent, hw⟩ := v.untold_checkRelays bus
  have hend : (s.enterRelay bus p).untold = (v.checkRelays bus).untold := rfl
  have hl : ((s.enterRelay bus p).link p bus).unheld = l.unheld :=
    calc ((s.enterRelay bus p).link p bus).unheld
      _ = (v.link p bus).unheld := congrArg Link.unheld (State.link_of_untold (hend.trans hw) p bus)
      _ = (u.link p bus).unheld := congrArg Link.unheld (State.link_of_untold hv p bus)
      _ = (t.link p bus).unheld := hlink p bus
      _ = ((s.setLink p bus l).link p bus).unheld := congrArg Link.unheld (State.link_of_untold ht p bus)
      _ = l.unheld := by rw [State.link_setLink_self]
  have hrelay : v.settRelay = true :=
    (State.settRelay_of_untold hv).trans ((congrArg State.settRelay hu).trans (State.settRelay_of_untold ht))
  have hrepl : v.replReq = true := (State.replReq_of_untold hv).trans ((congrArg State.replReq hu).trans (State.replReq_of_untold ht))
  exact ⟨(congrArg Link.state hl :), (congrArg Link.moves hl :),
    (State.settRelay_of_untold (hend.trans hw)).trans hrelay, (State.replReq_of_untold (hend.trans hw)).trans hrepl⟩

/-- Where no participant lacks the receive ring of a group, none takes its slots over the mesh. -/
theorem State.deafTo_of_heard {s : State} {bus wg g : Nat} (h : ∀ q, s.ringDead bus wg g q true = false) : s.deafTo bus wg g = s := by
  have hnone : ((List.range 162).filter fun q => s.ringDead bus wg g q true && (s.link q bus).sound) = [] :=
    List.filter_eq_nil_iff.2 fun q _ => by simp [h q]
  rw [State.deafTo, hnone, List.foldl_nil]

/-- A ring that moves to a spare group which every participant hears has made one move more, and the group is taken. -/
theorem State.moveRing_spec {s : State} {bus p g : Nat} (h : ∀ q, s.ringDead bus (s.link p bus).wg g q true = false) :
    ((s.moveRing bus p g).link p bus).state = 1 ∧ ((s.moveRing bus p g).link p bus).group = g ∧
      ((s.moveRing bus p g).link p bus).moves = (s.link p bus).moves + 1 ∧
      (s.moveRing bus p g).sparesOf bus (s.link p bus).wg = (s.sparesOf bus (s.link p bus).wg).filter (· != g) := by
  let wg := (s.link p bus).wg
  let l : Link := { s.link p bus with
    group := g, state := 1, moves := (s.link p bus).moves + 1, unread := 0, vetoed := 0, announce := s.frame + 1, resume := s.frame + 4 }
  let t := (s.setLink p bus l).reemit bus (s.unconfirmed bus p) (s.frame + 4)
  let u := t.settChange.takeSpare bus wg g
  let v := (u.reportError (s.settError 6 3 bus p true false)).1
  obtain ⟨inflight, links, ht, hlink⟩ := (s.setLink p bus l).reemit_spec bus (s.unconfirmed bus p) (s.frame + 4)
  have hsett : t.settChange.untold = t.untold := t.untold_settChange
  have hv : v.untold = u.untold := State.untold_reportError _ _ _
  have hspares : t.settChange.sparesOf bus wg = s.sparesOf bus wg :=
    (State.sparesOf_of_untold hsett bus wg).trans (congrArg (fun u : State => u.sparesOf bus wg) ht :)
  have hheard (q : Nat) : v.ringDead bus wg g q true = false :=
    calc v.ringDead bus wg g q true
      _ = t.settChange.ringDead bus wg g q true := State.ringDead_of_untold hv bus wg g q true
      _ = t.ringDead bus wg g q true := State.ringDead_of_untold hsett bus wg g q true
      _ = s.ringDead bus wg g q true := (congrArg (fun u : State => u.ringDead bus wg g q true) ht :)
      _ = false := h q
  have hmoved : s.moveRing bus p g = v := State.deafTo_of_heard hheard
  have hl : (v.link p bus).unheld = l.unheld :=
    calc (v.link p bus).unheld
      _ = (t.settChange.link p bus).unheld := congrArg Link.unheld (State.link_of_untold hv p bus)
      _ = (t.link p bus).unheld := congrArg Link.unheld (State.link_of_untold hsett p bus)
      _ = ((s.setLink p bus l).link p bus).unheld := hlink p bus
      _ = l.unheld := by rw [State.link_setLink_self]
  rw [hmoved]
  refine ⟨(congrArg Link.state hl :), (congrArg Link.group hl :), (congrArg Link.moves hl :), ?_⟩
  calc v.sparesOf bus wg
    _ = u.sparesOf bus wg := State.sparesOf_of_untold hv bus wg
    _ = (t.settChange.sparesOf bus wg).filter (· != g) := Table.getD_put_self _ _ _ _
    _ = (s.sparesOf bus wg).filter (· != g) := by rw [hspares]

section
variable {s : State} {bus p : Nat} (hbus : bus < 8) (hp : p < 162) (hsound : (s.link p bus).state < 2)
include hbus hp hsound

/-- A transmit ring that has failed moves to the next spare group, or its participant enters relay where none is left. -/
theorem exec_ringFailure (hfailed : 4 ≤ (s.link p bus).unread ∨ 4 ≤ (s.link p bus).vetoed) : exec (.ringFailure bus p) s =
    match s.nextSpare bus (s.link p bus).wg p with
    | none => .next (s.enterRelay bus p)
    | some g => .next (s.moveRing bus p g) := by
  have hstill : (s.link p bus).sound = true := decide_eq_true hsound
  have hgone : (s.link p bus).failed = true := by simpa [Link.failed] using hfailed
  have hok : ¬(decide (8 ≤ bus) || decide (162 ≤ p) || !(s.link p bus).sound || !(s.link p bus).failed) = true := by
    simp [hbus, hp, hstill, hgone]
  exact if_neg hok

theorem exec_receiveRingFailure : exec (.receiveRingFailure bus p) s = .next (s.enterRelay bus p) := by
  have hok : ¬(decide (8 ≤ bus) || decide (162 ≤ p) || decide ((s.link p bus).state = 3)) = true := by
    simp [hbus, hp, show (s.link p bus).state ≠ 3 by omega]
  exact (if_neg hok).trans (if_neg (by omega))

end

/-- What the failure of a transmit ring and that of a receive ring leave. -/
theorem exec_ringFailures (bus p : Nat) (s : State) (hbus : bus < 8) (hp : p < 162) (hsound : (s.link p bus).state < 2) :
    let l := s.link p bus
    ((4 ≤ l.unread ∨ 4 ≤ l.vetoed) → (∀ g, s.nextSpare bus l.wg p = some g → ∀ q, s.ringDead bus l.wg g q true = false) →
      ∃ t, exec (.ringFailure bus p) s = .next t ∧ (t.link p bus).word / 65536 = min (l.moves + 1) 65535 ∧
        match s.nextSpare bus l.wg p with
        | none => (t.link p bus).state = 2 ∧ t.settRelay = true ∧ t.replReq = true
        | some g => (t.link p bus).state = 1 ∧ (t.link p bus).group = g ∧
            t.sparesOf bus l.wg = (s.sparesOf bus l.wg).filter (· != g)) ∧
    ∃ t, exec (.receiveRingFailure bus p) s = .next t ∧ (t.link p bus).word / 65536 = min (l.moves + 1) 65535 ∧ (t.link p bus).state = 2 ∧
      t.settRelay = true ∧ t.replReq = true := by
  obtain ⟨hstate, hmoves, hrelay, hrepl⟩ := s.enterRelay_spec bus p
  have hword : ((s.enterRelay bus p).link p bus).word / 65536 = min ((s.link p bus).moves + 1) 65535 := by rw [Link.word_div, hmoves]
  refine ⟨fun hfailed hheard => ?_, s.enterRelay bus p, exec_receiveRingFailure hbus hp hsound, hword, hstate, hrelay, hrepl⟩
  rw [exec_ringFailure hbus hp hsound hfailed]
  cases hspare : s.nextSpare bus (s.link p bus).wg p with
  | none => exact ⟨_, rfl, hword, hstate, hrelay, hrepl⟩
  | some g =>
    obtain ⟨hstate', hgroup, hmoves', hspares⟩ := State.moveRing_spec (hheard g hspare)
    exact ⟨_, rfl, by rw [Link.word_div, hmoves'], hstate', hgroup, hspares⟩

end Sys2Proof.Machine

/-!
Laser modules, optical ports and circuit planes (19 R399-R402, R405): what each event leaves of them.
-/

namespace Sys2Proof.Machine

/-! ### Laser modules one by one (19 R399) -/

theorem State.laser_setLaser (s : State) (m : Nat) (l : Laser) (j : Nat) : (s.setLaser m l).laser j = if j = m then l else s.laser j := by
  unfold State.laser State.setLaser
  split
  · next h => rw [h, Table.getD_put_self]
  · next h => exact Table.getD_put_of_ne _ _ _ h

@[simp] theorem State.laser_setLaser_self (s : State) (m : Nat) (l : Laser) : (s.setLaser m l).laser m = l := by
  rw [State.laser_setLaser, if_pos rfl]

theorem State.port_setLaser (s : State) (m : Nat) (l : Laser) (k : Nat) : (s.setLaser m l).port k = s.port k := rfl
theorem State.port_resumeTurns (s : State) (k : Nat) : s.resumeTurns.port k = s.port k := rfl
theorem State.laser_resumeTurns (s : State) (m : Nat) : s.resumeTurns.laser m = s.laser m := rfl

theorem partnerOf_ne (m : Nat) : m ≠ partnerOf m := by
  unfold partnerOf
  split <;> omega

theorem fedBy_nodup (m : Nat) : (fedBy m).Nodup := List.nodup_range.map fun _ _ h => Nat.add_left_cancel h

theorem portsOf_nodup (j : Nat) : (portsOf j).Nodup := List.nodup_range.map fun _ _ h => Nat.add_left_cancel h

/-- A Sett module that no longer feeds its bus stands alone for nothing, and replacement is requested. -/
theorem State.loseSett_spec (s : State) (m : Nat) (l : Laser) (fault : Bool) :
    (s.loseSett m l fault).laser m = { l with sole := false } ∧ (s.loseSett m l fault).replReq = true := by
  let t := (s.setLaser m { l with sole := false }).requestReplacement
  let u := if fault then (t.reportError (laserError m)).1 else t
  have ht : t.untold = { (s.setLaser m { l with sole := false }).untold with replReq := true } := State.untold_requestReplacement _
  have hu : u.untold = { (s.setLaser m { l with sole := false }).untold with replReq := true } := by
    cases fault with
    | false => exact ht
    | true => exact (State.untold_reportError _ _ _).trans ht
  have hlaser : u.laser m = { l with sole := false } :=
    (congrArg (fun v : State => v.laser m) hu).trans (s.laser_setLaser_self m _)
  have hrepl : u.replReq = true := congrArg State.replReq hu
  have heq : s.loseSett m l fault = if (u.laser (partnerOf m)).state == .lit then
      u.setLaser (partnerOf m) { u.laser (partnerOf m) with sole := true } else u.chipFail 1 := rfl
  rw [heq]
  split
  · exact ⟨by rw [State.laser_setLaser, if_neg (partnerOf_ne m), hlaser], hrepl⟩
  · obtain ⟨ports, silent, hchip⟩ := u.untold_chipFail 1
    exact ⟨(congrArg (fun v : State => v.laser m) hchip).trans hlaser, (congrArg State.replReq hchip).trans hrepl⟩

/-- An I/O module that is no longer LIT leaves its ports that were not DOWN without light. -/
theorem State.loseIo_spec (s : State) (m : Nat) (l : Laser) : (s.loseIo m l).laser m = l ∧
    ∀ k ∈ fedBy m, ((s.loseIo m l).port k).state = if (s.port k).state = .down then .down else .laserAbsent := by
  obtain ⟨ports, heq, hport⟩ := State.foldl_modPort_spec (fun p => if p.state == .down then p else { p with state := .laserAbsent })
    (fedBy_nodup m) (s.setLaser m l)
  refine ⟨?_, fun k hk => ?_⟩
  · rw [State.loseIo, State.laser_resumeTurns, heq]
    exact s.laser_setLaser_self m l
  · rw [State.loseIo, State.port_resumeTurns, hport k, if_pos hk, State.port_setLaser]
    by_cases hdown : (s.port k).state = .down
    · rw [if_pos (beq_iff_eq.2 hdown), if_pos hdown, hdown]
    · rw [if_neg (by simpa using hdown), if_neg hdown]

/-! ### Writes of ON (19 R399) -/

theorem exec_laserOnWrite {m : Nat} (hm : m < 24) (complex value : Nat) (s : State) : exec (.laserOnWrite complex m value) s =
    if s.guarded complex (5 + m) then .next (s.writeLaser m value) else .next s :=
  if_neg (Nat.not_le.2 hm)

/-- ON := 1 is always written. -/
theorem State.writeLaser_on (s : State) (m : Nat) {value : Nat} (hv : value % 2 = 1) : ((s.writeLaser m value).laser m).on = true := by
  rw [State.writeLaser, if_pos hv, State.laser_setLaser_self]

/-- ON := 0 is ignored at a Sett module whose partner is not LIT. -/
theorem State.writeLaser_off_ignored (s : State) {m value : Nat} (hv : value % 2 = 0) (hm : m < 16)
    (hp : (s.laser (partnerOf m)).state ≠ .lit) : s.writeLaser m value = s := by
  rw [State.writeLaser, if_neg (by omega), if_pos hm, if_pos (by simpa using hp)]

/-- ON := 0 is written at any other module. -/
theorem State.writeLaser_off (s : State) {m value : Nat} (hv : value % 2 = 0) (h : m < 16 → (s.laser (partnerOf m)).state = .lit) :
    ((s.writeLaser m value).laser m).on = false := by
  rw [State.writeLaser, if_neg (by omega)]
  by_cases hm : m < 16
  · rw [if_pos hm, if_neg (by simp [h hm])]
    split
    · rw [(s.loseSett_spec m _ false).1]
    · rw [State.laser_setLaser_self]
  · rw [if_neg hm]
    split
    · rw [(s.loseIo_spec m _).1]
    · rw [State.laser_setLaser_self]

/-! ### Modules lost and seated (19 R400, R401) -/

/-- A Sett module that is lost is gone or in FAULT, and replacement is requested. -/
theorem exec_laserModuleLoss {m : Nat} {fault : Bool} {s : State} (hpresent : (s.laser m).present = true) (hm : m < 16) :
    ∃ t, exec (.laserModuleLoss m fault) s = .next t ∧ (t.laser m).present = fault ∧
      (t.laser m).state = (if fault then .fault else .absent) ∧ t.replReq = true := by
  let t := ((s.setLaser m ((s.laser m).gone fault)).requestReplacement.reportError (laserError m)).1
  have hexec : exec (.laserModuleLoss m fault) s = if (s.laser m).state == .lit then .next (s.loseSett m ((s.laser m).gone fault) true)
      else .next (if (s.laser (partnerOf m)).state == .absent || (s.laser (partnerOf m)).state == .fault then t.chipFail 1 else t) :=
    if_neg (by simp [hpresent, hm])
  have ht : t.untold = { (s.setLaser m ((s.laser m).gone fault)).untold with replReq := true } :=
    (State.untold_reportError _ _ _).trans (State.untold_requestReplacement _)
  have hlaser : t.laser m = (s.laser m).gone fault := (congrArg (fun v : State => v.laser m) ht).trans (s.laser_setLaser_self m _)
  have hrepl : t.replReq = true := congrArg State.replReq ht
  rw [hexec]
  split
  · obtain ⟨hlost, hasked⟩ := s.loseSett_spec m ((s.laser m).gone fault) true
    exact ⟨_, rfl, by rw [hlost]; rfl, by rw [hlost]; rfl, hasked⟩
  · split
    · obtain ⟨ports, silent, hchip⟩ := t.untold_chipFail 1
      have hlaser' : (t.chipFail 1).laser m = (s.laser m).gone fault := (congrArg (fun v : State => v.laser m) hchip).trans hlaser
      exact ⟨_, rfl, by rw [hlaser']; rfl, by rw [hlaser']; rfl, (congrArg State.replReq hchip).trans hrepl⟩
    · exact ⟨_, rfl, by rw [hlaser]; rfl, by rw [hlaser]; rfl, hrepl⟩

/-- So is an I/O module; one that was LIT leaves its ports without light. -/
theorem exec_ioLaserLoss {m : Nat} {fault : Bool} {s : State} (hpresent : (s.laser m).present = true) (hm : 16 ≤ m) (hm' : m < 24) :
    ∃ t, exec (.ioLaserLoss m fault) s = .next t ∧ (t.laser m).present = fault ∧ t.replReq = true ∧
      ((s.laser m).state = .lit → ∀ k ∈ fedBy m, (t.port k).state = if (s.port k).state = .down then .down else .laserAbsent) := by
  let t := if (s.laser m).state == .lit then s.loseIo m ((s.laser m).gone fault) else s.setLaser m ((s.laser m).gone fault)
  have hexec : exec (.ioLaserLoss m fault) s = .next (t.requestReplacement.reportError (laserError m)).1 :=
    if_neg (by simp [hpresent, hm, hm'])
  have ht : ((t.requestReplacement.reportError (laserError m)).1).untold = { t.untold with replReq := true } :=
    (State.untold_reportError _ _ _).trans (State.untold_requestReplacement _)
  have hlaser : t.laser m = (s.laser m).gone fault := by
    by_cases hlit : (s.laser m).state == .lit
    · exact (congrArg (fun v : State => v.laser m) (if_pos hlit)).trans (s.loseIo_spec m _).1
    · exact (congrArg (fun v : State => v.laser m) (if_neg hlit)).trans (s.laser_setLaser_self m _)
  refine ⟨_, hexec, ?_, congrArg State.replReq ht, fun hlit k hk => ?_⟩
  · exact (congrArg (fun v : State => (v.laser m).present) ht).trans (by show (t.laser m).present = fault; rw [hlaser]; rfl)
  · have hlost : t = s.loseIo m ((s.laser m).gone fault) := if_pos (by simp [hlit])
    refine (congrArg (fun v : State => (v.port k).state) ht).trans ?_
    show (t.port k).state = _
    rw [hlost]
    exact (s.loseIo_spec m _).2 k hk

/-- A module that is seated warms where ON asks for it. -/
theorem exec_laserModuleInsert {m : Nat} {s : State} (hm : m < 24) (h : (s.laser m).present = false ∨ (s.laser m).state = .fault) :
    ∃ t, exec (.laserModuleInsert m) s = .next t ∧ (t.laser m).present = true ∧
      (t.laser m).state = if (s.laser m).on then .warm else .off := by
  refine ⟨_, if_neg ?_, ?_, ?_⟩
  · rcases h with h | h <;> simp [h, hm]
  · rw [State.laser_setLaser_self]
  · rw [State.laser_setLaser_self]

/-- A module that is warm is LIT, and the ports that waited for it calibrate. -/
theorem exec_laserWarmDone {m : Nat} {s : State} (hm : m < 24) (hwarm : (s.laser m).state = .warm) :
    ∃ t, exec (.laserWarmDone m) s = .next t ∧ (t.laser m).state = .lit ∧
      (16 ≤ m → ∀ k ∈ fedBy m, (s.port k).state = .laserWait → (t.port k).state = .cal) := by
  obtain ⟨ports, heq, hport⟩ := State.foldl_modPort_spec (fun p => if p.state == .laserWait then { p with state := .cal } else p)
    (fedBy_nodup m) (s.setLaser m { s.laser m with state := .lit })
  let p := partnerOf m
  have hexec : exec (.laserWarmDone m) s = if m < 16 then
      (if (s.laser p).state == .lit then
        .next ((s.setLaser m { s.laser m with state := .lit, sole := false }).setLaser p { s.laser p with sole := false })
      else .next (s.setLaser m { s.laser m with state := .lit, sole := true }))
      else .next ((fedBy m).foldl (fun s k => s.modPort k fun p => if p.state == .laserWait then { p with state := .cal } else p)
        (s.setLaser m { s.laser m with state := .lit })) :=
    if_neg (by simp [hm, hwarm])
  rw [hexec]
  by_cases hsett : m < 16
  · rw [if_pos hsett]
    split
    · exact ⟨_, rfl, by rw [State.laser_setLaser, if_neg (partnerOf_ne m), State.laser_setLaser_self], fun h => absurd h (by omega)⟩
    · exact ⟨_, rfl, by rw [State.laser_setLaser_self], fun h => absurd h (by omega)⟩
  · rw [if_neg hsett]
    refine ⟨_, rfl, ?_, fun _ k hk hwait => ?_⟩
    · exact (congrArg (fun v : State => (v.laser m).state) heq).trans (congrArg Laser.state (s.laser_setLaser_self m _))
    · refine (congrArg Port.state ((hport k).trans (if_pos hk))).trans ?_
      show Port.state (if (s.port k).state == .laserWait then { s.port k with state := .cal } else s.port k) = _
      rw [if_pos (by simp [hwait])]

/-! ### Ports (19 R402) -/

/-- A write of a port changes it as its instruction says. -/
theorem PortWrite.exec_eq {s : State} {i : Instr} {c k : Nat} {p : Port} (h : PortWrite s i c k p) :
    ∃ mn f, exec i s = portWrite mn s c k f ∧ f (s.port k) = p := by
  cases h with
  | enable => exact ⟨_, _, rfl, by simp [Port.writeEnable]⟩
  | disable => exact ⟨_, _, rfl, rfl⟩
  | gate => exact ⟨_, _, rfl, by rw [Port.writeGate, Port.gateable]; cases (s.port k).state <;> rfl⟩
  | ungate => exact ⟨_, _, rfl, by simp [Port.writeGate]⟩

/-- A move of a port's training is open to the port, and changes it as its event says. -/
theorem PortMove.exec_eq {s : State} {i : Instr} {k : Nat} {p : Port} (h : PortMove s i k p) :
    ∃ mn from_ f, exec i s = portMove mn s k from_ f ∧ from_ (s.port k) = true ∧ f (s.port k) = p := by
  cases h with
  | calibrated _ h => exact ⟨_, _, _, (rfl : execPortCalibrationDone k s = portMove _ s k _ _), by simpa using h, rfl⟩
  | carrier _ h => exact ⟨_, _, _, (rfl : execPortCarrierLock k s = portMove _ s k _ _), by simpa using h, rfl⟩
  | pol _ h => exact ⟨_, _, _, (rfl : execPortPolarisationLock k s = portMove _ s k _ _), by simpa using h, rfl⟩
  | align _ peer h => exact ⟨_, _, _, (rfl : execPortAlignDone k peer s = portMove _ s k _ _), by simpa [and_assoc] using h, rfl⟩
  | lost _ h => exact ⟨_, _, _, (rfl : execPortLockLost k s = portMove _ s k _ _), by simpa using h, rfl⟩
  | light _ h => exact ⟨_, _, _, (rfl : execPortLightRestored k s = portMove _ s k _ _), by simpa using h, rfl⟩

/-- A port that changes, with every reservation after it, leaves the other ports. -/
theorem State.port_modPort_resumeTurns (s : State) (k : Nat) (f : Port → Port) :
    ((s.modPort k f).resumeTurns).port k = f (s.port k) ∧ ∀ j, j ≠ k → ((s.modPort k f).resumeTurns).port j = s.port j :=
  ⟨s.port_modPort_self k f, fun j hj => (s.port_modPort k f j).trans (if_neg hj)⟩

/-- A write of a port by a complex that holds its plane's semaphore changes that port only; any other changes nothing. -/
theorem exec_portWrite {i : Instr} {c k : Nat} {p : Port} {s : State} (h : PortWrite s i c k p) (hk : k < portCount) :
    (s.guarded c (1 + planeOf k) = false → exec i s = .next s) ∧
      (s.guarded c (1 + planeOf k) = true → ∃ t, exec i s = .next t ∧ t.port k = p ∧ ∀ j, j ≠ k → t.port j = s.port j) := by
  obtain ⟨mn, f, hexec, rfl⟩ := h.exec_eq
  rw [hexec, portWrite, if_neg (Nat.not_le.2 hk)]
  refine ⟨fun hg => by rw [hg]; rfl, fun hg => ?_⟩
  rw [hg]
  exact ⟨_, rfl, s.port_modPort_resumeTurns k f⟩

/-- A move of a port's training changes that port only. -/
theorem exec_portMove {i : Instr} {k : Nat} {p : Port} {s : State} (h : PortMove s i k p) (hk : k < portCount) :
    ∃ t, exec i s = .next t ∧ t.port k = p ∧ ∀ j, j ≠ k → t.port j = s.port j := by
  obtain ⟨mn, from_, f, hexec, hfrom, rfl⟩ := h.exec_eq
  rw [hexec, portMove, if_neg (by simp [hk, hfrom])]
  exact ⟨_, rfl, s.port_modPort_resumeTurns k f⟩

/-! ### Planes (19 R405) -/

theorem State.plane_setPlane (s : State) (j : Nat) (p : Plane) (n : Nat) : (s.setPlane j p).plane n = if n = j then p else s.plane n := by
  unfold State.plane State.setPlane
  split
  · next h => rw [h, Table.getD_put_self]
  · next h => exact Table.getD_put_of_ne _ _ _ h

@[simp] theorem State.plane_setPlane_self (s : State) (j : Nat) (p : Plane) : (s.setPlane j p).plane j = p := by
  rw [State.plane_setPlane, if_pos rfl]

section
variable {j : Nat} (hj : j < 4)
include hj

theorem exec_planeDrain (c : Nat) (s : State) :
    exec (.planeDrain c j) s = if s.guarded c (1 + j) then .next (s.drainPlane j) else .next s := if_neg (Nat.not_le.2 hj)

theorem exec_planeResume (c : Nat) (s : State) :
    exec (.planeResume c j) s = if s.guarded c (1 + j) then .next (s.resumePlane j) else .next s := if_neg (Nat.not_le.2 hj)

/-- A drained plane goes DARK, and its UP ports divert. -/
theorem exec_planeDark {s : State} (hdraining : (s.plane j).state = .draining) (hidle : s.planeIdle j = true) :
    ∃ t, exec (.planeDark j) s = .next t ∧ (t.plane j).state = .dark ∧
      ∀ k ∈ portsOf j, (s.port k).state = .up → (t.port k).state = .divert := by
  obtain ⟨ports, heq, hport⟩ := State.foldl_modPort_spec (fun q => if q.state == .up then { q with state := .divert } else q)
    (portsOf_nodup j) (s.setPlane j { s.plane j with state := .dark })
  refine ⟨_, if_neg (by simp [hj, hdraining, hidle]), ?_, fun k hk hup => ?_⟩
  · exact (congrArg (fun v : State => (v.plane j).state) heq).trans (congrArg Plane.state (s.plane_setPlane_self j _))
  · refine (congrArg Port.state ((hport k).trans (if_pos hk))).trans ?_
    show Port.state (if (s.port k).state == .up then { s.port k with state := .divert } else s.port k) = _
    rw [if_pos (by simp [hup])]

/-- A retrained plane is as at reset. -/
theorem exec_planeRetrainDone {s : State} (hretrain : (s.plane j).state = .retrain)
    (h : ((s.plane j).wasUp.all fun k => (s.port k).state == .up) = true ∨ (s.plane j).since + 1000000 ≤ s.now) :
    ∃ t, exec (.planeRetrainDone j) s = .next t ∧ t.plane j = {} := by
  refine ⟨_, if_neg ?_, s.plane_setPlane_self j _⟩
  rcases h with h | h <;> simp [hj, hretrain, h]

end

/-- A plane is drained where all four are ACTIVE, and no other changes. -/
theorem State.plane_drainPlane {s : State} (h : ∀ n, n < 4 → (s.plane n).state = .active) (j : Nat) :
    ((s.drainPlane j).plane j).state = .draining ∧ ∀ n, n ≠ j → (s.drainPlane j).plane n = s.plane n := by
  rw [State.drainPlane, if_pos (by simpa using h)]
  exact ⟨congrArg Plane.state (s.plane_setPlane_self j _), fun n hn => (s.plane_setPlane j _ n).trans (if_neg hn)⟩

/-- A DARK plane retrains. -/
theorem State.plane_resumePlane {s : State} {j : Nat} (h : (s.plane j).state = .dark) : ((s.resumePlane j).plane j).state = .retrain := by
  obtain ⟨ports, heq, -⟩ := State.foldl_modPort_spec (fun q => if q.state == .divert then { q with state := .carrier } else q)
    (portsOf_nodup j) (s.setPlane j { s.plane j with state := .retrain, since := s.now })
  rw [State.resumePlane, if_neg (by simp [h]), heq]
  exact congrArg Plane.state (s.plane_setPlane_self j _)

end Sys2Proof.Machine

/-!
The chunks of collectives (19 R404-R407, log entries 54 and 93): how one is divided and sent, what its arrival leaves, and the statement O52.
-/

namespace Sys2Proof.Machine

/-! ### Arrivals (19 R404) -/

/-- What is added to a token's COUNT is added modulo 2³², and the bytes beside the token stay. -/
theorem State.addToken_spec (s : State) (pa n : Nat) : (s.addToken pa n).mem.readLE pa 4 = (s.mem.readLE pa 4 + n) % 2 ^ 32 ∧
    ∀ j, (j < pa ∨ pa + 8 ≤ j) → (s.addToken pa n).mem.get j = s.mem.get j := by
  unfold State.addToken
  split
  · next h =>
    have hlt := Bytes.readLE_lt s.mem pa 4
    exact ⟨by rw [h]; omega, fun _ _ => rfl⟩
  · rw [State.outsideWrite_mem, Bytes.writeList_bytesLE]
    refine ⟨?_, fun j hj => Bytes.get_writeLE_of_outside _ _ hj⟩
    rw [(Bytes.readLE_halves _ pa).1, Bytes.readLE_writeLE]
    omega

/-- The count goes on from a chunk that has come. -/
theorem countChunks_of_mem {n : Nat} {a : List Nat} (h : n ∈ a) (fuel : Nat) : n < (countChunks (fuel + 1) n a).1 := by
  have hle (fuel n : Nat) (a : List Nat) : n ≤ (countChunks fuel n a).1 := by
    induction fuel generalizing n a with
    | zero => exact Nat.le_refl n
    | succ fuel ih =>
      rw [countChunks]
      split
      · exact Nat.le_of_succ_le (ih _ _)
      · exact Nat.le_refl n
  rw [countChunks, if_pos (List.contains_iff_mem.2 h)]
  exact hle _ _ _

/-- The count stays at a chunk that has not come. -/
theorem countChunks_of_not_mem {n : Nat} {a : List Nat} (h : n ∉ a) (fuel : Nat) : countChunks fuel n a = (n, a) := by
  cases fuel with
  | zero => rfl
  | succ fuel => rw [countChunks, if_neg (mt List.contains_iff_mem.1 h)]

/-- A reservation once a chunk that had not come is counted (19 R404, R407). -/
def Resv.counted (r : Resv) (chunk : Nat) (ethernet : Bool) : Resv :=
  let c := countChunks (r.arrived.length + 1) r.contiguous (chunk :: r.arrived)
  { r with
    contiguous := c.1, arrived := c.2
    diverted := if ethernet && !r.diverted.contains (r.turn chunk) then r.turn chunk :: r.diverted else r.diverted }

section
variable {s : State} {n chunk : Nat} {ethernet : Bool} {bytes : List Byte} {r : Resv} (hr : s.resvs.get n = some r)
  (hreleased : r.released = false) (hdormant : r.dormant = none) (hlength : bytes.length = 65536) (hlen : 65536 * (chunk + 1) ≤ r.len)
  (hroute : ethernet = true ∨ (r.turn chunk ∉ r.diverted ∧ s.chunkShares (r.turn chunk) r.peer ≠ []))
include hr hreleased hdormant hlength hlen hroute

/-- A chunk that an awake reservation admits is stored and counted, unless it has come before. -/
theorem exec_collectiveChunkArrival : exec (.collectiveChunkArrival n chunk ethernet bytes) s =
    if chunk < r.contiguous || r.arrived.contains chunk then .next s
    else
      let t := (s.outsideWrite (r.dest + 65536 * chunk) bytes).addToken r.token ((r.counted chunk ethernet).contiguous - r.contiguous)
      .next { t with resvs := t.resvs.put n (r.counted chunk ethernet) } := by
  have hroute' : (ethernet || (!r.diverted.contains (r.turn chunk) && !(s.chunkShares (r.turn chunk) r.peer).isEmpty)) = true := by
    rcases hroute with h | h <;> simp [h]
  have hopen : ¬(r.released || r.dormant.isSome || bytes.length != 65536 || decide (r.len < 65536 * (chunk + 1)) ||
      !(ethernet || (!r.diverted.contains (r.turn chunk) && !(s.chunkShares (r.turn chunk) r.peer).isEmpty))) = true := by
    rw [hroute', hreleased, hdormant, hlength, decide_eq_false (Nat.not_lt.2 hlen)]
    decide
  show execCollectiveChunkArrival n chunk ethernet bytes s = _
  simp only [execCollectiveChunkArrival, hr]
  exact if_neg hopen

/-- A new chunk lies at its place, and the token counts those that are now contiguous. -/
theorem exec_collectiveChunkArrival_new (hnew : r.contiguous ≤ chunk) (hfirst : chunk ∉ r.arrived) :
    ∃ t r', exec (.collectiveChunkArrival n chunk ethernet bytes) s = .next t ∧ t.resvs.get n = some r' ∧
      (chunk = r.contiguous → r.contiguous < r'.contiguous) ∧
      (r.contiguous < chunk → r'.contiguous = r.contiguous ∨ r.contiguous ∈ r.arrived) ∧
      ((r.token + 8 ≤ r.dest + 65536 * chunk ∨ r.dest + 65536 * (chunk + 1) ≤ r.token) →
        t.mem.readList (r.dest + 65536 * chunk) 65536 = bytes ∧
        t.mem.readLE r.token 4 = (s.mem.readLE r.token 4 + (r'.contiguous - r.contiguous)) % 2 ^ 32) := by
  rw [exec_collectiveChunkArrival hr hreleased hdormant hlength hlen hroute, if_neg (by simp [hfirst, hnew])]
  refine ⟨_, r.counted chunk ethernet, rfl, Table.get_put_self _ _ _, fun h => ?_, fun h => ?_, fun hapart => ?_⟩
  · exact countChunks_of_mem (h ▸ List.mem_cons_self) _
  · by_cases hmem : r.contiguous ∈ r.arrived
    · exact .inr hmem
    · have hne : r.contiguous ≠ chunk := by omega
      exact .inl (congrArg Prod.fst (countChunks_of_not_mem (by simp [hmem, hne]) _))
  · let u := s.outsideWrite (r.dest + 65536 * chunk) bytes
    obtain ⟨htoken, hbeside⟩ := u.addToken_spec r.token ((r.counted chunk ethernet).contiguous - r.contiguous)
    constructor
    · have hbytes : u.mem.readList (r.dest + 65536 * chunk) 65536 = bytes := by
        rw [State.outsideWrite_mem, ← hlength, Bytes.readList_writeList]
      exact (Bytes.readList_congr fun j h1 h2 => hbeside j (by omega)).trans hbytes
    · refine htoken.trans ?_
      rw [Bytes.readLE_congr (m := u.mem) (m' := s.mem) fun j h1 h2 => ?_]
      rw [State.outsideWrite_mem, Bytes.get_writeList_of_outside _ _ (by omega)]

/-- A chunk that has come before changes nothing. -/
theorem exec_collectiveChunkArrival_again (hagain : chunk < r.contiguous ∨ chunk ∈ r.arrived) :
    exec (.collectiveChunkArrival n chunk ethernet bytes) s = .next s := by
  rw [exec_collectiveChunkArrival hr hreleased hdormant hlength hlen hroute, if_pos (by simpa using hagain)]

end

/-! ### Shares of a chunk (19 R404) -/

/-- Parts equal but for one byte more at the first `rest` of them. -/
theorem sum_zipIdx_shares (ps : List Nat) (start each rest : Nat) :
    (((ps.zipIdx start).map fun p => (p.1, each + if p.2 < rest then 1 else 0)).map (·.2)).sum =
      ps.length * each + (min rest (start + ps.length) - min rest start) := by
  induction ps generalizing start with
  | nil => simp
  | cons p ps ih =>
    rw [List.zipIdx_cons, List.map_cons, List.map_cons, List.sum_cons, ih, List.length_cons, Nat.succ_mul]
    split <;> omega

/-- A plane has an UP port to the peer where a chunk has shares. -/
theorem State.planeUp_iff (s : State) (j peer : Nat) : s.planeUp j peer = true ↔ s.chunkShares j peer ≠ [] := by
  simp [State.planeUp, State.chunkShares, List.filter_eq_nil_iff]

/-- The shares make up the chunk. -/
theorem State.sum_chunkShares {s : State} {j peer : Nat} (h : s.chunkShares j peer ≠ []) :
    ((s.chunkShares j peer).map (·.2)).sum = 65536 := by
  let ps := (portsOf j).filter fun k => (s.port k).state == .up && (s.port k).peer == peer
  have hsum : ((s.chunkShares j peer).map (·.2)).sum =
      ps.length * (65536 / ps.length) + (min (65536 % ps.length) (0 + ps.length) - min (65536 % ps.length) 0) :=
    sum_zipIdx_shares ps 0 _ _
  have hpos : 0 < ps.length := List.length_pos_iff.2 fun hnil => h (by rw [State.chunkShares]; exact congrArg _ (congrArg List.zipIdx hnil))
  have hmod := Nat.mod_lt 65536 hpos
  have hdiv := Nat.div_add_mod 65536 ps.length
  omega

/-! ### Departures (19 R404, log entry 93) -/

/-- Turns that pass on change packs only (09 R252). -/
theorem State.settleTurns_eq (s : State) : ∃ cores, s.settleTurns = { s with cores := cores } := by
  have hlatch (s : State) (c : Nat) : ∃ cores, s.latchTurn c = { s with cores := cores } := by
    unfold State.latchTurn State.modPack
    repeat' split
    all_goals exact ⟨_, rfl⟩
  have hall (cs : List Nat) (s : State) : ∃ cores, cs.foldl State.latchTurn s = { s with cores := cores } := by
    induction cs generalizing s with
    | nil => exact ⟨_, rfl⟩
    | cons c cs ih =>
      obtain ⟨cores, h⟩ := hlatch s c
      obtain ⟨cores', h'⟩ := ih (s.latchTurn c)
      exact ⟨cores', h'.trans (by rw [h])⟩
  exact hall _ s.giveUpTurns

/-- The next chunk of an awake reservation goes out by its plane where the plane carries its turn, and else on Ethernet. -/
theorem State.sendChunk_of_awake {s : State} {n : Nat} {r : Resv} (hr : s.resvs.get n = some r) (hreleased : r.released = false)
    (hdormant : r.dormant = none) (hlen : 65536 * (r.next + 1) ≤ r.len) : s.sendChunk n =
      let eth := r.away.contains (r.turn r.next) || !s.planeLive (r.turn r.next) r.peer
      some { s with
        outbox := s.outbox ++ if eth then [.chunk n r.next none 0 65536] else partMsgs n r.next 0 (s.chunkShares (r.turn r.next) r.peer)
        resvs := s.resvs.put n { r with next := r.next + 1, flying := r.flying ++ [(r.next, eth)] } } := by
  have hsend : ¬(!r.awake || decide (r.len < 65536 * (r.next + 1))) = true := by
    simp [Resv.awake, hreleased, hdormant, hlen]
  simp only [State.sendChunk, hr]
  exact if_neg hsend

/-- The move that sends a chunk: one message on Ethernet, or its parts by the plane's ports, which make up the chunk. -/
theorem step_chunk {n : Nat} {rest : List Move} {s : State} {r : Resv} (ha : s.agenda = .chunk n :: rest) (hr : s.resvs.get n = some r)
    (hreleased : r.released = false) (hdormant : r.dormant = none) (hlen : 65536 * (r.next + 1) ≤ r.len) :
    let eth := r.turn r.next ∈ r.away ∨ (s.plane (r.turn r.next)).state ≠ .active ∨ s.chunkShares (r.turn r.next) r.peer = []
    ∃ t, step s = .next t ∧
      (eth → t.outbox = s.outbox ++ [.chunk n r.next none 0 65536] ∧
        t.resvs.get n = some { r with next := r.next + 1, flying := r.flying ++ [(r.next, true)] }) ∧
      (¬eth → t.outbox = s.outbox ++ partMsgs n r.next 0 (s.chunkShares (r.turn r.next) r.peer) ∧
        ((s.chunkShares (r.turn r.next) r.peer).map (·.2)).sum = 65536 ∧
        t.resvs.get n = some { r with next := r.next + 1, flying := r.flying ++ [(r.next, false)] }) := by
  intro eth
  have hup := (s.begin rest).planeUp_iff (r.turn r.next) r.peer
  have heth : (r.away.contains (r.turn r.next) || !(s.begin rest).planeLive (r.turn r.next) r.peer) = true ↔ eth := by
    rw [State.planeLive, Bool.or_eq_true, List.contains_iff_mem, Bool.not_eq_true', Bool.and_eq_false_iff, beq_eq_false_iff_ne,
      ← Bool.not_eq_true ((s.begin rest).planeUp _ _), hup, not_not]
    rfl
  have hsend := State.sendChunk_of_awake (s := s.begin rest) hr hreleased hdormant hlen
  have hstep : step s = settled (((s.begin rest).sendChunk n).elim (.refused (.notEnabled "chunk")) .next) := step_of_agenda ha
  rw [hsend] at hstep
  obtain ⟨cores, hturns⟩ := State.settleTurns_eq _
  refine ⟨_, hstep.trans (congrArg Host.Outcome.next hturns), fun h => ?_, fun h => ?_⟩
  · rw [heth.2 h]
    exact ⟨rfl, Table.get_put_self _ _ _⟩
  · rw [Bool.eq_false_iff.2 (mt heth.1 h)]
    exact ⟨rfl, State.sum_chunkShares fun hnil => h (.inr (.inr hnil)), Table.get_put_self _ _ _⟩

/-! ### The statement -/

/-- Settles O52, from what each event leaves of rings, laser modules, ports, planes and reservations. -/
theorem opticsResults : Obligations.OpticsResults := by
  refine ⟨exec_ringFailures, fun complex m value s hm => ?_,
    fun m fault s hpresent => ⟨exec_laserModuleLoss hpresent, exec_ioLaserLoss hpresent⟩,
    fun m s hm => ⟨exec_laserModuleInsert hm, exec_laserWarmDone hm⟩,
    fun i c k p s h hk => exec_portWrite h hk, fun i k p s h hk => exec_portMove h hk,
    fun c j s hj => ⟨fun hg => ?_, fun hg hactive => ?_, fun hg hdark => ?_, exec_planeDark hj, exec_planeRetrainDone hj⟩,
    fun n chunk ethernet bytes s r hr hreleased hdormant hlength hlen hnew hfirst hroute =>
      exec_collectiveChunkArrival_new hr hreleased hdormant hlength hlen hroute hnew hfirst,
    fun n chunk ethernet bytes s r hr hreleased hdormant hlength hlen hagain hroute =>
      exec_collectiveChunkArrival_again hr hreleased hdormant hlength hlen hroute hagain,
    fun n rest s r ha hr hreleased hdormant hlen => step_chunk ha hr hreleased hdormant hlen, fun n plane s r hr => ?_⟩
  · rw [exec_laserOnWrite hm]
    refine ⟨fun hg => by rw [hg]; rfl, fun hg => ⟨s.writeLaser m value, by rw [hg]; rfl, s.writeLaser_on m,
      s.writeLaser_off_ignored, fun hv _ hlit => s.writeLaser_off hv fun _ => hlit, fun hv hio => s.writeLaser_off hv fun h => ?_⟩⟩
    exact absurd h (Nat.not_lt.2 hio)
  · rw [exec_planeDrain hj, exec_planeResume hj, hg]
    exact ⟨rfl, rfl⟩
  · rw [exec_planeDrain hj, hg]
    exact ⟨_, rfl, State.plane_drainPlane hactive j⟩
  · rw [exec_planeResume hj, hg]
    exact ⟨_, rfl, State.plane_resumePlane hdark⟩
  · have hexec : exec (.resumeMarker n plane) s =
        .next { s with resvs := s.resvs.put n { r with diverted := r.diverted.filter (· != plane) } } := by
      show execResumeMarker n plane s = _
      simp only [execResumeMarker, hr]
    exact ⟨_, hexec, Table.get_put_self _ _ _⟩

end Sys2Proof.Machine

/-!
What accesses of device memory leave alone beside the tasks (10 R261-R263, 16 R348-R354, 06 R161): a read, a write, a walk or a flush changes
memory, what caches and translations hold of it and the packs, and nothing else of the module.
-/

namespace Sys2Proof.Machine

/-! ### Accesses -/

/-- The state without cores, memory, caches and translations, and without the count of values drawn. States that agree in it differ in what
accesses of memory change only. -/
def State.unaccessed (s : State) : State :=
  { s with cores := [], mem := [], stale := [], tlb := [], walkCache := [], pageLists := [], l2 := [], free := 0 }

theorem State.unaccessed_takeLine (s : State) (cluster : Option Nat) (line : Nat) : (s.takeLine cluster line).unaccessed = s.unaccessed := by
  obtain ⟨_, _, _, h⟩ := s.takeLine_eq cluster line
  rw [h]
  rfl

theorem State.unaccessed_useL2 (s : State) (cluster pol line : Nat) (table : Bool) :
    (s.useL2 cluster pol line table).unaccessed = s.unaccessed := by
  unfold State.useL2
  dsimp only
  split <;> rfl

theorem State.unaccessed_cacheWrite (s : State) (core pol line : Nat) : (s.cacheWrite core pol line).unaccessed = s.unaccessed :=
  (State.unaccessed_useL2 ..).trans (s.unaccessed_takeLine _ line)

theorem State.unaccessed_outsideWrite (s : State) (pa : Nat) (bs : List Byte) : (s.outsideWrite pa bs).unaccessed = s.unaccessed := by
  obtain ⟨_, _, _, _, _, _, h⟩ := s.outsideWrite_eq pa bs
  rw [h]
  rfl

/-- The lines that a unit of a cluster writes come to its L2, and leave its L1s. -/
def State.ownLines (s : State) (cluster : Nat) (ls : List Nat) : State :=
  ls.foldl (fun s l => (s.cacheWrite (128 * cluster) 0 l).dropL1 cluster l) s

theorem State.unitWrite_eq (s : State) (cluster pa : Nat) (bs : List Byte) :
    s.unitWrite cluster pa bs = (s.ownLines cluster (lines128 pa bs.length)).physWriteList pa bs := rfl

theorem State.unaccessed_physWriteList (s : State) (pa : Nat) (bs : List Byte) : (s.physWriteList pa bs).unaccessed = s.unaccessed := rfl

theorem State.unaccessed_physWrite (s : State) (pa n v : Nat) : (s.physWrite pa n v).unaccessed = s.unaccessed := rfl

theorem State.unaccessed_unitWrite (s : State) (cluster pa : Nat) (bs : List Byte) : (s.unitWrite cluster pa bs).unaccessed = s.unaccessed :=
  (State.unaccessed_physWriteList ..).trans <|
    foldl_keeps (f := fun s l => (s.cacheWrite (128 * cluster) 0 l).dropL1 cluster l) (g := State.unaccessed)
    (fun s l => s.unaccessed_cacheWrite _ 0 l) _ s

@[simp] theorem State.unitWrite_mem (s : State) (cluster pa : Nat) (bs : List Byte) :
    (s.unitWrite cluster pa bs).mem = s.mem.writeList pa bs := by
  have hlines : (s.ownLines cluster (lines128 pa bs.length)).mem = s.mem :=
    State.foldl_mem (f := fun s l => (s.cacheWrite (128 * cluster) 0 l).dropL1 cluster l) (fun s l => s.cacheWrite_mem _ 0 l) _ s
  rw [State.unitWrite_eq]
  exact congrArg (fun m : Bytes => m.writeList pa bs) hlines

theorem State.sameTasks_unitWrite (s : State) (cluster pa : Nat) (bs : List Byte) : s.SameTasks (s.unitWrite cluster pa bs) :=
  (SameTasks.foldl (fun s l => (s.sameTasks_cacheWrite _ 0 l).trans (State.sameTasks_dropL1 _ cluster l)) _ s).trans (.of_eq rfl rfl rfl)

theorem State.unaccessed_devWrite (s : State) (core ctx pa n v attr pol : Nat) :
    (s.devWrite core ctx pa n v attr pol).unaccessed = s.unaccessed := by
  refine (State.unaccessed_physWrite ..).trans ((State.unaccessed_cacheWrite (s.disturb ctx pa attr) core pol (pa / 128)).trans ?_)
  unfold State.disturb
  repeat' split
  · rfl
  · rfl
  · exact s.unaccessed_outsideWrite _ _

/-! ### Walks (16 R348-R351) -/

theorem State.unaccessed_readTable (s : State) (w : Walker) (at_ : Nat) : (s.readTable w at_).unaccessed = s.unaccessed := by
  unfold State.readTable
  split
  · exact s.unaccessed_useL2 _ _ _ _
  · rfl

theorem State.unaccessed_walk (s : State) (w : Walker) (ctx va l a : Nat) (lines : List Nat) :
    (s.walk w ctx va l a lines).1.unaccessed = s.unaccessed := by
  induction l generalizing s a lines with
  | zero => rfl
  | succ l ih =>
    have hread := s.unaccessed_readTable w (a + 8 * vpn va l)
    unfold State.walk
    dsimp only
    split
    · rfl
    · split
      · exact ih s _ _
      · split
        · exact hread
        · split
          · exact (ih _ _ _).trans hread
          · exact hread

theorem State.unaccessed_touchLeaf (s : State) (w : Walker) (at_ leaf : Nat) (write : Bool) :
    (s.touchLeaf w at_ leaf write).1.unaccessed = s.unaccessed := by
  unfold State.touchLeaf
  dsimp only
  generalize leaf ||| 64 ||| (if write = true then 128 else 0) = new
  split
  · rfl
  · exact (State.unaccessed_physWrite ..).trans ((State.unaccessed_readTable _ w at_).trans (s.unaccessed_takeLine _ _))

theorem State.unaccessed_anyOfSixteen (s : State) (e : TlbEntry) : (s.anyOfSixteen e).1.unaccessed = s.unaccessed := by
  unfold State.anyOfSixteen
  dsimp only
  split <;> rfl

theorem State.unaccessed_locate (s : State) (core : Nat) (tile : Bool) (c : Context) (va : Nat) :
    (s.locate core tile c va).1.unaccessed = s.unaccessed := by
  unfold State.locate
  split
  · exact s.unaccessed_anyOfSixteen _
  · have hwalk := s.unaccessed_walk (coreWalker core) c.num va 5 c.table []
    split
    · next h => rw [h] at hwalk; exact hwalk
    · next h =>
      rw [h] at hwalk
      dsimp only
      split
      · exact hwalk
      · refine (State.unaccessed_anyOfSixteen _ _).trans (.trans ?_ hwalk)
        cases attrAt _ _ with
        | some a => exact State.unaccessed_readTable _ (coreWalker core) a
        | none => rfl

theorem State.unaccessed_reach (s : State) (core : Nat) (tile : Bool) (ctx : Nat) (va : DWord) (use : Use) :
    (s.reach core tile ctx va use).1.unaccessed = s.unaccessed := by
  unfold State.reach
  split
  · rfl
  · split
    · rfl
    · next c _ =>
      have hlocate := s.unaccessed_locate core tile c va.toNat
      split
      · next h => rw [h] at hlocate; exact hlocate
      · next h =>
        rw [h] at hlocate
        dsimp only
        split
        · exact hlocate
        · exact (State.unaccessed_touchLeaf _ _ _ _ _).trans hlocate

theorem State.unaccessed_tryAccess (s : State) (core : Nat) (tile : Bool) (ctx : Nat) (path : Path) (va : DWord) (size align : Nat)
    (use : Use) : (s.tryAccess core tile ctx path va size align use).1.unaccessed = s.unaccessed := by
  unfold State.tryAccess
  split
  · rfl
  · have hreach := s.unaccessed_reach core tile ctx va use
    dsimp only
    split <;> next h => rw [h] at hreach; exact hreach

theorem State.unaccessed_access {s : State} {core : Nat} {tile : Bool} {ctx : Nat} {path : Path} {va : DWord} {size align : Nat} {use : Use}
    {x : Xlated} (h : s.access core tile ctx path va size align use = .ok x) : x.s.unaccessed = s.unaccessed := by
  have htry := s.unaccessed_tryAccess core tile ctx path va size align use
  unfold State.access at h
  split at h
  · next heq => rw [heq] at htry; cases h; exact htry
  · cases h

/-! ### The flush (06 R161) -/

theorem State.unaccessed_applyEntry (s : State) (d : Drained) : (s.applyEntry d).unaccessed = s.unaccessed := by
  unfold State.applyEntry
  split
  · exact s.unaccessed_devWrite _ _ _ _ _ _ _
  · exact s.unaccessed_devWrite _ _ _ _ _ _ _
  · refine (State.unaccessed_devWrite _ _ _ _ _ _ _ _).trans ?_
    split
    · split
      · next x hx => exact (State.unaccessed_devWrite _ _ _ _ _ _ _ _).trans (State.unaccessed_access hx)
      · exact s.unaccessed_tryAccess _ _ _ _ _ _ _ _
    · rfl

theorem State.unaccessed_gathered (s : State) (t : Tag) (g : Group) : (s.gathered t g).unaccessed = s.unaccessed :=
  (foldl_keeps (g := State.unaccessed) (fun u _ => u.unaccessed_devWrite _ _ _ _ _ _ _) g.accs _).trans
    (foldl_keeps State.unaccessed_applyEntry (s.drained g) s)

end Sys2Proof.Machine

/-!
Broadcast payloads (10 R266-R269, 19 R395): what the application of a payload leaves at a cluster's FIFO banks, in its ring and everywhere else,
and what a group's end and the frames leave alone.
-/

namespace Sys2Proof.Machine

/-! ### FIFO banks (06 R171) -/

/-- The state with another FIFO bank of a core. -/
def State.setFifo (s : State) (c b : Nat) (f : Fifo) : State := s.setCore c ((s.core c).setFifo b f)

theorem State.core_setFifo (s : State) (c b : Nat) (f : Fifo) (j : Nat) :
    (s.setFifo c b f).core j = if j = c then (s.core c).setFifo b f else s.core j := by
  split
  · next h => rw [h]; exact s.core_setCore_self c _
  · next h => exact s.core_setCore_of_ne _ h

theorem State.fifo_setFifo (s : State) (c b : Nat) (f : Fifo) (j i : Nat) :
    ((s.setFifo c b f).core j).fifo i = if j = c ∧ i = b then f else (s.core j).fifo i := by
  rw [State.core_setFifo]
  by_cases hj : j = c
  · subst hj
    rw [if_pos rfl]
    by_cases hi : i = b
    · rw [if_pos ⟨rfl, hi⟩, hi]
      exact Table.getD_put_self _ _ _ _
    · rw [if_neg fun h => hi h.2]
      exact Table.getD_put_of_ne _ _ _ hi
  · rw [if_neg hj, if_neg fun h => hj h.1]

theorem State.modPromise_eq (s : State) (c b : Nat) (f : Nat → Nat) :
    s.modPromise c b f = s.setFifo c b { (s.core c).fifo b with promised := f ((s.core c).fifo b).promised } := rfl

/-- Promises made or withdrawn leave every other bank's FIFO. -/
theorem State.fifo_foldl_modPromise (f : Nat → Nat) {l : List (Nat × Nat)} {j i : Nat} (h : ∀ e ∈ l, e ≠ (j, i)) (s : State) :
    ((l.foldl (fun s e => s.modPromise e.1 e.2 f) s).core j).fifo i = (s.core j).fifo i := by
  induction l generalizing s with
  | nil => rfl
  | cons e l ih =>
    obtain ⟨he, hl⟩ := List.forall_mem_cons.1 h
    rw [List.foldl_cons, ih hl, State.modPromise_eq, State.fifo_setFifo, if_neg fun ⟨hj, hi⟩ => he (Prod.ext hj.symm hi.symm)]

/-! ### Filters (10 R267) -/

/-- The bytes of a filter entry that R267 gives a meaning at delivery: all but DROPS. -/
theorem State.filter_congr {s t : State} {c g : Nat}
    (h : ∀ k, k < 32 → k < 4 ∨ 8 ≤ k → t.window.get (filterAt c g + k) = s.window.get (filterAt c g + k)) :
    t.filter c g = s.filter c g := by
  have hwin (k n : Nat) (hkn : k + n ≤ 4 ∨ (8 ≤ k ∧ k + n ≤ 32)) : t.win (filterAt c g + k) n = s.win (filterAt c g + k) n := by
    refine Bytes.readLE_congr fun j h1 h2 => ?_
    obtain ⟨d, rfl⟩ := Nat.exists_eq_add_of_le h1
    rw [Nat.add_assoc]
    exact h (k + d) (by omega) (by omega)
  have h0 : t.win (filterAt c g) 1 = s.win (filterAt c g) 1 := hwin 0 1 (by omega)
  simp only [State.filter, h0, hwin 2 2 (by omega), hwin 8 8 (by omega), hwin 16 16 (by omega)]

/-- Writing the DROPS of an entry changes no filter. -/
theorem State.filter_setDrops (s : State) (cluster mgroup v c g : Nat) :
    (s.setWin (filterAt cluster mgroup + 4) 4 v).filter c g = s.filter c g := by
  refine State.filter_congr fun k hk hdrops => Bytes.get_writeLE_of_outside _ _ ?_
  unfold filterAt
  omega

/-! ### What a payload leaves alone -/

/-- The states agree in what a payload's delivery only reads: the filters, the launches, the payloads in flight, and every core but for its FIFO
banks and the lines of its L1. -/
structure State.SameAround (s t : State) : Prop where
  cores : ∀ c, { t.core c with l1 := [], fifos := [] } = { s.core c with l1 := [], fifos := [] }
  launches : t.launches = s.launches
  filters : ∀ c g, t.filter c g = s.filter c g
  inflight : t.inflight = s.inflight

namespace State.SameAround

variable {s t u : State}

theorem refl (s : State) : s.SameAround s := ⟨fun _ => rfl, rfl, fun _ _ => rfl, rfl⟩

theorem trans (h : s.SameAround t) (h' : t.SameAround u) : s.SameAround u :=
  ⟨fun c => (h'.cores c).trans (h.cores c), h'.launches.trans h.launches, fun c g => (h'.filters c g).trans (h.filters c g),
    h'.inflight.trans h.inflight⟩

theorem foldl {α : Type} {f : State → α → State} (h : ∀ (s : State) a, s.SameAround (f s a)) (l : List α) (s : State) :
    s.SameAround (l.foldl f s) := by
  induction l generalizing s with
  | nil => exact refl s
  | cons a l ih => exact (h s a).trans (ih _)

/-- Accesses of memory that keep what the tasks hold are among what a delivery may do. -/
theorem of_sameTasks (h : s.SameTasks t) (hout : t.unaccessed = s.unaccessed) : s.SameAround t :=
  ⟨fun c => (congrArg (fun k : Core => { k with fifos := [] }) (h.cores c) :), h.launches,
    fun c g => (congrArg (fun u : State => u.filter c g) hout :), (congrArg State.inflight hout :)⟩

theorem packs (h : s.SameAround t) (c : Nat) : (t.core c).packs = (s.core c).packs := (congrArg Core.packs (h.cores c) :)

theorem bank (h : s.SameAround t) (c b : Nat) : (t.core c).bank b = (s.core c).bank b := (congrArg (fun k : Core => k.bank b) (h.cores c) :)

theorem pack (h : s.SameAround t) (c n : Nat) : t.pack c n = s.pack c n := by rw [State.pack, h.packs, State.pack]

theorem group (h : s.SameAround t) (tag : Tag) (x : Nat) : t.group tag x = s.group tag x := State.group_congr h.launches tag x

theorem groupPacks (h : s.SameAround t) (g : Group) : t.groupPacks g = s.groupPacks g := by simp only [State.groupPacks, h.pack]

end State.SameAround

theorem State.sameAround_setFifo (s : State) (c b : Nat) (f : Fifo) : s.SameAround (s.setFifo c b f) := by
  refine ⟨fun j => ?_, rfl, fun _ _ => rfl, rfl⟩
  rw [State.core_setFifo]
  split
  · next h => rw [h]; rfl
  · rfl

theorem State.sameAround_unitWrite (s : State) (cluster pa : Nat) (bs : List Byte) : s.SameAround (s.unitWrite cluster pa bs) :=
  .of_sameTasks (s.sameTasks_unitWrite cluster pa bs) (s.unaccessed_unitWrite cluster pa bs)

theorem State.sameAround_foldl_modPromise (f : Nat → Nat) (l : List (Nat × Nat)) (s : State) :
    s.SameAround (l.foldl (fun s e => s.modPromise e.1 e.2 f) s) :=
  SameAround.foldl (f := fun s (e : Nat × Nat) => s.modPromise e.1 e.2 f) (fun s e => s.sameAround_setFifo e.1 e.2 _) l s

theorem State.mem_foldl_modPromise (f : Nat → Nat) (l : List (Nat × Nat)) (s : State) :
    (l.foldl (fun s e => s.modPromise e.1 e.2 f) s).mem = s.mem :=
  State.foldl_mem (f := fun s (e : Nat × Nat) => s.modPromise e.1 e.2 f) (fun _ _ => rfl) l s

/-! ### A payload at a core (10 R268) -/

/-- A payload enters a core's FIFO bank, or is dropped there. -/
theorem State.intoFifo_cases (s : State) (p : Payload) (cluster b c : Nat) :
    (∃ f, s.intoFifo p cluster b c = s.setFifo c b f) ∨ ∃ v, s.intoFifo p cluster b c = s.setWin (filterAt cluster p.mgroup + 4) 4 v := by
  unfold State.intoFifo
  dsimp only
  generalize (if (p.promised.contains (c, b) && decide (0 < ((s.core c).fifo b).promised)) = true then _ else _) = n
  split
  · exact .inl ⟨_, rfl⟩
  · exact .inr ⟨_, rfl⟩

theorem State.sameAround_intoFifo (s : State) (p : Payload) (cluster b c : Nat) : s.SameAround (s.intoFifo p cluster b c) := by
  rcases s.intoFifo_cases p cluster b c with ⟨f, h⟩ | ⟨v, h⟩
  · rw [h]
    exact s.sameAround_setFifo c b f
  · rw [h]
    exact ⟨fun _ => rfl, rfl, s.filter_setDrops cluster p.mgroup v, rfl⟩

theorem State.mem_intoFifo (s : State) (p : Payload) (cluster b c : Nat) : (s.intoFifo p cluster b c).mem = s.mem := by
  rcases s.intoFifo_cases p cluster b c with ⟨f, h⟩ | ⟨v, h⟩ <;> rw [h] <;> rfl

theorem State.fifo_intoFifo_of_ne (s : State) (p : Payload) (cluster b : Nat) {c j : Nat} (hj : j ≠ c) (i : Nat) :
    ((s.intoFifo p cluster b c).core j).fifo i = (s.core j).fifo i := by
  rcases s.intoFifo_cases p cluster b c with ⟨f, h⟩ | ⟨v, h⟩
  · rw [h, State.fifo_setFifo, if_neg fun h => hj h.1]
  · rw [h]
    rfl

/-- A payload comes last in a FIFO bank with room. -/
theorem State.entries_intoFifo {s : State} {b c : Nat} (hbank : (s.core c).bank b = .fifo) (hroom : ((s.core c).fifo b).full = false)
    (p : Payload) (cluster : Nat) :
    (((s.intoFifo p cluster b c).core c).fifo b).entries = ((s.core c).fifo b).entries ++ [p.vals] := by
  let held := p.promised.contains (c, b) && decide (0 < ((s.core c).fifo b).promised)
  have henters : s.intoFifo p cluster b c = s.setFifo c b ({ (s.core c).fifo b with
      promised := if held then ((s.core c).fifo b).promised - 1 else ((s.core c).fifo b).promised }.push p.vals) :=
    if_pos (by simp [hbank, hroom])
  rw [henters, State.fifo_setFifo, if_pos ⟨rfl, rfl⟩]
  rfl

/-- A payload that enters some cores of a cluster leaves the others. -/
theorem State.fifo_foldl_intoFifo_of_not_mem (p : Payload) (cluster b : Nat) {cs : List Nat} {j : Nat} (hj : j ∉ cs) (s : State) (i : Nat) :
    ((cs.foldl (fun s c => s.intoFifo p cluster b c) s).core j).fifo i = (s.core j).fifo i := by
  induction cs generalizing s with
  | nil => rfl
  | cons c cs ih =>
    obtain ⟨hc, hcs⟩ := not_or.1 (mt List.mem_cons.2 hj)
    rw [List.foldl_cons, ih hcs, s.fifo_intoFifo_of_ne p cluster b hc]

/-- A payload that enters some cores, each once, comes last in each bank with room. -/
theorem State.entries_foldl_intoFifo (p : Payload) (cluster : Nat) {b j : Nat} {cs : List Nat} (hcs : cs.Nodup) (hj : j ∈ cs) {s : State}
    (hbank : (s.core j).bank b = .fifo) (hroom : ((s.core j).fifo b).full = false) :
    (((cs.foldl (fun s c => s.intoFifo p cluster b c) s).core j).fifo b).entries = ((s.core j).fifo b).entries ++ [p.vals] := by
  induction cs generalizing s with
  | nil => exact absurd hj List.not_mem_nil
  | cons c cs ih =>
    obtain ⟨hc, hcs⟩ := List.nodup_cons.1 hcs
    rw [List.foldl_cons]
    by_cases hjc : j = c
    · subst hjc
      rw [State.fifo_foldl_intoFifo_of_not_mem p cluster b hc, State.entries_intoFifo hbank hroom]
    · have hfifo := s.fifo_intoFifo_of_ne p cluster b hjc b
      rw [ih hcs (List.mem_of_ne_of_mem hjc hj) (((s.sameAround_intoFifo p cluster b c).bank j b).trans hbank) (by rw [hfifo, hroom]), hfifo]

/-! ### A payload in a ring (10 R269) -/

/-- Memory once a ring holds a payload in its next slot, and ARRIVED is raised. -/
def Bytes.ringFilled (m : Bytes) (p : Payload) (f : Filter) : Bytes :=
  let n := m.readLE f.ring 8
  let slot := f.ring + 128 + 128 * (n % f.slots)
  ((lanesOf p.lanes).foldl (fun m i => m.writeLE (slot + 4 * i) 4 (Words.get p.vals i).toNat) m).writeLE f.ring 8 (n + 1)

theorem Bytes.get_foldl_writeLE_of_outside {f : Nat → Nat} {at_ a : Nat} {l : List Nat} (h : ∀ i ∈ l, a < at_ + 4 * i ∨ at_ + 4 * i + 4 ≤ a)
    (m : Bytes) : Bytes.get (l.foldl (fun m i => m.writeLE (at_ + 4 * i) 4 (f i)) m) a = m.get a :=
  List.foldlRecOn l (motive := fun m' => Bytes.get m' a = m.get a) _ rfl fun _ hm i hi =>
    (Bytes.get_writeLE_of_outside _ _ (h i hi)).trans hm

/-- Words written at their places are each read there. -/
theorem Bytes.readLE_foldl_writeLE {f : Nat → Nat} {at_ i : Nat} {l : List Nat} (hl : l.Nodup) (hi : i ∈ l) (m : Bytes) :
    Bytes.readLE (l.foldl (fun m i => m.writeLE (at_ + 4 * i) 4 (f i)) m) (at_ + 4 * i) 4 = f i % 256 ^ 4 := by
  induction l generalizing m with
  | nil => exact absurd hi List.not_mem_nil
  | cons k l ih =>
    obtain ⟨hk, hl⟩ := List.nodup_cons.1 hl
    rw [List.foldl_cons]
    by_cases hik : i = k
    · subst hik
      rw [Bytes.readLE_congr fun j h1 h2 => Bytes.get_foldl_writeLE_of_outside (fun n hn => ?_) _, Bytes.readLE_writeLE]
      have hne : n ≠ i := fun h => hk (h ▸ hn)
      omega
    · exact ih hl (List.mem_of_ne_of_mem hik hi) _

/-- A ring that holds one payload more: ARRIVED, the active lanes' words of the slot, and every other byte as it was. -/
theorem Bytes.ringFilled_spec (m : Bytes) (p : Payload) (f : Filter) :
    let slot := f.ring + 128 + 128 * (m.readLE f.ring 8 % f.slots)
    (m.ringFilled p f).readLE f.ring 8 = (m.readLE f.ring 8 + 1) % 2 ^ 64 ∧
      (∀ i, p.lanes.getLsbD i = true → (m.ringFilled p f).readLE (slot + 4 * i) 4 = (Words.get p.vals i).toNat) ∧
      ∀ a, (a < f.ring ∨ f.ring + 8 ≤ a) → (∀ i, p.lanes.getLsbD i = true → a < slot + 4 * i ∨ slot + 4 * i + 4 ≤ a) →
        (m.ringFilled p f).get a = m.get a := by
  intro slot
  refine ⟨Bytes.readLE_writeLE _ _ _ _, fun i hi => ?_, fun a hring hslot => ?_⟩
  · rw [Bytes.ringFilled, Bytes.readLE_writeLE_of_outside _ _ (by omega),
      Bytes.readLE_foldl_writeLE (lanesOf_nodup _) (mem_lanesOf.2 ⟨BitVec.lt_of_getLsbD hi, hi⟩)]
    exact Nat.mod_eq_of_lt (Words.get p.vals i).isLt
  · rw [Bytes.ringFilled, Bytes.get_writeLE_of_outside _ _ hring]
    exact Bytes.get_foldl_writeLE_of_outside (fun i hi => hslot i (mem_lanesOf.1 hi).2) m

/-- The lanes' words of a slot, written one by one for a cluster. -/
def State.lanesWritten (s : State) (cluster at_ : Nat) (p : Payload) : State :=
  (lanesOf p.lanes).foldl (fun s i => s.unitWrite cluster (at_ + 4 * i) (bytesLE 4 (Words.get p.vals i).toNat)) s

theorem State.intoRing_eq (s : State) (p : Payload) (cluster : Nat) (f : Filter) : s.intoRing p cluster f =
    (s.lanesWritten cluster (f.ring + 128 + 128 * (s.ringArrived f.ring % f.slots)) p).unitWrite cluster f.ring
      (bytesLE 8 (s.ringArrived f.ring + 1)) := rfl

theorem State.mem_lanesWritten (s : State) (cluster at_ : Nat) (p : Payload) : (s.lanesWritten cluster at_ p).mem =
    (lanesOf p.lanes).foldl (fun m i => Bytes.writeLE m (at_ + 4 * i) 4 (Words.get p.vals i).toNat) s.mem := by
  unfold State.lanesWritten
  induction lanesOf p.lanes generalizing s with
  | nil => rfl
  | cons i l ih => rw [List.foldl_cons, ih, State.unitWrite_mem, Bytes.writeList_bytesLE, List.foldl_cons]

theorem State.mem_intoRing (s : State) (p : Payload) (cluster : Nat) (f : Filter) : (s.intoRing p cluster f).mem = s.mem.ringFilled p f := by
  rw [State.intoRing_eq, State.unitWrite_mem, Bytes.writeList_bytesLE, State.mem_lanesWritten]
  rfl

theorem State.sameTasks_intoRing (s : State) (p : Payload) (cluster : Nat) (f : Filter) : s.SameTasks (s.intoRing p cluster f) :=
  (SameTasks.foldl (fun s _ => s.sameTasks_unitWrite cluster _ _) (lanesOf p.lanes) s).trans (State.sameTasks_unitWrite _ cluster _ _)

theorem State.sameAround_intoRing (s : State) (p : Payload) (cluster : Nat) (f : Filter) : s.SameAround (s.intoRing p cluster f) :=
  (SameAround.foldl (fun s _ => s.sameAround_unitWrite cluster _ _) (lanesOf p.lanes) s).trans (State.sameAround_unitWrite _ cluster _ _)

/-! ### A payload at a cluster (10 R267) -/

/-- An entry names a ring. -/
def Filter.ringed (f : Filter) : Bool := f.mode == 2 && f.slots != 0

/-- The cores of cluster `cluster` that an entry names as FIFOs. -/
def Filter.fifoCores (f : Filter) (cluster : Nat) : List Nat := if f.mode = 1 then f.cores.map fun n => 128 * cluster + n else []

/-- The promises of a payload at a cluster that lapse: those at cores and banks that the entry does not name. -/
def Payload.lapsing (p : Payload) (cluster : Nat) (f : Filter) : List (Nat × Nat) :=
  p.promised.filter fun e => clusterOf e.1 == cluster && !((f.fifoCores cluster).contains e.1 && e.2 == f.bank)

/-- The state once the promises that lapse at a cluster are withdrawn. -/
def State.lapsed (s : State) (p : Payload) (cluster : Nat) : State :=
  (p.lapsing cluster (s.filter cluster p.mgroup)).foldl (fun s e => s.modPromise e.1 e.2 (· - 1)) s

theorem State.applyAt_eq (s : State) (p : Payload) (cluster : Nat) :
    let f := s.filter cluster p.mgroup
    s.applyAt p cluster = if f.mode = 1 then (f.fifoCores cluster).foldl (fun s c => s.intoFifo p cluster f.bank c) (s.lapsed p cluster)
      else if f.ringed then (s.lapsed p cluster).intoRing p cluster f else s.lapsed p cluster := rfl

theorem State.sameAround_lapsed (s : State) (p : Payload) (cluster : Nat) : s.SameAround (s.lapsed p cluster) :=
  State.sameAround_foldl_modPromise _ _ s

theorem State.mem_lapsed (s : State) (p : Payload) (cluster : Nat) : (s.lapsed p cluster).mem = s.mem := State.mem_foldl_modPromise _ _ s

/-- What a promise that lapses leaves: banks of other clusters, and those the entry names. -/
theorem State.fifo_lapsed (s : State) (p : Payload) {cluster j i : Nat} (h : clusterOf j = cluster →
    j ∈ (s.filter cluster p.mgroup).fifoCores cluster ∧ i = (s.filter cluster p.mgroup).bank) :
    ((s.lapsed p cluster).core j).fifo i = (s.core j).fifo i := by
  refine State.fifo_foldl_modPromise _ (fun e he hej => ?_) s
  subst hej
  have hlapses := (List.mem_filter.1 he).2
  rw [Bool.and_eq_true, beq_iff_eq] at hlapses
  obtain ⟨hmem, hbank⟩ := h hlapses.1
  simp [hmem, hbank] at hlapses

theorem State.sameAround_applyAt (s : State) (p : Payload) (cluster : Nat) : s.SameAround (s.applyAt p cluster) := by
  have hlapsed := s.sameAround_lapsed p cluster
  rw [State.applyAt_eq]
  split
  · exact hlapsed.trans (SameAround.foldl (fun s c => s.sameAround_intoFifo p cluster _ c) _ _)
  · split
    · exact hlapsed.trans (State.sameAround_intoRing _ p cluster _)
    · exact hlapsed

/-- Only a ring is in memory. -/
theorem State.mem_applyAt_of_not_ringed {s : State} {p : Payload} {cluster : Nat} (h : (s.filter cluster p.mgroup).ringed = false) :
    (s.applyAt p cluster).mem = s.mem := by
  rw [State.applyAt_eq, h]
  split
  · exact (State.foldl_mem (fun s c => s.mem_intoFifo p cluster _ c) _ _).trans (s.mem_lapsed p cluster)
  · exact s.mem_lapsed p cluster

theorem State.mem_applyAt_of_ringed {s : State} {p : Payload} {cluster : Nat} (h : (s.filter cluster p.mgroup).ringed = true) :
    (s.applyAt p cluster).mem = s.mem.ringFilled p (s.filter cluster p.mgroup) := by
  have hmode : (s.filter cluster p.mgroup).mode ≠ 1 := fun h1 => by simp [Filter.ringed, h1] at h
  rw [State.applyAt_eq, if_neg hmode, if_pos h, State.mem_intoRing, State.mem_lapsed]

theorem clusterOf_fifoCores {f : Filter} {cluster c : Nat} (hf : ∀ n ∈ f.cores, n < 128) (h : c ∈ f.fifoCores cluster) :
    clusterOf c = cluster := by
  unfold Filter.fifoCores at h
  split at h
  · obtain ⟨n, hn, rfl⟩ := List.mem_map.1 h
    have hlt := hf n hn
    unfold clusterOf
    omega
  · exact absurd h List.not_mem_nil

theorem State.cores_filter_lt (s : State) (cluster mgroup : Nat) : ∀ n ∈ (s.filter cluster mgroup).cores, n < 128 := fun _ hn =>
  List.mem_range.1 (List.mem_of_mem_filter hn)

theorem State.nodup_fifoCores (s : State) (cluster mgroup : Nat) : ((s.filter cluster mgroup).fifoCores cluster).Nodup := by
  unfold Filter.fifoCores
  split
  · exact (List.nodup_range.filter _).map fun _ _ h => Nat.add_left_cancel h
  · exact List.nodup_nil

/-- A payload at a cluster leaves the FIFO banks of every other. -/
theorem State.fifo_applyAt_of_ne (s : State) (p : Payload) {cluster j : Nat} (hj : clusterOf j ≠ cluster) (i : Nat) :
    ((s.applyAt p cluster).core j).fifo i = (s.core j).fifo i := by
  have hlapsed : ((s.lapsed p cluster).core j).fifo i = (s.core j).fifo i := s.fifo_lapsed p fun h => absurd h hj
  rw [State.applyAt_eq]
  split
  · rw [State.fifo_foldl_intoFifo_of_not_mem p cluster _ fun hmem => hj (clusterOf_fifoCores (s.cores_filter_lt cluster p.mgroup) hmem), hlapsed]
  · split
    · refine .trans ?_ hlapsed
      exact (congrArg (fun k : Core => k.fifo i) ((State.sameTasks_intoRing _ p cluster _).cores j) :)
    · exact hlapsed

/-- A payload at a cluster whose entry names a FIFO bank with room comes last there. -/
theorem State.entries_applyAt {s : State} {p : Payload} {cluster n : Nat} (hmode : (s.filter cluster p.mgroup).mode = 1)
    (hn : n ∈ (s.filter cluster p.mgroup).cores)
    (hbank : (s.core (128 * cluster + n)).bank (s.filter cluster p.mgroup).bank = .fifo)
    (hroom : ((s.core (128 * cluster + n)).fifo (s.filter cluster p.mgroup).bank).full = false) :
    (((s.applyAt p cluster).core (128 * cluster + n)).fifo (s.filter cluster p.mgroup).bank).entries =
      ((s.core (128 * cluster + n)).fifo (s.filter cluster p.mgroup).bank).entries ++ [p.vals] := by
  have hmem : 128 * cluster + n ∈ (s.filter cluster p.mgroup).fifoCores cluster := by
    rw [Filter.fifoCores, if_pos hmode]
    exact List.mem_map_of_mem hn
  have hlapsed := s.fifo_lapsed p (i := (s.filter cluster p.mgroup).bank) fun _ => ⟨hmem, rfl⟩
  rw [State.applyAt_eq, if_pos hmode, State.entries_foldl_intoFifo p cluster (s.nodup_fifoCores cluster p.mgroup) hmem
    (((s.sameAround_lapsed p cluster).bank _ _).trans hbank) (by rw [hlapsed, hroom]), hlapsed]

/-! ### A payload at every cluster that it reaches -/

/-- The state once a payload is applied at some clusters. -/
def State.applyAll (s : State) (p : Payload) (cs : List Nat) : State := cs.foldl (fun s c => s.applyAt p c) s

theorem State.sameAround_applyAll (s : State) (p : Payload) (cs : List Nat) : s.SameAround (s.applyAll p cs) :=
  SameAround.foldl (fun s c => s.sameAround_applyAt p c) cs s

theorem State.fifo_applyAll_of_not_mem (p : Payload) {cs : List Nat} {j : Nat} (hj : clusterOf j ∉ cs) (s : State) (i : Nat) :
    ((s.applyAll p cs).core j).fifo i = (s.core j).fifo i := by
  unfold State.applyAll
  induction cs generalizing s with
  | nil => rfl
  | cons c cs ih =>
    obtain ⟨hc, hcs⟩ := not_or.1 (mt List.mem_cons.2 hj)
    rw [List.foldl_cons, ih hcs, s.fifo_applyAt_of_ne p hc]

/-- A payload applied at clusters, at each once, comes last in each FIFO bank that their entries name and that has room. -/
theorem State.entries_applyAll {p : Payload} {cs : List Nat} {c n : Nat} (hcs : cs.Nodup) (hc : c ∈ cs) {s : State}
    (hmode : (s.filter c p.mgroup).mode = 1) (hn : n ∈ (s.filter c p.mgroup).cores)
    (hbank : (s.core (128 * c + n)).bank (s.filter c p.mgroup).bank = .fifo)
    (hroom : ((s.core (128 * c + n)).fifo (s.filter c p.mgroup).bank).full = false) :
    (((s.applyAll p cs).core (128 * c + n)).fifo (s.filter c p.mgroup).bank).entries =
      ((s.core (128 * c + n)).fifo (s.filter c p.mgroup).bank).entries ++ [p.vals] := by
  have hcluster : clusterOf (128 * c + n) = c := by
    have hlt := s.cores_filter_lt c p.mgroup n hn
    unfold clusterOf
    omega
  induction cs generalizing s with
  | nil => exact absurd hc List.not_mem_nil
  | cons d cs ih =>
    obtain ⟨hd, hcs⟩ := List.nodup_cons.1 hcs
    show ((((s.applyAt p d).applyAll p cs).core _).fifo _).entries = _
    by_cases hcd : c = d
    · subst hcd
      rw [State.fifo_applyAll_of_not_mem p (by rwa [hcluster]), State.entries_applyAt hmode hn hbank hroom]
    · have haround := s.sameAround_applyAt p d
      have hfilter := haround.filters c p.mgroup
      have hfifo := s.fifo_applyAt_of_ne p (cluster := d) (hcluster.symm ▸ hcd) (s.filter c p.mgroup).bank
      have hlast := ih (s := s.applyAt p d) hcs (List.mem_of_ne_of_mem hcd hc)
      rw [hfilter, haround.bank, hfifo] at hlast
      exact hlast hmode hn hbank hroom

theorem State.mem_applyAll_of_not_ringed {p : Payload} {cs : List Nat} {s : State}
    (h : ∀ d ∈ cs, (s.filter d p.mgroup).ringed = false) : (s.applyAll p cs).mem = s.mem := by
  induction cs generalizing s with
  | nil => rfl
  | cons d cs ih =>
    obtain ⟨hd, hcs⟩ := List.forall_mem_cons.1 h
    have hrest (e : Nat) (he : e ∈ cs) : ((s.applyAt p d).filter e p.mgroup).ringed = false := by
      rw [(s.sameAround_applyAt p d).filters, hcs e he]
    exact (ih hrest).trans (State.mem_applyAt_of_not_ringed hd)

/-- A payload that one entry takes into a ring fills that ring, and no other byte of memory. -/
theorem State.mem_applyAll_of_ringed {p : Payload} {cs : List Nat} {c : Nat} (hcs : cs.Nodup) (hc : c ∈ cs) {s : State}
    (hring : (s.filter c p.mgroup).ringed = true) (hothers : ∀ d ∈ cs, d ≠ c → (s.filter d p.mgroup).ringed = false) :
    (s.applyAll p cs).mem = s.mem.ringFilled p (s.filter c p.mgroup) := by
  induction cs generalizing s with
  | nil => exact absurd hc List.not_mem_nil
  | cons d cs ih =>
    obtain ⟨hd, hcs⟩ := List.nodup_cons.1 hcs
    obtain ⟨hdfree, hfree⟩ := List.forall_mem_cons.1 hothers
    have hfilter (e : Nat) := (s.sameAround_applyAt p d).filters e p.mgroup
    show ((s.applyAt p d).applyAll p cs).mem = _
    by_cases hcd : c = d
    · subst hcd
      rw [State.mem_applyAll_of_not_ringed fun e he => by rw [hfilter, hfree e he fun h => hd (h ▸ he)], State.mem_applyAt_of_ringed hring]
    · rw [ih hcs (List.mem_of_ne_of_mem hcd hc) (by rw [hfilter, hring]) fun e he hne => by rw [hfilter, hfree e he hne],
        State.mem_applyAt_of_not_ringed (hdfree (Ne.symm hcd)), hfilter]

end Sys2Proof.Machine

/-!
Broadcast emission, delivery, filter writes and frames (10 R267-R269, 19 R395, R396): what each event leaves, and the statement O45.
-/

namespace Sys2Proof.Machine

/-! ### The end of a group (15 R329) -/

/-- The payloads in flight and the FIFO banks of every core, which the end of a group leaves alone. -/
def State.carried (s : State) : List Payload × (Nat → Table Fifo) := (s.inflight, fun c => (s.core c).fifos)

theorem State.carried_setCore {s : State} {c : Nat} {k : Core} (h : k.fifos = (s.core c).fifos) : (s.setCore c k).carried = s.carried := by
  refine Prod.ext rfl (funext fun j => ?_)
  show ((s.setCore c k).core j).fifos = (s.core j).fifos
  by_cases hj : j = c
  · rw [hj, State.core_setCore_self, h]
  · rw [State.core_setCore_of_ne _ _ hj]

theorem State.carried_modPack (s : State) (c n : Nat) (f : Pack → Pack) : (s.modPack c n f).carried = s.carried := by
  unfold State.modPack
  split
  · exact State.carried_setCore rfl
  · rfl

theorem State.carried_gathered (s : State) (t : Tag) (g : Group) : (s.gathered t g).carried = s.carried :=
  Prod.ext (congrArg State.inflight (s.unaccessed_gathered t g) :)
    (funext fun c => (congrArg Core.fifos ((s.sameTasks_gathered t g).cores c) :))

theorem State.carried_lastFlush (s : State) (t : Tag) (x : Nat) : (s.lastFlush t x).carried = s.carried := by
  have hflush (g : Group) : (s.flushGroup t g false).carried = s.carried :=
    (foldl_keeps (g := State.carried) (fun s (p : Nat × Nat) => s.carried_modPack p.1 p.2 _) g.packs _).trans (s.carried_gathered t g)
  unfold State.lastFlush
  split
  · rfl
  · split
    · exact hflush _
    · rfl

theorem State.carried_releasePack (s : State) (core slot : Nat) : (s.releasePack core slot).carried = s.carried := by
  have hlists (s : State) (p : PageList → Bool) : (s.dropLists p).carried = s.carried :=
    foldl_keeps (f := fun (s : State) (l : PageList) => s.modContext l.ctx fun c => c.giveBack l.granule) (g := State.carried)
      (fun _ _ => rfl) (s.pageLists.filter p) { s with pageLists := s.pageLists.filter fun l => !p l }
  unfold State.releasePack
  split
  · rfl
  · exact (hlists _ _).trans (State.carried_setCore rfl)

theorem State.carried_groupEnd (s : State) (t : Tag) (x : Nat) : (s.groupEnd t x).carried = s.carried := by
  unfold State.groupEnd
  split
  · rfl
  · split
    · rfl
    · next g _ _ =>
      refine (foldl_keeps (g := State.carried) (fun s (p : Nat × Nat) => s.carried_releasePack p.1 p.2) g.packs _).trans ?_
      split
      · rfl
      · exact s.carried_lastFlush t x

/-- A group with a pack that has not ended does not end. -/
theorem State.groupEnd_of_running {s : State} {t : Tag} {x : Nat}
    (h : ∀ g, s.group t x = some g → ∃ e ∈ s.groupPacks g, e.2.2.reaped = false) : s.groupEnd t x = s := by
  unfold State.groupEnd
  split
  · rfl
  · next g hg =>
    obtain ⟨e, he, hreaped⟩ := h g hg
    have hover : ((s.groupPacks g).all fun p => p.2.2.reaped) = false := List.all_eq_false.2 ⟨e, he, by simp [hreaped]⟩
    rw [if_pos]
    simp [State.groupOver, hover]

/-- Commands that are done change the commands and raise events, and nothing else. -/
theorem State.settleRevokes_eq (s : State) :
    ∃ events cmdStatus cmdHeld, s.settleRevokes = { s with events := events, cmdStatus := cmdStatus, cmdHeld := cmdHeld } := by
  unfold State.settleRevokes
  induction [0, 1] generalizing s with
  | nil => exact ⟨_, _, _, rfl⟩
  | cons complex l ih =>
    obtain ⟨events, cmdStatus, cmdHeld, h⟩ := ih (if s.cmdStatus.getD complex 0 == 1 && s.cmd complex 0 1 == 3 then
      (if s.launches.any (fun l => l.ctx == s.cmd complex 4 4 && (l.groups.any fun g => !g.2.packs.isEmpty) &&
        l.leases.any fun e => overlap e.base e.len (s.cmd complex 8 8) (s.cmd complex 16 8)) then s else s.cmdDone complex 2) else s)
    refine ⟨events, cmdStatus, cmdHeld, h.trans ?_⟩
    repeat' split
    all_goals rfl

/-! ### Emission (10 R268) -/

section
variable {core slot op : Nat} {s : State} {k : Pack} {o : PendOp} {mgroup : Nat} {va : DWord} {lanes : Mask} {vals : Words} {owner : Nat}

/-- The payload that a broadcast store emits in this frame's slot of `owner`. -/
def State.bstPayload (s : State) (core slot : Nat) (k : Pack) (mgroup : Nat) (lanes : Mask) (vals : Words) (owner : Nat) : Payload :=
  { bus := mgroup % 8, mgroup := mgroup, lanes := lanes, vals := vals, frame := s.frame, participant := owner, core := core
    slot := slot, tag := k.tag, group := k.group, lpack := k.lpack, promised := s.promises mgroup, rings := s.ringClusters mgroup
    serial := s.clock }

/-- The state once a payload is promised its FIFO entries and on its way. -/
def State.emitted (s : State) (p : Payload) : State :=
  let t := p.promised.foldl (fun s e => s.modPromise e.1 e.2 (· + 1)) s
  { t with inflight := t.inflight ++ [p], clock := t.clock + 1 }

/-- A broadcast store with room everywhere emits its payload. -/
theorem exec_bstEmission (hk : State.pack s core slot = some k) (ho : k.ops.find? (fun p => p.id == op) = some o)
    (hkind : o.kind = .bst mgroup va lanes vals) (hdone : o.done = false) (hfirst : k.bstAhead o mgroup = false)
    (howner : s.slotOwner (mgroup % 8) (clusterOf core) s.frame = some owner) (hgrants : ∀ c, c < Config.clusters → s.grants c mgroup = true)
    (hfree : s.slotFree (mgroup % 8) owner s.frame (clusterOf core) = true) : exec (.bstEmission core slot op) s =
      .next ((s.emitted (s.bstPayload core slot k mgroup lanes vals owner)).setPack core slot (k.setOp { o with done := true })) := by
  have hall : (List.range Config.clusters).all (fun c => s.grants c mgroup) = true :=
    List.all_eq_true.2 fun c hc => hgrants c (List.mem_range.1 hc)
  refine withOp_of_some hk ho ?_ "BST_EMISSION"
  simp only [hkind, howner, hdone, hfirst, hall, hfree, Bool.not_true, Bool.or_false, Bool.false_eq_true, if_false]
  rfl

theorem exec_bstEmission_spec (hk : State.pack s core slot = some k) (ho : k.ops.find? (fun p => p.id == op) = some o)
    (hkind : o.kind = .bst mgroup va lanes vals) (hdone : o.done = false) (hfirst : k.bstAhead o mgroup = false)
    (howner : s.slotOwner (mgroup % 8) (clusterOf core) s.frame = some owner) (hgrants : ∀ c, c < Config.clusters → s.grants c mgroup = true)
    (hfree : s.slotFree (mgroup % 8) owner s.frame (clusterOf core) = true) :
    ∃ t k' p, exec (.bstEmission core slot op) s = .next t ∧ t.inflight = s.inflight ++ [p] ∧ p.mgroup = mgroup ∧ p.bus = mgroup % 8 ∧
      p.lanes = lanes ∧ p.vals = vals ∧ p.frame = s.frame ∧ p.participant = owner ∧ t.mem = s.mem ∧ t.pack core slot = some k' ∧
      ∀ q ∈ k'.ops, q.id = op → q.done = true := by
  let p := s.bstPayload core slot k mgroup lanes vals owner
  have hinflight := (s.sameAround_foldl_modPromise (· + 1) p.promised).inflight
  have hid : o.id = op := by simpa using List.find?_some ho
  refine ⟨_, k.setOp { o with done := true }, p, exec_bstEmission hk ho hkind hdone hfirst howner hgrants hfree, ?_, rfl, rfl, rfl, rfl, rfl,
    rfl, s.mem_foldl_modPromise (· + 1) p.promised, State.pack_setPack_self _ _ _ _, fun q hq hqid => ?_⟩
  · exact congrArg (· ++ [p]) hinflight
  · rw [Pack.eq_of_mem_setOp hq (hqid.trans hid.symm)]

end

/-! ### Delivery (10 R268, R269) -/

/-- The state once a payload is applied at every cluster that waits for it, and is no longer on its way. -/
def State.landed (s : State) (p : Payload) : State :=
  let t := s.applyAll p p.waiting
  { t with inflight := t.inflight.flatMap fun q => if q.serial = p.serial then [] else [q] }

section
variable {bus : Nat} {s : State} {p : Payload} (hp : s.nextPayload bus = some p)
  (hgo : ∀ c ∈ p.waiting, s.canApply p c = true ∧ s.behindAt p c = false)
include hp hgo

/-- A payload that every cluster can apply is applied at each. -/
theorem exec_broadcastDelivery : exec (.broadcastDelivery bus) s = .next (((s.landed p).groupEnd p.tag p.group).settleRevokes) := by
  have hall : (p.waiting.filter fun c => s.canApply p c && !s.behindAt p c) = p.waiting :=
    List.filter_eq_self.2 fun c hc => by simp [hgo c hc]
  have hrest : (p.waiting.filter fun c => !p.waiting.contains c) = [] :=
    List.filter_eq_nil_iff.2 fun c hc => by simp [hc]
  show execBroadcastDelivery bus s = _
  simp only [execBroadcastDelivery, hp, hall, hrest, List.isEmpty_nil, if_true]
  rfl

theorem exec_broadcastDelivery_spec : ∃ t, exec (.broadcastDelivery bus) s = .next t ∧ (∀ q ∈ t.inflight, q.serial ≠ p.serial) ∧
    (p.waiting.Nodup → p.mgroup < 256 → (∀ c ∈ p.waiting, c < Config.clusters) → ∀ c ∈ p.waiting,
      let f := s.filter c p.mgroup
      (f.mode = 1 → ∀ n ∈ f.cores, (s.core (128 * c + n)).bank f.bank = .fifo → ((s.core (128 * c + n)).fifo f.bank).full = false →
        ((t.core (128 * c + n)).fifo f.bank).entries = ((s.core (128 * c + n)).fifo f.bank).entries ++ [p.vals]) ∧
      (f.mode = 2 → f.slots ≠ 0 → (∀ d ∈ p.waiting, d ≠ c → (s.filter d p.mgroup).mode ≠ 2 ∨ (s.filter d p.mgroup).slots = 0) →
        (∀ g, s.group p.tag p.group = some g → ∃ e ∈ s.groupPacks g, e.2.2.reaped = false) →
        let at_ := f.ring + 128 + 128 * (s.ringArrived f.ring % f.slots)
        t.mem.readLE f.ring 8 = (s.ringArrived f.ring + 1) % 2 ^ 64 ∧
          (∀ i, p.lanes.getLsbD i = true → t.mem.readLE (at_ + 4 * i) 4 = (Words.get p.vals i).toNat) ∧
          ∀ a, (a < f.ring ∨ f.ring + 8 ≤ a) → (∀ i, p.lanes.getLsbD i = true → a < at_ + 4 * i ∨ at_ + 4 * i + 4 ≤ a) →
            t.mem.get a = s.mem.get a)) := by
  have haround := s.sameAround_applyAll p p.waiting
  obtain ⟨events, cmdStatus, cmdHeld, hrevokes⟩ := ((s.landed p).groupEnd p.tag p.group).settleRevokes_eq
  have hcarried : ((s.landed p).groupEnd p.tag p.group).settleRevokes.carried = (s.landed p).carried :=
    (congrArg State.carried hrevokes).trans ((s.landed p).carried_groupEnd p.tag p.group)
  have hinflight : ((s.landed p).groupEnd p.tag p.group).settleRevokes.inflight = (s.landed p).inflight := congrArg Prod.fst hcarried
  refine ⟨_, exec_broadcastDelivery hp hgo, fun q hq => ?_, fun hnodup _ _ c hc => ⟨fun hmode n hn hbank hroom => ?_,
    fun hmode hslots hothers hrunning => ?_⟩⟩
  · rw [hinflight] at hq
    obtain ⟨r, -, hr⟩ := List.mem_flatMap.1 hq
    split at hr
    · exact absurd hr List.not_mem_nil
    · next hne => rwa [List.mem_singleton.1 hr]
  · have hfifos := congrFun (congrArg Prod.snd hcarried) (128 * c + n)
    refine .trans ?_ (State.entries_applyAll hnodup hc hmode hn hbank hroom)
    exact (congrArg (fun m : Table Fifo => (m.getD (s.filter c p.mgroup).bank {}).entries) hfifos :)
  · have hend : (s.landed p).groupEnd p.tag p.group = s.landed p := State.groupEnd_of_running fun g hg => by
      obtain ⟨e, he, hreaped⟩ := hrunning g ((haround.group p.tag p.group).symm.trans hg)
      exact ⟨e, (haround.groupPacks g).symm ▸ he, hreaped⟩
    have hring : (s.filter c p.mgroup).ringed = true := by simp [Filter.ringed, hmode, hslots]
    have hmem : ((s.landed p).groupEnd p.tag p.group).settleRevokes.mem = s.mem.ringFilled p (s.filter c p.mgroup) := by
      rw [hrevokes]
      show ((s.landed p).groupEnd p.tag p.group).mem = _
      rw [hend]
      refine State.mem_applyAll_of_ringed hnodup hc hring fun d hd hne => ?_
      rcases hothers d hd hne with h | h <;> simp [Filter.ringed, h]
    rw [hmem]
    exact s.mem.ringFilled_spec p _

end

/-! ### Writes of filter entries (10 R267) -/

/-- A masked write leaves the bytes outside it. -/
theorem State.window_setWinMasked_of_outside (s : State) {off n j : Nat} (mask : Nat → Byte) (v : Nat) (h : j < off ∨ off + n ≤ j) :
    (s.setWinMasked off mask n v).window.get j = s.window.get j := by
  induction n generalizing s off v with
  | zero => rfl
  | succ n ih =>
    rw [State.setWinMasked]
    exact (ih _ _ (by omega)).trans ((Bytes.get_set _ _ _ _).trans (if_neg (by omega)))

/-- The first byte of a masked write keeps its bits outside the mask. -/
theorem State.window_setWinMasked_first (s : State) (off : Nat) (mask : Nat → Byte) (n v : Nat) :
    (s.setWinMasked off mask (n + 1) v).window.get off = (s.window.get off &&& ~~~mask off) ||| (BitVec.ofNat 8 v &&& mask off) := by
  rw [State.setWinMasked]
  exact (State.window_setWinMasked_of_outside _ mask _ (by omega)).trans ((Bytes.get_set _ _ _ _).trans (if_pos rfl))

/-- MODE is writable (10 R267). -/
theorem mode_of_masked (old : Byte) (v : Nat) : ((old &&& ~~~filterMask 0) ||| (BitVec.ofNat 8 v &&& filterMask 0)).toNat % 4 = v % 4 := by
  have hlow : ((old &&& ~~~filterMask 0) ||| (BitVec.ofNat 8 v &&& filterMask 0)).setWidth 2 = BitVec.ofNat 2 v := by
    refine BitVec.eq_of_getLsbD_eq fun i hi => ?_
    interval_cases i <;> simp [filterMask]
  exact (congrArg BitVec.toNat hlow :)

theorem State.mode_filter (s : State) (cluster mgroup : Nat) :
    (s.filter cluster mgroup).mode = (s.window.get (filterAt cluster mgroup)).toNat % 4 := by
  simp [State.filter, State.win, Bytes.readLE, cut]

theorem filterAt_mod (cluster mgroup k : Nat) (hk : k < 32) : (filterAt cluster mgroup + k) % 32 = k := by
  unfold filterAt
  omega

/-- A write of an entry changes that entry's bytes only. -/
theorem State.window_writeFilter_of_outside (s : State) {cluster mgroup byte size j : Nat} (v : Nat) (hpos : 0 < size) (hsize : byte + size ≤ 32)
    (h : j < filterAt cluster mgroup ∨ filterAt cluster mgroup + 32 ≤ j) :
    (s.writeFilter (filterAt cluster mgroup + byte) size v).window.get j = s.window.get j := by
  have hmasked (mask : Nat → Byte) := s.window_setWinMasked_of_outside (off := filterAt cluster mgroup + byte) (n := size) (j := j) mask v
    (by omega)
  unfold State.writeFilter
  dsimp only
  split
  · next hzero =>
    have hbyte : byte = 0 := by unfold filterAt at hzero; omega
    rw [← hmasked]
    refine Bytes.get_writeLE_of_outside _ _ ?_
    unfold filterAt at *
    omega
  · exact hmasked _

/-- A write of an entry's first bytes writes MODE and clears DROPS. -/
theorem State.writeFilter_first (s : State) (cluster mgroup : Nat) {size : Nat} (hsize : size = 4 ∨ size = 8) (v : Nat) :
    ((s.writeFilter (filterAt cluster mgroup) size v).filter cluster mgroup).mode = v % 4 ∧
      (s.writeFilter (filterAt cluster mgroup) size v).win (filterAt cluster mgroup + 4) 4 = 0 := by
  obtain ⟨n, rfl⟩ : ∃ n, size = n + 1 := ⟨size - 1, by omega⟩
  have hmod : filterAt cluster mgroup % 32 = 0 := filterAt_mod cluster mgroup 0 (by decide)
  have hmask : filterMask (filterAt cluster mgroup % 32) = filterMask 0 := by rw [hmod]
  have heq : s.writeFilter (filterAt cluster mgroup) (n + 1) v =
      (s.setWinMasked (filterAt cluster mgroup) (fun o => filterMask (o % 32)) (n + 1) v).setWin (filterAt cluster mgroup + 4) 4 0 := if_pos hmod
  rw [heq]
  refine ⟨?_, State.win_setWin_self _ _ _ _⟩
  have hfirst := s.window_setWinMasked_first (filterAt cluster mgroup) (fun o => filterMask (o % 32)) n v
  rw [hmask] at hfirst
  rw [State.filter_setDrops, State.mode_filter, hfirst, mode_of_masked]

/-- A write of filter registers changes its entry alone; one of the first bytes sets MODE and clears DROPS. -/
theorem exec_filterEntryWrite {cluster mgroup byte size : Nat} (value : Nat) (s : State)
    (hcluster : cluster < Config.clusters) (hgroup : mgroup < 256) (hend : byte + size ≤ 32)
    (hsize : size = 4 ∨ size = 8) (halign : byte % size = 0) :
    ∃ t, exec (.filterEntryWrite cluster mgroup byte size value) s = .next t ∧
      (byte = 0 → (t.filter cluster mgroup).mode = value % 4 ∧ t.win (filterAt cluster mgroup + 4) 4 = 0) ∧
      ∀ c g, g < 256 → (c ≠ cluster ∨ g ≠ mgroup) → t.filter c g = s.filter c g := by
  have hexec : exec (.filterEntryWrite cluster mgroup byte size value) s = .next (s.writeFilter (filterAt cluster mgroup + byte) size value) :=
    (if_neg (by simp [hcluster, hgroup, hend])).trans (if_pos (by simp [hsize, halign]))
  refine ⟨_, hexec, fun hbyte => ?_, fun c g hg hother => State.filter_congr fun k hk _ => ?_⟩
  · rw [hbyte]
    exact s.writeFilter_first cluster mgroup hsize value
  · refine s.window_writeFilter_of_outside value (by omega) hend ?_
    unfold filterAt
    omega

/-! ### Frames (19 R395, R396) -/

theorem State.frame_veto (s : State) (f bus participant : Nat) : (s.veto f bus participant).frame = s.frame := by
  refine foldl_keeps (g := State.frame) (fun t p => ?_) _ s
  unfold State.reslot
  split <;> rfl

/-- A frame ends; one whose slots no receiver vetoes moves no payload. -/
theorem exec_settFrame (bad : List SlotReport) (s : State) (h : s.frame ≠ 0 ∨ bad = []) :
    ∃ t, exec (.settFrame bad) s = .next t ∧ t.frame = s.frame + 1 ∧ ((∀ r ∈ bad, r.vetoes = 0) → t.inflight = s.inflight) := by
  let vetoed (s : State) (r : SlotReport) : State :=
    ((s.veto (s.frame - 1) r.bus r.participant).reportError (s.settError 14 0 r.bus r.participant false false)).1
  have hframe (s : State) (r : SlotReport) : (vetoed s r).frame = s.frame :=
    (congrArg State.frame (State.untold_reportError _ _ _)).trans (s.frame_veto _ _ _)
  let t := (bad.filter fun r => r.vetoes != 0).foldl vetoed (s.watchRings bad)
  have hexec : exec (.settFrame bad) s = .next { t with frame := t.frame + 1 } := if_neg (by rcases h with h | h <;> simp [h])
  refine ⟨_, hexec, congrArg (· + 1) (foldl_keeps (g := State.frame) hframe _ _), fun hnone => ?_⟩
  have hempty : (bad.filter fun r => r.vetoes != 0) = [] := List.filter_eq_nil_iff.2 fun r hr => by simp [hnone r hr]
  show ((bad.filter fun r => r.vetoes != 0).foldl vetoed (s.watchRings bad)).inflight = _
  rw [hempty]
  rfl

/-! ### The statement -/

/-- Settles O45, from what emissions, deliveries, filter writes and frames leave. -/
theorem broadcastResults : Obligations.BroadcastResults :=
  ⟨fun _ _ _ _ _ _ _ _ _ _ _ hk ho hkind hdone hfirst howner hgrants hfree => exec_bstEmission_spec hk ho hkind hdone hfirst howner hgrants hfree,
    fun _ _ _ hp hgo => exec_broadcastDelivery_spec hp hgo, fun _ p cluster _ _ hbank hroom => State.entries_intoFifo hbank hroom p cluster,
    fun _ _ _ _ value s hcluster hgroup hend hsize halign => exec_filterEntryWrite value s hcluster hgroup hend hsize halign, exec_settFrame⟩

end Sys2Proof.Machine

/-!
Launch records (15 R316-R326, R332): what a completion entry holds and leaves alone, and what becomes of a record consumed, of a context created, of
a launch dispatched, leased and completed, and of the queues and contexts that wait.
-/

namespace Sys2Proof.Machine

/-! ### Launches after their updates -/

/-- A change of the members that a test finds, which it finds again, is a change of the first found. -/
theorem find?_mapIf_of_found {α : Type} (l : List α) {p : α → Bool} {f : α → α} (hf : ∀ a, p a = true → p (f a) = true) :
    (mapIf p f l).find? p = (l.find? p).map f := by
  induction l with
  | nil => rfl
  | cons a l ih =>
    rw [mapIf, List.map_cons, List.find?_cons, List.find?_cons]
    cases h : p a with
    | true => simp [hf a h]
    | false => simp only [h, Bool.false_eq_true, if_false]; exact ih

theorem State.launch_modLaunch_self (s : State) (t : Tag) {f : Launch → Launch} (hf : ∀ l, l.tag = t → (f l).tag = t) :
    (s.modLaunch t f).launch t = (s.launch t).map f :=
  find?_mapIf_of_found s.launches fun l h => by simpa using hf l (by simpa using h)

theorem State.tag_of_launch {s : State} {t : Tag} {l : Launch} (h : s.launch t = some l) : l.tag = t := by
  simpa using List.find?_some h

/-- A change of a launch that keeps its groups changes none. -/
theorem State.group_modLaunch_self (s : State) (t : Tag) {f : Launch → Launch} (hf : ∀ l, l.tag = t → (f l).tag = t)
    (hgroups : ∀ l, (f l).groups = l.groups) (x : Nat) : (s.modLaunch t f).group t x = s.group t x := by
  rw [State.group, s.launch_modLaunch_self t hf, State.group]
  cases s.launch t with
  | none => rfl
  | some l => exact congrArg (fun m : Table Group => m.get x) (hgroups l)

/-! ### Completion entries (15 R320) -/

/-- The place of a record's completion entry. -/
def State.entryAt (s : State) (t : Tag) : Nat := s.qCpl t.queue + 16 * (t.index % s.qSlots t.queue)

theorem State.complete_of_inDevice {s : State} {t : Tag} (h : inDevice (s.entryAt t) 16 = true) (status detail : Nat) :
    s.complete t status detail = ((s.outsideWrite (s.entryAt t + 8) (bytesLE 8 s.now)).outsideWrite (s.entryAt t + 4) (bytesLE 4 detail)).outsideWrite
      (s.entryAt t) (bytesLE 4 status) := if_pos h

theorem State.unaccessed_complete (s : State) (t : Tag) (status detail : Nat) : (s.complete t status detail).unaccessed = s.unaccessed := by
  unfold State.complete
  dsimp only
  split
  · exact (State.unaccessed_outsideWrite _ _ _).trans ((State.unaccessed_outsideWrite _ _ _).trans (s.unaccessed_outsideWrite _ _))
  · rfl

theorem State.sameTasks_complete (s : State) (t : Tag) (status detail : Nat) : s.SameTasks (s.complete t status detail) := by
  unfold State.complete
  dsimp only
  split
  · exact ((s.sameTasks_outsideWrite _ _).trans (State.sameTasks_outsideWrite _ _ _)).trans (State.sameTasks_outsideWrite _ _ _)
  · exact .refl s

/-- What an entry in device memory reads as. -/
theorem State.complete_entry {s : State} {t : Tag} (h : inDevice (s.entryAt t) 16 = true) (status detail : Nat) :
    (s.complete t status detail).mem.readLE (s.entryAt t) 4 = status % 2 ^ 32 ∧
      (s.complete t status detail).mem.readLE (s.entryAt t + 4) 4 = detail % 2 ^ 32 ∧
      (s.complete t status detail).mem.readLE (s.entryAt t + 8) 8 = s.now % 2 ^ 64 := by
  simp only [State.complete_of_inDevice h, State.outsideWrite_mem, Bytes.writeList_bytesLE]
  refine ⟨Bytes.readLE_writeLE _ _ _ _, ?_, ?_⟩
  · rw [Bytes.readLE_writeLE_of_outside _ _ (by omega)]
    exact Bytes.readLE_writeLE _ _ _ _
  · rw [Bytes.readLE_writeLE_of_outside _ _ (by omega), Bytes.readLE_writeLE_of_outside _ _ (by omega)]
    exact Bytes.readLE_writeLE _ _ _ _

/-- A launch whose record is finished. -/
def Launch.finished (l : Launch) : Launch := { l with phase := .closed, leased := false }

theorem State.finish_eq (s : State) (t : Tag) (status detail : Nat) :
    s.finish t status detail = (s.modLaunch t Launch.finished).complete t status detail := rfl

theorem State.launches_finish (s : State) (t : Tag) (status detail : Nat) :
    (s.finish t status detail).launches = mapIf (fun l => l.tag == t) Launch.finished s.launches :=
  (congrArg State.launches (State.unaccessed_complete (s.modLaunch t Launch.finished) t status detail) :)

theorem State.window_finish (s : State) (t : Tag) (status detail : Nat) : (s.finish t status detail).window = s.window :=
  (congrArg State.window (State.unaccessed_complete (s.modLaunch t Launch.finished) t status detail) :)

theorem State.context_finish (s : State) (t : Tag) (status detail n : Nat) : (s.finish t status detail).context n = s.context n :=
  (State.sameTasks_complete (s.modLaunch t Launch.finished) t status detail).context n

theorem State.launch_finish (s : State) (t : Tag) (status detail : Nat) :
    (s.finish t status detail).launch t = (s.launch t).map Launch.finished :=
  (State.sameTasks_complete (s.modLaunch t Launch.finished) t status detail).launch t |>.trans (s.launch_modLaunch_self t fun _ h => h)

/-- The completion entry of a finished record. -/
theorem State.finish_entry {s : State} {t : Tag} (h : inDevice (s.entryAt t) 16 = true) (status detail : Nat) :
    (s.finish t status detail).mem.readLE (s.entryAt t) 4 = status % 2 ^ 32 ∧
      (s.finish t status detail).mem.readLE (s.entryAt t + 4) 4 = detail % 2 ^ 32 ∧
      (s.finish t status detail).mem.readLE (s.entryAt t + 8) 8 = s.now % 2 ^ 64 :=
  State.complete_entry (s := s.modLaunch t Launch.finished) h status detail

/-! ### Records consumed (15 R319) -/

/-- The record at HEAD of a queue, as the distributor takes it. -/
def State.headOf (s : State) (queue : Nat) : Launch :=
  let bs := s.mem.readList (s.qRing queue + 64 * (s.qHead queue % s.qSlots queue)) 64
  { tag := { queue := queue, index := s.qHead queue % 2 ^ 22 }, kind := recField bs 0 1, bytes := bs, ctx := recField bs 4 4 }

/-- The first byte of a list read is the byte at its address. -/
theorem recField_readList_first (m : Bytes) (a n : Nat) : recField (m.readList a (n + 1)) 0 1 = m.readLE a 1 := rfl

/-- A record is taken and HEAD moves on; a record turned away is finished at once. -/
theorem exec_launchRecordConsume {queue : Nat} {s : State} (hphase : 5 ≤ s.phase) (hserved : s.queueServed queue = true)
    (hrecord : s.mem.readLE (s.qRing queue + 64 * (s.qHead queue % s.qSlots queue)) 1 ≠ 0) : ∃ (u : State) (away : Option (Nat × Nat)),
    u.qHead queue = (s.qHead queue + 1) % 2 ^ 32 ∧ exec (.launchRecordConsume queue) s =
      .next (away.elim (u.take (s.headOf queue)) fun e => (u.take (s.headOf queue)).finish (s.headOf queue).tag e.1 e.2) := by
  let a := s.qRing queue + 64 * (s.qHead queue % s.qSlots queue)
  let v := s.outsideWrite a (bytesLE 8 0)
  let w := v.outsideWrite (v.qCpl queue + 16 * (s.qHead queue % 2 ^ 22 % v.qSlots queue)) (bytesLE 4 0)
  have hwindow : w.window = s.window :=
    (congrArg State.window ((State.unaccessed_outsideWrite v _ _).trans (s.unaccessed_outsideWrite a _)) :)
  have hhead : w.qHead queue = s.qHead queue := by rw [State.qHead, State.win, hwindow]; rfl
  let u := w.setWin (queueAt queue + 40) 4 (w.qHead queue + 1)
  refine ⟨u, u.turnedAway queue (s.headOf queue).bytes, ?_, ?_⟩
  · rw [← hhead]
    exact State.win_setWin_self _ _ _ _
  · have hfree : (s.phase < 5 || !s.queueServed queue || recField (s.mem.readList a 64) 0 1 == 0) = false := by
      rw [recField_readList_first]
      simp [hserved, a, hrecord]
      omega
    refine (if_neg (by rw [hfree]; exact Bool.false_ne_true)).trans ?_
    show Host.Outcome.next (match u.turnedAway queue (s.headOf queue).bytes with
      | some e => (u.take (s.headOf queue)).finish (s.headOf queue).tag e.1 e.2
      | none => u.take (s.headOf queue)) = _
    cases u.turnedAway queue (s.headOf queue).bytes <;> rfl

theorem State.mem_take (s : State) (l : Launch) : l ∈ (s.take l).launches := List.mem_append_right _ List.mem_cons_self

/-- A record that the distributor holds keeps its tag and its bytes as one of them is finished. -/
theorem State.exists_mem_finish {s : State} {l : Launch} (h : l ∈ s.launches) (t : Tag) (status detail : Nat) :
    ∃ l' ∈ (s.finish t status detail).launches, l'.tag = l.tag ∧ l'.bytes = l.bytes := by
  rw [State.launches_finish]
  refine ⟨_, List.mem_map_of_mem h, ?_⟩
  split
  · exact ⟨rfl, rfl⟩
  · exact ⟨rfl, rfl⟩

/-- Consuming a record leaves it with the distributor, and HEAD one further. -/
theorem exec_launchRecordConsume_spec {queue : Nat} {s : State} (hphase : 5 ≤ s.phase) (hserved : s.queueServed queue = true)
    (hrecord : s.mem.readLE (s.qRing queue + 64 * (s.qHead queue % s.qSlots queue)) 1 ≠ 0) :
    ∃ t l, exec (.launchRecordConsume queue) s = .next t ∧ t.qHead queue = (s.qHead queue + 1) % 2 ^ 32 ∧ l ∈ t.launches ∧
      l.tag = (s.headOf queue).tag ∧ l.bytes = (s.headOf queue).bytes := by
  obtain ⟨u, away, hhead, hexec⟩ := exec_launchRecordConsume hphase hserved hrecord
  cases away with
  | none => exact ⟨_, _, hexec, hhead, u.mem_take _, rfl, rfl⟩
  | some e =>
    obtain ⟨l, hl, htag, hbytes⟩ := State.exists_mem_finish (u.mem_take (s.headOf queue)) (s.headOf queue).tag e.1 e.2
    refine ⟨_, l, hexec, ?_, hl, htag, hbytes⟩
    rw [Option.elim_some, State.qHead, State.win, State.window_finish]
    exact hhead

/-! ### Contexts created (15 R316) -/

theorem State.context_setContext_self (s : State) (c : Context) : (s.setContext c).context c.num = some c := Table.get_put_self _ _ _

/-- A record without fault makes its context where none stands. -/
theorem exec_create {queue : Nat} {s : State} {l : Launch} {lists : List WorkList} (hhead : s.headRecord queue = some l) (hkind : l.kind = 2)
    (hfault : createFault l.bytes = none) (hnew : s.context l.ctx = none)
    (hlists : s.readLists (recField l.bytes 48 8) (recField l.bytes 56 2) = lists.map some) :
    exec (.create queue) s = .next ((s.setContext (createContext l.bytes lists)).finish l.tag 1 0) := by
  have hgood : (lists.map some).any Option.isNone = false := by simp
  have hids : (lists.map some).filterMap id = lists := by simp
  show execCreate queue s = _
  simp only [execCreate, hhead, hkind, hfault, hnew, hlists, hgood, hids, bne_self_eq_false, Option.isSome_none, Bool.false_eq_true, if_false]

theorem exec_create_spec {queue : Nat} {s : State} {l : Launch} {lists : List WorkList} (hhead : s.headRecord queue = some l) (hkind : l.kind = 2)
    (hfault : createFault l.bytes = none) (hnew : s.context l.ctx = none)
    (hlists : s.readLists (recField l.bytes 48 8) (recField l.bytes 56 2) = lists.map some) :
    ∃ t, exec (.create queue) s = .next t ∧ t.context (recField l.bytes 4 4) = some (createContext l.bytes lists) :=
  ⟨_, exec_create hhead hkind hfault hnew hlists, (State.context_finish ..).trans (State.context_setContext_self _ (createContext l.bytes lists))⟩

/-! ### Dispatch (15 R324) -/

/-- A resident launch with its header, argument block, placement list and leases read (15 R322, R324). -/
def State.readIn (s : State) (c : Context) (l : Launch) : Launch :=
  let words := fun va n => (List.range n).map fun k => recField (s.residentBytes c (va + 4 * k) 4) 0 4
  let l₀ := { l with hdr := parseHeader (s.residentBytes c l.image.toNat 256) }
  { l₀ with
    phase := .placing, args := if l.args_ = 0 then [] else (words l.args_ 16).map (BitVec.ofNat 32)
    places := if l.flag 1 then words (l.args_ + 64) l.count else [], leases := s.leasesOf c l₀ }

/-- A launch read in without fault is placing; one with a fault is refused. -/
theorem State.dispatch_eq (s : State) (c : Context) (l : Launch) : s.dispatch c l =
    (s.dispatchFault c (s.readIn c l)).elim (s.modLaunch l.tag fun _ => s.readIn c l) fun e => s.finish l.tag e.1 e.2 := by
  unfold State.dispatch
  dsimp only
  split
  · next e h =>
    have hfault : s.dispatchFault c (s.readIn c l) = some e := h
    rw [hfault]
    rfl
  · next h =>
    have hsound : s.dispatchFault c (s.readIn c l) = none := h
    rw [hsound]
    rfl

section
variable {queue : Nat} {s : State} {l : Launch} {c : Context} (hhead : s.headRecord queue = some l) (hkind : l.kind = 1) (hphase : 5 ≤ s.phase)
  (hpages : l.failedPages = []) (hfault : launchFault l.bytes = none) (hc : s.context l.ctx = some c)
include hhead hkind hphase hpages hfault hc

/-- What becomes of a queue's head launch whose record is sound and whose context lives. -/
theorem exec_launchDispatch : exec (.launchDispatch queue) s =
    if l.phase = .consumed then (s.makeResident l c).elim (.refused (.notEnabled "LAUNCH_DISPATCH")) .next
    else if s.dispatchReady l = true then .next (s.dispatch c l) else .refused (.notEnabled "LAUNCH_DISPATCH") := by
  show execLaunchDispatch queue s = _
  simp only [execLaunchDispatch, hhead, hkind, hpages, hfault, hc, Nat.not_lt.2 hphase, bne_self_eq_false, decide_false, List.isEmpty_nil,
    Bool.not_true, Bool.or_false, Bool.false_eq_true, if_false, beq_iff_eq]

theorem exec_launchDispatch_consumed {t : State} (hphase' : l.phase = .consumed) (ht : s.makeResident l c = some t) :
    exec (.launchDispatch queue) s = .next t := by
  rw [exec_launchDispatch hhead hkind hphase hpages hfault hc, if_pos hphase', ht, Option.elim_some]

theorem exec_launchDispatch_ready (hphase' : l.phase ≠ .consumed) (hready : s.dispatchReady l = true) :
    exec (.launchDispatch queue) s = .next (s.dispatch c l) := by
  rw [exec_launchDispatch hhead hkind hphase hpages hfault hc, if_neg hphase', if_pos hready]

end

/-- A sound launch is placing from its dispatch on; a faulty one is refused in its completion entry. -/
theorem State.dispatch_spec (s : State) (c : Context) (l : Launch) :
    (s.dispatchFault c (s.readIn c l) = none → s.launch l.tag = some l → (s.dispatch c l).launch l.tag = some (s.readIn c l)) ∧
      ∀ status detail, s.dispatchFault c (s.readIn c l) = some (status, detail) → inDevice (s.entryAt l.tag) 16 = true →
        (s.dispatch c l).mem.readLE (s.entryAt l.tag) 4 = status % 2 ^ 32 ∧
          (s.dispatch c l).mem.readLE (s.entryAt l.tag + 4) 4 = detail % 2 ^ 32 := by
  refine ⟨fun hsound hl => ?_, fun status detail hfault hin => ?_⟩
  · rw [State.dispatch_eq, hsound]
    exact (s.launch_modLaunch_self l.tag (f := fun _ => s.readIn c l) fun _ _ => rfl).trans (congrArg _ hl)
  · rw [State.dispatch_eq, hfault]
    obtain ⟨hstatus, hdetail, -⟩ := State.finish_entry hin status detail
    exact ⟨hstatus, hdetail⟩

/-! ### Leases (16 R353) -/

theorem exec_leaseWalk {queue index : Nat} {s : State} {l : Launch} {c : Context} (hl : s.launch { queue := queue, index := index } = some l)
    (hc : s.context l.ctx = some c) (hphase : l.phase = .placing) (hleased : l.leased = false) (hpages : l.failedPages = [])
    (harmed : ∀ va ∈ l.leasePages, s.armedPage c va = false) (hwalk : (s.walkAll c false (l.leasePages.map fun p => (p, false))).2 = []) :
    exec (.leaseWalk queue index) s =
      .next ((s.walkAll c false (l.leasePages.map fun p => (p, false))).1.modLaunch l.tag fun l => { l with leased := true }) := by
  have hany : (l.leasePages.any fun va => s.armedPage c va) = false := List.any_eq_false.2 fun va hva => by simp [harmed va hva]
  show execLeaseWalk queue index s = _
  simp only [execLeaseWalk, hl, hc, hphase, hleased, hpages, hany, hwalk, bne_self_eq_false, List.isEmpty_nil, Bool.not_true, Bool.or_false,
    Bool.false_eq_true, if_false]

/-! ### Completion (15 R325) -/

/-- A launch once every group has completed: its entry says COMPLETE, and SIGTOK is released after it. -/
def State.closing (s : State) (l : Launch) : State := (s.reveal fun _ w => w.tag == l.tag).finish l.tag 1 0

theorem exec_launchCompletion {queue index : Nat} {s : State} {l : Launch} (hl : s.launch { queue := queue, index := index } = some l)
    (hphase : l.phase = .placing) (hout : l.allOut = true) (hcount : l.count ≤ l.completed) (hinflight : ∀ p ∈ s.inflight, p.tag ≠ l.tag) :
    exec (.launchCompletion queue index) s = .next (if l.sigTok = 0 then s.closing l
      else (s.closing l).outsideWrite l.sigPa (bytesLE 8 (((s.closing l).mem.readLE l.sigPa 4 + 1) % 2 ^ 32 + 3 * 2 ^ 62))) := by
  have hany : (s.inflight.any fun p => p.tag == l.tag) = false := List.any_eq_false.2 fun p hp => by simpa using hinflight p hp
  show execLaunchCompletion queue index s = _
  simp only [execLaunchCompletion, hl, hphase, hout, hany, Nat.not_lt.2 hcount, bne_self_eq_false, decide_false, Bool.not_true, Bool.or_false,
    Bool.false_eq_true, if_false]
  rfl

theorem exec_launchCompletion_spec {queue index : Nat} {s : State} {l : Launch} (hl : s.launch { queue := queue, index := index } = some l)
    (hphase : l.phase = .placing) (hout : l.allOut = true) (hcount : l.count ≤ l.completed) (hinflight : ∀ p ∈ s.inflight, p.tag ≠ l.tag) :
    ∃ t l', exec (.launchCompletion queue index) s = .next t ∧ t.launch { queue := queue, index := index } = some l' ∧ l'.phase = .closed ∧
      l'.leased = false ∧ (inDevice (s.entryAt l.tag) 16 = true → l.sigTok = 0 → t.mem.readLE (s.entryAt l.tag) 4 = 1 ∧
        t.mem.readLE (s.entryAt l.tag + 4) 4 = 0 ∧ t.mem.readLE (s.entryAt l.tag + 8) 8 = s.now % 2 ^ 64) := by
  have hclosed : (s.closing l).launch { queue := queue, index := index } = some l.finished := by
    have htag := State.tag_of_launch hl
    rw [← htag] at hl ⊢
    exact (State.launch_finish ..).trans (congrArg _ hl)
  refine ⟨_, l.finished, exec_launchCompletion hl hphase hout hcount hinflight, ?_, rfl, rfl, fun hin hno => ?_⟩
  · split
    · exact hclosed
    · exact ((State.sameTasks_outsideWrite _ _ _).launch _).trans hclosed
  · rw [if_pos hno]
    exact State.finish_entry (s := s.reveal fun _ w => w.tag == l.tag) hin 1 0

/-! ### Waiting queues and quiet contexts (15 R326, R332) -/

theorem exec_queueAging {queue : Nat} {s : State} {w : Nat × Nat} (hw : s.waits.get queue = some w) (hms : (w.2 + 1) * 1000000 ≤ w.1) :
    exec (.queueAging queue) s = .next { s with waits := s.waits.put queue (w.1, w.2 + 1) } := by
  show execQueueAging queue s = _
  simp only [execQueueAging, hw, Nat.not_lt.2 hms, if_false]

/-- Each further millisecond of waiting raises a queue's effective priority by one, up to 7. -/
theorem State.effective_aged (s : State) (queue ns ms : Nat) :
    ({ s with waits := s.waits.put queue (ns, ms) } : State).effective queue = min 7 (s.qPrio queue + ms) := by
  rw [State.effective, Table.get_put_self]
  rfl

theorem exec_quiescenceDeclared {ctx : Nat} {s : State} {c : Context} (hc : s.context ctx = some c) (hnew : c.quiescent = false)
    (hquiet : s.quiet c = true) : exec (.quiescenceDeclared ctx) s = .next (s.setContext { c with quiescent := true }) := by
  show execQuiescenceDeclared ctx s = _
  simp only [execQuiescenceDeclared, hc, hnew, hquiet, Bool.not_true, Bool.or_false, Bool.false_eq_true, if_false]

end Sys2Proof.Machine

/-!
The end of packs and of their groups (04 R114, 09 R237, 15 R329, R343): what is left of a pack that has ended, whatever fails as it ends, and that a
group which completes leaves its cores.
-/

namespace Sys2Proof.Machine

/-! ### Packs that have ended -/

/-- An ENDED pack holds no register, no split and no operation (09 R237). -/
structure Pack.Over (k : Pack) : Prop where
  phase : k.phase = .ended
  v : k.v = []
  g : k.g = []
  ops : k.ops = []
  splits : k.splits = []

/-- The pack in a slot, if one is left there, has ended. -/
def State.OverAt (s : State) (core slot : Nat) : Prop := ∀ k, s.pack core slot = some k → k.Over

namespace State.OverAt

variable {s t : State} {core slot : Nat}

theorem of_pack (h : s.OverAt core slot) (hpack : t.pack core slot = s.pack core slot) : t.OverAt core slot := fun k hk => h k (hpack ▸ hk)

theorem of_cores (h : s.OverAt core slot) (hcores : t.cores = s.cores) : t.OverAt core slot := h.of_pack (State.pack_congr hcores _ _)

theorem of_sameTasks (h : s.OverAt core slot) (hst : s.SameTasks t) : t.OverAt core slot := h.of_pack (hst.pack _ _)

theorem setPack_of_slot_ne (h : s.OverAt core slot) {n : Nat} (hn : slot ≠ n) (k : Pack) : (s.setPack core n k).OverAt core slot :=
  h.of_pack (s.pack_setPack_of_slot_ne core k hn)

/-- A change that leaves an ended pack ended, made to whatever pack. -/
theorem modPack (h : s.OverAt core slot) (c n : Nat) {f : Pack → Pack} (hf : ∀ k : Pack, k.Over → (f k).Over) :
    (s.modPack c n f).OverAt core slot := by
  intro k hk
  rw [State.pack_modPack] at hk
  obtain ⟨k₀, hk₀, rfl⟩ := Option.map_eq_some_iff.1 hk
  split
  · exact hf k₀ (h k₀ hk₀)
  · exact h k₀ hk₀

theorem foldl {α : Type} {f : State → α → State} (hf : ∀ (s : State) a, s.OverAt core slot → (f s a).OverAt core slot) (l : List α)
    (h : s.OverAt core slot) : (l.foldl f s).OverAt core slot := by
  induction l generalizing s with
  | nil => exact h
  | cons a l ih => exact ih (hf s a h)

end State.OverAt

/-! ### The end of a task (08 R234, 15 R343) -/

/-- The end of a task leaves a pack that has ended alone, and changes each other of its packs. -/
theorem Core.get_endTask (c : Core) (t : Tag) (n : Nat) : (c.endTask t).packs.get n =
    (c.packs.get n).map fun k => if k.tag == t && k.phase != .ended then k.endTask else k := by
  have hpacks : (c.endTask t).packs =
      c.packs.map fun p => (p.1, if p.2.tag == t && p.2.phase != .ended then p.2.endTask else p.2) :=
    List.map_congr_left fun p _ => by split <;> rfl
  rw [hpacks, Table.get_map c.packs (fun p => if p.2.tag == t && p.2.phase != .ended then p.2.endTask else p.2)]

theorem State.OverAt.endCore {s : State} {core slot : Nat} (h : s.OverAt core slot) (t : Tag) (c : Nat) :
    (s.setCore c ((s.core c).endTask t)).OverAt core slot := by
  by_cases hc : core = c
  · subst hc
    intro k hk
    rw [State.pack, State.core_setCore_self, Core.get_endTask] at hk
    obtain ⟨k₀, hk₀, rfl⟩ := Option.map_eq_some_iff.1 hk
    have hover := h k₀ hk₀
    rw [if_neg (by simp [hover.phase])]
    exact hover
  · exact h.of_pack (s.pack_setCore_of_ne _ _ hc)

theorem State.OverAt.endTask {s : State} {core slot : Nat} (h : s.OverAt core slot) (t : Tag) (status detail : Nat) :
    (s.endTask t status detail).OverAt core slot := by
  unfold State.endTask
  split
  · exact h
  · split
    · exact h
    · refine .of_sameTasks ?_ (State.sameTasks_complete _ _ _ _)
      exact (State.OverAt.foldl (fun s c hs => hs.endCore t c) (s.coresOf t) h).of_cores rfl

/-! ### Exceptions at a stalled split (08 R233, R234) -/

/-- An exception of another pack of the core leaves an ended one alone. -/
theorem State.OverAt.takeTrap {s : State} {core slot : Nat} (h : s.OverAt core slot) {n : Nat} (hn : slot ≠ n) (k : Pack) (sp : Split)
    (r : TrapRec) : (s.takeTrap core n k sp r).OverAt core slot := by
  rcases s.takeTrap_cases core n k sp r with heq | heq | heq <;> rw [heq]
  · exact State.OverAt.endTask (s := s.trapEvent 1 core k sp.id r true sp.inh) (h.of_cores rfl) _ _ _
  · exact (h.setPack_of_slot_ne hn _).of_cores rfl
  · exact h.setPack_of_slot_ne hn _

/-- A HANDLE raised on the core, at whatever split, leaves an ended pack alone: it has no split. -/
theorem State.OverAt.handleAtStall {s : State} {core slot : Nat} (h : s.OverAt core slot) (n split : Nat) (joint : Bool) (info : Nat) :
    (s.handleAtStall core n split joint info).OverAt core slot := by
  unfold State.handleAtStall
  split
  · next x hx =>
    obtain ⟨hk, hsp, -, -, -, hs, hcore, hslot, -⟩ := State.of_stalled hx
    have hn : slot ≠ n := by
      rintro rfl
      rw [Pack.split, (h x.k hk).splits] at hsp
      cases hsp
    have hx' : x.s.OverAt core slot := h.of_cores (by rw [hs])
    rcases x.raiseRec_cases (x.trap (x.k.stallLanes x.sp) 0x08 info joint) with ⟨-, heq⟩ | ⟨-, heq⟩ <;> rw [heq]
    · show (x.s.takeTrap _ _ _ _ _).OverAt core slot
      rw [hcore, hslot]
      exact hx'.takeTrap hn _ _ _
    · show (x.put _ _).OverAt core slot
      rw [Iss.put, hcore, hslot]
      exact hx'.setPack_of_slot_ne hn _
  · refine h.modPack core n fun k hk => ⟨hk.phase, hk.v, hk.g, hk.ops, ?_⟩
    rw [Pack.modSplit, hk.splits]
    rfl

/-- Joints that fail as a pack ends leave it ended (07 R191). -/
theorem State.OverAt.orphanJoints {s : State} {core slot : Nat} (h : s.OverAt core slot) (ended : Nat) :
    (s.orphanJoints core ended).OverAt core slot :=
  State.OverAt.foldl (fun _ r hs => hs.handleAtStall r.slot r.split true _) _ (h.of_pack ((s.leaveLatch_keeps core _).2.2 _ _))

/-! ### The last flush of a group (06 R161) -/

/-- A pack once its group's last flush is done: no entry is left, and no flags are given (06 R161). -/
def Pack.unbuffered (k : Pack) : Pack := { k with det := [], detSeq := [], wantFlags := false }

theorem Pack.Over.unbuffered {k : Pack} (h : k.Over) : k.unbuffered.Over := ⟨h.phase, h.v, h.g, h.ops, h.splits⟩

theorem State.OverAt.lastFlush {s : State} {core slot : Nat} (h : s.OverAt core slot) (t : Tag) (x : Nat) :
    (s.lastFlush t x).OverAt core slot := by
  have hflush (g : Group) : (s.flushGroup t g false).OverAt core slot := by
    have heq : s.flushGroup t g false =
        g.packs.foldl (fun s p => s.modPack p.1 p.2 Pack.unbuffered) ((s.gathered t g).modGroup t g.x fun g => { g with accs := [] }) := rfl
    rw [heq]
    refine .foldl (fun _ p hs => hs.modPack p.1 p.2 fun _ hk => hk.unbuffered) _ ?_
    exact State.OverAt.of_cores (s := s.gathered t g) (h.of_sameTasks (s.sameTasks_gathered t g)) rfl
  unfold State.lastFlush
  split
  · exact h
  · split
    · exact hflush _
    · exact h

/-! ### Packs released (15 R329, R343) -/

/-- Page lists that go change no core. -/
theorem State.cores_dropLists (s : State) (p : PageList → Bool) : (s.dropLists p).cores = s.cores :=
  foldl_keeps (f := fun (s : State) (l : PageList) => s.modContext l.ctx fun c => c.giveBack l.granule) (g := State.cores)
    (fun _ _ => rfl) (s.pageLists.filter p) { s with pageLists := s.pageLists.filter fun l => !p l }

/-- A pack that is released leaves its slot, and every other its own. -/
theorem State.pack_releasePack (s : State) (c n j m : Nat) :
    (s.releasePack c n).pack j m = if (j, m) = (c, n) then none else s.pack j m := by
  unfold State.releasePack
  split
  · next hnone =>
    split
    · next h =>
      obtain ⟨rfl, rfl⟩ := Prod.mk.inj h
      exact hnone
    · rfl
  · refine (State.pack_congr (State.cores_dropLists _ _) j m).trans ?_
    by_cases hj : j = c
    · subst hj
      rw [State.pack, State.core_setCore_self]
      by_cases hm : m = n
      · rw [hm, if_pos rfl]
        exact Table.get_del_self _ _
      · rw [if_neg fun h => hm (Prod.mk.inj h).2]
        exact Table.get_del_of_ne _ hm
    · rw [State.pack_setCore_of_ne _ _ _ hj, if_neg fun h => hj (Prod.mk.inj h).1]

theorem State.pack_foldl_releasePack (ps : List (Nat × Nat)) (s : State) (j m : Nat) :
    (ps.foldl (fun s p => s.releasePack p.1 p.2) s).pack j m = if (j, m) ∈ ps then none else s.pack j m := by
  induction ps generalizing s with
  | nil => rfl
  | cons p ps ih =>
    rw [List.foldl_cons, ih, State.pack_releasePack]
    by_cases hhead : (j, m) = p <;> by_cases htail : (j, m) ∈ ps <;> simp [hhead, htail]

/-- The state as a group that completes is released: its flush done and its end noted, the first time (15 R329). -/
def State.groupClosed (s : State) (t : Tag) (x : Nat) (g : Group) : State :=
  if g.ended then s
  else
    (((s.lastFlush t x).reveal fun _ w => w.tag == t && w.group == x).modGroup t x fun g =>
      { g with ended := true, victim := none }).modLaunch t fun l => { l with completed := l.completed + 1 }

theorem State.groupEnd_of_over {s : State} {t : Tag} {x : Nat} {g : Group} (hg : s.group t x = some g) (hover : s.groupOver t g = true) :
    s.groupEnd t x = g.packs.foldl (fun s p => s.releasePack p.1 p.2) (s.groupClosed t x g) := by
  simp only [State.groupEnd, hg, hover, Bool.not_true, Bool.false_eq_true, if_false]
  rfl

theorem State.groupEnd_of_not_over {s : State} {t : Tag} {x : Nat} (h : ∀ g, s.group t x = some g → s.groupOver t g = false) :
    s.groupEnd t x = s := by
  unfold State.groupEnd
  split
  · rfl
  · next g hg => rw [h g hg]; rfl

theorem State.OverAt.groupEnd {s : State} {core slot : Nat} (h : s.OverAt core slot) (t : Tag) (x : Nat) :
    (s.groupEnd t x).OverAt core slot := by
  by_cases hover : ∃ g, s.group t x = some g ∧ s.groupOver t g = true
  · obtain ⟨g, hg, hover⟩ := hover
    have hdone : (s.groupClosed t x g).OverAt core slot := by
      unfold State.groupClosed
      split
      · exact h
      · exact (h.lastFlush t x).of_cores rfl
    intro k hk
    rw [State.groupEnd_of_over hg hover, State.pack_foldl_releasePack] at hk
    split at hk
    · cases hk
    · exact hdone k hk
  · rw [State.groupEnd_of_not_over fun g hg => Bool.eq_false_iff.2 fun ho => hover ⟨g, hg, ho⟩]
    exact h

/-! ### PACK_END (04 R114, 09 R237) -/

/-- What is left of a pack in its slot once it has ended. -/
def Pack.reapedOf (k : Pack) : Pack := { k.finish with reaped := true, granted := [] }

theorem Pack.over_reapedOf (k : Pack) : k.reapedOf.Over := ⟨rfl, rfl, rfl, rfl, rfl⟩

/-- A pack that is reaped gives up its dictionary too, unless another on its core claims it (03 R79). -/
theorem State.reap_eq (s : State) (core slot : Nat) (k : Pack) :
    let u := s.setPack core slot k.reapedOf
    s.reap core slot k = if (u.claims ((u.core core).packs.map (·.2))).contains (k.ctx, u.imageOf k) then u
      else u.setCore core { u.core core with dicts := (u.core core).dicts.filter fun e => (e.ctx, e.image) != (k.ctx, u.imageOf k) } := rfl

/-- Reaping leaves the pack ended, and every other as it was; it changes cores only. -/
theorem State.reap_spec (s : State) (core slot : Nat) (k : Pack) : (∃ cores, s.reap core slot k = { s with cores := cores }) ∧
    ((s.reap core slot k).core core).latch = (s.core core).latch ∧
    ∀ j m, (s.reap core slot k).pack j m = if (j, m) = (core, slot) then some k.reapedOf else s.pack j m := by
  have hset (j m : Nat) : (s.setPack core slot k.reapedOf).pack j m = if (j, m) = (core, slot) then some k.reapedOf else s.pack j m := by
    by_cases hj : j = core
    · subst hj
      by_cases hm : m = slot
      · rw [hm, if_pos rfl, State.pack_setPack_self]
      · rw [if_neg fun h => hm (Prod.mk.inj h).2, s.pack_setPack_of_slot_ne j _ hm]
    · rw [if_neg fun h => hj (Prod.mk.inj h).1]
      exact s.pack_setCore_of_ne _ m hj
  have hlatch : ((s.setPack core slot k.reapedOf).core core).latch = (s.core core).latch := by rw [State.core_setPack_self]
  rw [State.reap_eq]
  split
  · exact ⟨⟨_, rfl⟩, hlatch, hset⟩
  · refine ⟨⟨_, rfl⟩, ?_, fun j m => ?_⟩
    · rw [State.core_setCore_self]
      exact hlatch
    · rw [← hset]
      refine State.pack_setCore_of_packs _ ?_ j m
      rfl

/-- The state as a pack's group may end: the pack reaped, joints that name it failed, and the groups it fetched completed. -/
def State.packEnded (s : State) (core slot : Nat) (k : Pack) : State :=
  ((s.reap core slot k).orphanJoints core slot).modLaunch k.tag fun l => { l with completed := l.completed + k.granted.length }

theorem State.pack_settleRevokes (s : State) (j m : Nat) : s.settleRevokes.pack j m = s.pack j m := by
  obtain ⟨_, _, _, h⟩ := s.settleRevokes_eq
  rw [h]
  rfl

theorem State.overAt_packEnded (s : State) (core slot : Nat) (k : Pack) : (s.packEnded core slot k).OverAt core slot := by
  have hreap : (s.reap core slot k).OverAt core slot := by
    intro k' hk'
    rw [(s.reap_spec core slot k).2.2, if_pos rfl] at hk'
    exact Option.some.inj hk' ▸ k.over_reapedOf
  exact (hreap.orphanJoints slot).of_cores rfl

section
variable {core slot : Nat} {s : State} {k : Pack}

theorem exec_packEnd (hk : s.pack core slot = some k) (hremaining : k.remaining = 0) (hops : ∀ o ∈ k.ops, o.cls = .none_)
    (hreaped : k.reaped = false) :
    exec (.packEnd core slot) s = .next ((s.packEnded core slot k).groupEnd k.tag k.group).settleRevokes := by
  have hdrained : k.drained = true := List.all_eq_true.2 fun o ho => by simp [hops o ho]
  show execPackEnd core slot s = _
  simp only [execPackEnd, hk, hremaining, hdrained, hreaped, bne_self_eq_false, Bool.not_true, Bool.or_false, Bool.false_eq_true, if_false]
  rfl

/-- With no arrival in the core's latch, the end of a pack fails no joint. -/
theorem State.packEnded_of_empty_latch (hlatch : (s.core core).latch = []) :
    ((s.packEnded core slot k).inflight = s.inflight ∧ ∀ x, (s.packEnded core slot k).group k.tag x = s.group k.tag x) ∧
      ∀ j m, (s.packEnded core slot k).pack j m = if (j, m) = (core, slot) then some k.reapedOf else s.pack j m := by
  obtain ⟨⟨cores, hcores⟩, hlatch', hpack⟩ := s.reap_spec core slot k
  have horphan : (s.reap core slot k).orphanJoints core slot = (s.reap core slot k).leaveLatch core fun r => ([] : List Arrival).contains r := by
    simp only [State.orphanJoints, hlatch', hlatch, List.filter_nil, List.foldl_nil]
  unfold State.packEnded
  rw [horphan]
  refine ⟨⟨?_, fun x => ?_⟩, fun j m => ?_⟩
  · rw [hcores]; rfl
  · refine (State.group_modLaunch_self _ k.tag ?_ ?_ x).trans ?_
    · exact fun _ h => h
    · exact fun _ => rfl
    · rw [hcores]
      rfl
  · exact (((s.reap core slot k).leaveLatch_keeps core _).2.2 j m).trans (hpack j m)

/-- A group all of whose other packs have ended is over with this one. -/
theorem State.groupOver_packEnded (hlatch : (s.core core).latch = []) {g : Group} (hmem : (core, slot) ∈ g.packs)
    (hothers : ∀ p ∈ s.groupPacks g, p.1 = core ∧ p.2.1 = slot ∨ p.2.2.reaped = true) (hinflight : ∀ p ∈ s.inflight, p.tag ≠ k.tag) :
    (s.packEnded core slot k).groupOver k.tag g = true := by
  obtain ⟨⟨hin, -⟩, hpack⟩ := s.packEnded_of_empty_latch (k := k) (slot := slot) hlatch
  have hall : (((s.packEnded core slot k).groupPacks g).all fun p => p.2.2.reaped) = true := by
    refine List.all_eq_true.2 fun p hp => ?_
    obtain ⟨hpg, hpk⟩ := mem_groupPacks.1 hp
    rw [hpack] at hpk
    split at hpk
    · rw [← Option.some.inj hpk]
      rfl
    · next hne =>
      exact (hothers p (mem_groupPacks.2 ⟨hpg, hpk⟩)).resolve_left fun h => hne (Prod.ext h.1 h.2)
  have hany : ((s.packEnded core slot k).inflight.any fun b => b.tag == k.tag && b.group == g.x) = false :=
    List.any_eq_false.2 fun p hp => by simp [hinflight p (hin ▸ hp)]
  have hsome : g.packs.isEmpty = false := List.isEmpty_eq_false_iff.2 (List.ne_nil_of_mem hmem)
  rw [State.groupOver, hall, hany, hsome]
  rfl

/-- A pack ends with its registers released, and the last of its group takes the others off their cores. -/
theorem exec_packEnd_spec (hk : s.pack core slot = some k) (hremaining : k.remaining = 0) (hops : ∀ o ∈ k.ops, o.cls = .none_)
    (hreaped : k.reaped = false) :
    ∃ t, exec (.packEnd core slot) s = .next t ∧
      (∀ k', t.pack core slot = some k' → k'.phase = .ended ∧ k'.v = [] ∧ k'.g = [] ∧ k'.ops = []) ∧
      ∀ g, s.group k.tag k.group = some g → (core, slot) ∈ g.packs → (s.core core).latch = [] →
        (∀ p ∈ s.groupPacks g, p.1 = core ∧ p.2.1 = slot ∨ p.2.2.reaped = true) → (∀ p ∈ s.inflight, p.tag ≠ k.tag) →
        ∀ p ∈ g.packs, t.pack p.1 p.2 = none := by
  refine ⟨_, exec_packEnd hk hremaining hops hreaped, fun k' hk' => ?_, fun g hg hmem hlatch hothers hinflight p hp => ?_⟩
  · rw [State.pack_settleRevokes] at hk'
    obtain ⟨hphase, hv, hg, hops', -⟩ := (s.overAt_packEnded core slot k).groupEnd k.tag k.group k' hk'
    exact ⟨hphase, hv, hg, hops'⟩
  · obtain ⟨⟨-, hgroup⟩, -⟩ := s.packEnded_of_empty_latch (k := k) (slot := slot) hlatch
    rw [State.pack_settleRevokes, State.groupEnd_of_over ((hgroup k.group).trans hg) (State.groupOver_packEnded hlatch hmem hothers hinflight),
      State.pack_foldl_releasePack, if_pos hp]

end

end Sys2Proof.Machine

/-!
Walks that fill a core's TLB and the end of a context (15 R317, R343, 16 R348, R351): the entry that a walk leaves, what is freed with a context, and
the statement O46.
-/

namespace Sys2Proof.Machine

/-! ### TLB entries (16 R351) -/

/-- The entry translates an address of a context for a translator of a core. -/
def TlbEntry.covers (e : TlbEntry) (core : Nat) (tile : Bool) (ctx va : Nat) : Bool :=
  e.core == core && e.tile == tile && e.ctx == ctx && decide (e.vbase ≤ va) && decide (va < e.vbase + e.size)

theorem State.tlbHit_eq (s : State) (core : Nat) (tile : Bool) (ctx va : Nat) :
    s.tlbHit core tile ctx va = s.tlb.find? fun e => e.covers core tile ctx va := rfl

theorem capEntries_cons_of_pos {α : Type} {p : α → Bool} {x : α} (h : p x = true) (n : Nat) (l : List α) :
    capEntries p (n + 1) (x :: l) = x :: capEntries p n l := if_pos h

/-- An entry just filled is the one that translates. -/
theorem State.tlbHit_fillTlb {e : TlbEntry} {core : Nat} {tile : Bool} {ctx va : Nat} (h : e.covers core tile ctx va = true) (s : State) :
    (s.fillTlb e).tlbHit core tile ctx va = some e := by
  have hroom : (if e.tile then 512 else 128) = (if e.tile then 511 else 127) + 1 := by split <;> rfl
  have hself : (e.core == e.core && e.tile == e.tile) = true := by simp
  have hfirst : ∃ rest, (s.fillTlb e).tlb = e :: rest := by
    unfold State.fillTlb
    dsimp only
    rw [hroom]
    exact ⟨_, capEntries_cons_of_pos (p := fun x : TlbEntry => x.core == e.core && x.tile == e.tile) hself _ _⟩
  obtain ⟨rest, hfirst⟩ := hfirst
  rw [State.tlbHit_eq, hfirst]
  exact List.find?_cons_of_pos h

/-- Which of sixteen entries translates a 64 KiB page does not change the page. -/
theorem State.anyOfSixteen_spec (s : State) (e : TlbEntry) : ∃ leafAt leaf lines,
    (s.anyOfSixteen e).2 = { e with leafAt := leafAt, leaf := leaf, lines := lines } := by
  unfold State.anyOfSixteen
  dsimp only
  split
  · exact ⟨_, _, _, rfl⟩
  · exact ⟨_, _, _, rfl⟩

theorem State.covers_anyOfSixteen (s : State) (e : TlbEntry) (core : Nat) (tile : Bool) (ctx va : Nat) :
    (s.anyOfSixteen e).2.covers core tile ctx va = e.covers core tile ctx va := by
  obtain ⟨_, _, _, h⟩ := s.anyOfSixteen_spec e
  rw [h]
  rfl

theorem leafSize_pos (e l : Nat) : 0 < leafSize e l := by
  unfold leafSize
  repeat' split
  all_goals omega

/-- The entry of an address's page covers the address. -/
theorem TlbEntry.covers_of_page {e : TlbEntry} {va : Nat} (hbase : e.vbase = va / e.size * e.size) (hsize : 0 < e.size) :
    e.covers e.core e.tile e.ctx va = true := by
  simp [TlbEntry.covers, hbase, Nat.div_mul_le_self, Nat.lt_div_mul_add hsize]

/-- The entry that translates an address covers it, from the TLB or from a walk. -/
theorem State.covers_of_locate {s t : State} {core : Nat} {tile : Bool} {c : Context} {va : Nat} {e : TlbEntry}
    (h : s.locate core tile c va = (t, .ok e)) : e.covers core tile c.num va = true := by
  unfold State.locate at h
  split at h
  · next e₀ he =>
    rw [← Except.ok.inj (Prod.mk.inj h).2, State.covers_anyOfSixteen]
    rw [State.tlbHit_eq] at he
    exact List.find?_some (p := fun e : TlbEntry => e.covers core tile c.num va) he
  · split at h
    · cases h
    · next u l _ =>
      dsimp only at h
      split at h
      · cases h
      · rw [← Except.ok.inj (Prod.mk.inj h).2, State.covers_anyOfSixteen]
        split
        · exact TlbEntry.covers_of_page rfl (leafSize_pos _ _)
        · exact TlbEntry.covers_of_page rfl (leafSize_pos _ _)

/-- A leaf with its A bit set is a leaf of the same page. -/
theorem leafBase_or_accessed (leaf size : Nat) : leafBase (leaf ||| 64) size = leafBase leaf size := by
  have hppn : ptePpn (leaf ||| 64) = ptePpn leaf := by
    rw [ptePpn, ptePpn, cut, cut, ← Nat.shiftRight_eq_div_pow, Nat.shiftRight_or_distrib, ← Nat.shiftRight_eq_div_pow]
    exact congrArg (· % 2 ^ 44) (Nat.or_zero _)
  rw [leafBase, leafBase, hppn]

theorem bit_or_accessed (leaf : Nat) : bit (leaf ||| 64) 6 = true := by
  rw [bit_eq_testBit, Nat.testBit_or]
  exact Bool.or_true _

theorem State.touchLeaf_leaf (s : State) (w : Walker) (at_ leaf : Nat) (write : Bool) :
    (s.touchLeaf w at_ leaf write).2 = leaf ||| 64 ||| (if write then 128 else 0) := by
  unfold State.touchLeaf
  dsimp only
  generalize leaf ||| 64 ||| (if write = true then 128 else 0) = new
  split <;> rfl

/-- A load's page that permits it is translated by the TLB from then on, its leaf with the A bit set. -/
theorem State.reach_fills {s t : State} {core : Nat} {tile : Bool} {ctx : Nat} {va : DWord} {pa attr : Nat} {c : Context}
    (h : s.reach core tile ctx va .load = (t, .ok (pa, attr, true))) (hc : s.context ctx = some c) :
    ∃ e, t.tlbHit core tile c.num va.toNat = some e ∧ leafBase e.leaf e.size + va.toNat % e.size = pa ∧ bit e.leaf 6 = true := by
  unfold State.reach at h
  split at h
  · cases h
  · rw [hc] at h
    dsimp only at h
    split at h
    · cases h
    · next u e he =>
      have hcovers := State.covers_of_locate he
      split at h
      · cases h
      · have htouch : (u.touchLeaf (coreWalker core) e.leafAt e.leaf Use.load.writes).2 = e.leaf ||| 64 :=
          (u.touchLeaf_leaf ..).trans (Nat.or_zero _)
        rw [htouch] at h
        cases h
        exact ⟨{ e with leaf := e.leaf ||| 64 }, State.tlbHit_fillTlb (e := { e with leaf := e.leaf ||| 64 }) hcovers _,
          by rw [leafBase_or_accessed], bit_or_accessed _⟩

theorem exec_tableWalk {core : Nat} {va : DWord} {s : State} {ctx : Nat} (hctx : s.residentCtx core = some ctx)
    (hmiss : s.tlbHit core false ctx va.toNat = none) : exec (.tableWalk core va) s = .next (s.reach core false ctx va .load).1 := by
  show execTableWalk core va s = _
  simp only [execTableWalk, hctx, hmiss, Option.isSome_none, Bool.false_eq_true, if_false]

/-! ### What a completion entry keeps of translations -/

/-- A write drops translations and makes none. -/
theorem State.translations_outsideWrite (s : State) (pa : Nat) (bs : List Byte) :
    (s.outsideWrite pa bs).tlb ⊆ s.tlb ∧ (s.outsideWrite pa bs).walkCache ⊆ s.walkCache := by
  have hline (s : State) (l : Nat) : (s.takeLine none l).tlb = s.tlb ∧ (s.takeLine none l).walkCache = s.walkCache := by
    obtain ⟨_, _, _, h⟩ := s.takeLine_eq none l
    rw [h]
    exact ⟨rfl, rfl⟩
  have htlb := foldl_keeps (g := State.tlb) (fun s l => (hline s l).1) (lines128 pa bs.length) s
  have hwalk := foldl_keeps (g := State.walkCache) (fun s l => (hline s l).2) (lines128 pa bs.length) s
  exact ⟨fun e he => htlb ▸ (List.mem_filter.1 he).1, fun e he => hwalk ▸ (List.mem_filter.1 he).1⟩

theorem State.translations_finish (s : State) (t : Tag) (status detail : Nat) :
    (s.finish t status detail).tlb ⊆ s.tlb ∧ (s.finish t status detail).walkCache ⊆ s.walkCache := by
  have hwrite (s u : State) (pa : Nat) (bs : List Byte) (h : u.tlb ⊆ s.tlb ∧ u.walkCache ⊆ s.walkCache) :
      (u.outsideWrite pa bs).tlb ⊆ s.tlb ∧ (u.outsideWrite pa bs).walkCache ⊆ s.walkCache :=
    ⟨fun _ he => h.1 ((u.translations_outsideWrite pa bs).1 he), fun _ he => h.2 ((u.translations_outsideWrite pa bs).2 he)⟩
  unfold State.finish State.complete
  dsimp only
  split
  · exact hwrite _ _ _ _ (hwrite _ _ _ _ (hwrite _ _ _ _ ⟨List.Subset.refl _, List.Subset.refl _⟩))
  · exact ⟨List.Subset.refl _, List.Subset.refl _⟩

theorem State.owner_finish (s : State) (t : Tag) (status detail k : Nat) : ((s.finish t status detail).core k).owner = (s.core k).owner := by
  have hcore := congrArg Core.owner ((State.sameTasks_complete (s.modLaunch t Launch.finished) t status detail).cores k)
  exact hcore

/-! ### DESTROY (15 R317, R343) -/

theorem Core.owner_disown (c : Core) (ctx : Nat) : (c.disown ctx).owner ≠ some ctx := by
  unfold Core.disown
  dsimp only
  split
  · simp
  · next h => exact h

theorem State.owner_of_disowned {s : State} {cores : Table Core} {ctx : Nat} (h : s.cores = cores.map fun k => (k.1, k.2.disown ctx)) (k : Nat) :
    (s.core k).owner ≠ some ctx := by
  rw [State.core, h, Table.getD, Table.get_map cores fun k => k.2.disown ctx]
  cases Table.get cores k with
  | none => exact nofun
  | some core => exact core.owner_disown ctx

/-- Every core disowns a context that is dropped. -/
theorem State.cores_dropContext (s : State) (bs : List Byte) (c : Context) :
    ∃ cores : Table Core, (s.dropContext bs c).cores = cores.map fun k => (k.1, k.2.disown c.num) := ⟨_, rfl⟩

/-- The device holds nothing of a context: it is no context, no translation is its own, and it owns no core (15 R343). -/
structure State.Without (s : State) (ctx : Nat) : Prop where
  context : s.context ctx = none
  tlb : ∀ e ∈ s.tlb, e.ctx ≠ ctx
  walkCache : ∀ e ∈ s.walkCache, e.ctx ≠ ctx
  owner : ∀ k, (s.core k).owner ≠ some ctx

theorem State.without_dropContext (s : State) (bs : List Byte) (c : Context) : (s.dropContext bs c).Without c.num where
  context := Table.get_del_self _ _
  tlb e he := by simpa using (List.mem_filter.1 he).2
  walkCache e he := by simpa using (List.mem_filter.1 he).2
  owner := State.owner_of_disowned (s.cores_dropContext bs c).choose_spec

theorem State.Without.finish {s : State} {ctx : Nat} (h : s.Without ctx) (t : Tag) (status detail : Nat) :
    (s.finish t status detail).Without ctx where
  context := (State.context_finish ..).trans h.context
  tlb e he := h.tlb e ((s.translations_finish t status detail).1 he)
  walkCache e he := h.walkCache e ((s.translations_finish t status detail).2 he)
  owner k := by
    rw [State.owner_finish]
    exact h.owner k

section
variable {queue : Nat} {s : State} {l : Launch} {c : Context} (hhead : s.headRecord queue = some l) (hkind : l.kind = 3)
  (hfault : destroyFault l.bytes = none) (hc : s.context l.ctx = some c)
include hhead hkind hfault hc

/-- A second DESTROY of a context that one is ending finds no such context (log entry 58). -/
theorem exec_destroy_second {tag : Tag} (hending : c.ending = some tag) (hne : tag ≠ l.tag) :
    exec (.destroy queue) s = .next (s.finish l.tag 20 l.ctx) := by
  show execDestroy queue s = _
  simp only [execDestroy, hhead, hkind, hfault, hc, hending, Option.any_some, bne_self_eq_false, Bool.false_eq_true, if_false]
  rw [if_pos (by simpa using hne)]

/-- The DESTROY that ends a context waits while it is in the device or its sequences are open, and then frees it (log entry 58). -/
theorem exec_destroy_first (hending : ∀ tag, c.ending = some tag → tag = l.tag) :
    let u := s.endContext l.ctx l.tag
    exec (.destroy queue) s = .next (if u.contextBusy l.ctx = true ∨ u.seqsClosed l.ctx = false then u
      else (u.dropContext l.bytes c).finish l.tag 1 0) := by
  have hany : c.ending.any (· != l.tag) = false := by
    cases h : c.ending with
    | none => rfl
    | some tag => simp [hending tag h]
  show execDestroy queue s = _
  simp only [execDestroy, hhead, hkind, hfault, hc, hany, bne_self_eq_false, Bool.false_eq_true, if_false, Bool.or_eq_true, Bool.not_eq_true']
  split <;> rfl

end

/-! ### The statement -/

/-- Settles O46, from what each event of a record, a launch, a pack and a context leaves. -/
theorem launchResults : Obligations.LaunchResults := by
  refine ⟨⟨fun queue s => exec_launchRecordConsume_spec, fun queue s l lists => exec_create_spec, ?_, fun queue index s l c => exec_leaseWalk,
    fun queue index s l => exec_launchCompletion_spec, ?_, ?_, fun ctx s c => exec_quiescenceDeclared, ?_⟩, ?_⟩
  · intro queue s l c hhead hkind hphase hpages hfault hc
    refine ⟨fun t => exec_launchDispatch_consumed hhead hkind hphase hpages hfault hc,
      exec_launchDispatch_ready hhead hkind hphase hpages hfault hc, fun hphase' hready => ?_⟩
    obtain ⟨hsound, hrefused⟩ := s.dispatch_spec c l
    exact ⟨_, exec_launchDispatch_ready hhead hkind hphase hpages hfault hc hphase' hready, hsound, hrefused⟩
  · intro core slot s k hk hremaining hops hreaped
    obtain ⟨t, ht, hended, hleft⟩ := exec_packEnd_spec hk hremaining hops hreaped
    exact ⟨t, ht, hended, fun g hg _ => hleft g hg⟩
  · exact fun queue s w hw hms => ⟨_, exec_queueAging hw hms, s.effective_aged queue w.1 (w.2 + 1)⟩
  · exact fun core va s ctx hctx hmiss => ⟨exec_tableWalk hctx hmiss, fun t c pa attr hreach hc => State.reach_fills hreach hc⟩
  · intro queue s l c hhead hkind hfault hc
    refine ⟨fun tag => exec_destroy_second hhead hkind hfault hc, fun hending => ⟨_, exec_destroy_first hhead hkind hfault hc hending,
      fun hbusy hclosed => ?_, fun hwait => if_pos hwait⟩⟩
    rw [if_neg (by simp [hbusy, hclosed])]
    obtain ⟨hcontext, htlb, hwalk, howner⟩ := ((s.endContext l.ctx l.tag).without_dropContext l.bytes c).finish l.tag 1 0
    exact ⟨hcontext, htlb, hwalk, howner⟩

end Sys2Proof.Machine

/-!
Device memory and the Sett status block at reset (16 R345, 10 R270).
-/

namespace Sys2Proof.Machine

theorem readFn_eq_zero {f : Nat → Byte} (hf : ∀ a, f a = 0) (a n : Nat) : readFn f a n = 0 := by
  induction n generalizing a with
  | zero => rfl
  | succ n ih => simp [readFn, hf, ih]

theorem Bytes.readLE_eq_zero {m : Bytes} (hm : ∀ a, m.get a = 0) (a n : Nat) : m.readLE a n = 0 := by
  induction n generalizing a with
  | zero => rfl
  | succ n ih => simp [Bytes.readLE, hm, ih]

theorem State.settByte_reset (off : Nat) : State.reset.settByte off = 0 := by
  have hnil {α : Type} (i : Nat) (d : α) : Table.getD [] i d = d := rfl
  simp [State.settByte, State.reset, State.replShown, State.link, Link.word, hnil]

/-- Settles O58: nothing is written at reset, and the Sett status block has no ID, no link and no spare yet. -/
theorem resetMemoryIsCanonical : Obligations.ResetMemoryIsCanonical := by
  have hget (a : Nat) : State.reset.mem.get a = 0 := rfl
  refine ⟨rfl, fun a n => ⟨hget a, ?_⟩⟩
  unfold State.physRead
  split
  · exact readFn_eq_zero (fun _ => State.settByte_reset _) a n
  · exact Bytes.readLE_eq_zero hget a n

end Sys2Proof.Machine

/-!
The form of device memory (log entry 1) under writes and under what keeps memory as it is: physical writes, cache directories (10 R261-R263),
records for hosts (15 R320, 16 R364), ended tasks (08 R234) and error reports (20 R420).
-/

namespace Sys2Proof.Machine

/-! ### Outcomes that keep the form -/

/-- The next state, where the outcome is one, holds device memory in its form. -/
def keepsForm (o : Out) : Prop := ∀ t, o = .next t → Memory.wf t.mem

@[simp] theorem keepsForm_next (t : State) : keepsForm (.next t) ↔ Memory.wf t.mem :=
  ⟨fun h => h t rfl, fun h _ ht => by cases ht; exact h⟩

@[simp] theorem keepsForm_fault (r : Fault) : keepsForm (.fault r) := nofun

@[simp] theorem keepsForm_refused (r : Refusal) : keepsForm (.refused r) := nofun

@[simp] theorem keepsForm_ite (c : Prop) [Decidable c] (a b : Out) :
    keepsForm (if c then a else b) ↔ (c → keepsForm a) ∧ (¬c → keepsForm b) := by
  split <;> simp [*]

/-! ### Branches and folds -/

@[simp] theorem State.mem_ite (c : Prop) [Decidable c] (a b : State) : (if c then a else b).mem = if c then a.mem else b.mem :=
  apply_ite State.mem c a b

@[simp] theorem State.fst_ite {α : Type} (c : Prop) [Decidable c] (a b : State × α) : (if c then a else b).1 = if c then a.1 else b.1 :=
  apply_ite Prod.fst c a b

@[simp] theorem Memory.wf_ite (c : Prop) [Decidable c] (a b : Bytes) :
    Memory.wf (if c then a else b) ↔ (c → Memory.wf a) ∧ (¬c → Memory.wf b) := by
  split <;> simp [*]

/-- A fold of changes each of which keeps the form keeps it. -/
theorem State.foldl_wf {α : Type} {f : State → α → State} (hf : ∀ s a, Memory.wf s.mem → Memory.wf (f s a).mem) (l : List α) {s : State}
    (h : Memory.wf s.mem) : Memory.wf (l.foldl f s).mem := by
  induction l generalizing s with
  | nil => exact h
  | cons a l ih => exact ih (hf s a h)

section
variable {s : State}

/-! ### Writes -/

@[simp] theorem State.dropTranslations_mem (s : State) (pa n : Nat) : (s.dropTranslations pa n).mem = s.mem := rfl

@[simp] theorem State.physWrite_mem (s : State) (pa n v : Nat) : (s.physWrite pa n v).mem = s.mem.writeLE pa n v := rfl

@[simp] theorem State.drawFree_mem (s : State) : s.drawFree.2.mem = s.mem := rfl

@[simp] theorem State.freeBytes_mem (s : State) (n : Nat) : (s.freeBytes n).2.mem = s.mem := rfl

theorem State.physWrite_wf (h : Memory.wf s.mem) (pa n v : Nat) : Memory.wf (s.physWrite pa n v).mem := Memory.wf_writeLE pa n v h

theorem State.outsideWrite_wf (h : Memory.wf s.mem) (pa : Nat) (bs : List Byte) : Memory.wf (s.outsideWrite pa bs).mem := by
  rw [State.outsideWrite_mem]
  exact Memory.wf_writeList pa bs h

theorem State.unitWrite_wf (h : Memory.wf s.mem) (cluster pa : Nat) (bs : List Byte) : Memory.wf (s.unitWrite cluster pa bs).mem := by
  rw [State.unitWrite_mem]
  exact Memory.wf_writeList pa bs h

theorem State.physZero_wf (h : Memory.wf s.mem) (pa n : Nat) : Memory.wf (s.physZero pa n).mem := Memory.wf_clear pa (pa + n) h

/-! ### Cache directories -/

@[simp] theorem State.dropL1_mem (s : State) (cluster line : Nat) : (s.dropL1 cluster line).mem = s.mem := rfl

@[simp] theorem State.markTable_mem (s : State) (line : Nat) : (s.markTable line).mem = s.mem := rfl

@[simp] theorem State.reveal_mem (s : State) (p : Nat → Writer → Bool) : (s.reveal p).mem = s.mem := rfl

@[simp] theorem State.unretain_mem (s : State) (pa n : Nat) : (s.unretain pa n).mem = s.mem := rfl

/-! ### What hosts are told -/

@[simp] theorem State.trapEvent_mem (s : State) (kind c : Nat) (k : Pack) (split : Nat) (r : TrapRec) (ends inh : Bool) :
    (s.trapEvent kind c k split r ends inh).mem = s.mem := rfl

@[simp] theorem State.residencyEvent_mem (s : State) (ctx queue : Nat) (va : DWord) (w : WalkInfo) :
    (s.residencyEvent ctx queue va w).mem = s.mem := rfl

@[simp] theorem State.journalEvent_mem (s : State) (head : List Byte) (ctx reason rkind ord seq pos peer : Nat) (journalled program : DWord) :
    (s.journalEvent head ctx reason rkind ord seq pos peer journalled program).mem = s.mem := rfl

@[simp] theorem State.cmdStart_mem (s : State) (complex : Nat) : (s.cmdStart complex).mem = s.mem := rfl

@[simp] theorem State.cmdDone_mem (s : State) (complex status : Nat) : (s.cmdDone complex status).mem = s.mem := rfl

@[simp] theorem State.datagram_mem (s : State) (dest port type : Nat) (body : List Byte) : (s.datagram dest port type body).mem = s.mem := by
  unfold State.datagram
  split <;> rfl

@[simp] theorem State.toCollectors_mem (s : State) (type : Nat) (body : List Byte) : (s.toCollectors type body).mem = s.mem := by
  simp [State.toCollectors, State.foldl_mem]

@[simp] theorem State.countError_mem (s : State) (seq : Nat) : (s.countError seq).mem = s.mem := rfl

@[simp] theorem State.reportError_mem (s : State) (e : ErrorReport) (split : Option Nat) : (s.reportError e split).1.mem = s.mem := by
  unfold State.reportError
  split <;> simp

theorem State.complete_wf (h : Memory.wf s.mem) (t : Tag) (status detail : Nat) : Memory.wf (s.complete t status detail).mem := by
  unfold State.complete
  dsimp only
  split
  · exact State.outsideWrite_wf (State.outsideWrite_wf (State.outsideWrite_wf h _ _) _ _) _ _
  · exact h

/-! ### Pools and tasks -/

@[simp] theorem State.ask_mem (s : State) (ctx : Nat) (a : Asker) : (s.ask ctx a).mem = s.mem := rfl

@[simp] theorem State.unask_mem (s : State) (ctx : Nat) (a : Asker) : (s.unask ctx a).mem = s.mem := rfl

@[simp] theorem State.dropLists_mem (s : State) (p : PageList → Bool) : (s.dropLists p).mem = s.mem := (s.dropLists_keeps p).1

theorem State.endTask_wf (h : Memory.wf s.mem) (t : Tag) (status detail : Nat) : Memory.wf (s.endTask t status detail).mem := by
  unfold State.endTask
  split
  · exact h
  · split
    · exact h
    · refine State.complete_wf ?_ t status detail
      rwa [State.modContext_mem, State.modLaunch_mem, State.foldl_mem fun s c => s.setCore_mem c _]

end

end Sys2Proof.Machine

/-!
The form of device memory under translation (16 R348-R354): walks with their A and D bits, the checks of an access, and fetches (03 R71).
-/

namespace Sys2Proof.Machine

section
variable {s : State}

/-! ### Walks (16 R348-R351) -/

@[simp] theorem State.readTable_mem (s : State) (w : Walker) (at_ : Nat) : (s.readTable w at_).mem = s.mem := by
  unfold State.readTable
  split <;> simp

@[simp] theorem State.fillWalk_mem (s : State) (e : WalkEntry) : (s.fillWalk e).mem = s.mem := rfl

@[simp] theorem State.fillTlb_mem (s : State) (e : TlbEntry) : (s.fillTlb e).mem = s.mem := rfl

@[simp] theorem State.walk_mem (s : State) (w : Walker) (ctx va l a : Nat) (lines : List Nat) : (s.walk w ctx va l a lines).1.mem = s.mem := by
  induction l generalizing s a lines with
  | zero => rfl
  | succ l ih =>
    unfold State.walk
    dsimp only
    split
    · rfl
    · split <;> simp [ih]

@[simp] theorem State.anyOfSixteen_mem (s : State) (e : TlbEntry) : (s.anyOfSixteen e).1.mem = s.mem := by
  simp [State.anyOfSixteen]

@[simp] theorem State.locate_mem (s : State) (core : Nat) (tile : Bool) (c : Context) (va : Nat) :
    (s.locate core tile c va).1.mem = s.mem := by
  unfold State.locate
  split
  · simp
  · have hwalk := s.walk_mem (coreWalker core) c.num va 5 c.table []
    split
    · next h => rwa [h] at hwalk
    · next h =>
      rw [h] at hwalk
      dsimp only
      split
      · exact hwalk
      · rw [State.anyOfSixteen_mem, ← hwalk]
        split <;> simp

theorem State.touchLeaf_wf (h : Memory.wf s.mem) (w : Walker) (at_ leaf : Nat) (write : Bool) :
    Memory.wf (s.touchLeaf w at_ leaf write).1.mem := by
  simp [State.touchLeaf, h, Memory.wf_writeLE]

theorem State.reach_wf (h : Memory.wf s.mem) (core : Nat) (tile : Bool) (ctx : Nat) (va : DWord) (use : Use) :
    Memory.wf (s.reach core tile ctx va use).1.mem := by
  unfold State.reach
  split
  · exact h
  · split
    · exact h
    · next c _ =>
      have hlocate := s.locate_mem core tile c va.toNat
      split
      · next heq => rw [heq] at hlocate; exact hlocate ▸ h
      · next u e heq =>
        rw [heq] at hlocate
        have hu : Memory.wf u.mem := hlocate ▸ h
        dsimp only
        split
        · exact hu
        · exact State.touchLeaf_wf hu _ _ _ _

theorem State.translate_wf {core : Nat} {tile : Bool} {ctx : Nat} {va : DWord} {use : Use} {x : Xlated}
    (hx : s.translate core tile ctx va use = .ok x) (h : Memory.wf s.mem) : Memory.wf x.s.mem := by
  have hreach := State.reach_wf h core tile ctx va use
  unfold State.translate at hx
  split at hx
  · cases hx
  · next heq => rw [heq] at hreach; split_ifs at hx; cases hx; exact hreach

theorem State.leaseWalkPage_wf (h : Memory.wf s.mem) (c : Context) (va : Nat) (write own : Bool) :
    Memory.wf (s.leaseWalkPage c va write own).1.mem := by
  have hwalk : (if canonical (BitVec.ofNat 64 va) = true then s.walk hostWalker c.num va 5 c.table [] else (s, .error .addr)).1.mem = s.mem := by
    split
    · exact s.walk_mem _ _ _ _ _ _
    · rfl
  unfold State.leaseWalkPage
  split
  · next heq => rw [heq] at hwalk; exact hwalk ▸ h
  · next heq => rw [heq] at hwalk; exact hwalk ▸ h
  · next u l heq =>
    rw [heq] at hwalk
    have hu : Memory.wf u.mem := hwalk ▸ h
    have htouch := State.touchLeaf_wf hu hostWalker l.at_ l.entry write
    dsimp only
    split
    · exact hu
    · split
      · exact hu
      · cases attrAt c.attrMap (leafBase l.entry (leafSize l.entry l.level) + va % leafSize l.entry l.level) <;>
          simpa using htouch

/-! ### Accesses (06 R144) -/

theorem State.tryAccess_wf (h : Memory.wf s.mem) (core : Nat) (tile : Bool) (ctx : Nat) (path : Path) (va : DWord) (size align : Nat)
    (use : Use) : Memory.wf (s.tryAccess core tile ctx path va size align use).1.mem := by
  unfold State.tryAccess
  split
  · exact h
  · have hreach := State.reach_wf h core tile ctx va use
    dsimp only
    split <;> next heq => rw [heq] at hreach; exact hreach

theorem State.afterAccess_wf (h : Memory.wf s.mem) (core : Nat) (tile : Bool) (ctx : Nat) (path : Path) (va : DWord) (size align : Nat)
    (use : Use) : Memory.wf (s.afterAccess core tile ctx path va size align use).mem := State.tryAccess_wf h core tile ctx path va size align use

theorem State.access_wf {core : Nat} {tile : Bool} {ctx : Nat} {path : Path} {va : DWord} {size align : Nat} {use : Use} {x : Xlated}
    (hx : s.access core tile ctx path va size align use = .ok x) (h : Memory.wf s.mem) : Memory.wf x.s.mem := by
  have htry := State.tryAccess_wf h core tile ctx path va size align use
  unfold State.access at hx
  split at hx
  · next heq => rw [heq] at htry; cases hx; exact htry
  · cases hx

theorem State.checkAll_wf (core ctx : Nat) (path : Path) (size align : Nat) (use : Use) (rs : List Req) {s : State} (h : Memory.wf s.mem) :
    Memory.wf (s.checkAll core ctx path size align use rs).1.mem := by
  induction rs generalizing s with
  | nil => exact h
  | cons r rs ih =>
    unfold State.checkAll
    split
    · next x hx => exact ih (State.access_wf hx h)
    · exact ih (State.afterAccess_wf h _ _ _ _ _ _ _ _)

/-! ### Fetches (03 R71) -/

theorem State.unitAt_wf (h : Memory.wf s.mem) (core : Nat) (k : Pack) (a : Word) : Memory.wf (s.unitAt core k a).2.mem := by
  have hfetch (off : Nat) : (∀ e va t, s.fetchAt core k off = .fault e va t → Memory.wf t.mem) ∧
      ∀ w t, s.fetchAt core k off = .word w t → Memory.wf t.mem := by
    unfold State.fetchAt
    dsimp only
    split
    · exact ⟨nofun, nofun⟩
    · split
      · next x hx =>
        have hwf := State.translate_wf hx h
        split
        · exact ⟨nofun, fun w t ht => by cases ht; exact hwf⟩
        · exact ⟨fun e va t ht => by cases ht; exact hwf, nofun⟩
      · exact ⟨fun e va t ht => by cases ht; exact State.reach_wf h _ _ _ _ _, nofun⟩
  unfold State.unitAt
  dsimp only
  split
  · exact h
  · next heq => exact (hfetch _).1 _ _ _ heq
  · next heq => split_ifs <;> exact (hfetch _).2 _ _ heq

end

end Sys2Proof.Machine

/-!
The form of device memory under what every instruction shares: issue (01 R12-R14), retirement (03 R72), exceptions (08 R233, R234), spills
and division of splits (04 R107, R109), and the control flow and split events made of these (04 R106-R117, 09 R244).
-/

namespace Sys2Proof.Machine

section
variable {s : State} {x : Iss}

/-! ### The issuing split -/

@[simp] theorem Iss.put_mem (x : Iss) (k : Pack) (sp : Split) : (x.put k sp).mem = x.s.mem := rfl

@[simp] theorem Iss.retire_mem (x : Iss) (k : Pack) (sp : Split) : (x.retire k sp).mem = x.s.mem := rfl

@[simp] theorem Iss.commit_mem (x : Iss) : x.commit.s.mem = x.s.mem := rfl

@[simp] theorem Iss.s_ite (c : Prop) [Decidable c] (a b : Iss) : (if c then a else b).s = if c then a.s else b.s := apply_ite Iss.s c a b

@[simp] theorem Iss.served_mem (x : Iss) (s : State) : (x.served s).mem = s.mem := rfl

theorem State.issuer_wf (hx : s.issuer = some x) (h : Memory.wf s.mem) : Memory.wf x.s.mem := by
  rwa [(State.issuer_spec hx).2.1]

theorem State.stalled_wf {core slot split : Nat} (hx : s.stalled core slot split = some x) (h : Memory.wf s.mem) : Memory.wf x.s.mem := by
  unfold State.stalled at hx
  split at hx
  · cases hx
  · split at hx
    · cases hx
    · dsimp only at hx
      split at hx
      · cases hx
      · cases hx
        exact h

/-! ### Results -/

@[simp] theorem keepsForm_done (k : Pack) (sp : Split) : keepsForm (x.done k sp) ↔ Memory.wf x.s.mem := keepsForm_next _

@[simp] theorem keepsForm_doneV (d : VReg) (act : Mask) (f : Nat → Word) : keepsForm (x.doneV d act f) ↔ Memory.wf x.s.mem := keepsForm_next _

@[simp] theorem keepsForm_doneV64 (d : VReg) (act : Mask) (f : Nat → DWord) : keepsForm (x.doneV64 d act f) ↔ Memory.wf x.s.mem :=
  keepsForm_next _

@[simp] theorem keepsForm_doneG (d : GReg) (v : Word) : keepsForm (x.doneG d v) ↔ Memory.wf x.s.mem := keepsForm_next _

@[simp] theorem keepsForm_doneP (d : PReg) (m f : Mask) : keepsForm (x.doneP d m f) ↔ Memory.wf x.s.mem := keepsForm_next _

@[simp] theorem keepsForm_stallAt (st : Stall) : keepsForm (x.stallAt st) ↔ Memory.wf x.s.mem := keepsForm_next _

@[simp] theorem keepsForm_branch (target : Word) : keepsForm (x.branch target) ↔ Memory.wf x.s.mem := keepsForm_next _

/-! ### Exceptions (08 R233, R234) -/

theorem State.takeTrap_wf (h : Memory.wf s.mem) (core slot : Nat) (k : Pack) (sp : Split) (r : TrapRec) :
    Memory.wf (s.takeTrap core slot k sp r).mem := by
  unfold State.takeTrap
  dsimp only
  split
  · refine State.endTask_wf ?_ _ _ _
    exact h
  · split <;> exact h

section
variable (h : Memory.wf x.s.mem)
include h

theorem keepsForm_raiseRec (r : TrapRec) : keepsForm (x.raiseRec r) := by
  unfold Iss.raiseRec
  split
  · exact (keepsForm_next _).2 h
  · exact (keepsForm_next _).2 (State.takeTrap_wf h _ _ _ _ _)

@[simp] theorem keepsForm_raise (act : Mask) (code info : Nat) : keepsForm (x.raise act code info) := keepsForm_raiseRec h _

@[simp] theorem keepsForm_illopWith (act : Mask) (reason : Nat) : keepsForm (x.illopWith act reason) := keepsForm_raise h _ _ _

@[simp] theorem keepsForm_illop (reason : Nat) : keepsForm (x.illop reason) := keepsForm_illopWith h _ _

@[simp] theorem keepsForm_accessFault (act : Mask) (e : XErr) (word : BitVec 128) : keepsForm (x.accessFault act e word) := by
  unfold Iss.accessFault
  split
  · exact keepsForm_raiseRec (by simpa using h) _
  · exact keepsForm_raiseRec h _

end

/-! ### Issue (01 R12-R14) -/

/-- An instruction keeps the form if its own effect does, once it passes the checks that all make. -/
theorem keepsForm_issue (h : Memory.wf s.mem) {run : Iss → Mask → Out} (hrun : ∀ x act, Memory.wf x.s.mem → keepsForm (run x act))
    (mn : String) (g : PReg) (os : List Operand) : keepsForm (issue s mn g os run) := by
  unfold issue
  split
  · exact keepsForm_refused _
  · next x hx =>
    have hwf := State.issuer_wf hx h
    split
    · exact keepsForm_illop hwf _
    · split
      · exact keepsForm_raise hwf _ _ _
      · split
        · exact (keepsForm_next _).2 hwf
        · exact hrun x _ hwf

theorem keepsForm_issueU (h : Memory.wf s.mem) {run : Iss → Out} (hrun : ∀ x, Memory.wf x.s.mem → keepsForm (run x)) (mn : String)
    (os : List Operand) : keepsForm (issueU s mn os run) := keepsForm_issue h (fun x _ => hrun x) mn 7 os

/-! ### Events of a split or an operation -/

theorem keepsForm_onSplit {core slot split : Nat} {f : Pack → Split → Option State} (hf : ∀ k sp, ∀ t ∈ f k sp, Memory.wf t.mem)
    (mn : String) :
    keepsForm (onSplit mn s core slot split f) := by
  unfold onSplit
  split
  · exact keepsForm_refused _
  · split
    · exact keepsForm_refused _
    · next t ht =>
      obtain ⟨sp, -, hsp⟩ := Option.bind_eq_some_iff.1 ht
      exact (keepsForm_next _).2 (hf _ sp t hsp)

theorem keepsForm_withOp {core slot op : Nat} {f : Pack → PendOp → Option State} (hf : ∀ k o, ∀ t ∈ f k o, Memory.wf t.mem) (mn : String) :
    keepsForm (withOp mn s core slot op f) := by
  unfold withOp
  split
  · exact keepsForm_refused _
  · split
    · exact keepsForm_refused _
    · next t ht =>
      obtain ⟨o, -, ho⟩ := Option.bind_eq_some_iff.1 ht
      exact (keepsForm_next _).2 (hf _ o t ho)

theorem keepsForm_onStall (h : Memory.wf s.mem) {core slot split : Nat} {f : Iss → Stall → Option Out}
    (hf : ∀ x st, Memory.wf x.s.mem → ∀ o ∈ f x st, keepsForm o) (mn : String) : keepsForm (onStall mn s core slot split f) := by
  unfold onStall
  split
  · exact keepsForm_refused _
  · next x hx =>
    split
    · exact keepsForm_refused _
    · next o ho =>
      obtain ⟨st, -, hst⟩ := Option.bind_eq_some_iff.1 ho
      exact hf x st (State.stalled_wf hx h) o hst

/-! ### Spills and division (04 R107, R109, 09 R243) -/

theorem spillTo_wf (h : Memory.wf s.mem) (k : Pack) (i r : Nat) : Memory.wf (spillTo s k i r).1.mem := by
  unfold spillTo
  split
  · exact h
  · exact State.outsideWrite_wf h _ _

theorem spillAll_wf (l : List (Nat × Nat)) {s : State} (h : Memory.wf s.mem) (k : Pack) : Memory.wf (spillAll s k l).1.mem := by
  induction l generalizing s k with
  | nil => exact h
  | cons p l ih => exact ih (spillTo_wf h k p.1 p.2) _

theorem State.takeEntries_wf (h : Memory.wf s.mem) {core slot issuing need : Nat} {k k' : Pack} {t : State} {n : Nat}
    (ht : s.takeEntries core slot k issuing need = .ok (t, k', n)) : Memory.wf t.mem := by
  unfold State.takeEntries at ht
  dsimp only at ht
  split_ifs at ht <;> cases ht
  · exact h
  · exact spillAll_wf _ h k

theorem addKids_wf (cs : List Split) {s : State} (h : Memory.wf s.mem) (k : Pack) (n : Nat) : Memory.wf (addKids s k cs n).1.mem := by
  induction cs generalizing s k with
  | nil => exact h
  | cons c cs ih =>
    unfold addKids
    dsimp only
    split
    · exact ih (spillTo_wf h _ _ _) _
    · exact ih h _

theorem divide_wf (h : Memory.wf s.mem) (core slot : Nat) (k : Pack) (p : Split) (join : Word) (spilled : Nat) (kids : List (Mask × Word))
    (edit : Split → Split) : Memory.wf (divide s core slot k p join spilled kids edit).mem := addKids_wf _ h _ _

/-! ### Control flow (04 R106-R117) -/

theorem State.imageBytes_wf (n : Nat) {s : State} (h : Memory.wf s.mem) (core : Nat) (k : Pack) (va : DWord) :
    Memory.wf (s.imageBytes core k va n).1.mem := by
  induction n generalizing s va with
  | zero => exact h
  | succ n ih =>
    have hreach := State.reach_wf h core false k.ctx va .load
    unfold State.imageBytes
    split
    · next heq => rw [heq] at hreach; exact hreach
    · next heq => rw [heq] at hreach; split_ifs <;> first | exact hreach | exact ih hreach _

theorem State.callEntries_wf (xs : List Nat) {s : State} (h : Memory.wf s.mem) (core : Nat) (k : Pack) :
    Memory.wf (s.callEntries core k xs).1.mem := by
  induction xs generalizing s with
  | nil => exact h
  | cons x xs ih =>
    have himage := State.imageBytes_wf 8 h core k (s.imageOf k + BitVec.ofNat 64 ((s.header k).callOff + 8 * x))
    unfold State.callEntries
    split
    · next heq => rw [heq] at himage; exact himage
    · next heq => rw [heq] at himage; exact ih himage

theorem keepsForm_br (h : Memory.wf s.mem) (p : PReg) (o : BitVec 19) : keepsForm (execBr p o s) :=
  keepsForm_issueU h (fun x hx => by simp [hx]) _ _

theorem keepsForm_brd (h : Memory.wf s.mem) (p : PReg) (t : BitVec 10) (r : BitVec 9) : keepsForm (execBrd p t r s) := by
  refine keepsForm_issueU h (fun x hx => ?_) _ _
  dsimp only
  split_ifs
  · exact keepsForm_illop hx _
  · exact keepsForm_illop hx _
  · exact (keepsForm_branch _).2 hx
  · exact (keepsForm_done _ _).2 hx
  · split
    · exact keepsForm_raise hx _ _ _
    · next ht =>
      refine (keepsForm_next _).2 (divide_wf ?_ _ _ _ _ _ _ _ _)
      exact (State.takeEntries_wf hx ht :)

theorem keepsForm_jmpi (h : Memory.wf s.mem) (a : VReg) : keepsForm (execJmpi a s) := by
  refine keepsForm_issueU h (fun x hx => ?_) _ _
  dsimp only
  split
  · exact (keepsForm_next _).2 hx
  · exact keepsForm_raise hx _ _ _

theorem keepsForm_calli (h : Memory.wf s.mem) (d a : VReg) : keepsForm (execCalli d a s) := by
  refine keepsForm_issueU h (fun x hx => ?_) _ _
  dsimp only
  split
  · exact keepsForm_raise hx _ _ _
  · have hentries := State.callEntries_wf (sortNats ((lanesOf x.live).map fun i => (x.v a i).toNat)) hx x.f.core x.k
    split
    · next heq => rw [heq] at hentries; exact keepsForm_accessFault hentries _ _ _
    · next t es heq =>
      rw [heq] at hentries
      have ht : Memory.wf ({ x with s := t } : Iss).s.mem := hentries
      split
      · split
        · exact (keepsForm_next _).2 ht
        · exact keepsForm_raise ht _ _ _
      · split
        · exact keepsForm_raise ht _ _ _
        · next hk =>
          refine (keepsForm_next _).2 (divide_wf ?_ _ _ _ _ _ _ _ _)
          exact (State.takeEntries_wf hentries hk :)

theorem keepsForm_regang (h : Memory.wf s.mem) : keepsForm (execRegang s) :=
  keepsForm_issueU h (fun x hx => by simp [hx]) _ _

theorem keepsForm_wait (h : Memory.wf s.mem) (l st c : BitVec 6) (t : BitVec 4) : keepsForm (execWait l st c t s) :=
  keepsForm_issueU h (fun x hx => by simp [hx]) _ _

/-! ### What the hardware does to splits (04 R108, R113, R117, 08 R233, 09 R244) -/

section
variable (h : Memory.wf s.mem) (core slot split : Nat)
include h

theorem keepsForm_trapEntry : keepsForm (execTrapEntry core slot split s) := by
  refine keepsForm_onSplit (fun k sp => ?_) _
  split
  · split <;> simp [State.takeTrap_wf h]
  · simp

theorem keepsForm_reconvergenceResume : keepsForm (execReconvergenceResume core slot split s) :=
  keepsForm_onSplit (fun k sp => by split <;> simp [h]) _

theorem keepsForm_regangRelease : keepsForm (execRegangRelease core slot split s) :=
  keepsForm_onSplit (fun k sp => by split <;> simp [h]) _

theorem keepsForm_splitRefill : keepsForm (execSplitRefill core slot split s) := by
  refine keepsForm_onSplit (fun k sp => ?_) _
  split
  · simp
  · split
    · simp
    · split
      · simp [State.takeTrap_wf h]
      · dsimp only
        split
        · simp [h]
        · split <;> simp [spillTo_wf h]

theorem keepsForm_waitSatisfied : keepsForm (execWaitSatisfied core slot split s) := by
  refine keepsForm_onStall h (fun x st hx => ?_) _
  split
  · split <;> simp [hx]
  · simp

end

end

end Sys2Proof.Machine

/-!
The form of device memory under floating results (02 R65), hint words and dictionary slots (03 R73-R81), accesses to device memory and the
scratchpad as they issue (06 R141-R164), and copies, tiles and accumulators as they issue (06 R157, R165, 07 R177-R201).
-/

namespace Sys2Proof.Machine

section
variable {s : State} {x : Iss}

/-! ### Floating results and hints -/

@[simp] theorem keepsForm_fpFinish (h : Memory.wf x.s.mem) (act : Mask) (rs : List (Nat × LaneRes)) (write : Pack → Split → Pack × Split) :
    keepsForm (x.fpFinish act rs write) := by
  simp [Iss.fpFinish, h]

theorem keepsForm_fpIssue (h : Memory.wf s.mem) (mn : String) (g : PReg) (d : VReg) (os : List Operand) (f : Iss → Nat → LaneRes) :
    keepsForm (fpIssue s mn g d os f) := keepsForm_issue h (fun _ _ hx => keepsForm_fpFinish hx _ _ _) mn g os

theorem keepsForm_fpCmp (h : Memory.wf s.mem) (mn : String) (both : Bool) (g p : PReg) (c : BitVec 4) (a b : VReg) :
    keepsForm (fpCmp mn both g p c a b s) := keepsForm_issue h (fun _ _ hx => keepsForm_fpFinish hx _ _ _) mn g _

theorem keepsForm_hint (h : Memory.wf s.mem) (mn : String) (w : Word) : keepsForm (hint mn w s) := by
  unfold hint
  split
  · exact keepsForm_refused _
  · next x hx =>
    have hwf := State.issuer_wf hx h
    dsimp only
    split
    · exact keepsForm_illopWith hwf _ _
    · exact (keepsForm_next _).2 hwf

@[simp] theorem keepsForm_slotIllop (h : Memory.wf x.s.mem) (word : Word) (slot index : Nat) : keepsForm (x.slotIllop word slot index) := by
  simp [Iss.slotIllop, h]

theorem keepsForm_dictionarySlot (h : Memory.wf s.mem) (i : BitVec 10) (k : BitVec 16) : keepsForm (execDictionarySlot i k s) := by
  unfold execDictionarySlot
  split
  · exact keepsForm_refused _
  · next x hx => simp [State.issuer_wf hx h]

theorem keepsForm_illegalInstruction (h : Memory.wf s.mem) (word : Word) (reason : Nat) : keepsForm (execIllegalInstruction word reason s) := by
  unfold execIllegalInstruction
  split
  · exact keepsForm_refused _
  · next x hx => simp [State.issuer_wf hx h]

/-! ### Accesses of lanes (06 R141-R164) -/

section
variable (h : Memory.wf x.s.mem)
include h

@[simp] theorem keepsForm_memTrap (act : Mask) (path : Path) (write : Bool) (elem : Nat) (partialStore : Bool) (fs : List (Req × XErr)) :
    keepsForm (x.memTrap act path write elem partialStore fs) := by
  unfold Iss.memTrap
  split <;> simp [h]

@[simp] theorem keepsForm_access (act : Mask) (a : Acc) (reqs : List Req) (hold : Bool) : keepsForm (x.access act a reqs hold) := by
  have hcheck := State.checkAll_wf x.f.core x.k.ctx a.path a.size a.align a.use reqs h
  unfold Iss.access
  dsimp only
  split
  · exact (keepsForm_next _).2 h
  · split
    · simp [h]
    · split
      · split <;> simp [h, hcheck]
      · exact keepsForm_memTrap hcheck _ _ _ _ _ _

@[simp] theorem keepsForm_scratch (cls : OpClass) (kind : OpKind) (writes : Bool) (lanes : List LaneAcc) :
    keepsForm (x.scratch cls kind writes lanes) := by
  simp [Iss.scratch, h]

end

theorem keepsForm_compressStore (h : Memory.wf s.mem) (mn : String) (size : Nat) (g : PReg) (d : GReg) (a : VReg) :
    keepsForm (compressStore mn size g d a s) := by
  refine keepsForm_issue h (fun x act hx => ?_) mn g _
  have hcheck := State.checkAll_wf x.f.core x.k.ctx .lane size size .store (x.elemReqs act (x.k.readG64 d.toNat) size a) hx
  dsimp only
  split
  · exact (keepsForm_next _).2 hx
  · split
    · exact (keepsForm_done _ _).2 hx
    · split
      · exact (keepsForm_next _).2 hx
      · split
        · exact (keepsForm_done _ _).2 hcheck
        · exact keepsForm_memTrap (by simpa using hcheck) _ _ _ _ _ _

theorem keepsForm_padAccess (h : Memory.wf s.mem) (mn : String) (writes : Bool) (g : PReg) (d : VReg) (a : TReg) (b : VReg) :
    keepsForm (padAccess mn writes g d a b s) := by
  refine keepsForm_issue h (fun x act hx => ?_) mn g _
  dsimp only
  split
  · exact keepsForm_scratch hx _ _ _ _
  · split
    · exact keepsForm_raise hx _ _ _
    · split
      · exact keepsForm_raise hx _ _ _
      · exact keepsForm_scratch hx _ _ _ _

theorem State.contributeAll_wf {s : State} (h : Memory.wf s.mem) (k : Pack) (fn : Nat) (ps : List (LaneAcc × DWord)) :
    Memory.wf (s.contributeAll k fn ps).mem := by
  rwa [(State.contributeAll_spec k fn ps s).1]

end

end Sys2Proof.Machine

/-!
The form of device memory under the engines and the completions of accesses: copies (06 R165-R168), tiles and accumulators (07 R177-R201), lane
accesses, atomics and deterministic atomics (06 R146-R161), banks and FIFOs (06 R170, R171).
-/

namespace Sys2Proof.Machine

section
variable {s : State} {x : Iss}

/-! ### Writes of cores and engines (16 R352, R354) -/

theorem State.disturb_wf (h : Memory.wf s.mem) (ctx pa attr : Nat) : Memory.wf (s.disturb ctx pa attr).mem := by
  unfold State.disturb
  split
  · exact h
  · split
    · exact h
    · exact State.outsideWrite_wf h _ _

theorem State.devWrite_wf (h : Memory.wf s.mem) (core ctx pa n v attr pol : Nat) : Memory.wf (s.devWrite core ctx pa n v attr pol).mem :=
  State.physWrite_wf (by simpa using State.disturb_wf h ctx pa attr) pa n v

theorem State.engineWrite_wf (h : Memory.wf s.mem) (path : Path) (k : Pack) (core pa attr : Nat) (bs : List Byte) (pol : Nat) :
    Memory.wf (s.engineWrite path k core pa attr bs pol).mem := by
  refine Memory.wf_writeList pa bs (State.disturb_wf ?_ k.ctx pa attr)
  rwa [State.foldl_mem fun s l => by simp]

theorem State.writeRuns_wf (path : Path) (k : Pack) (core : Nat) (rs : Runs) {s : State} (h : Memory.wf s.mem) (bs : List Byte) :
    Memory.wf (s.writeRuns path k core rs bs).mem := by
  induction rs generalizing s bs with
  | nil => exact h
  | cons r rs ih => exact ih (State.engineWrite_wf h _ _ _ _ _ _ _) _

/-! ### Checks of a tile's bytes (07 R183) -/

theorem State.checkRuns_wf {core ctx : Nat} {path : Path} {use : Use} {rs : List (Nat × Nat)} {s : State} {t : State × Runs}
    (ht : s.checkRuns core ctx path use rs = .ok t) (h : Memory.wf s.mem) : Memory.wf t.1.mem := by
  induction rs generalizing s t with
  | nil => cases ht; exact h
  | cons r rs ih =>
    unfold State.checkRuns at ht
    dsimp only at ht
    split at ht
    · cases ht
    · next x hx =>
      split at ht
      · cases ht
      · next hu => cases ht; exact (ih hu (State.access_wf hx h) :)

theorem State.afterRuns_wf (core ctx : Nat) (path : Path) (use : Use) (rs : List (Nat × Nat)) {s : State} (h : Memory.wf s.mem) :
    Memory.wf (s.afterRuns core ctx path use rs).mem := by
  induction rs generalizing s with
  | nil => exact h
  | cons r rs ih =>
    unfold State.afterRuns
    dsimp only
    split
    · exact State.afterAccess_wf h _ _ _ _ _ _ _ _
    · next x hx => exact ih (State.access_wf hx h)

theorem State.listPages_wf {core slot op ctx : Nat} {rs : List (Nat × Nat)} {t : State} (ht : s.listPages core slot op ctx rs = some t)
    (h : Memory.wf s.mem) : Memory.wf t.mem := by
  unfold State.listPages at ht
  dsimp only at ht
  split at ht
  · cases ht
    exact h
  · obtain ⟨a, -, rfl⟩ := Option.map_eq_some_iff.1 ht
    exact State.unitWrite_wf (by simpa using h) _ _ _

@[simp] theorem State.unlist_mem (s : State) (core slot op : Nat) : (s.unlist core slot op).mem = s.mem := (State.unlist_keeps s core slot op).1

@[simp] theorem keepsForm_handle (h : Memory.wf x.s.mem) (reason tile index : Nat) : keepsForm (x.handle reason tile index) :=
  keepsForm_raise h _ _ _

theorem keepsForm_tileFault (h : Memory.wf x.s.mem) (path : Path) (write : Bool) (e : XErr) (va : DWord) :
    keepsForm (x.tileFault path write e va) := keepsForm_accessFault h _ _ _

/-! ### Copies (06 R165-R168) -/

theorem keepsForm_copyIssue (h : Memory.wf s.mem) (mn : String) (into : Bool) (d a : TReg) (b : GReg) :
    keepsForm (copyIssue mn into d a b s) := by
  refine keepsForm_issueU h (fun x hx => ?_) mn _
  simp only [keepsForm_ite, keepsForm_handle hx, keepsForm_next, hx, implies_true, true_and]
  intros
  split
  · exact keepsForm_tileFault (State.afterRuns_wf _ _ _ _ _ hx) _ _ _ _
  · next t ht =>
    split
    · exact (keepsForm_next _).2 hx
    · next u hu => simp [State.listPages_wf hu (State.checkRuns_wf ht hx)]

theorem State.moveBytes_wf (h : Memory.wf s.mem) (core : Nat) (k : Pack) (into : Bool) (base lo hi : Nat) (runs : Runs) :
    Memory.wf (s.moveBytes core k into base lo hi runs).mem := by
  simp [State.moveBytes, h, State.writeRuns_wf]

theorem keepsForm_copyCompletion (h : Memory.wf s.mem) (core channel upto : Nat) : keepsForm (execCopyCompletion core channel upto s) := by
  unfold execCopyCompletion
  split
  · exact keepsForm_refused _
  · refine keepsForm_withOp (fun k o => ?_) _
    split
    · split <;> simp [State.moveBytes_wf h]
    · simp

theorem keepsForm_cwpwaitPass (h : Memory.wf s.mem) (core slot split : Nat) : keepsForm (execCwpwaitPass core slot split s) := by
  refine keepsForm_onStall h (fun x st hx => ?_) _
  split
  · split <;> simp [hx]
  · simp

/-! ### Tiles and accumulators (07 R177-R201) -/

theorem keepsForm_tdesc (h : Memory.wf s.mem) (mn : String) (write : Bool) (d : GReg) (a : TReg) (b : GReg) :
    keepsForm (tdesc mn write d a b s) := keepsForm_issueU h (fun x hx => by simp [hx]) mn _

theorem keepsForm_tload (h : Memory.wf s.mem) (mn : String) (planed : Bool) (d a : TReg) (b : GReg) : keepsForm (tload mn planed d a b s) := by
  refine keepsForm_issueU h (fun x hx => ?_) mn _
  simp only [keepsForm_ite, keepsForm_handle hx, keepsForm_next, hx, implies_true, true_and]
  intros
  split
  · exact keepsForm_tileFault (State.afterRuns_wf _ _ _ _ _ hx) _ _ _ _
  · next t ht =>
    split
    · exact (keepsForm_next _).2 hx
    · next u hu => simp [State.listPages_wf hu (State.checkRuns_wf ht hx)]

theorem keepsForm_tstore (h : Memory.wf s.mem) (d a : TReg) (b : GReg) : keepsForm (execTstore d a b s) := by
  refine keepsForm_issueU h (fun x hx => ?_) _ _
  simp only [keepsForm_ite, keepsForm_handle hx, keepsForm_next, hx, implies_true, true_and]
  intros
  split
  · exact keepsForm_tileFault (State.afterRuns_wf _ _ _ _ _ hx) _ _ _ _
  · next t ht =>
    split
    · exact (keepsForm_next _).2 hx
    · next u hu => simp [State.listPages_wf hu (State.checkRuns_wf ht hx)]

theorem keepsForm_accIssue (h : Memory.wf s.mem) (mn : String) (os : List Operand) (tile : Option Nat) (fn d a : Nat) :
    keepsForm (accIssue mn os tile fn d a s) :=
  keepsForm_issueU h (fun x hx => by split <;> simp [hx]) mn os

theorem keepsForm_aadd (h : Memory.wf s.mem) (d a : AReg) : keepsForm (execAadd d a s) := by
  refine keepsForm_issueU h (fun x hx => ?_) _ _
  dsimp only
  split
  · exact (keepsForm_next _).2 hx
  · split <;> simp [hx]

theorem keepsForm_epilogue (h : Memory.wf s.mem) (mn : String) (clr : Bool) (d : TReg) (a : AReg) (b : GReg) :
    keepsForm (epilogue mn clr d a b s) := by
  refine keepsForm_issueU h (fun x hx => ?_) mn _
  simp only [keepsForm_ite, keepsForm_handle hx, keepsForm_raise hx, keepsForm_next, hx, implies_true, true_and]
  intros
  split <;> simp [hx]

@[simp] theorem State.finishTload_mem (s : State) (core : Nat) (planed : Bool) (planes base fmt smode k rows : Nat) (runs : Runs) :
    (s.finishTload core planed planes base fmt smode k rows runs).mem = s.mem := by
  cases planed <;> simp [State.finishTload]

@[simp] theorem State.endTile_mem (s : State) (core slot : Nat) (o : PendOp) : (s.endTile core slot o).mem = s.mem := by
  unfold State.endTile
  split <;> simp

theorem keepsForm_tileOpCompletion (h : Memory.wf s.mem) (core slot op : Nat) : keepsForm (execTileOpCompletion core slot op s) := by
  refine keepsForm_withOp (fun k o => ?_) _
  split
  · simp
  · dsimp only
    split
    · simp [h]
    · simp [State.writeRuns_wf, h]
    · simp [h]
    · simp [h]
    · split <;> simp [h, State.foldl_mem]
    · simp

/-! ### Completions of lane accesses (06 R146-R153) -/

@[simp] theorem State.yieldTurn_mem (s : State) (core slot split : Nat) : (s.yieldTurn core slot split).mem = s.mem := by
  simp [State.yieldTurn]

theorem State.vote_wf (h : Memory.wf s.mem) (core slot : Nat) (k : Pack) (sp : Split) (act fail : Mask) (polls : Bool) :
    Memory.wf (s.vote core slot k sp act fail polls).mem := by
  unfold State.vote
  dsimp only
  split
  · exact h
  · split
    · simpa using h
    · split
      · exact h
      · next ht => exact addKids_wf _ (State.takeEntries_wf h ht) _ _

theorem State.settle_wf (h : Memory.wf s.mem) (core slot : Nat) (o : PendOp) : Memory.wf (s.settle core slot o).mem := by
  unfold State.settle
  split
  · exact h
  · split
    · exact h
    · split
      · exact h
      · exact State.vote_wf h _ _ _ _ _ _ _

theorem keepsForm_loadCompletion (h : Memory.wf s.mem) (core slot op : Nat) (lanes : Mask) (age : Nat) :
    keepsForm (execLoadCompletion core slot op lanes age s) := by
  refine keepsForm_withOp (fun k o => ?_) _
  split
  · simp [State.settle_wf, h]
  · simp

theorem State.storePart_wf (h : Memory.wf s.mem) (core : Nat) (k : Pack) (o : PendOp) (l : LaneAcc) :
    Memory.wf (s.storePart core k o l).mem := by
  unfold State.storePart
  split
  · exact h
  · split
    · exact State.devWrite_wf h _ _ _ _ _ _ _
    · exact State.engineWrite_wf h _ _ _ _ _ _ _
  · exact h

theorem keepsForm_storeCompletion (h : Memory.wf s.mem) (core slot op : Nat) (lanes : Mask) :
    keepsForm (execStoreCompletion core slot op lanes s) := by
  refine keepsForm_withOp (fun k o => ?_) _
  dsimp only
  have hparts := State.foldl_wf (fun s l hs => State.storePart_wf hs core k o l) (o.picked lanes) h
  split <;> simp [hparts]

theorem State.performAtomics_wf (core fn : Nat) (dst : Option Nat) (o : PendOp) (ls : List LaneAcc) {s : State} (h : Memory.wf s.mem)
    (k : Pack) (p : PendOp) : Memory.wf (s.performAtomics core fn dst o ls k p).1.mem := by
  induction ls generalizing s k p with
  | nil => exact h
  | cons l ls ih => exact ih (State.devWrite_wf h _ _ _ _ _ _ _) _ _

theorem keepsForm_atomicCompletion (h : Memory.wf s.mem) (core slot op : Nat) (lanes : Mask) :
    keepsForm (execAtomicCompletion core slot op lanes s) := by
  refine keepsForm_withOp (fun k o => ?_) _
  split
  · split
    · simp [State.settle_wf, State.performAtomics_wf, h]
    · simp
  · simp

/-! ### Deterministic atomics and their flush (06 R157-R161) -/

theorem keepsForm_adetIssue (h : Memory.wf s.mem) (mn : String) (fn : Nat) (g : PReg) (d a : VReg) : keepsForm (adetIssue mn fn g d a s) := by
  refine keepsForm_issue h (fun x act hx => ?_) mn g _
  dsimp only
  generalize x.laneReqs act a 0 _ _ = reqs
  generalize (if (decide (fn = 17) || decide (fn = 18)) = true then Use.atomic else Use.store) = use
  have hcheck (size align : Nat) := State.checkAll_wf x.f.core x.k.ctx .lane size align use reqs hx
  split
  · exact (keepsForm_next _).2 hx
  · split
    · exact (keepsForm_done _ _).2 hx
    · split
      · exact keepsForm_memTrap (hcheck _ _) _ _ _ _ _ _
      · split
        · exact (keepsForm_next _).2 hx
        · split
          · split
            · exact keepsForm_raise (hcheck _ _) _ _ _
            · split
              · exact keepsForm_raise (hcheck _ _) _ _ _
              · exact (keepsForm_done _ _).2 (State.contributeAll_wf (hcheck _ _) _ _ _)
          · split
            · exact keepsForm_raise (hcheck _ _) _ _ _
            · exact (keepsForm_done _ _).2 (hcheck _ _)

theorem keepsForm_aflush (h : Memory.wf s.mem) (n : BitVec 1) : keepsForm (execAflush n s) :=
  keepsForm_issueU h (fun x hx => by simp [hx]) _ _

@[simp] theorem State.releaseGroup_mem (s : State) (g : Group) (f : Pack → Pack) : (s.releaseGroup g f).mem = s.mem := by
  simp [State.releaseGroup, State.foldl_mem]

theorem State.applyEntry_wf (h : Memory.wf s.mem) (d : Drained) : Memory.wf (s.applyEntry d).mem := by
  unfold State.applyEntry
  dsimp only
  split
  · exact State.devWrite_wf h _ _ _ _ _ _ _
  · exact State.devWrite_wf h _ _ _ _ _ _ _
  · refine State.devWrite_wf ?_ _ _ _ _ _ _ _
    split
    · split
      · next x hx => exact State.devWrite_wf (State.access_wf hx h) _ _ _ _ _ _ _
      · exact State.afterAccess_wf h _ _ _ _ _ _ _ _
    · exact h

theorem State.flushGroup_wf (h : Memory.wf s.mem) (t : Tag) (g : Group) (flags : Bool) : Memory.wf (s.flushGroup t g flags).mem := by
  unfold State.flushGroup
  dsimp only
  rw [State.foldl_mem fun s p => by simp, State.modGroup_mem]
  exact State.foldl_wf (fun s a hs => State.devWrite_wf hs _ _ _ _ _ _ _) _ (State.foldl_wf (fun s d hs => State.applyEntry_wf hs d) _ h)

theorem keepsForm_aflushFlush (h : Memory.wf s.mem) (queue index group : Nat) : keepsForm (execAflushFlush queue index group s) := by
  unfold execAflushFlush
  dsimp only
  split
  · exact keepsForm_refused _
  · split <;> simp [State.flushGroup_wf h]

/-! ### Banks and FIFOs (06 R170, R171) -/

theorem keepsForm_bankcfg (h : Memory.wf s.mem) (mn : String) (m : BankMode) (a : GReg) : keepsForm (bankcfg mn m a s) :=
  keepsForm_issueU h (fun x hx => by simp [hx]) mn _

theorem State.handleAtStall_wf (h : Memory.wf s.mem) (core slot split : Nat) (joint : Bool) (info : Nat) :
    Memory.wf (s.handleAtStall core slot split joint info).mem := by
  unfold State.handleAtStall
  split
  · next x hx =>
    split
    · next ht => exact keepsForm_raiseRec (State.stalled_wf hx h) _ _ ht
    · exact h
  · simpa using h

theorem State.cutFifos_wf (h : Memory.wf s.mem) (core : Nat) (bs : List Nat) : Memory.wf (s.cutFifos core bs).mem :=
  State.foldl_wf (fun _ _ hs => State.foldl_wf (fun _ _ hs => State.handleAtStall_wf hs _ _ _ _ _) _ hs) _ h

@[simp] theorem State.voidPromises_mem (s : State) (core : Nat) : (s.voidPromises core).mem = s.mem := rfl

theorem keepsForm_bankSwitchCompletion (h : Memory.wf s.mem) (core : Nat) : keepsForm (execBankSwitchCompletion core s) := by
  unfold execBankSwitchCompletion
  dsimp only
  split
  · exact keepsForm_refused _
  · split
    · exact keepsForm_refused _
    · have hcut := State.cutFifos_wf h core
      split
      · next hx => simp [State.stalled_wf hx (hcut _), hcut]
      · simp [hcut]

theorem Iss.fpush_wf (h : Memory.wf x.s.mem) (act : Mask) (b a : Nat) : ∀ o ∈ x.fpush act b a, keepsForm o := by
  unfold Iss.fpush
  dsimp only
  split <;> simp [h]

theorem Iss.fpop_wf (h : Memory.wf x.s.mem) (act : Mask) (d b : Nat) : ∀ o ∈ x.fpop act d b, keepsForm o := by
  unfold Iss.fpop
  dsimp only
  split <;> simp [h]

/-- An instruction that goes on where it can, and else stalls. -/
theorem keepsForm_getD {o : Option Out} {d : Out} (ho : ∀ u ∈ o, keepsForm u) (hd : keepsForm d) : keepsForm (o.getD d) := by
  cases o with
  | none => exact hd
  | some u => exact ho u rfl

theorem keepsForm_fpush (h : Memory.wf s.mem) (g : PReg) (k : Bank) (a : VReg) : keepsForm (execFpush g k a s) :=
  keepsForm_issue h (fun x act hx => by simp [hx, keepsForm_getD (Iss.fpush_wf hx _ _ _)]) _ _ _

theorem keepsForm_fpop (h : Memory.wf s.mem) (g : PReg) (d : VReg) (k : Bank) : keepsForm (execFpop g d k s) :=
  keepsForm_issue h (fun x act hx => by simp [hx, keepsForm_getD (Iss.fpop_wf hx _ _ _)]) _ _ _

theorem keepsForm_fcount (h : Memory.wf s.mem) (d : GReg) (k : Bank) : keepsForm (execFcount d k s) :=
  keepsForm_issueU h (fun x hx => by simp [hx]) _ _

theorem keepsForm_fifoUnblock (h : Memory.wf s.mem) (core slot split : Nat) : keepsForm (execFifoUnblock core slot split s) := by
  refine keepsForm_onStall h (fun x st hx => ?_) _
  split
  · exact Iss.fpush_wf hx _ _ _
  · exact Iss.fpop_wf hx _ _ _
  · simp

end

end Sys2Proof.Machine

/-!
The form of device memory under the module's status, its planes and time (18 R375-R384, 19 R402-R408), errors and failures (20 R417-R424), and
what acts on a split as a whole (08 R208-R235) to its exit (04 R114).
-/

namespace Sys2Proof.Machine

section
variable {s : State} {x : Iss}

/-! ### Planes and time (19 R402-R408, 18 R377, R379) -/

@[simp] theorem State.modPort_mem (s : State) (k : Nat) (f : Port → Port) : (s.modPort k f).mem = s.mem := rfl

@[simp] theorem State.setPlane_mem (s : State) (j : Nat) (p : Plane) : (s.setPlane j p).mem = s.mem := rfl

@[simp] theorem State.resumeTurns_mem (s : State) : s.resumeTurns.mem = s.mem := rfl

theorem State.sendChunk_mem {n : Nat} {t : State} (ht : s.sendChunk n = some t) : t.mem = s.mem := by
  unfold State.sendChunk at ht
  split at ht
  · cases ht
  · dsimp only at ht
    split at ht
    · cases ht
    · cases ht
      rfl

theorem State.landChunk_mem {n chunk : Nat} {t : State} (ht : s.landChunk n chunk = some t) : t.mem = s.mem := by
  unfold State.landChunk at ht
  split at ht
  · cases ht
  · dsimp only at ht
    split at ht
    · cases ht
    · cases ht
      rfl

@[simp] theorem State.slewRegion_mem (s : State) (ns r : Nat) : (s.slewRegion ns r).mem = s.mem := rfl

@[simp] theorem State.ageQueues_mem (s : State) (ns : Nat) : (s.ageQueues ns).mem = s.mem := rfl

@[simp] theorem State.elapse_mem (s : State) (ns : Nat) : (s.elapse ns).mem = s.mem := by
  refine Eq.trans (b := (s.ageQueues ns).mem) ?_ rfl
  exact State.foldl_mem (fun s r => s.slewRegion_mem ns r) _ _

@[simp] theorem State.writeStep_mem (s : State) (v : DWord) : (s.writeStep v).mem = s.mem := by
  simp [State.writeStep]

theorem keepsForm_timeExchange (h : Memory.wf s.mem) (link t1 t2 t3 t4 : Nat) : keepsForm (execTimeExchange link t1 t2 t3 t4 s) := by
  unfold execTimeExchange
  dsimp only
  split
  · exact keepsForm_refused _
  · split
    · exact (keepsForm_next _).2 h
    · exact keepsForm_refused _

theorem keepsForm_timeStepWrite (h : Memory.wf s.mem) (complex : Nat) (value : DWord) : keepsForm (execTimeStepWrite complex value s) := by
  simp [execTimeStepWrite, h]

/-! ### Status and chip failure (18 R383, R384, 20 R417) -/

@[simp] theorem State.announce_mem (s old : State) : (s.announce old).mem = s.mem := by
  simp [State.announce]

@[simp] theorem State.settWrite_mem (s : State) : s.settWrite.mem = s.mem := rfl

@[simp] theorem State.settChange_mem (s : State) : s.settChange.mem = s.mem := by
  simp [State.settChange]

@[simp] theorem State.requestReplacement_mem (s : State) : s.requestReplacement.mem = s.mem := by
  simp [State.requestReplacement]

@[simp] theorem State.chipFail_mem (s : State) (cause : Nat) : (s.chipFail cause).mem = s.mem := by
  simp [State.chipFail, State.foldl_mem fun s k => s.modPort_mem k _]

theorem keepsForm_chipFailure (h : Memory.wf s.mem) (cause : Nat) : keepsForm (execChipFailure cause s) := by
  simp [execChipFailure, h]

/-! ### Uncorrectable errors and lost units (20 R421-R424) -/

theorem State.eccJoint_wf (h : Memory.wf s.mem) (e : ErrorReport) (joint seq where_ : Nat) : Memory.wf (s.eccJoint e joint seq where_).mem :=
  State.foldl_wf (fun _ _ hs => State.endTask_wf hs _ _ _) _ (State.foldl_wf (fun s _ hs => by simpa using hs) _ h)

theorem State.eccEnd_wf (h : Memory.wf s.mem) (e : ErrorReport) (core slot where_ : Nat) : Memory.wf (s.eccEnd e core slot where_).mem := by
  have hreport (split : Option Nat) : Memory.wf (s.reportError e split).1.mem := by simpa using h
  unfold State.eccEnd
  split
  · exact hreport _
  · dsimp only
    split
    · exact State.eccJoint_wf (hreport _) _ _ _ _
    · exact State.takeTrap_wf (hreport _) _ _ _ _ _

@[simp] theorem State.retire_mem (s : State) (u : DefectUnit) : (s.retire u).mem = s.mem := by
  simp [State.retire, State.foldl_mem fun s a => s.leaveL2_mem _ (CacheLine.line a)]

theorem keepsForm_hardwareError (h : Memory.wf s.mem) (e : ErrorReport) : keepsForm (execHardwareError e s) := by
  have hretire (u : Option DefectUnit) {t : State} (ht : Memory.wf t.mem) : Memory.wf (u.elim t t.retire).mem := by
    cases u <;> simpa using ht
  have hlost : Memory.wf ((ErrorReport.lost (s.completed e)).elim (if (s.completed e).replaced = true then s.requestReplacement else s)
      (if (s.completed e).replaced = true then s.requestReplacement else s).retire).mem := hretire _ (by simp [h])
  unfold execHardwareError
  dsimp only
  split
  · exact keepsForm_refused _
  · split
    · simp [h]
    · split
      · exact (keepsForm_next _).2 (State.eccEnd_wf hlost _ _ _ _)
      · simp [hlost]
      · simp [hlost]

@[simp] theorem State.failPack_mem (s : State) (core slot : Nat) (k : Pack) : (s.failPack core slot k).mem = s.mem := by
  simp [State.failPack]

theorem State.failPacks_wf (h : Memory.wf s.mem) (core : Nat) : Memory.wf (s.failPacks core).mem :=
  State.foldl_wf (fun _ _ hs => State.endTask_wf hs _ _ _) _ (State.foldl_wf (fun s p hs => (s.failPack_mem core p.1 p.2).symm ▸ hs) _ h)

@[simp] theorem State.rebind_mem (s : State) (core : Nat) : (s.rebind core).mem = s.mem := by
  unfold State.rebind
  dsimp only
  split
  · simp
  · split <;> simp

theorem keepsForm_coreFailure (h : Memory.wf s.mem) (core : Nat) : keepsForm (execCoreFailure core s) := by
  simp [execCoreFailure, State.failPacks_wf h]

/-! ### System registers, traps and returns (08 R209, R227-R235) -/

theorem keepsForm_shfl (h : Memory.wf s.mem) (mn : String) (m : Shfl) (g : PReg) (d a : VReg) (v : PReg) :
    keepsForm (shfl mn m g d a v s) := keepsForm_issue h (fun _ _ hx => (keepsForm_done _ _).2 hx) mn g _

theorem keepsForm_shfli (h : Memory.wf s.mem) (mn : String) (m : Shfl) (g : PReg) (d a : VReg) (n : BitVec 5) :
    keepsForm (shfli mn m g d a n s) := keepsForm_issue h (fun _ _ hx => (keepsForm_done _ _).2 hx) mn g _

theorem keepsForm_rdsr (h : Memory.wf s.mem) (d : GReg) (n : BitVec 12) : keepsForm (execRdsr d n s) := by
  refine keepsForm_issueU h (fun x hx => ?_) _ _
  split
  · exact (keepsForm_next _).2 hx
  · split <;> simp [hx]

theorem keepsForm_wrsr (h : Memory.wf s.mem) (d : GReg) (n : BitVec 12) : keepsForm (execWrsr d n s) := by
  refine keepsForm_issueU h (fun x hx => ?_) _ _
  split
  · exact (keepsForm_next _).2 hx
  · split <;> simp [hx]

theorem keepsForm_trap (h : Memory.wf s.mem) (i : BitVec 8) : keepsForm (execTrap i s) :=
  keepsForm_issueU h (fun _ hx => keepsForm_raise (x := Iss.commit _) hx _ _ _) _ _

theorem keepsForm_brk (h : Memory.wf s.mem) (i : BitVec 8) : keepsForm (execBrk i s) :=
  keepsForm_issueU h (fun _ hx => keepsForm_raise (x := Iss.commit _) hx _ _ _) _ _

@[simp] theorem keepsForm_sync (h : Memory.wf x.s.mem) (reason : Nat) : keepsForm (x.sync reason) := keepsForm_raise h _ _ _

@[simp] theorem keepsForm_leave (pc : Word) : keepsForm (x.leave pc) ↔ Memory.wf x.s.mem := keepsForm_next _

theorem keepsForm_hretRetry (h : Memory.wf s.mem) : keepsForm (execHretRetry s) :=
  keepsForm_issueU h (fun x hx => by simp [hx]) _ _

theorem keepsForm_hretSkip (h : Memory.wf s.mem) : keepsForm (execHretSkip s) :=
  keepsForm_issueU h (fun x hx => by simp [hx]) _ _

theorem keepsForm_hretEnd (h : Memory.wf s.mem) : keepsForm (execHretEnd s) :=
  keepsForm_issueU h (fun x hx => by simp [hx, State.endTask_wf]) _ _

/-! ### The group barrier and exit (08 R210-R212, 04 R114) -/

theorem keepsForm_bar (h : Memory.wf s.mem) : keepsForm (execBar s) :=
  keepsForm_issueU h (fun x hx => by simp [hx]) _ _

theorem keepsForm_barCompletion (h : Memory.wf s.mem) (queue index group : Nat) : keepsForm (execBarCompletion queue index group s) := by
  unfold execBarCompletion
  split <;> simp [h]

theorem State.syncAtBarrier_wf (h : Memory.wf s.mem) (core slot i : Nat) : Memory.wf (s.syncAtBarrier core slot i).mem := by
  unfold State.syncAtBarrier
  split
  · exact h
  · split
    · exact h
    · dsimp only
      split
      · exact h
      · split
        · exact h
        · exact State.takeTrap_wf h _ _ _ _ _

theorem keepsForm_barrierDeadlock (h : Memory.wf s.mem) (queue index group : Nat) :
    keepsForm (execBarrierDeadlock queue index group s) := by
  unfold execBarrierDeadlock
  split
  · exact keepsForm_refused _
  · next g _ =>
    have hsync := State.foldl_wf (fun s (p : Nat × Nat × Pack) hs =>
      State.foldl_wf (fun s (e : Nat × Split) hs => State.syncAtBarrier_wf hs p.1 p.2.1 e.1) p.2.2.splits hs) (s.groupPacks g) h
    split
    · simpa [State.foldl_mem] using hsync
    · exact keepsForm_refused _

theorem keepsForm_yield (h : Memory.wf s.mem) : keepsForm (execYield s) :=
  keepsForm_issueU h (fun x hx => by simp [hx]) _ _

theorem State.lastFlush_wf (h : Memory.wf s.mem) (t : Tag) (x : Nat) : Memory.wf (s.lastFlush t x).mem := by
  unfold State.lastFlush
  split
  · exact h
  · split
    · exact State.flushGroup_wf h _ _ _
    · exact h

theorem keepsForm_exit (h : Memory.wf s.mem) (g : PReg) : keepsForm (execExit g s) :=
  keepsForm_issue h (fun x act hx => by simp [hx]) _ g _

end

end Sys2Proof.Machine

/-!
The form of device memory under phase barriers (08 R213), work for packs (08 R216-R222, 15 R319, R330), the Trail (08 R223-R226, 20 R409-R418),
optics (19 R399-R407) and engine queues (06 R172, R173).
-/

namespace Sys2Proof.Machine

section
variable {s : State} {x : Iss}

/-! ### Phase barriers (08 R213, R214) -/

theorem keepsForm_phaseIssue (h : Memory.wf s.mem) (mn : String) (mbz : Nat) (d : TReg) (a : GReg) {run : Iss → Nat → Word → Out}
    (hrun : ∀ x at_ w, Memory.wf x.s.mem → keepsForm (run x at_ w)) : keepsForm (phaseIssue mn mbz d a s run) :=
  keepsForm_issueU h (fun x hx => by simp [hx, hrun]) mn _

@[simp] theorem Iss.putPhase_mem (x : Iss) (at_ : Nat) (p : Phase) : (x.putPhase at_ p).s.mem = x.s.mem := rfl

theorem keepsForm_pbinit (h : Memory.wf s.mem) (d : TReg) (a : GReg) : keepsForm (execPbinit d a s) :=
  keepsForm_phaseIssue h _ _ _ _ fun x at_ w hx => by simp [hx]

theorem keepsForm_pbarrive (h : Memory.wf s.mem) (d : TReg) (a : GReg) : keepsForm (execPbarrive d a s) :=
  keepsForm_phaseIssue h _ _ _ _ fun x at_ w hx => by simp [hx]

theorem keepsForm_pbwait (h : Memory.wf s.mem) (d : TReg) (a : GReg) : keepsForm (execPbwait d a s) :=
  keepsForm_phaseIssue h _ _ _ _ fun x at_ w hx => by simp [hx]

theorem keepsForm_pbwaitPass (h : Memory.wf s.mem) (core slot split : Nat) : keepsForm (execPbwaitPass core slot split s) := by
  refine keepsForm_onStall h (fun x st hx => ?_) _
  split
  · dsimp only
    split <;> simp [hx]
  · simp

/-! ### Fetch-work and device-side launch (08 R216, R217) -/

theorem keepsForm_fetchw (h : Memory.wf s.mem) (d : TReg) (a : GReg) : keepsForm (execFetchw d a s) :=
  keepsForm_issueU h (fun x hx => by simp [hx]) _ _

@[simp] theorem State.answerFetch_mem (s : State) (core slot : Nat) (k : Pack) (f : Fetch) (l : Launch) :
    (s.answerFetch core slot k f l).mem = s.mem := by
  unfold State.answerFetch
  dsimp only
  split
  · simp
  · split <;> simp

theorem keepsForm_fetchwAnswer (h : Memory.wf s.mem) (core slot : Nat) : keepsForm (execFetchwAnswer core slot s) := by
  unfold execFetchwAnswer
  split
  · exact keepsForm_refused _
  · split <;> simp [h]

theorem State.enqueue_wf (h : Memory.wf s.mem) (ctx : Nat) (bs : List Byte) : Memory.wf (s.enqueue ctx bs).1.mem := by
  unfold State.enqueue
  dsimp only
  split
  · exact h
  · split
    · exact h
    · exact State.outsideWrite_wf (State.outsideWrite_wf (by simpa using h) _ _) _ _

theorem keepsForm_launch (h : Memory.wf s.mem) (d a : GReg) : keepsForm (execLaunch d a s) := by
  refine keepsForm_issueU h (fun x hx => ?_) _ _
  dsimp only
  split
  · exact (keepsForm_next _).2 hx
  · split
    · exact keepsForm_accessFault (State.afterAccess_wf hx _ _ _ _ _ _ _ _) _ _ _
    · next t ht =>
      split
      · exact (keepsForm_next _).2 hx
      · exact (keepsForm_doneG _ _).2 (State.enqueue_wf (State.access_wf ht hx) _ _)

/-! ### Queue tokens (08 R219) -/

theorem Iss.tokenAt_wf {a : Nat} {t : Xlated} (ht : x.tokenAt a = some (.ok t)) (h : Memory.wf x.s.mem) : Memory.wf t.s.mem := by
  unfold Iss.tokenAt at ht
  dsimp only at ht
  split at ht
  · cases ht
  · split at ht
    · cases ht
    · next hx =>
      split at ht
      · cases ht
      · cases ht
        exact State.access_wf hx h

theorem keepsForm_tokenTrap (h : Memory.wf x.s.mem) (a : Nat) (e : XErr) : keepsForm (x.tokenTrap a e) :=
  keepsForm_accessFault (State.afterAccess_wf h _ _ _ _ _ _ _ _) _ _ _

theorem keepsForm_qtokRel (h : Memory.wf s.mem) (d a : GReg) : keepsForm (execQtokRel d a s) := by
  refine keepsForm_issueU h (fun x hx => ?_) _ _
  dsimp only
  split
  · exact (keepsForm_next _).2 hx
  · exact keepsForm_tokenTrap hx _ _
  · next t ht =>
    split
    · exact (keepsForm_next _).2 hx
    · exact (keepsForm_done _ _).2 (State.devWrite_wf (Iss.tokenAt_wf ht hx) _ _ _ _ _ _ _)

theorem Iss.readToken_wf (h : Memory.wf x.s.mem) (d a : Nat) (ok : Nat → Nat → Bool) : ∀ o ∈ x.readToken d a ok, keepsForm o := by
  unfold Iss.readToken
  split
  · simp [h]
  · simp [keepsForm_tokenTrap h]
  · next t ht =>
    dsimp only
    split <;> simp [Iss.tokenAt_wf ht h]

theorem keepsForm_qtokAcq (h : Memory.wf s.mem) (d a : GReg) : keepsForm (execQtokAcq d a s) :=
  keepsForm_issueU h (fun _ hx => keepsForm_getD (Iss.readToken_wf hx _ _ _) ((keepsForm_stallAt _).2 hx)) _ _

theorem keepsForm_qtokTry (h : Memory.wf s.mem) (d a : GReg) : keepsForm (execQtokTry d a s) :=
  keepsForm_issueU h (fun _ hx => keepsForm_getD (Iss.readToken_wf hx _ _ _) ((keepsForm_next _).2 hx)) _ _

theorem keepsForm_qtokAcqPass (h : Memory.wf s.mem) (core slot split : Nat) : keepsForm (execQtokAcqPass core slot split s) := by
  refine keepsForm_onStall h (fun x st hx => ?_) _
  split
  · split
    · simp
    · exact Iss.readToken_wf hx _ _ _
  · simp

/-! ### Work lists (08 R220-R222) -/

@[simp] theorem Iss.setLists_mem (x : Iss) (l : Table WorkList) (quiet : Bool) : (x.setLists l quiet).s.mem = x.s.mem := rfl

theorem pushItem_wf (h : Memory.wf x.s.mem) (list : Nat) (item : Word) : Memory.wf (pushItem x list item).s.mem := by
  unfold pushItem
  split
  · exact h
  · exact State.outsideWrite_wf h _ _

theorem Iss.wlpush_wf (h : Memory.wf x.s.mem) (act : Mask) (d a : Nat) : ∀ o ∈ x.wlpush act d a, keepsForm o := by
  have hpush (item : Nat → Nat × Word) (l : List Nat) :
      ∀ {y : Iss}, Memory.wf y.s.mem → Memory.wf (l.foldl (fun y i => pushItem y (item i).1 (item i).2) y).s.mem := by
    induction l with
    | nil => exact id
    | cons i l ih => exact fun hy => ih (pushItem_wf hy _ _)
  unfold Iss.wlpush
  split
  · simpa using hpush (fun i => ((x.k.readV x.sp d i).toNat, x.k.readV x.sp a i)) (lanesOf act) h
  · simp

theorem keepsForm_wlpush (h : Memory.wf s.mem) (g : PReg) (d a : VReg) : keepsForm (execWlpush g d a s) := by
  refine keepsForm_issue h (fun x act hx => ?_) _ _ _
  simp only [keepsForm_ite, keepsForm_done, Iss.commit_mem, keepsForm_raise hx, hx, implies_true, true_and]
  intros
  split
  · exact keepsForm_raise hx _ _ _
  · exact keepsForm_getD (Iss.wlpush_wf hx _ _ _) (by simpa using hx)

theorem Iss.wlpop_wf (h : Memory.wf x.s.mem) (act : Mask) (d a : Nat) (p : PReg) : ∀ o ∈ x.wlpop act d a p, keepsForm o := by
  unfold Iss.wlpop
  dsimp only
  split
  · simp
  · split <;> simp [h]

theorem keepsForm_wlpop (h : Memory.wf s.mem) (g : PReg) (d : VReg) (a : GReg) (p : PReg) : keepsForm (execWlpop g d a p s) :=
  keepsForm_issue h (fun x act hx => by simp [hx, keepsForm_getD (Iss.wlpop_wf hx _ _ _ _)]) _ _ _

theorem keepsForm_wldone (h : Memory.wf s.mem) (g : PReg) : keepsForm (execWldone g s) :=
  keepsForm_issue h (fun x act hx => by simp [hx]) _ _ _

theorem keepsForm_wlpushResume (h : Memory.wf s.mem) (core slot split : Nat) : keepsForm (execWlpushResume core slot split s) := by
  refine keepsForm_onStall h (fun x st hx => ?_) _
  split
  · exact Iss.wlpush_wf hx _ _ _
  · simp

theorem keepsForm_wlpopResume (h : Memory.wf s.mem) (core slot split : Nat) : keepsForm (execWlpopResume core slot split s) := by
  refine keepsForm_onStall h (fun x st hx => ?_) _
  split
  · exact Iss.wlpop_wf hx _ _ _ _
  · simp

/-! ### The Trail (08 R223-R226, 20 R409-R418) -/

@[simp] theorem State.modSeq_mem (s : State) (ctx seq : Nat) (f : Seq → Seq) : (s.modSeq ctx seq f).mem = s.mem := rfl

@[simp] theorem State.sentTo_mem (s : State) (peer : Nat) : (s.sentTo peer).mem = s.mem := rfl

@[simp] theorem State.heardFrom_mem (s : State) (peer : Nat) : (s.heardFrom peer).mem = s.mem := rfl

@[simp] theorem State.ship_mem (s : State) (ctx seq : Nat) : (s.ship ctx seq).mem = s.mem := by
  unfold State.ship
  split <;> simp

@[simp] theorem State.appendRecord_mem (s : State) (ctx seq kind ord pos : Nat) (payload : DWord) :
    (s.appendRecord ctx seq kind ord pos payload).mem = s.mem := by
  simp [State.appendRecord]

@[simp] theorem State.settleLeft_mem (s : State) (ctx seq : Nat) (waiting : List Nat) : (s.settleLeft ctx seq waiting).mem = s.mem := by
  induction waiting generalizing s with
  | nil => simp [State.settleLeft]
  | cons p ps ih => simp [State.settleLeft, ih]

@[simp] theorem State.closeSeq_mem (s : State) (ctx seq : Nat) : (s.closeSeq ctx seq).mem = s.mem := by
  unfold State.closeSeq
  split
  · rfl
  · simp [State.foldl_mem fun s p => s.appendRecord_mem ctx seq 7 0 p 0#64]

theorem State.acceptRecord_mem {who : Asker} {head : List Byte} {ctx seq kind : Nat} {q : Seq} {payload : DWord} {r : State × DWord}
    (hr : s.acceptRecord who head ctx seq kind q payload = some r) : r.1.mem = s.mem := by
  unfold State.acceptRecord at hr
  dsimp only at hr
  split at hr
  · cases hr
  · cases hr
    have hevents (l : List (Nat × Nat × Nat × DWord × DWord)) (t : State) :
        (l.foldl (fun s e => s.journalEvent head ctx e.1 e.2.1 e.2.2.1 seq q.next 0 e.2.2.2.1 e.2.2.2.2) t).mem = t.mem :=
      State.foldl_mem (fun s e => s.journalEvent_mem _ _ _ _ _ _ _ _ _ _) l t
    simp [hevents]

@[simp] theorem Iss.ask_mem (x : Iss) : x.ask.s.mem = x.s.mem := rfl

@[simp] theorem Iss.unask_mem (x : Iss) : x.unask.s.mem = x.s.mem := rfl

theorem keepsForm_raiseJrnl (h : Memory.wf x.s.mem) (a : Nat) (e : Nat × Nat) : keepsForm (x.raiseJrnl a e) :=
  keepsForm_raise (x := x.unask) h _ _ _

theorem Iss.jrec_wf (h : Memory.wf x.s.mem) (kind d a : Nat) : ∀ o ∈ x.jrec kind d a, keepsForm o := by
  unfold Iss.jrec
  split
  · simp [keepsForm_raiseJrnl h]
  · intro o ho
    obtain ⟨r, hr, rfl⟩ := Option.map_eq_some_iff.1 ho
    simp [State.acceptRecord_mem hr, h]

theorem keepsForm_jrecIssue (h : Memory.wf s.mem) (mn : String) (kind : Nat) (d a : GReg) : keepsForm (jrecIssue mn kind d a s) :=
  keepsForm_issueU h (fun x hx => by simp [hx, keepsForm_getD (Iss.jrec_wf hx _ _ _)]) mn _

theorem keepsForm_jrecAcceptance (h : Memory.wf s.mem) (core slot split : Nat) : keepsForm (execJrecAcceptance core slot split s) := by
  refine keepsForm_onStall h (fun x st hx => ?_) _
  split
  · exact Iss.jrec_wf hx _ _ _
  · simp

theorem keepsForm_jemit (h : Memory.wf s.mem) (a : GReg) : keepsForm (execJemit a s) := by
  refine keepsForm_issueU h (fun x hx => ?_) _ _
  dsimp only
  split
  · exact keepsForm_raiseJrnl hx _ _
  · simp [hx]

theorem keepsForm_jmark (h : Memory.wf s.mem) (a : GReg) : keepsForm (execJmark a s) := by
  refine keepsForm_issueU h (fun x hx => ?_) _ _
  dsimp only
  split
  · exact keepsForm_raiseJrnl hx _ _
  · simp [hx]

theorem keepsForm_jtrunc (h : Memory.wf s.mem) (a : GReg) : keepsForm (execJtrunc a s) := by
  refine keepsForm_issueU h (fun x hx => ?_) _ _
  dsimp only
  split
  · exact keepsForm_raiseJrnl hx _ _
  · simp [hx]

theorem keepsForm_emissionRelease (h : Memory.wf s.mem) (ctx seq : Nat) : keepsForm (execEmissionRelease ctx seq s) := by
  unfold execEmissionRelease
  split
  · split <;> simp [h]
  · exact keepsForm_refused _

theorem keepsForm_journalAckReceive (h : Memory.wf s.mem) (peer ctx seq ackidx : Nat) :
    keepsForm (execJournalAckReceive peer ctx seq ackidx s) := by
  unfold execJournalAckReceive
  dsimp only
  split <;> simp [h]

theorem keepsForm_journalRecordReceive (h : Memory.wf s.mem) (source : Nat) (bytes : List Byte) :
    keepsForm (execJournalRecordReceive source bytes s) := by
  unfold execJournalRecordReceive
  dsimp only
  split
  · simp [h]
  · split
    · simp [h]
    · next j _ =>
      have hstored : Memory.wf (s.mem.writeList (j.base + j.used) bytes) := Memory.wf_writeList _ _ h
      simp [hstored]

theorem keepsForm_heartbeatSend (h : Memory.wf s.mem) (peer : Nat) : keepsForm (execHeartbeatSend peer s) := by
  unfold execHeartbeatSend
  split <;> simp [h]

theorem keepsForm_heartbeatReceive (h : Memory.wf s.mem) (peer : Nat) : keepsForm (execHeartbeatReceive peer s) := (keepsForm_next _).2 h

theorem keepsForm_peerSilent (h : Memory.wf s.mem) (peer : Nat) : keepsForm (execPeerSilent peer s) := by
  unfold execPeerSilent
  dsimp only
  split
  · exact keepsForm_refused _
  · split
    · exact keepsForm_refused _
    · rw [keepsForm_next]
      exact State.foldl_wf (fun _ _ hs => by simpa using hs) _ (State.foldl_wf (fun _ _ hs => by simpa using hs) _ h)

/-! ### Lasers, ports and planes (19 R399-R405) -/

theorem keepsForm_portMove (h : Memory.wf s.mem) (mn : String) (k : Nat) (from_ : Port → Bool) (f : Port → Port) :
    keepsForm (portMove mn s k from_ f) := by
  simp [portMove, h]

@[simp] theorem State.setLaser_mem (s : State) (m : Nat) (l : Laser) : (s.setLaser m l).mem = s.mem := rfl

@[simp] theorem State.loseSett_mem (s : State) (m : Nat) (l : Laser) (fault : Bool) : (s.loseSett m l fault).mem = s.mem := by
  simp [State.loseSett]

@[simp] theorem State.loseIo_mem (s : State) (m : Nat) (l : Laser) : (s.loseIo m l).mem = s.mem := by
  simp [State.loseIo, State.foldl_mem fun s k => s.modPort_mem k _]

@[simp] theorem State.writeLaser_mem (s : State) (m value : Nat) : (s.writeLaser m value).mem = s.mem := by
  simp [State.writeLaser]

theorem keepsForm_laserOnWrite (h : Memory.wf s.mem) (complex laser value : Nat) : keepsForm (execLaserOnWrite complex laser value s) := by
  simp [execLaserOnWrite, h]

theorem keepsForm_laserModuleLoss (h : Memory.wf s.mem) (laser : Nat) (fault : Bool) : keepsForm (execLaserModuleLoss laser fault s) := by
  simp [execLaserModuleLoss, h]

theorem keepsForm_ioLaserLoss (h : Memory.wf s.mem) (laser : Nat) (fault : Bool) : keepsForm (execIoLaserLoss laser fault s) := by
  simp [execIoLaserLoss, h]

theorem keepsForm_laserModuleInsert (h : Memory.wf s.mem) (laser : Nat) : keepsForm (execLaserModuleInsert laser s) := by
  simp [execLaserModuleInsert, h]

theorem keepsForm_laserWarmDone (h : Memory.wf s.mem) (laser : Nat) : keepsForm (execLaserWarmDone laser s) := by
  simp [execLaserWarmDone, h, State.foldl_mem fun s k => s.modPort_mem k _]

theorem keepsForm_portWrite (h : Memory.wf s.mem) (mn : String) (complex k : Nat) (f : Port → Port) :
    keepsForm (portWrite mn s complex k f) := by
  simp [portWrite, h]

@[simp] theorem State.drainPlane_mem (s : State) (j : Nat) : (s.drainPlane j).mem = s.mem := by
  simp [State.drainPlane]

@[simp] theorem State.resumePlane_mem (s : State) (j : Nat) : (s.resumePlane j).mem = s.mem := by
  simp [State.resumePlane, State.foldl_mem fun s k => s.modPort_mem k _]

theorem keepsForm_planeDrain (h : Memory.wf s.mem) (complex plane : Nat) : keepsForm (execPlaneDrain complex plane s) := by
  simp [execPlaneDrain, h]

theorem keepsForm_planeResume (h : Memory.wf s.mem) (complex plane : Nat) : keepsForm (execPlaneResume complex plane s) := by
  simp [execPlaneResume, h]

theorem keepsForm_planeDark (h : Memory.wf s.mem) (plane : Nat) : keepsForm (execPlaneDark plane s) := by
  simp [execPlaneDark, h, State.foldl_mem fun s k => s.modPort_mem k _]

theorem keepsForm_planeRetrainDone (h : Memory.wf s.mem) (plane : Nat) : keepsForm (execPlaneRetrainDone plane s) := by
  simp [execPlaneRetrainDone, h]

/-! ### Collectives at the receiver (19 R404, R407) -/

theorem State.addToken_wf (h : Memory.wf s.mem) (pa n : Nat) : Memory.wf (s.addToken pa n).mem := by
  unfold State.addToken
  split
  · exact h
  · exact State.outsideWrite_wf h _ _

theorem keepsForm_collectiveChunkArrival (h : Memory.wf s.mem) (resv chunk : Nat) (ethernet : Bool) (bytes : List Byte) :
    keepsForm (execCollectiveChunkArrival resv chunk ethernet bytes s) := by
  unfold execCollectiveChunkArrival
  split
  · exact keepsForm_refused _
  · next r _ =>
    dsimp only
    split
    · exact keepsForm_refused _
    · split
      · exact (keepsForm_next _).2 h
      · exact (keepsForm_next _).2 (State.addToken_wf (State.outsideWrite_wf h _ _) _ _)

theorem keepsForm_resumeMarker (h : Memory.wf s.mem) (resv plane : Nat) : keepsForm (execResumeMarker resv plane s) := by
  unfold execResumeMarker
  split <;> simp [h]

/-! ### Engine queues (06 R172, R173) -/

@[simp] theorem keepsForm_qreg (h : Memory.wf x.s.mem) (act : Mask) (q case : Nat) : keepsForm (x.qreg act q case) := keepsForm_raise h _ _ _

theorem keepsForm_qunbind (h : Memory.wf s.mem) (d : QReg) : keepsForm (execQunbind d s) :=
  keepsForm_issueU h (fun x hx => by simp [hx]) _ _

theorem keepsForm_qbindPeer (h : Memory.wf s.mem) (d : QReg) (a : GReg) : keepsForm (execQbindPeer d a s) :=
  keepsForm_issueU h (fun x hx => by simp [hx]) _ _

theorem keepsForm_qbindGather (h : Memory.wf s.mem) (d : QReg) (a : GReg) : keepsForm (execQbindGather d a s) :=
  keepsForm_issueU h (fun x hx => by simp [hx]) _ _

theorem Iss.pushPeer_wf (h : Memory.wf x.s.mem) (act : Mask) (slot q a : Nat) : ∀ o ∈ x.pushPeer act slot q a, keepsForm o := by
  unfold Iss.pushPeer
  dsimp only
  split
  · simp [h]
  · split
    · split <;> simp [h]
    · split
      · simp
      · split <;> simp [h]

theorem Iss.pushStream_wf (h : Memory.wf x.s.mem) (act : Mask) (base : DWord) (q : Nat) (a : VReg) :
    ∀ o ∈ x.pushStream act base q a, keepsForm o := by
  unfold Iss.pushStream
  dsimp only
  have hcheck := State.checkAll_wf x.f.core x.k.ctx .gather 4 4 .load (x.gatherReqs act base a fun _ => 0) h
  split
  · split <;> simp [hcheck]
  · intro o ho
    cases ho
    exact keepsForm_memTrap hcheck _ _ _ _ _ _

theorem Iss.qpush_wf (h : Memory.wf x.s.mem) (act : Mask) (q : Nat) (a : VReg) : ∀ o ∈ x.qpush act q a, keepsForm o := by
  unfold Iss.qpush
  split
  · simp
  · split
    · simp [h]
    · exact Iss.pushPeer_wf h _ _ _ _
    · exact Iss.pushStream_wf h _ _ _ _

theorem Iss.qpop_wf (h : Memory.wf x.s.mem) (act : Mask) (d q : Nat) : ∀ o ∈ x.qpop act d q, keepsForm o := by
  unfold Iss.qpop
  dsimp only
  split
  · simp
  · split
    · simp [h]
    · simp [h]
    · split <;> simp [h]
    · simp

theorem keepsForm_qpush (h : Memory.wf s.mem) (g : PReg) (d : QReg) (a : VReg) : keepsForm (execQpush g d a s) :=
  keepsForm_issue h (fun x act hx => by simp [hx, keepsForm_getD (Iss.qpush_wf hx _ _ _)]) _ _ _

theorem keepsForm_qpop (h : Memory.wf s.mem) (g : PReg) (d : VReg) (a : QReg) : keepsForm (execQpop g d a s) :=
  keepsForm_issue h (fun x act hx => by simp [hx, keepsForm_getD (Iss.qpop_wf hx _ _ _)]) _ _ _

theorem keepsForm_queueUnblock (h : Memory.wf s.mem) (core slot split : Nat) : keepsForm (execQueueUnblock core slot split s) := by
  refine keepsForm_onStall h (fun x st hx => ?_) _
  split
  · exact Iss.qpush_wf hx _ _ _
  · exact Iss.qpop_wf hx _ _ _
  · simp

theorem keepsForm_gatherStreamResult (h : Memory.wf s.mem) (core slot op : Nat) : keepsForm (execGatherStreamResult core slot op s) := by
  refine keepsForm_withOp (fun k o => ?_) _
  split
  · dsimp only
    split <;> simp [h]
  · simp

end

end Sys2Proof.Machine

/-!
The form of device memory under joint and cooperative multiplies (07 R189-R197).
-/

namespace Sys2Proof.Machine

section
variable {s : State} {x : Iss}

theorem State.failJoint_wf (h : Memory.wf s.mem) (ps : List Part) (f : JointFail) : Memory.wf (s.failJoint ps f).mem := by
  refine State.foldl_wf (fun s p hs => ?_) ps h
  split
  · exact hs
  · next x hx =>
    split
    · next ht => exact keepsForm_raiseRec (State.stalled_wf hx hs) _ _ ht
    · exact hs

@[simp] theorem State.leaveLatch_mem (s : State) (core : Nat) (f : Arrival → Bool) : (s.leaveLatch core f).mem = s.mem := rfl

theorem State.retirePart_wf (h : Memory.wf s.mem) (p : Part) (kind : OpKind) (stamp till : Nat) :
    Memory.wf (s.retirePart p kind stamp till).mem := by
  unfold State.retirePart
  split
  · exact h
  · next hx => simpa using State.stalled_wf hx h

@[simp] theorem keepsForm_handleOwn (h : Memory.wf x.s.mem) (reason tile rank : Nat) : keepsForm (x.handleOwn reason tile rank) :=
  keepsForm_raise h _ _ _

theorem keepsForm_mmj (h : Memory.wf s.mem) (d : AReg) (a : VReg) (b : TReg) : keepsForm (execMmj d a b s) := by
  refine keepsForm_issueU h (fun x hx => ?_) _ _
  simp only [keepsForm_ite, keepsForm_handleOwn hx, keepsForm_next, hx, implies_true, true_and]
  intros
  split
  · exact keepsForm_handleOwn hx _ _ _
  · split
    · exact (keepsForm_stallAt _).2 hx
    · exact keepsForm_raiseRec (State.foldl_wf (fun s r hs => State.handleAtStall_wf hs _ _ _ _ _) _ (by simpa using hx)) _

theorem State.orphanJoints_wf (h : Memory.wf s.mem) (core slot : Nat) : Memory.wf (s.orphanJoints core slot).mem :=
  State.foldl_wf (fun _ _ hs => State.handleAtStall_wf hs _ _ _ _ _) _ h

theorem State.finishJoint_wf (h : Memory.wf s.mem) (ps : List Part) (hits : List Hit) (nx : Bool) (n : Nat)
    (kind : Part → Word → Nat → OpKind) : Memory.wf (s.finishJoint ps hits nx n kind).mem := by
  unfold State.finishJoint
  dsimp only
  split
  · exact State.failJoint_wf h _ _
  · exact State.foldl_wf (fun _ p hs => State.retirePart_wf hs p _ _ _) ps h

theorem keepsForm_jointFormation (h : Memory.wf s.mem) (core slot : Nat) : keepsForm (execJointFormation core slot s) := by
  unfold execJointFormation
  dsimp only
  split
  · exact keepsForm_refused _
  · split
    · exact keepsForm_refused _
    · split
      · exact keepsForm_refused _
      · split
        · exact (keepsForm_next _).2 (State.failJoint_wf (s := s.leaveLatch core _) h _ _)
        · exact (keepsForm_next _).2 (State.finishJoint_wf (s := s.leaveLatch core _) h _ _ _ _ _)

theorem keepsForm_mmc (h : Memory.wf s.mem) (d : GReg) (a : VReg) (b : TReg) : keepsForm (execMmc d a b s) := by
  refine keepsForm_issueU h (fun x hx => ?_) _ _
  simp only [keepsForm_ite, keepsForm_handleOwn hx, keepsForm_next, keepsForm_stallAt, hx, State.setCore_mem, implies_true, and_true]

theorem keepsForm_coopRendezvous (h : Memory.wf s.mem) (ctx coopid : Nat) : keepsForm (execCoopRendezvous ctx coopid s) := by
  unfold execCoopRendezvous
  dsimp only
  split
  · exact keepsForm_refused _
  · split
    · exact keepsForm_refused _
    · have hleft (ps : List Part) := State.foldl_wf (fun s (p : Part) hs => (s.leaveLatch_mem p.x.f.core fun a => a == p.a).symm ▸ hs) ps h
      split
      · exact (keepsForm_next _).2 (State.failJoint_wf (hleft _) _ _)
      · exact (keepsForm_next _).2 (State.finishJoint_wf (hleft _) _ _ _ _ _)

end

end Sys2Proof.Machine

/-!
The form of device memory under the distributor (15 R316-R343), broadcasts and the Sett (10 R266-R269, 19 R395-R398).
-/

namespace Sys2Proof.Machine

section
variable {s : State} {x : Iss}

/-! ### Records and contexts (15 R316-R320) -/

theorem State.finish_wf (h : Memory.wf s.mem) (t : Tag) (status detail : Nat) : Memory.wf (s.finish t status detail).mem :=
  State.complete_wf (by simpa using h) t status detail

@[simp] theorem State.take_mem (s : State) (l : Launch) : (s.take l).mem = s.mem := rfl

theorem keepsForm_launchRecordConsume (h : Memory.wf s.mem) (queue : Nat) : keepsForm (execLaunchRecordConsume queue s) := by
  unfold execLaunchRecordConsume
  dsimp only
  split
  · exact keepsForm_refused _
  · rw [keepsForm_next]
    have hread (a c : Nat) (bs ds : List Byte) : Memory.wf ((s.outsideWrite a bs).outsideWrite c ds).mem :=
      State.outsideWrite_wf (State.outsideWrite_wf h a bs) c ds
    split
    · refine State.finish_wf ?_ _ _ _
      rw [State.take_mem, State.setWin_mem]
      exact hread _ _ _ _
    · rw [State.take_mem, State.setWin_mem]
      exact hread _ _ _ _

theorem keepsForm_create (h : Memory.wf s.mem) (queue : Nat) : keepsForm (execCreate queue s) := by
  unfold execCreate
  split
  · exact keepsForm_refused _
  · dsimp only
    split
    · exact keepsForm_refused _
    · split
      · simp [State.finish_wf h]
      · simp [State.finish_wf, h]

/-! ### Residency and dispatch (15 R324, 16 R353) -/

theorem State.walkAll_wf (c : Context) (own : Bool) (ps : List (Nat × Bool)) {s : State} (h : Memory.wf s.mem) :
    Memory.wf (s.walkAll c own ps).1.mem := by
  induction ps generalizing s with
  | nil => exact h
  | cons p ps ih =>
    unfold State.walkAll
    dsimp only
    split <;> exact ih (State.leaseWalkPage_wf h _ _ _ _)

@[simp] theorem State.failPages_mem (s : State) (l : Launch) (fs : List (DWord × WalkInfo)) : (s.failPages l fs).mem = s.mem := by
  simp [State.failPages, State.foldl_mem fun s (f : DWord × WalkInfo) => s.residencyEvent_mem l.ctx l.tag.queue f.1 f.2]

theorem State.makeResident_wf {l : Launch} {c : Context} {t : State} (ht : s.makeResident l c = some t) (h : Memory.wf s.mem) :
    Memory.wf t.mem := by
  have hhead := State.walkAll_wf c true l.recordPages h
  unfold State.makeResident at ht
  dsimp only at ht
  split at ht
  · cases ht
  · split at ht
    · obtain rfl := Option.some.inj ht
      rwa [State.failPages_mem]
    · split at ht
      · cases ht
      · have hpages (ps : List (Nat × Bool)) := State.walkAll_wf c true ps hhead
        split at ht
        · obtain rfl := Option.some.inj ht
          rw [State.failPages_mem]
          exact hpages _
        · obtain rfl := Option.some.inj ht
          rw [State.modLaunch_mem]
          exact hpages _

theorem State.dispatch_wf (h : Memory.wf s.mem) (c : Context) (l : Launch) : Memory.wf (s.dispatch c l).mem := by
  unfold State.dispatch
  dsimp only
  split
  · exact State.finish_wf h _ _ _
  · exact h

theorem keepsForm_launchDispatch (h : Memory.wf s.mem) (queue : Nat) : keepsForm (execLaunchDispatch queue s) := by
  unfold execLaunchDispatch
  split
  · exact keepsForm_refused _
  · next l _ =>
    split
    · exact keepsForm_refused _
    · split
      · simp [State.finish_wf h]
      · simp [State.finish_wf h]
      · next c _ _ =>
        split
        · cases ht : s.makeResident l c with
          | none => exact keepsForm_refused _
          | some t => exact (keepsForm_next _).2 (State.makeResident_wf ht h)
        · simp [State.dispatch_wf h]

theorem keepsForm_leaseWalk (h : Memory.wf s.mem) (queue index : Nat) : keepsForm (execLeaseWalk queue index s) := by
  unfold execLeaseWalk
  split
  · exact keepsForm_refused _
  · split
    · exact keepsForm_refused _
    · split
      · exact keepsForm_refused _
      · dsimp only
        split <;> simp [State.walkAll_wf _ _ _ h]

theorem keepsForm_queueAging (h : Memory.wf s.mem) (queue : Nat) : keepsForm (execQueueAging queue s) := by
  unfold execQueueAging
  split <;> simp [h]

/-! ### Placement (15 R326-R328) -/

theorem State.placePack_mem {l : Launch} {x lpack core : Nat} {sh : Nat × Nat × Nat × Nat} {r : State × Nat}
    (hr : s.placePack l x lpack core sh = some r) : r.1.mem = s.mem := by
  unfold State.placePack at hr
  split at hr
  · cases hr
  · split at hr
    · cases hr
    · cases hr
      rfl

theorem State.placePacks_mem {l : Launch} {x : Nat} (ps : List ((Nat × Nat × Nat × Nat) × Nat)) {s : State} {n : Nat}
    {r : State × List (Nat × Nat)} (hr : s.placePacks l x ps n = some r) : r.1.mem = s.mem := by
  induction ps generalizing s n r with
  | nil => cases hr; rfl
  | cons p ps ih =>
    unfold State.placePacks at hr
    split at hr
    · cases hr
    · split at hr
      · cases hr
      · next hp =>
        obtain ⟨u, hu, rfl⟩ := Option.map_eq_some_iff.1 hr
        exact (ih hu).trans (State.placePack_mem hp)

theorem State.placeGroup_mem {l : Launch} {x : Nat} {cores : List Nat} {t : State} (ht : s.placeGroup l x cores = some t) : t.mem = s.mem := by
  unfold State.placeGroup at ht
  split at ht
  · cases ht
  · split at ht
    · cases ht
    · next hp =>
      cases ht
      exact State.placePacks_mem _ hp

theorem State.placeAll_mem {l : Launch} (xs : List Nat) {s : State} {cores : List Nat} {t : State} (ht : s.placeAll l xs cores = some t) :
    t.mem = s.mem := by
  induction xs generalizing s cores with
  | nil => cases ht; rfl
  | cons x xs ih =>
    unfold State.placeAll at ht
    split at ht
    · cases ht
    · next hg => exact (ih ht).trans (State.placeGroup_mem hg)

@[simp] theorem State.servedQueue_mem (s : State) (q : Nat) : (s.servedQueue q).mem = s.mem := rfl

@[simp] theorem State.wakeResvs_mem (s : State) (ctx : Nat) : (s.wakeResvs ctx).mem = s.mem := rfl

theorem keepsForm_groupPlacement (h : Memory.wf s.mem) (queue index group cluster : Nat) (positions : List Nat) :
    keepsForm (execGroupPlacement queue index group cluster positions s) := by
  unfold execGroupPlacement
  split
  · exact keepsForm_refused _
  · dsimp only
    split
    · exact keepsForm_refused _
    · next t ht =>
      have hmem : t.mem = s.mem := by
        split at ht
        · split at ht
          · split at ht
            · exact State.placeAll_mem _ ht
            · cases ht
          · exact State.placeGroup_mem ht
        · cases ht
      simp [hmem, h]

/-! ### Ends of packs, groups and launches (15 R325, R329, R343) -/

@[simp] theorem State.releasePack_mem (s : State) (core slot : Nat) : (s.releasePack core slot).mem = s.mem := by
  unfold State.releasePack
  split <;> simp

theorem State.groupEnd_wf (h : Memory.wf s.mem) (t : Tag) (x : Nat) : Memory.wf (s.groupEnd t x).mem := by
  unfold State.groupEnd
  split
  · exact h
  · split
    · exact h
    · refine State.foldl_wf (fun s p hs => by simpa using hs) _ ?_
      split
      · exact h
      · simpa using State.lastFlush_wf h t x

@[simp] theorem State.settleRevokes_mem (s : State) : s.settleRevokes.mem = s.mem := by
  refine State.foldl_mem (fun s complex => ?_) _ _
  split
  · dsimp only
    split <;> rfl
  · rfl

@[simp] theorem State.reap_mem (s : State) (core slot : Nat) (k : Pack) : (s.reap core slot k).mem = s.mem := by
  simp [State.reap]

theorem keepsForm_packEnd (h : Memory.wf s.mem) (core slot : Nat) : keepsForm (execPackEnd core slot s) := by
  unfold execPackEnd
  split
  · exact keepsForm_refused _
  · split
    · exact keepsForm_refused _
    · rw [keepsForm_next, State.settleRevokes_mem]
      refine State.groupEnd_wf ?_ _ _
      rw [State.modLaunch_mem]
      exact State.orphanJoints_wf ((s.reap_mem core slot _).symm ▸ h) _ _

theorem keepsForm_launchCompletion (h : Memory.wf s.mem) (queue index : Nat) : keepsForm (execLaunchCompletion queue index s) := by
  unfold execLaunchCompletion
  split
  · exact keepsForm_refused _
  · next l _ =>
    have hfinish : Memory.wf ((s.reveal fun _ w => w.tag == l.tag).finish l.tag 1 0).mem :=
      State.finish_wf ((s.reveal_mem _).symm ▸ h) l.tag 1 0
    dsimp only
    split
    · exact keepsForm_refused _
    · rw [keepsForm_next]
      split
      · exact hfinish
      · exact State.outsideWrite_wf hfinish _ _

/-! ### Reader filters and payloads (10 R267-R269) -/

@[simp] theorem State.setWinMasked_mem (s : State) (off : Nat) (mask : Nat → Byte) (size v : Nat) :
    (s.setWinMasked off mask size v).mem = s.mem := by
  induction size generalizing s off v with
  | zero => rfl
  | succ n ih => exact ih _ _ _

@[simp] theorem State.writeFilter_mem (s : State) (off size v : Nat) : (s.writeFilter off size v).mem = s.mem := by
  simp [State.writeFilter]

theorem keepsForm_filterEntryWrite (h : Memory.wf s.mem) (cluster mgroup byte size value : Nat) :
    keepsForm (execFilterEntryWrite cluster mgroup byte size value s) := by
  simp [execFilterEntryWrite, h]

@[simp] theorem State.modPromise_mem (s : State) (c b : Nat) (f : Nat → Nat) : (s.modPromise c b f).mem = s.mem := rfl

theorem keepsForm_bstEmission (h : Memory.wf s.mem) (core slot op : Nat) : keepsForm (execBstEmission core slot op s) := by
  refine keepsForm_withOp (fun k o => ?_) _
  split
  · dsimp only
    split
    · simp
    · split
      · simp
      · simp [h, State.foldl_mem fun s (e : Nat × Nat) => s.modPromise_mem e.1 e.2 _]
  · simp

@[simp] theorem State.intoFifo_mem (s : State) (p : Payload) (cluster b c : Nat) : (s.intoFifo p cluster b c).mem = s.mem := by
  simp [State.intoFifo]

theorem State.intoRing_wf (h : Memory.wf s.mem) (p : Payload) (cluster : Nat) (f : Filter) : Memory.wf (s.intoRing p cluster f).mem :=
  State.unitWrite_wf (State.foldl_wf (fun _ _ hs => State.unitWrite_wf hs _ _ _) _ h) _ _ _

theorem State.applyAt_wf (h : Memory.wf s.mem) (p : Payload) (cluster : Nat) : Memory.wf (s.applyAt p cluster).mem := by
  unfold State.applyAt
  dsimp only
  have hlapse (l : List (Nat × Nat)) := State.foldl_wf (fun s (e : Nat × Nat) hs => (s.modPromise_mem e.1 e.2 (· - 1)).symm ▸ hs) l h
  split
  · exact State.foldl_wf (fun s c hs => (s.intoFifo_mem p cluster _ c).symm ▸ hs) _ (hlapse _)
  · split
    · exact State.intoRing_wf (hlapse _) _ _ _
    · exact hlapse _

theorem keepsForm_broadcastDelivery (h : Memory.wf s.mem) (bus : Nat) : keepsForm (execBroadcastDelivery bus s) := by
  unfold execBroadcastDelivery
  split
  · exact keepsForm_refused _
  · next p _ =>
    rw [keepsForm_next, State.settleRevokes_mem]
    have happly (l : List Nat) := State.foldl_wf (fun s c hs => State.applyAt_wf hs p c) l h
    exact State.groupEnd_wf (by exact happly _) _ _

/-! ### Frames and rings of the Sett (19 R395-R398) -/

@[simp] theorem State.reslot_mem (s : State) (p : Payload) (n : Nat) : (s.reslot p n).mem = s.mem := by
  unfold State.reslot
  split <;> rfl

@[simp] theorem State.veto_mem (s : State) (f bus participant : Nat) : (s.veto f bus participant).mem = s.mem :=
  State.foldl_mem (fun s p => s.reslot_mem p _) _ _

theorem keepsForm_settFrame (h : Memory.wf s.mem) (bad : List SlotReport) : keepsForm (execSettFrame bad s) := by
  unfold execSettFrame
  split
  · exact keepsForm_refused _
  · exact (keepsForm_next _).2 (State.foldl_wf (fun s r hs => by simpa using hs) _ h)

@[simp] theorem State.takeSpare_mem (s : State) (bus wg group : Nat) : (s.takeSpare bus wg group).mem = s.mem := rfl

@[simp] theorem State.setLink_mem (s : State) (participant bus : Nat) (l : Link) : (s.setLink participant bus l).mem = s.mem := rfl

@[simp] theorem State.reemitSlot_mem (s : State) (bus n : Nat) (ps : List Payload) : (s.reemitSlot bus n ps).1.mem = s.mem := by
  unfold State.reemitSlot
  split
  · rfl
  · split <;> rfl

@[simp] theorem State.holdNew_mem (s : State) (bus : Nat) (ps : List Payload) : (s.holdNew bus ps).mem = s.mem :=
  State.foldl_mem (fun s _ => s.setLink_mem _ _ _) _ _

theorem State.reemitSlots_mem (bus : Nat) (ps : Nat → List Payload) (fs : List Nat) (r : State × Nat) :
    (fs.foldl (fun r f => r.1.reemitSlot bus r.2 (ps f)) r).1.mem = r.1.mem := by
  induction fs generalizing r with
  | nil => rfl
  | cons f fs ih => exact (ih _).trans (State.reemitSlot_mem _ _ _ _)

@[simp] theorem State.reemit_mem (s : State) (bus : Nat) (ps : List Payload) (n : Nat) : (s.reemit bus ps n).mem = s.mem := by
  simp [State.reemit, State.reemitSlots_mem bus fun f => ps.filter fun p => p.frame == f]

@[simp] theorem State.checkRelays_mem (s : State) (bus : Nat) : (s.checkRelays bus).mem = s.mem := by
  simp [State.checkRelays]

@[simp] theorem State.enterRelay_mem (s : State) (bus participant : Nat) : (s.enterRelay bus participant).mem = s.mem := by
  simp [State.enterRelay]

@[simp] theorem State.deafTo_mem (s : State) (bus wg group : Nat) : (s.deafTo bus wg group).mem = s.mem :=
  State.foldl_mem (fun s p => s.enterRelay_mem bus p) _ _

@[simp] theorem State.moveRing_mem (s : State) (bus participant group : Nat) : (s.moveRing bus participant group).mem = s.mem := by
  simp [State.moveRing]

theorem keepsForm_ringFailure (h : Memory.wf s.mem) (bus participant : Nat) : keepsForm (execRingFailure bus participant s) := by
  unfold execRingFailure
  dsimp only
  split
  · exact keepsForm_refused _
  · split <;> simp [h]

theorem keepsForm_receiveRingFailure (h : Memory.wf s.mem) (bus participant : Nat) : keepsForm (execReceiveRingFailure bus participant s) := by
  simp [execReceiveRingFailure, h]

end

end Sys2Proof.Machine

/-!
The form of device memory under bring-up and management (18 R380-R389), and under pre-emption with its save records (15 R333-R342).
-/

namespace Sys2Proof.Machine

section
variable {s : State}

/-! ### Reset and bring-up (18 R380-R389) -/

theorem keepsForm_powerOnReset (s : State) : keepsForm (execPowerOnReset s) := by
  rw [execPowerOnReset, keepsForm_next, State.announce_mem]
  rfl

theorem keepsForm_moduleReset (h : Memory.wf s.mem) : keepsForm (execModuleReset s) := by
  rw [execModuleReset, keepsForm_next, State.announce_mem]
  exact h

theorem keepsForm_selftestDone (h : Memory.wf s.mem) (failures : List DefectUnit) : keepsForm (execSelftestDone failures s) := by
  unfold execSelftestDone
  split
  · exact keepsForm_refused _
  · rw [keepsForm_next, State.announce_mem]
    exact State.foldl_wf (fun s u hs => (s.toCollectors_mem 2 _).symm ▸ hs) failures.zipIdx h

theorem keepsForm_seamtrainDone (h : Memory.wf s.mem) (extra failedLinks : List Nat) : keepsForm (execSeamtrainDone extra failedLinks s) := by
  unfold execSeamtrainDone
  split
  · exact keepsForm_refused _
  · refine (keepsForm_next _).2 (State.foldl_wf (fun s l hs => (s.reportError_mem _ none).symm ▸ hs) failedLinks ?_)
    rw [State.announce_mem]
    exact h

theorem keepsForm_mergeDone (h : Memory.wf s.mem) (fields : List Nat) (west east : Bool) : keepsForm (execMergeDone fields west east s) := by
  simp [execMergeDone, h]

@[simp] theorem State.bindCores_mem (s : State) (bad : List Nat) : (s.bindCores bad).mem = s.mem := rfl

@[simp] theorem State.assignGroups_mem (s : State) : s.assignGroups.mem = s.mem := by
  unfold State.assignGroups
  dsimp only

@[simp] theorem State.mapRelay_mem (s : State) (bus p : Nat) : (s.mapRelay bus p).mem = s.mem := by
  simp [State.mapRelay]

@[simp] theorem State.mapGroup_mem (s : State) (u : DefectUnit) : (s.mapGroup u).mem = s.mem := by
  unfold State.mapGroup
  dsimp only
  split
  · rfl
  · split <;> simp

@[simp] theorem State.mapReceive_mem (s : State) (u : DefectUnit) : (s.mapReceive u).mem = s.mem := by
  simp [State.mapReceive]

@[simp] theorem State.mapShort_mem (s : State) (u : DefectUnit) : (s.mapShort u).mem = s.mem := by
  simp [State.mapShort]

@[simp] theorem State.logUnmapped_mem (s : State) (mapped : List DefectUnit) : (s.logUnmapped mapped).mem = s.mem := by
  refine State.foldl_mem (fun s u => ?_) _ _
  split <;> rfl

theorem keepsForm_verifyDone (h : Memory.wf s.mem) (skewPs : Nat) : keepsForm (execVerifyDone skewPs s) := by
  unfold execVerifyDone
  split
  · exact keepsForm_refused _
  · rw [keepsForm_next, State.foldl_mem State.checkRelays_mem, State.announce_mem, State.logUnmapped_mem]
    dsimp only
    rw [State.settWrite_mem, State.foldl_mem State.mapShort_mem, State.foldl_mem State.mapReceive_mem, State.foldl_mem State.mapGroup_mem]
    exact h

@[simp] theorem State.startMap_mem (s : State) : s.startMap.mem = s.mem := rfl

@[simp] theorem State.endMap_mem (s : State) : s.endMap.mem = s.mem := by
  simp [State.endMap]

theorem keepsForm_mapInstall (h : Memory.wf s.mem) (complex : Nat) : keepsForm (execMapInstall complex s) := by
  simp [execMapInstall, h]

/-! ### Management (18 R382-R384) -/

theorem keepsForm_standbyPowerOn (h : Memory.wf s.mem) : keepsForm (execStandbyPowerOn s) := by
  simp [execStandbyPowerOn, h]

theorem keepsForm_mgmtQuery (h : Memory.wf s.mem) (sender ports : Nat) (datagram : List Byte) :
    keepsForm (execMgmtQuery sender ports datagram s) := by
  simp [execMgmtQuery, h]

theorem keepsForm_mgmtSubscribe (h : Memory.wf s.mem) (sender ports : Nat) (datagram : List Byte) :
    keepsForm (execMgmtSubscribe sender ports datagram s) := by
  simp [execMgmtSubscribe, h]

theorem keepsForm_mgmtBadDatagram (h : Memory.wf s.mem) (sender ports : Nat) (datagram : List Byte) :
    keepsForm (execMgmtBadDatagram sender ports datagram s) := by
  simp [execMgmtBadDatagram, h]

theorem keepsForm_mgmtStatusPeriodic (h : Memory.wf s.mem) : keepsForm (execMgmtStatusPeriodic s) := by
  simp [execMgmtStatusPeriodic, h]

/-! ### Pre-emption (15 R333-R336) -/

@[simp] theorem State.stopPacks_mem (s : State) (ps : List (Nat × Nat × Pack)) (stop : Bool) : (s.stopPacks ps stop).mem = s.mem :=
  State.foldl_mem (fun s (p : Nat × Nat × Pack) => s.modPack_mem p.1 p.2.1 _) ps s

@[simp] theorem State.drainGroup_mem (s : State) (t : Tag) (g : Group) (requester : Option Tag) :
    (s.drainGroup t g requester).mem = s.mem :=
  State.foldl_mem (fun s (p : Nat × Nat) => s.setCore_mem p.1 _) _ _

@[simp] theorem State.drainClosure_mem (s : State) (ps : List (Nat × Nat × Pack)) (requester : Option Tag) :
    (s.drainClosure ps requester).mem = s.mem := by
  refine (State.foldl_mem (fun s t => ?_) _ _).trans (s.stopPacks_mem ps false)
  cases s.group t.1 t.2 <;> simp

@[simp] theorem State.beginVictim_mem (s : State) (l : Launch) (g : Group) (v : Victim) (requester : Option Tag) :
    (s.beginVictim l g v requester).mem = s.mem := by
  cases v with
  | drain => exact s.drainGroup_mem _ _ _
  | flush => exact State.stopPacks_mem _ _ _
  | save => exact (State.stopPacks_mem _ _ _).trans (State.foldl_mem (fun s (t : Tag × Nat) => s.modGroup_mem t.1 t.2 _) _ _)

theorem keepsForm_preemption (h : Memory.wf s.mem) (queue : Nat) : keepsForm (execPreemption queue s) := by
  unfold execPreemption
  split
  · exact keepsForm_refused _
  · dsimp only
    split
    · exact keepsForm_refused _
    · split
      · exact keepsForm_refused _
      · refine (keepsForm_next _).2 (State.foldl_wf (fun s p hs => ?_) _ h)
        split
        · split
          · exact hs
          · exact (State.beginVictim_mem _ _ _ _ _).symm ▸ hs
        · exact hs

@[simp] theorem State.haltPack_mem (s : State) (core slot : Nat) : (s.haltPack core slot).mem = s.mem := by
  simp [State.haltPack]

@[simp] theorem State.flushVictim_mem (s : State) (t : Tag) (g : Group) : (s.flushVictim t g).mem = s.mem := by
  simp [State.flushVictim, State.foldl_mem fun s (p : Nat × Nat) => s.releasePack_mem p.1 p.2]

theorem keepsForm_victimStop (h : Memory.wf s.mem) (queue index group : Nat) : keepsForm (execVictimStop queue index group s) := by
  have hhalt (ps : List (Nat × Nat × Pack)) := State.foldl_wf (fun s (p : Nat × Nat × Pack) hs => (s.haltPack_mem p.1 p.2.1).symm ▸ hs) ps h
  unfold execVictimStop
  dsimp only
  split
  · split
    · simp [h, hhalt]
    · simp only [keepsForm_ite, keepsForm_next, keepsForm_refused, State.drainClosure_mem, State.beginVictim_mem, h, implies_true, true_and,
        and_true]
      intros
      exact State.foldl_wf (fun s t hs => (s.modGroup_mem t.1 t.2 _).symm ▸ hs) _ (hhalt _)
    · exact keepsForm_refused _
  · exact keepsForm_refused _

/-! ### Save and restore (15 R337-R342) -/

@[simp] theorem State.liftPack_mem (s : State) (p : Nat × Nat × Pack) : (s.liftPack p).mem = s.mem := by
  simp [State.liftPack]

@[simp] theorem State.sleepResvs_mem (s : State) (colls : List (Nat × Nat × Nat)) : (s.sleepResvs colls).mem = s.mem :=
  State.foldl_mem (fun _ _ => by rfl) colls s

@[simp] theorem State.lapse_mem (s : State) (t : Tag) : (s.lapse t).mem = s.mem := rfl

theorem keepsForm_closureSave (h : Memory.wf s.mem) (queue index group : Nat) : keepsForm (execClosureSave queue index group s) := by
  unfold execClosureSave
  dsimp only
  split
  · split
    · exact keepsForm_refused _
    · split
      · simp [h]
      · split
        · simp [h]
        · next a x _ =>
          rw [keepsForm_next, State.settleRevokes_mem, State.sleepResvs_mem]
          dsimp only
          refine State.foldl_wf (fun s g hs => by simpa using hs) _ (State.foldl_wf (fun s p hs => by simpa using hs) _ ?_)
          exact State.outsideWrite_wf (by simpa using h) _ _
  · exact keepsForm_refused _

@[simp] theorem State.restoreCore_mem (s : State) (ctx core : Nat) (b : Core) (bad : Bool) : (s.restoreCore ctx core b bad).mem = s.mem := by
  have hdicts (l : Table Pack) (t : State) : (l.foldl (fun s (p : Nat × Pack) =>
      match s.launch p.2.tag, s.context ctx with
      | some l, some x => s.setCore core ((s.core core).loadDict (s.readDict x l))
      | _, _ => s) t).mem = t.mem := by
    refine State.foldl_mem (fun s p => ?_) l t
    split <;> rfl
  exact (hdicts _ _).trans (by rw [State.voidPromises_mem, State.setCore_mem])

@[simp] theorem State.pinGroup_mem (s : State) (t : Tag) (x : Nat) : (s.pinGroup t x).mem = s.mem := by
  unfold State.pinGroup
  split
  · rfl
  · exact (State.foldl_mem (fun s a => by simp [State.pinWay_mem]) _ _).trans (s.modGroup_mem t x _)

theorem keepsForm_closureRestore (h : Memory.wf s.mem) (ctx save cluster : Nat) (positions : List Nat) :
    keepsForm (execClosureRestore ctx save cluster positions s) := by
  unfold execClosureRestore
  split
  · exact keepsForm_refused _
  · dsimp only
    split
    · exact keepsForm_refused _
    · rw [keepsForm_next, State.settleRevokes_mem]
      refine State.foldl_wf (fun s g hs => State.groupEnd_wf hs _ _) _ ?_
      rw [State.wakeResvs_mem]
      refine State.foldl_wf (fun s g hs => ?_) _ (State.foldl_wf (fun s p hs => (s.restoreCore_mem ctx p.2 _ _).symm ▸ hs) _ h)
      rw [State.pinGroup_mem]
      split <;> exact hs

theorem keepsForm_reservationExpiry (h : Memory.wf s.mem) (resv : Nat) : keepsForm (execReservationExpiry resv s) := by
  unfold execReservationExpiry
  split <;> simp [h]

end

end Sys2Proof.Machine

/-!
The form of device memory under the end of a context (15 R317, R343), islands (18 R374-R376), host complexes and their commands (16 R354-R364,
18 R388-R391, 19 R403, 20 R409-R418), and what outside agents reach (11 R290, 16 R345, R356).
-/

namespace Sys2Proof.Machine

section
variable {s : State}

/-! ### Contexts (15 R317, R332, R343) -/

theorem keepsForm_tableWalk (h : Memory.wf s.mem) (core : Nat) (va : DWord) : keepsForm (execTableWalk core va s) := by
  unfold execTableWalk
  split
  · exact keepsForm_refused _
  · simp [State.reach_wf h]

theorem keepsForm_quiescenceDeclared (h : Memory.wf s.mem) (ctx : Nat) : keepsForm (execQuiescenceDeclared ctx s) := by
  unfold execQuiescenceDeclared
  split <;> simp [h]

@[simp] theorem State.closeSeqs_mem (s : State) (ctx : Nat) : (s.closeSeqs ctx).mem = s.mem :=
  State.foldl_mem (fun s n => by simp) _ s

theorem State.endContext_wf (h : Memory.wf s.mem) (ctx : Nat) (t : Tag) : Memory.wf (s.endContext ctx t).mem := by
  unfold State.endContext
  rw [State.modContext_mem, State.closeSeqs_mem]
  exact State.foldl_wf (fun _ _ hs => State.endTask_wf hs _ _ _) _ h

@[simp] theorem State.zeroFilters_mem (s : State) (groups : Nat) : (s.zeroFilters groups).mem = s.mem :=
  State.foldl_mem (fun s g => State.foldl_mem (fun _ _ => by rfl) _ s) _ s

@[simp] theorem State.releaseContext_mem (s : State) (ctx : Nat) : (s.releaseContext ctx).mem = s.mem :=
  State.foldl_mem (fun s (p : Nat × Nat) => s.releasePack_mem p.1 p.2) _ s

theorem State.dropContext_wf (h : Memory.wf s.mem) (bs : List Byte) (c : Context) : Memory.wf (s.dropContext bs c).mem := by
  unfold State.dropContext
  dsimp only
  rw [State.zeroFilters_mem]
  refine State.foldl_wf (fun s a hs => by simpa using State.physZero_wf hs a 4096) _ ?_
  rw [State.unretain_mem]
  exact State.physZero_wf (by simpa using h) _ _

theorem keepsForm_destroy (h : Memory.wf s.mem) (queue : Nat) : keepsForm (execDestroy queue s) := by
  unfold execDestroy
  split
  · exact keepsForm_refused _
  · next l _ =>
    have hend := State.endContext_wf h l.ctx l.tag
    split
    · exact keepsForm_refused _
    · split
      · simp [State.finish_wf h]
      · simp [State.finish_wf h]
      · simp [State.finish_wf, State.dropContext_wf, h, hend]

/-! ### Islands (18 R374-R376) -/

@[simp] theorem State.setIsland_mem (s : State) (i : Nat) (x : Island) : (s.setIsland i x).mem = s.mem := rfl

@[simp] theorem State.writePoint_mem (s : State) (i point : Nat) : (s.writePoint i point).mem = s.mem := by
  simp [State.writePoint]

theorem keepsForm_islandPointWrite (h : Memory.wf s.mem) (complex island point : Nat) :
    keepsForm (execIslandPointWrite complex island point s) := by
  simp [execIslandPointWrite, h]

theorem keepsForm_islandPointChange (h : Memory.wf s.mem) (island : Nat) : keepsForm (execIslandPointChange island s) := by
  simp [execIslandPointChange, h]

theorem keepsForm_islandThrottle (h : Memory.wf s.mem) (island point temp : Nat) : keepsForm (execIslandThrottle island point temp s) := by
  simp [execIslandThrottle, h]

theorem keepsForm_islandThrottleEnd (h : Memory.wf s.mem) (island temp : Nat) : keepsForm (execIslandThrottleEnd island temp s) := by
  simp [execIslandThrottleEnd, h]

/-! ### Events, semaphores and reset of a complex (16 R359-R364) -/

theorem keepsForm_eventDelivery (h : Memory.wf s.mem) (ctx : Nat) : keepsForm (execEventDelivery ctx s) := by
  unfold execEventDelivery
  split
  · exact keepsForm_refused _
  · dsimp only
    split
    · exact keepsForm_refused _
    · rw [keepsForm_next, State.send_mem]
      exact State.outsideWrite_wf (State.outsideWrite_wf h _ _) _ _

@[simp] theorem State.writeSem_mem (s : State) (complex n value : Nat) : (s.writeSem complex n value).mem = s.mem := by
  simp [State.writeSem]

theorem keepsForm_semaphoreAcquire (h : Memory.wf s.mem) (complex n : Nat) : keepsForm (execSemaphoreAcquire complex n s) := by
  simp [execSemaphoreAcquire, h]

theorem keepsForm_semaphoreRelease (h : Memory.wf s.mem) (complex n : Nat) : keepsForm (execSemaphoreRelease complex n s) := by
  simp [execSemaphoreRelease, h]

@[simp] theorem State.safeState_mem (s : State) (n : Nat) : (s.safeState n).mem = s.mem := by
  simp [State.safeState, State.foldl_mem fun s i => s.setIsland_mem i _]

theorem keepsForm_hostComplexReset (h : Memory.wf s.mem) (complex : Nat) : keepsForm (execHostComplexReset complex s) := by
  unfold execHostComplexReset
  split
  · exact keepsForm_refused _
  · rw [keepsForm_next, State.setWin_mem]
    exact State.foldl_wf (fun s n hs => by simpa using hs) _ h

/-! ### Commands (16 R358) -/

/-- A command keeps the form where what it carries out does. -/
theorem keepsForm_command (h : Memory.wf s.mem) {run : State → Option State} (hrun : ∀ t, run s = some t → Memory.wf t.mem) (mn : String)
    (kind complex : Nat) : keepsForm (command mn kind complex s run) := by
  unfold command
  split
  · exact keepsForm_refused _
  · split
    · simp [h]
    · split
      · next t ht => exact (keepsForm_next _).2 (hrun t ht)
      · simp [h]

/-- A command that never waits keeps the form where what it carries out does. -/
theorem keepsForm_commandDone (h : Memory.wf s.mem) {run : State → State} (hrun : Memory.wf (run s).mem) (mn : String) (kind complex : Nat) :
    keepsForm (command mn kind complex s fun s => some (run s)) :=
  keepsForm_command h (fun _ ht => by obtain rfl := Option.some.inj ht; exact hrun) mn kind complex

theorem State.runResume_wf (h : Memory.wf s.mem) (c : Nat) : Memory.wf (s.runResume c).mem := by
  unfold State.runResume
  split
  · exact h
  · split
    · exact h
    · dsimp only
      split
      · exact h
      · rw [State.cmdDone_mem]
        exact State.endTask_wf (by simpa using h) _ _ _

@[simp] theorem State.runRetry_mem (s : State) (c : Nat) : (s.runRetry c).mem = s.mem := by
  simp [State.runRetry]

@[simp] theorem State.revokeGroups_mem (s : State) (c : Nat) : (s.revokeGroups c).mem = s.mem := by
  refine State.foldl_mem (fun s p => ?_) _ s
  split
  · simp
  · rfl

@[simp] theorem State.runRevoke_mem (s : State) (c : Nat) : (s.runRevoke c).mem = s.mem := by
  unfold State.runRevoke
  split
  · simp
  · split
    · simp
    · split <;> simp

@[simp] theorem State.runUnrevoke_mem (s : State) (c : Nat) : (s.runUnrevoke c).mem = s.mem := by
  unfold State.runUnrevoke
  split
  · simp
  · split <;> simp

theorem State.arm_wf (h : Memory.wf s.mem) (m : Migration) (map : Nat) : Memory.wf (s.arm m map).1.mem :=
  State.foldl_wf (fun _ _ hs => State.outsideWrite_wf hs _ _) _ h

theorem State.runMigrate_wf (h : Memory.wf s.mem) (c : Nat) : Memory.wf (s.runMigrate c).mem := by
  unfold State.runMigrate
  split
  · exact h
  · dsimp only
    generalize (if s.cmd c 24 1 = 0 then 4096 else if s.cmd c 24 1 = 1 then 65536 else 2 * 2 ^ 20) = size
    split
    · exact h
    · split
      · exact h
      · next x _ =>
        generalize (if canonical (BitVec.ofNat 64 (s.cmd c 8 8)) = true then s.walkFrom (s.cmd c 8 8) 5 x.table [] else .error .addr) = w
        cases w with
        | error e => exact h
        | ok l =>
          dsimp only
          split
          · exact h
          · split
            · exact h
            · exact State.arm_wf h _ _

theorem Bytes.copyRange_wf {m : Bytes} (h : Memory.wf m) (src dst n : Nat) : Memory.wf (m.copyRange src dst n) := by
  have hset (l : List (Nat × Byte)) : ∀ {m : Bytes}, Memory.wf m →
      Memory.wf (l.foldl (fun m e => Bytes.set m (dst + (e.1 - src)) e.2) m) := by
    induction l with
    | nil => exact id
    | cons e l ih => exact fun hm => ih (Memory.wf_set _ _ hm)
  exact hset _ (Memory.wf_clear dst (dst + n) h)

theorem State.copyPage_wf (h : Memory.wf s.mem) (src dst n : Nat) : Memory.wf (s.copyPage src dst n).mem := by
  refine Bytes.copyRange_wf ?_ src dst n
  rwa [State.foldl_mem fun s l => s.takeLine_mem none l]

theorem State.moveLeaf_wf (h : Memory.wf s.mem) (m : Migration) : Memory.wf (s.moveLeaf m).mem :=
  State.foldl_wf (fun _ _ hs => State.outsideWrite_wf hs _ _) _ h

theorem State.disarm_wf (h : Memory.wf s.mem) (m : Migration) : Memory.wf (s.disarm m).mem := by
  refine State.foldl_wf (fun s e hs => ?_) _ h
  dsimp only
  split
  · exact State.outsideWrite_wf hs _ _
  · exact hs

theorem keepsForm_migrateCommit (h : Memory.wf s.mem) (complex : Nat) : keepsForm (execMigrateCommit complex s) := by
  unfold execMigrateCommit
  split
  · exact keepsForm_refused _
  · next m _ =>
    have hcopy : Memory.wf (({ s with migrations := s.migrations.del complex } : State).copyPage m.oldPa m.newPa m.size).mem :=
      State.copyPage_wf (by exact h) _ _ _
    simp [h, State.disarm_wf, State.moveLeaf_wf, hcopy]

theorem State.runQuery_wf (h : Memory.wf s.mem) (c : Nat) : Memory.wf (s.runQuery c).mem := by
  unfold State.runQuery
  dsimp only
  split
  · exact h
  · exact State.outsideWrite_wf h _ _

theorem State.runAttest_wf (h : Memory.wf s.mem) (c : Nat) : Memory.wf (s.runAttest c).mem := by
  unfold State.runAttest
  dsimp only
  split
  · exact h
  · rw [State.cmdDone_mem]
    exact State.outsideWrite_wf ((s.freeBytes_mem 32).symm ▸ h) _ _

@[simp] theorem State.runReserve_mem (s : State) (c : Nat) : (s.runReserve c).mem = s.mem := by
  simp [State.runReserve]

@[simp] theorem State.runRelease_mem (s : State) (c : Nat) : (s.runRelease c).mem = s.mem := by
  unfold State.runRelease
  dsimp only
  split
  · simp
  · split <;> simp

/-! ### Journal commands (20 R409-R418) -/

theorem State.runSeqopen_mem {c : Nat} {t : State} (ht : s.runSeqopen c = some t) : t.mem = s.mem := by
  unfold State.runSeqopen at ht
  dsimp only at ht
  split at ht
  · obtain rfl := Option.some.inj ht
    rfl
  · split at ht
    · obtain rfl := Option.some.inj ht
      rfl
    · rw [Option.ite_none_left_eq_some] at ht
      obtain ⟨-, ht⟩ := ht
      rw [← Option.some.inj ht]
      simp

theorem State.runSeqclose_mem {c : Nat} {t : State} (ht : s.runSeqclose c = some t) : t.mem = s.mem := by
  unfold State.runSeqclose at ht
  dsimp only at ht
  split at ht
  · obtain rfl := Option.some.inj ht
    rfl
  · split at ht
    · split at ht
      · cases ht
      · obtain rfl := Option.some.inj ht
        simp
    · obtain rfl := Option.some.inj ht
      rfl

@[simp] theorem State.watch_mem (s : State) (peer : Nat) : (s.watch peer).mem = s.mem := by
  simp [State.watch]

@[simp] theorem State.unwatch_mem (s : State) : s.unwatch.mem = s.mem := rfl

@[simp] theorem State.runPartner_mem (s : State) (c : Nat) : (s.runPartner c).mem = s.mem := by
  unfold State.runPartner
  dsimp only
  split
  · simp
  · split
    · simp
    · next x _ => simp [State.foldl_mem fun s q => s.ship_mem x.num q]

theorem State.runMarkdone_mem {c : Nat} {t : State} (ht : s.runMarkdone c = some t) : t.mem = s.mem := by
  unfold State.runMarkdone at ht
  dsimp only at ht
  split at ht
  · obtain rfl := Option.some.inj ht
    rfl
  · split at ht
    · obtain rfl := Option.some.inj ht
      rfl
    · split at ht
      · obtain rfl := Option.some.inj ht
        rfl
      · split at ht
        · cases ht
        · obtain rfl := Option.some.inj ht
          simp

@[simp] theorem State.runJstore_mem (s : State) (c : Nat) : (s.runJstore c).mem = s.mem := by
  simp [State.runJstore]

theorem keepsForm_seqopen (h : Memory.wf s.mem) (complex : Nat) : keepsForm (execSeqopen complex s) :=
  keepsForm_command (run := fun s => s.runSeqopen complex) h (fun _ ht => (State.runSeqopen_mem ht).symm ▸ h) _ _ _

theorem keepsForm_seqclose (h : Memory.wf s.mem) (complex : Nat) : keepsForm (execSeqclose complex s) :=
  keepsForm_command (run := fun s => s.runSeqclose complex) h (fun _ ht => (State.runSeqclose_mem ht).symm ▸ h) _ _ _

theorem keepsForm_markdone (h : Memory.wf s.mem) (complex : Nat) : keepsForm (execMarkdone complex s) :=
  keepsForm_command (run := fun s => s.runMarkdone complex) h (fun _ ht => (State.runMarkdone_mem ht).symm ▸ h) _ _ _

theorem keepsForm_resume (h : Memory.wf s.mem) (complex : Nat) : keepsForm (execResume complex s) :=
  keepsForm_commandDone h (State.runResume_wf h _) _ _ _

theorem keepsForm_retry (h : Memory.wf s.mem) (complex : Nat) : keepsForm (execRetry complex s) :=
  keepsForm_commandDone h ((s.runRetry_mem complex).symm ▸ h) _ _ _

theorem keepsForm_revoke (h : Memory.wf s.mem) (complex : Nat) : keepsForm (execRevoke complex s) :=
  keepsForm_commandDone h ((s.runRevoke_mem complex).symm ▸ h) _ _ _

theorem keepsForm_unrevoke (h : Memory.wf s.mem) (complex : Nat) : keepsForm (execUnrevoke complex s) :=
  keepsForm_commandDone h ((s.runUnrevoke_mem complex).symm ▸ h) _ _ _

theorem keepsForm_migrate (h : Memory.wf s.mem) (complex : Nat) : keepsForm (execMigrate complex s) :=
  keepsForm_commandDone h (State.runMigrate_wf h _) _ _ _

theorem keepsForm_query (h : Memory.wf s.mem) (complex : Nat) : keepsForm (execQuery complex s) :=
  keepsForm_commandDone h (State.runQuery_wf h _) _ _ _

theorem keepsForm_attest (h : Memory.wf s.mem) (complex : Nat) : keepsForm (execAttest complex s) :=
  keepsForm_commandDone h (State.runAttest_wf h _) _ _ _

theorem keepsForm_reserve (h : Memory.wf s.mem) (complex : Nat) : keepsForm (execReserve complex s) :=
  keepsForm_commandDone h ((s.runReserve_mem complex).symm ▸ h) _ _ _

theorem keepsForm_release (h : Memory.wf s.mem) (complex : Nat) : keepsForm (execRelease complex s) :=
  keepsForm_commandDone h ((s.runRelease_mem complex).symm ▸ h) _ _ _

theorem keepsForm_partner (h : Memory.wf s.mem) (complex : Nat) : keepsForm (execPartner complex s) :=
  keepsForm_commandDone h ((s.runPartner_mem complex).symm ▸ h) _ _ _

theorem keepsForm_jstore (h : Memory.wf s.mem) (complex : Nat) : keepsForm (execJstore complex s) :=
  keepsForm_commandDone h ((s.runJstore_mem complex).symm ▸ h) _ _ _

theorem keepsForm_doorbell (h : Memory.wf s.mem) (complex : Nat) : keepsForm (doorbell complex s) := by
  unfold doorbell
  split
  · simp [h]
  · split
    · exact keepsForm_resume h _
    · exact keepsForm_retry h _
    · exact keepsForm_revoke h _
    · exact keepsForm_unrevoke h _
    · exact keepsForm_migrate h _
    · exact keepsForm_query h _
    · exact keepsForm_attest h _
    · exact keepsForm_reserve h _
    · exact keepsForm_release h _
    · exact keepsForm_seqopen h _
    · exact keepsForm_seqclose h _
    · exact keepsForm_partner h _
    · exact keepsForm_markdone h _
    · exact keepsForm_jstore h _
    · simp [h]

/-! ### Outside agents (11 R290, 16 R345, R356) -/

@[simp] theorem State.writePort_mem (s : State) (k v : Nat) : (s.writePort k v).mem = s.mem := rfl

@[simp] theorem State.writeControl_mem (s : State) (complex off v : Nat) : (s.writeControl complex off v).mem = s.mem := by
  simp [State.writeControl]

theorem keepsForm_windowStore (h : Memory.wf s.mem) (complex off size v : Nat) : keepsForm (windowStore complex off size v s) := by
  simp [windowStore, h, keepsForm_doorbell]

theorem keepsForm_registerWrite (h : Memory.wf s.mem) (complex offset size value : Nat) :
    keepsForm (execRegisterWrite complex offset size value s) := by
  simp [execRegisterWrite, keepsForm_windowStore h]

@[simp] theorem hartNothing_mem (a : HostAccess) (s : State) : (hartNothing a s).mem = s.mem := by
  simp [hartNothing]

@[simp] theorem hartOutward_mem (a : HostAccess) (s : State) : (hartOutward a s).mem = s.mem := by
  unfold hartOutward
  dsimp only
  split <;> rfl

@[simp] theorem hartImsic_mem (a : HostAccess) (s : State) : (hartImsic a s).mem = s.mem := by
  simp [hartImsic]

theorem keepsForm_hartWindow (h : Memory.wf s.mem) (a : HostAccess) (off : Nat) : keepsForm (hartWindow a off s) := by
  unfold hartWindow
  split
  · simp [h]
  · split
    · simp [h]
    · split
      · rwa [keepsForm_next, State.hartDone_mem]
      · next v _ =>
        have hstore := keepsForm_windowStore h a.complex off a.size v
        split
        · next t ht =>
          rw [keepsForm_next, State.hartDone_mem]
          exact hstore t ht
        · exact hstore

theorem keepsForm_hostHartAccess (h : Memory.wf s.mem) (a : HostAccess) : keepsForm (execHostHartAccess a s) := by
  unfold execHostHartAccess
  split
  · exact keepsForm_refused _
  · split
    · rw [keepsForm_next]
      split
      · rw [State.hartDone_mem]
        exact State.outsideWrite_wf h _ _
      · rw [State.hartDone_mem]
        exact h
    · simp [h, keepsForm_hartWindow]

theorem keepsForm_pcieEndpointWrite (h : Memory.wf s.mem) (pa : Nat) (bytes : List Byte) : keepsForm (execPcieEndpointWrite pa bytes s) := by
  unfold execPcieEndpointWrite
  split
  · exact (keepsForm_next _).2 (State.outsideWrite_wf h _ _)
  · exact keepsForm_fault _

@[simp] theorem State.sense_mem (s : State) (unit temp : Nat) : (s.sense unit temp).mem = s.mem := by
  simp [State.sense]

end

end Sys2Proof.Machine

/-!
The form of device memory under every instruction and event.
-/

namespace Sys2Proof.Machine

section
variable {s : State}

/-! ### Results of lanes, of the split, and floating results -/

theorem keepsForm_vec3 (h : Memory.wf s.mem) (mn : String) (f : Word → Word → Word) (g : PReg) (d a b : VReg) : keepsForm (vec3 mn f g d a b s) :=
  keepsForm_issue h (fun _ _ hx => by exact (keepsForm_next _).2 hx) _ _ _

theorem keepsForm_vec2 (h : Memory.wf s.mem) (mn : String) (f : Word → Word) (g : PReg) (d a : VReg) : keepsForm (vec2 mn f g d a s) :=
  keepsForm_issue h (fun _ _ hx => by exact (keepsForm_next _).2 hx) _ _ _

theorem keepsForm_vecCmp (h : Memory.wf s.mem) (mn : String) (both : Bool) (g p : PReg) (c : BitVec 4) (a b : VReg) :
    keepsForm (vecCmp mn both g p c a b s) :=
  keepsForm_issue h (fun _ _ hx => by exact (keepsForm_next _).2 hx) _ _ _

theorem keepsForm_predOp (h : Memory.wf s.mem) (mn : String) (f : Mask → Mask → Mask) (g d a b : PReg) : keepsForm (predOp mn f g d a b s) :=
  keepsForm_issue h (fun _ _ hx => by exact (keepsForm_next _).2 hx) _ _ _

theorem keepsForm_leaOp (h : Memory.wf s.mem) (mn : String) (ext : Word → DWord) (g : PReg) (d : VReg) (a : GReg) (b : VReg) :
    keepsForm (leaOp mn ext g d a b s) :=
  keepsForm_issue h (fun _ _ hx => by exact (keepsForm_next _).2 hx) _ _ _

theorem keepsForm_bfiI32 (h : Memory.wf s.mem) (g : PReg) (d a b : VReg) : keepsForm (execBfiI32 g d a b s) :=
  keepsForm_issue h (fun _ _ hx => by exact (keepsForm_next _).2 hx) _ _ _

theorem keepsForm_cmpi (h : Memory.wf s.mem) (g p : PReg) (c : BitVec 4) (a : VReg) (i : BitVec 8) : keepsForm (execCmpi g p c a i s) :=
  keepsForm_issue h (fun _ _ hx => by exact (keepsForm_next _).2 hx) _ _ _

theorem keepsForm_addi (h : Memory.wf s.mem) (g : PReg) (d a : VReg) (i : BitVec 8) : keepsForm (execAddi g d a i s) :=
  keepsForm_issue h (fun _ _ hx => by exact (keepsForm_next _).2 hx) _ _ _

theorem keepsForm_movi (h : Memory.wf s.mem) (g : PReg) (d : VReg) (i : BitVec 8) : keepsForm (execMovi g d i s) :=
  keepsForm_issue h (fun _ _ hx => by exact (keepsForm_next _).2 hx) _ _ _

theorem keepsForm_nop (h : Memory.wf s.mem) (g : PReg) : keepsForm (execNop g s) :=
  keepsForm_issue h (fun _ _ hx => by exact (keepsForm_next _).2 hx) _ _ _

theorem keepsForm_movVg (h : Memory.wf s.mem) (g : PReg) (d : VReg) (a : GReg) : keepsForm (execMovVg g d a s) :=
  keepsForm_issue h (fun _ _ hx => by exact (keepsForm_next _).2 hx) _ _ _

theorem keepsForm_movVp (h : Memory.wf s.mem) (g : PReg) (d : VReg) (a : PReg) : keepsForm (execMovVp g d a s) :=
  keepsForm_issue h (fun _ _ hx => by exact (keepsForm_next _).2 hx) _ _ _

theorem keepsForm_movPv (h : Memory.wf s.mem) (g d : PReg) (a : VReg) : keepsForm (execMovPv g d a s) :=
  keepsForm_issue h (fun _ _ hx => by exact (keepsForm_next _).2 hx) _ _ _

theorem keepsForm_laneid (h : Memory.wf s.mem) (g : PReg) (d : VReg) : keepsForm (execLaneid g d s) :=
  keepsForm_issue h (fun _ _ hx => by exact (keepsForm_next _).2 hx) _ _ _

theorem keepsForm_prng (h : Memory.wf s.mem) (g : PReg) (d : VReg) (e : BitVec 3) (b : BitVec 5) : keepsForm (execPrng g d e b s) :=
  keepsForm_issue h (fun _ _ hx => by exact (keepsForm_next _).2 hx) _ _ _

theorem keepsForm_wid (h : Memory.wf s.mem) (g : PReg) (d : VReg) : keepsForm (execWid g d s) :=
  keepsForm_issue h (fun _ _ hx => by exact (keepsForm_next _).2 hx) _ _ _

theorem keepsForm_widf (h : Memory.wf s.mem) (g : PReg) (d : VReg) (k : BitVec 3) : keepsForm (execWidf g d k s) :=
  keepsForm_issue h (fun _ _ hx => by exact (keepsForm_next _).2 hx) _ _ _

theorem keepsForm_uni3 (h : Memory.wf s.mem) (mn : String) (f : Word → Word → Word) (d a b : GReg) : keepsForm (uni3 mn f d a b s) :=
  keepsForm_issueU h (fun _ hx => by exact (keepsForm_next _).2 hx) _ _

theorem keepsForm_uni2 (h : Memory.wf s.mem) (mn : String) (f : Word → Word) (d a : GReg) : keepsForm (uni2 mn f d a s) :=
  keepsForm_issueU h (fun _ hx => by exact (keepsForm_next _).2 hx) _ _

theorem keepsForm_uniCmp (h : Memory.wf s.mem) (mn : String) (both : Bool) (p : PReg) (c : BitVec 4) (a b : GReg) :
    keepsForm (uniCmp mn both p c a b s) :=
  keepsForm_issueU h (fun _ hx => by exact (keepsForm_next _).2 hx) _ _

theorem keepsForm_fp32 (h : Memory.wf s.mem) (mn : String) (f : Nat → Fp → Fp → FRes) (g : PReg) (d a b : VReg) :
    keepsForm (fp32 mn f g d a b s) :=
  keepsForm_fpIssue h _ _ _ _ _

theorem keepsForm_fmm32 (h : Memory.wf s.mem) (mn : String) (isMin : Bool) (g : PReg) (d a b : VReg) : keepsForm (fmm32 mn isMin g d a b s) :=
  keepsForm_fpIssue h _ _ _ _ _

theorem keepsForm_fma32 (h : Memory.wf s.mem) (mn : String) (negate : Bool) (g : PReg) (d a b : VReg) : keepsForm (fma32 mn negate g d a b s) :=
  keepsForm_fpIssue h _ _ _ _ _

theorem keepsForm_fp16 (h : Memory.wf s.mem) (mn : String) (t : Fmt) (f : Nat → Fp → Fp → FRes) (g : PReg) (d a b : VReg) :
    keepsForm (fp16 mn t f g d a b s) :=
  keepsForm_fpIssue h _ _ _ _ _

theorem keepsForm_fma16 (h : Memory.wf s.mem) (mn : String) (t : Fmt) (g : PReg) (d a b : VReg) : keepsForm (fma16 mn t g d a b s) :=
  keepsForm_fpIssue h _ _ _ _ _

theorem keepsForm_fmm16 (h : Memory.wf s.mem) (mn : String) (t : Fmt) (isMin : Bool) (g : PReg) (d a b : VReg) :
    keepsForm (fmm16 mn t isMin g d a b s) :=
  keepsForm_fpIssue h _ _ _ _ _

theorem keepsForm_unary (h : Memory.wf s.mem) (mn : String) (f : Fmt → Nat → Nat → FRes) (g : PReg) (d a : VReg) (t : BitVec 2) :
    keepsForm (unary mn f g d a t s) :=
  keepsForm_fpIssue h _ _ _ _ _

theorem keepsForm_pk16 (h : Memory.wf s.mem) (mn : String) (t : Fmt) (g : PReg) (d a b : VReg) : keepsForm (pk16 mn t g d a b s) :=
  keepsForm_fpIssue h _ _ _ _ _

theorem keepsForm_packNarrow (h : Memory.wf s.mem) (mn : String) (t : Fmt) (w : Nat) (sat : Iss → Bool) (g : PReg) (d a : VReg) (e : BitVec 3)
    (b : BitVec 5) : keepsForm (packNarrow mn t w sat g d a e b s) :=
  keepsForm_fpIssue h _ _ _ _ _

theorem keepsForm_unpack (h : Memory.wf s.mem) (mn : String) (w : Nat) (value : Nat → Fp) (g : PReg) (d : VReg) (e : BitVec 3) (b : BitVec 5) :
    keepsForm (unpack mn w value g d e b s) :=
  keepsForm_fpIssue h _ _ _ _ _

theorem keepsForm_dot (h : Memory.wf s.mem) (mn : String) (scaled : Bool) (n w : Nat) (fa fb : Iss → Fmt) (g : PReg) (d a b : VReg) :
    keepsForm (dot mn scaled n w fa fb g d a b s) :=
  keepsForm_fpIssue h _ _ _ _ _

theorem keepsForm_cvt (h : Memory.wf s.mem) (mn : String) (f : Nat → Word → FRes) (g : PReg) (d a : VReg) : keepsForm (cvt mn f g d a s) :=
  keepsForm_fpIssue h _ _ _ _ _

theorem keepsForm_srnd (h : Memory.wf s.mem) (g : PReg) (d a : VReg) (e : BitVec 3) (b : BitVec 5) : keepsForm (execSrnd g d a e b s) :=
  keepsForm_fpIssue h _ _ _ _ _

theorem keepsForm_fscaleE3m5 (h : Memory.wf s.mem) (g : PReg) (d a : VReg) (e : BitVec 3) (b : BitVec 5) : keepsForm (execFscaleE3m5 g d a e b s) :=
  keepsForm_fpIssue h _ _ _ _ _

/-! ### Accesses by lanes and by the split -/

theorem keepsForm_laneLoad (h : Memory.wf s.mem) (mn : String) (size : Nat) (sext : Bool) (off : List Word → DWord) (g : PReg) (d a : VReg) :
    keepsForm (laneLoad mn size sext off g d a s) :=
  keepsForm_issue h (fun _ _ hx => keepsForm_access hx _ _ _ _) _ _ _

theorem keepsForm_laneStore (h : Memory.wf s.mem) (mn : String) (size : Nat) (off : List Word → DWord) (g : PReg) (d a : VReg) :
    keepsForm (laneStore mn size off g d a s) :=
  keepsForm_issue h (fun _ _ hx => keepsForm_access hx _ _ _ _) _ _ _

theorem keepsForm_pollLoad (h : Memory.wf s.mem) (mn : String) (size : Nat) (g : PReg) (d a : VReg) : keepsForm (pollLoad mn size g d a s) :=
  keepsForm_issue h (fun _ _ hx => keepsForm_access hx _ _ _ _) _ _ _

theorem keepsForm_atomIssue (h : Memory.wf s.mem) (mn : String) (fn : Nat) (g : PReg) (d a : VReg) (nr : BitVec 1) :
    keepsForm (atomIssue mn fn g d a nr s) :=
  keepsForm_issue h (fun _ _ hx => keepsForm_access hx _ _ _ _) _ _ _

theorem keepsForm_gatherB32 (h : Memory.wf s.mem) (g : PReg) (d : VReg) (a : GReg) (b : VReg) : keepsForm (execGatherB32 g d a b s) :=
  keepsForm_issue h (fun _ _ hx => keepsForm_access hx _ _ _ _) _ _ _

theorem keepsForm_scatterB32 (h : Memory.wf s.mem) (g : PReg) (d : VReg) (a : GReg) (b : VReg) : keepsForm (execScatterB32 g d a b s) :=
  keepsForm_issue h (fun _ _ hx => keepsForm_access hx _ _ _ _) _ _ _

theorem keepsForm_uniLoad (h : Memory.wf s.mem) (mn : String) (size : Nat) (off : List Word → DWord) (d a : GReg) :
    keepsForm (uniLoad mn size off d a s) :=
  keepsForm_issueU h (fun _ hx => keepsForm_access hx _ _ _ _) _ _

theorem keepsForm_uniStore (h : Memory.wf s.mem) (mn : String) (size : Nat) (off : List Word → DWord) (d a : GReg) :
    keepsForm (uniStore mn size off d a s) :=
  keepsForm_issueU h (fun _ hx => keepsForm_access hx _ _ _ _) _ _

/-! ### What is left of the instructions -/

theorem keepsForm_vany (h : Memory.wf s.mem) (d a : PReg) : keepsForm (execVany d a s) :=
  keepsForm_issueU h (fun _ hx => (keepsForm_doneP _ _ _).2 hx) _ _

theorem keepsForm_vall (h : Memory.wf s.mem) (d a : PReg) : keepsForm (execVall d a s) :=
  keepsForm_issueU h (fun _ hx => (keepsForm_doneP _ _ _).2 hx) _ _

theorem keepsForm_jmp (h : Memory.wf s.mem) (o : BitVec 19) : keepsForm (execJmp o s) :=
  keepsForm_issueU h (fun _ hx => (keepsForm_branch _).2 hx) _ _

theorem keepsForm_bst (h : Memory.wf s.mem) (g : PReg) (d : VReg) (a : GReg) (i : BitVec 8) : keepsForm (execBst g d a i s) := by
  refine keepsForm_issue h (fun x act hx => ?_) _ _ _
  dsimp only
  split
  · exact (keepsForm_next _).2 hx
  · split
    · exact (keepsForm_done _ _).2 hx
    · split
      · exact keepsForm_accessFault (State.afterAccess_wf hx _ _ _ _ _ _ _ _) _ _ _
      · next ht => exact (keepsForm_done _ _).2 (State.access_wf ht hx)

theorem keepsForm_aget (h : Memory.wf s.mem) (g : PReg) (d : VReg) (a : AReg) (b : GReg) : keepsForm (execAget g d a b s) :=
  keepsForm_issue h (fun x act hx => by simp [hx]) _ _ _

theorem keepsForm_aset (h : Memory.wf s.mem) (g : PReg) (d : VReg) (a : AReg) (b : GReg) : keepsForm (execAset g d a b s) :=
  keepsForm_issue h (fun x act hx => by simp [hx]) _ _ _

theorem keepsForm_fence (h : Memory.wf s.mem) (k : BitVec 2) (sc : BitVec 3) : keepsForm (execFence k sc s) :=
  keepsForm_issueU h (fun x hx => by simp [hx]) _ _

theorem keepsForm_xfence (h : Memory.wf s.mem) (t f sc : BitVec 3) : keepsForm (execXfence t f sc s) :=
  keepsForm_issueU h (fun x hx => by simp [hx, State.showPath]) _ _

theorem keepsForm_movGc (h : Memory.wf s.mem) (d : GReg) (a : QReg) : keepsForm (execMovGc d a s) :=
  keepsForm_issueU h (fun x hx => by simp [hx]) _ _

theorem keepsForm_cwpwait (h : Memory.wf s.mem) (d : GReg) (a : QReg) : keepsForm (execCwpwait d a s) :=
  keepsForm_issueU h (fun x hx => by simp [hx]) _ _

theorem keepsForm_detPackSwitch (h : Memory.wf s.mem) (core : Nat) : keepsForm (execDetPackSwitch core s) := by
  unfold execDetPackSwitch
  dsimp only
  split <;> simp [h]

/-- Every instruction and event keeps the form of device memory, each by the shape of its meaning or by a lemma of its own. -/
theorem keepsForm_exec (h : Memory.wf s.mem) (i : Instr) : keepsForm (exec i s) := by
  cases i with
  | addI32 | addsI32 | subI32 | subsI32 | mulI32 | mulhI32 | mulhuI32 | minI32 | minuI32 | maxI32 | maxuI32 | andI32 | andnI32
  | orI32 | xorI32 | shlI32 | shrI32 | sraI32 | rotlI32 | bfeI32 | bfesI32 => exact keepsForm_vec3 h _ _ _ _ _ _
  | fcpsgnF32 g d a b => exact keepsForm_vec3 h "FCPSGN_F32" (fun a b => (a &&& 0x7FFFFFFF) ||| (b &&& 0x80000000)) g d a b
  | fcpsgnH g d a b => exact keepsForm_vec3 h "FCPSGN_H" (fun a b => (a &&& 0x7FFF7FFF) ||| (b &&& 0x80008000)) g d a b
  | movI32 | notI32 | negI32 | absI32 | brevI32 | sext8I32 | sext16I32 => exact keepsForm_vec2 h _ _ _ _ _
  | popcI32 g d a => exact keepsForm_vec2 h "POPC_I32" (fun a => BitVec.ofNat 32 (popcount a)) g d a
  | clzI32 g d a => exact keepsForm_vec2 h "CLZ_I32" (fun a => BitVec.ofNat 32 (clz a)) g d a
  | ctzI32 g d a => exact keepsForm_vec2 h "CTZ_I32" (fun a => BitVec.ofNat 32 (ctz a)) g d a
  | zext8I32 g d a => exact keepsForm_vec2 h "ZEXT8_I32" (· &&& 0xFF) g d a
  | zext16I32 g d a => exact keepsForm_vec2 h "ZEXT16_I32" (· &&& 0xFFFF) g d a
  | shli g d a n => exact keepsForm_vec2 h "SHLI" (· <<< n.toNat) g d a
  | shri g d a n => exact keepsForm_vec2 h "SHRI" (· >>> n.toNat) g d a
  | srai g d a n => exact keepsForm_vec2 h "SRAI" (BitVec.sshiftRight · n.toNat) g d a
  | rotli g d a n => exact keepsForm_vec2 h "ROTLI" (BitVec.rotateLeft · n.toNat) g d a
  | cmp | cmpa => exact keepsForm_vecCmp h _ _ _ _ _ _ _
  | pand | por | pxor => exact keepsForm_predOp h _ _ _ _ _ _
  | pandn g d a b => exact keepsForm_predOp h "PANDN" (fun p q => p &&& ~~~q) g d a b
  | lea | leau => exact keepsForm_leaOp h _ _ _ _ _ _
  | addI32U | addsI32U | subI32U | subsI32U | mulI32U | mulhI32U | mulhuI32U | minI32U | minuI32U | maxI32U | maxuI32U
  | andI32U | andnI32U | orI32U | xorI32U | shlI32U | shrI32U | sraI32U | rotlI32U => exact keepsForm_uni3 h _ _ _ _ _
  | movI32U | notI32U | negI32U | absI32U | brevI32U | sext8I32U | sext16I32U => exact keepsForm_uni2 h _ _ _ _
  | popcI32U d a => exact keepsForm_uni2 h "POPC_I32_U" (fun a => BitVec.ofNat 32 (popcount a)) d a
  | clzI32U d a => exact keepsForm_uni2 h "CLZ_I32_U" (fun a => BitVec.ofNat 32 (clz a)) d a
  | ctzI32U d a => exact keepsForm_uni2 h "CTZ_I32_U" (fun a => BitVec.ofNat 32 (ctz a)) d a
  | zext8I32U d a => exact keepsForm_uni2 h "ZEXT8_I32_U" (· &&& 0xFF) d a
  | zext16I32U d a => exact keepsForm_uni2 h "ZEXT16_I32_U" (· &&& 0xFFFF) d a
  | shliU d a n => exact keepsForm_uni2 h "SHLI_U" (· <<< n.toNat) d a
  | shriU d a n => exact keepsForm_uni2 h "SHRI_U" (· >>> n.toNat) d a
  | sraiU d a n => exact keepsForm_uni2 h "SRAI_U" (BitVec.sshiftRight · n.toNat) d a
  | rotliU d a n => exact keepsForm_uni2 h "ROTLI_U" (BitVec.rotateLeft · n.toNat) d a
  | cmpU | cmpaU => exact keepsForm_uniCmp h _ _ _ _ _ _
  | faddF32 | fmulF32 | fdivF32 => exact keepsForm_fp32 h _ _ _ _ _ _
  | fsubF32 g d a b => exact keepsForm_fp32 h "FSUB_F32" (fun rm a b => Fmt.f32.add rm a b.flip) g d a b
  | fminF32 | fmaxF32 => exact keepsForm_fmm32 h _ _ _ _ _ _
  | ffmaF32 | ffmsF32 => exact keepsForm_fma32 h _ _ _ _ _ _
  | faddF16x2 | fmulF16x2 | faddBf16x2 | fmulBf16x2 => exact keepsForm_fp16 h _ _ _ _ _ _ _
  | fsubF16x2 g d a b => exact keepsForm_fp16 h "FSUB_F16X2" Fmt.f16 (fun rm a b => Fmt.f16.add rm a b.flip) g d a b
  | fsubBf16x2 g d a b => exact keepsForm_fp16 h "FSUB_BF16X2" Fmt.bf16 (fun rm a b => Fmt.bf16.add rm a b.flip) g d a b
  | ffmaF16x2 | ffmaBf16x2 => exact keepsForm_fma16 h _ _ _ _ _ _
  | fminF16x2 | fmaxF16x2 | fminBf16x2 | fmaxBf16x2 => exact keepsForm_fmm16 h _ _ _ _ _ _ _
  | fneg | fabs | fsqrt | frsq | frcp | fexp2 | flog2 | fsinpi | fcospi | frint | fclass => exact keepsForm_unary h _ _ _ _ _ _
  | pk16F16 | pk16Bf16 => exact keepsForm_pk16 h _ _ _ _ _ _
  | pk8E4m3 | pk8E5m2 | pk4E2m1 => exact keepsForm_packNarrow h _ _ _ _ _ _ _ _ _
  | upk16F16 | upk16Bf16 | upk8E4m3 | upk8E5m2 | upk4E2m1 => exact keepsForm_unpack h _ _ _ _ _ _ _
  | upk8I8 g d e b => exact keepsForm_unpack h "UPK8_I8" 8 (fun v => ofInteger (signedOf 8 v)) g d e b
  | upk4I4 g d e b => exact keepsForm_unpack h "UPK4_I4" 4 (fun v => ofInteger (signedOf 4 v)) g d e b
  | dot4 | dot4s | dot8 | dot8s => exact keepsForm_dot h _ _ _ _ _ _ _ _ _ _
  | cvtS32F32 | cvtU32F32 | cvtS8F32 | cvtS4F32 => exact keepsForm_cvt h _ _ _ _ _
  | cvtF32S32 g d a => exact keepsForm_cvt h "CVT_F32_S32" (fun rm w => Fmt.f32.convert rm false (ofInteger w.toInt)) g d a
  | cvtF32U32 g d a => exact keepsForm_cvt h "CVT_F32_U32" (fun rm w => Fmt.f32.convert rm false (ofInteger w.toNat)) g d a
  | cvtE3m5F32 g d a => exact keepsForm_cvt h "CVT_E3M5_F32" (fun rm w => Fmt.e3m5.convert rm true (f32Of w)) g d a
  | cvtF32E3m5 g d a => exact keepsForm_cvt h "CVT_F32_E3M5" (fun _ w => Fmt.f32.convert 0 false (Fmt.e3m5.decode (cut w.toNat 0 8))) g d a
  | ldB8 | ldS8 | ldS16 | ldB64 | ldB128 => exact keepsForm_laneLoad h _ _ _ _ _ _ _
  | ldB32 g d a i => exact keepsForm_laneLoad h "LD_B32" 4 false (offI · i) g d a
  | ldB16 g d a => exact keepsForm_laneLoad h "LD_B16" 2 false offF g d a
  | stB8 | stB16 | stB64 | stB128 => exact keepsForm_laneStore h _ _ _ _ _ _
  | stB32 g d a i => exact keepsForm_laneStore h "ST_B32" 4 (offI · i) g d a
  | ldpB32 | ldpB64 => exact keepsForm_pollLoad h _ _ _ _ _
  | atomAddI32 | atomAndB32 | atomOrB32 | atomXorB32 | atomMinI32 | atomMaxI32 | atomMinuI32 | atomMaxuI32 | atomXchgB32
  | atomCasB32 | atomAddF32 | atomAddI64 | atomCasB64 => exact keepsForm_atomIssue h _ _ _ _ _ _
  | lduB64 => exact keepsForm_uniLoad h _ _ _ _ _
  | lduB32 d a i => exact keepsForm_uniLoad h "LDU_B32" 4 (offI · i) d a
  | stuB64 => exact keepsForm_uniStore h _ _ _ _ _
  | stuB32 d a i => exact keepsForm_uniStore h "STU_B32" 4 (offI · i) d a
  | fcmp | fcmpa => exact keepsForm_fpCmp h _ _ _ _ _ _ _
  | cstoreB32 | cstoreB64 => exact keepsForm_compressStore h _ _ _ _ _
  | adetFaddF32 | adetFaddF16 | adetFaddBf16 | adetAddI32 | adetAddI64 | adetMinI32 | adetMaxI32 | adetMinuB64 | adetMaxuB64
  | adetXchgB32 | adetCasB32 | adetAppB32 => exact keepsForm_adetIssue h _ _ _ _ _
  | cpyIn | cpyOut => exact keepsForm_copyIssue h _ _ _ _ _
  | bankcfgCache | bankcfgPad | bankcfgFifo => exact keepsForm_bankcfg h _ _ _
  | ldsB32 | stsB32 => exact keepsForm_padAccess h _ _ _ _ _ _
  | tdescR | tdescW => exact keepsForm_tdesc h _ _ _ _ _
  | tloadP | tloadR => exact keepsForm_tload h _ _ _ _ _
  | aclr d => exact keepsForm_accIssue h "ACLR" [opA 0 d] none 0 d.toNat 0
  | amov d a => exact keepsForm_accIssue h "AMOV" [opA 0 d, opA 1 a] none 1 d.toNat a.toNat
  | ald d a => exact keepsForm_accIssue h "ALD" [opA 0 d, opT 1 a] (some a.toNat) 3 d.toNat 0
  | ast d a => exact keepsForm_accIssue h "AST" [opT 0 d, opA 1 a] (some d.toNat) 4 0 a.toNat
  | aepi | aepiClr => exact keepsForm_epilogue h _ _ _ _ _
  | shflIdx | shflUp | shflDown | shflXor => exact keepsForm_shfl h _ _ _ _ _ _
  | shflIdxi | shflUpi | shflDowni | shflXori => exact keepsForm_shfli h _ _ _ _ _ _
  | jrecTok | jrecGen | jrecRoute => exact keepsForm_jrecIssue h _ _ _ _
  | hintImm | hintImmtop | hintRnd | hintCache | hintCtl | hintMod => exact keepsForm_hint h _ _
  | portEnable | portDisable | portGate | portUngate => exact keepsForm_portWrite h _ _ _ _
  | portCalibrationDone port =>
    exact keepsForm_portMove h "PORT_CALIBRATION_DONE" port (fun p => p.state == .cal || (p.state == .laserAbsent && s.portLit port))
      Port.calibrated
  | portCarrierLock port => exact keepsForm_portMove h "PORT_CARRIER_LOCK" port (fun p => p.state == .carrier) (fun p => { p with state := .pol })
  | portPolarisationLock port =>
    exact keepsForm_portMove h "PORT_POLARISATION_LOCK" port (fun p => p.state == .pol) (fun p => { p with state := .align })
  | portAlignDone port peer =>
    exact keepsForm_portMove h "PORT_ALIGN_DONE" port (fun p => p.state == .align && decide (peer < 1024) && (s.plane (planeOf port)).state != .dark)
      (fun p => { p with state := .up, peer := peer })
  | portLockLost port => exact keepsForm_portMove h "PORT_LOCK_LOST" port (fun p => p.state == .up) (fun p => { p with state := .divert })
  | portLightRestored port =>
    exact keepsForm_portMove h "PORT_LIGHT_RESTORED" port (fun p => p.state == .divert && (s.plane (planeOf port)).state != .dark)
      (fun p => { p with state := .carrier })
  | moviU | addiU | addiI64 | call | movPg | movGp | movGv | tset | tget | tclr | muster | rdmst | gwidth | gslices | vballot =>
    exact keepsForm_issueU h (fun _ hx => by exact (keepsForm_next _).2 hx) _ _
  | jmp o => exact keepsForm_jmp h o
  | vany d a => exact keepsForm_vany h d a
  | vall d a => exact keepsForm_vall h d a
  | bfiI32 g d a b => exact keepsForm_bfiI32 h g d a b
  | cmpi g p c a im => exact keepsForm_cmpi h g p c a im
  | addi g d a im => exact keepsForm_addi h g d a im
  | movi g d im => exact keepsForm_movi h g d im
  | nop g => exact keepsForm_nop h g
  | movVg g d a => exact keepsForm_movVg h g d a
  | movVp g d a => exact keepsForm_movVp h g d a
  | movPv g d a => exact keepsForm_movPv h g d a
  | laneid g d => exact keepsForm_laneid h g d
  | prng g d sn b => exact keepsForm_prng h g d sn b
  | wid g d => exact keepsForm_wid h g d
  | widf g d k => exact keepsForm_widf h g d k
  | srnd g d a sn b => exact keepsForm_srnd h g d a sn b
  | fscaleE3m5 g d a sn b => exact keepsForm_fscaleE3m5 h g d a sn b
  | gatherB32 g d a b => exact keepsForm_gatherB32 h g d a b
  | scatterB32 g d a b => exact keepsForm_scatterB32 h g d a b
  | bst g d a im => exact keepsForm_bst h g d a im
  | aget g d a b => exact keepsForm_aget h g d a b
  | aset g d a b => exact keepsForm_aset h g d a b
  | fence k sn => exact keepsForm_fence h k sn
  | xfence t f sn => exact keepsForm_xfence h t f sn
  | movGc d a => exact keepsForm_movGc h d a
  | cwpwait d a => exact keepsForm_cwpwait h d a
  | detPackSwitch core => exact keepsForm_detPackSwitch h core
  | br p o => exact keepsForm_br h p o
  | brd p t r => exact keepsForm_brd h p t r
  | jmpi a => exact keepsForm_jmpi h a
  | calli d a => exact keepsForm_calli h d a
  | regang => exact keepsForm_regang h
  | exit g => exact keepsForm_exit h g
  | wait l sn c t => exact keepsForm_wait h l sn c t
  | aflush n => exact keepsForm_aflush h n
  | bankSwitchCompletion core => exact keepsForm_bankSwitchCompletion h core
  | fpush g k a => exact keepsForm_fpush h g k a
  | fpop g d k => exact keepsForm_fpop h g d k
  | fcount d k => exact keepsForm_fcount h d k
  | fifoUnblock core slot split => exact keepsForm_fifoUnblock h core slot split
  | qunbind d => exact keepsForm_qunbind h d
  | qbindPeer d a => exact keepsForm_qbindPeer h d a
  | qbindGather d a => exact keepsForm_qbindGather h d a
  | qpush g d a => exact keepsForm_qpush h g d a
  | qpop g d a => exact keepsForm_qpop h g d a
  | queueUnblock core slot split => exact keepsForm_queueUnblock h core slot split
  | gatherStreamResult core slot op => exact keepsForm_gatherStreamResult h core slot op
  | tstore d a b => exact keepsForm_tstore h d a b
  | mmj d a b => exact keepsForm_mmj h d a b
  | jointFormation core slot => exact keepsForm_jointFormation h core slot
  | mmc d a b => exact keepsForm_mmc h d a b
  | coopRendezvous ctx coopid => exact keepsForm_coopRendezvous h ctx coopid
  | aadd d a => exact keepsForm_aadd h d a
  | bar => exact keepsForm_bar h
  | barCompletion queue index group => exact keepsForm_barCompletion h queue index group
  | barrierDeadlock queue index group => exact keepsForm_barrierDeadlock h queue index group
  | yield => exact keepsForm_yield h
  | pbinit d a => exact keepsForm_pbinit h d a
  | pbarrive d a => exact keepsForm_pbarrive h d a
  | pbwait d a => exact keepsForm_pbwait h d a
  | pbwaitPass core slot split => exact keepsForm_pbwaitPass h core slot split
  | fetchw d a => exact keepsForm_fetchw h d a
  | fetchwAnswer core slot => exact keepsForm_fetchwAnswer h core slot
  | launch d a => exact keepsForm_launch h d a
  | qtokRel d a => exact keepsForm_qtokRel h d a
  | qtokAcq d a => exact keepsForm_qtokAcq h d a
  | qtokTry d a => exact keepsForm_qtokTry h d a
  | qtokAcqPass core slot split => exact keepsForm_qtokAcqPass h core slot split
  | wlpush g d a => exact keepsForm_wlpush h g d a
  | wlpop g d a p => exact keepsForm_wlpop h g d a p
  | wldone g => exact keepsForm_wldone h g
  | wlpushResume core slot split => exact keepsForm_wlpushResume h core slot split
  | wlpopResume core slot split => exact keepsForm_wlpopResume h core slot split
  | jrecAcceptance core slot split => exact keepsForm_jrecAcceptance h core slot split
  | jemit a => exact keepsForm_jemit h a
  | jmark a => exact keepsForm_jmark h a
  | jtrunc a => exact keepsForm_jtrunc h a
  | trap im => exact keepsForm_trap h im
  | brk im => exact keepsForm_brk h im
  | hretRetry => exact keepsForm_hretRetry h
  | hretSkip => exact keepsForm_hretSkip h
  | hretEnd => exact keepsForm_hretEnd h
  | rdsr d sn => exact keepsForm_rdsr h d sn
  | wrsr d sn => exact keepsForm_wrsr h d sn
  | dictionarySlot im k => exact keepsForm_dictionarySlot h im k
  | trapEntry core slot split => exact keepsForm_trapEntry h core slot split
  | reconvergenceResume core slot split => exact keepsForm_reconvergenceResume h core slot split
  | regangRelease core slot split => exact keepsForm_regangRelease h core slot split
  | splitRefill core slot split => exact keepsForm_splitRefill h core slot split
  | waitSatisfied core slot split => exact keepsForm_waitSatisfied h core slot split
  | cwpwaitPass core slot split => exact keepsForm_cwpwaitPass h core slot split
  | loadCompletion core slot op lanes age => exact keepsForm_loadCompletion h core slot op lanes age
  | storeCompletion core slot op lanes => exact keepsForm_storeCompletion h core slot op lanes
  | atomicCompletion core slot op lanes => exact keepsForm_atomicCompletion h core slot op lanes
  | copyCompletion core channel upto => exact keepsForm_copyCompletion h core channel upto
  | tileOpCompletion core slot op => exact keepsForm_tileOpCompletion h core slot op
  | aflushFlush queue index group => exact keepsForm_aflushFlush h queue index group
  | packEnd core slot => exact keepsForm_packEnd h core slot
  | bstEmission core slot op => exact keepsForm_bstEmission h core slot op
  | broadcastDelivery bus => exact keepsForm_broadcastDelivery h bus
  | filterEntryWrite cluster mgroup byte size value => exact keepsForm_filterEntryWrite h cluster mgroup byte size value
  | tableWalk core va => exact keepsForm_tableWalk h core va
  | hostHartAccess acc => exact keepsForm_hostHartAccess h acc
  | pcieEndpointWrite pa bytes => exact keepsForm_pcieEndpointWrite h pa bytes
  | create queue => exact keepsForm_create h queue
  | destroy queue => exact keepsForm_destroy h queue
  | launchRecordConsume queue => exact keepsForm_launchRecordConsume h queue
  | launchDispatch queue => exact keepsForm_launchDispatch h queue
  | leaseWalk queue index => exact keepsForm_leaseWalk h queue index
  | groupPlacement queue index group cluster positions => exact keepsForm_groupPlacement h queue index group cluster positions
  | launchCompletion queue index => exact keepsForm_launchCompletion h queue index
  | queueAging queue => exact keepsForm_queueAging h queue
  | quiescenceDeclared ctx => exact keepsForm_quiescenceDeclared h ctx
  | preemption queue => exact keepsForm_preemption h queue
  | victimStop queue index group => exact keepsForm_victimStop h queue index group
  | closureSave queue index group => exact keepsForm_closureSave h queue index group
  | closureRestore ctx save cluster positions => exact keepsForm_closureRestore h ctx save cluster positions
  | reservationExpiry resv => exact keepsForm_reservationExpiry h resv
  | eventDelivery ctx => exact keepsForm_eventDelivery h ctx
  | semaphoreAcquire complex n => exact keepsForm_semaphoreAcquire h complex n
  | semaphoreRelease complex n => exact keepsForm_semaphoreRelease h complex n
  | hostComplexReset complex => exact keepsForm_hostComplexReset h complex
  | resume complex => exact keepsForm_resume h complex
  | retry complex => exact keepsForm_retry h complex
  | revoke complex => exact keepsForm_revoke h complex
  | unrevoke complex => exact keepsForm_unrevoke h complex
  | migrate complex => exact keepsForm_migrate h complex
  | query complex => exact keepsForm_query h complex
  | attest complex => exact keepsForm_attest h complex
  | reserve complex => exact keepsForm_reserve h complex
  | release complex => exact keepsForm_release h complex
  | seqopen complex => exact keepsForm_seqopen h complex
  | seqclose complex => exact keepsForm_seqclose h complex
  | partner complex => exact keepsForm_partner h complex
  | markdone complex => exact keepsForm_markdone h complex
  | jstore complex => exact keepsForm_jstore h complex
  | mapInstall complex => exact keepsForm_mapInstall h complex
  | islandPointWrite complex island point => exact keepsForm_islandPointWrite h complex island point
  | islandPointChange island => exact keepsForm_islandPointChange h island
  | islandThrottle island point temp => exact keepsForm_islandThrottle h island point temp
  | islandThrottleEnd island temp => exact keepsForm_islandThrottleEnd h island temp
  | timeExchange link t1 t2 t3 t4 => exact keepsForm_timeExchange h link t1 t2 t3 t4
  | timeStepWrite complex value => exact keepsForm_timeStepWrite h complex value
  | powerOnReset => exact keepsForm_powerOnReset s
  | moduleReset => exact keepsForm_moduleReset h
  | selftestDone failures => exact keepsForm_selftestDone h failures
  | seamtrainDone extra failedLinks => exact keepsForm_seamtrainDone h extra failedLinks
  | mergeDone fields west east => exact keepsForm_mergeDone h fields west east
  | verifyDone skewPs => exact keepsForm_verifyDone h skewPs
  | mgmtQuery sender ports datagram => exact keepsForm_mgmtQuery h sender ports datagram
  | mgmtSubscribe sender ports datagram => exact keepsForm_mgmtSubscribe h sender ports datagram
  | mgmtBadDatagram sender ports datagram => exact keepsForm_mgmtBadDatagram h sender ports datagram
  | mgmtStatusPeriodic => exact keepsForm_mgmtStatusPeriodic h
  | settFrame bad => exact keepsForm_settFrame h bad
  | ringFailure bus participant => exact keepsForm_ringFailure h bus participant
  | laserOnWrite complex laser value => exact keepsForm_laserOnWrite h complex laser value
  | laserModuleLoss laser fault => exact keepsForm_laserModuleLoss h laser fault
  | laserModuleInsert laser => exact keepsForm_laserModuleInsert h laser
  | laserWarmDone laser => exact keepsForm_laserWarmDone h laser
  | ioLaserLoss laser fault => exact keepsForm_ioLaserLoss h laser fault
  | planeDrain complex plane => exact keepsForm_planeDrain h complex plane
  | planeDark plane => exact keepsForm_planeDark h plane
  | planeResume complex plane => exact keepsForm_planeResume h complex plane
  | planeRetrainDone plane => exact keepsForm_planeRetrainDone h plane
  | collectiveChunkArrival resv chunk ethernet bytes => exact keepsForm_collectiveChunkArrival h resv chunk ethernet bytes
  | resumeMarker resv plane => exact keepsForm_resumeMarker h resv plane
  | journalRecordReceive source bytes => exact keepsForm_journalRecordReceive h source bytes
  | journalAckReceive peer ctx seq ackidx => exact keepsForm_journalAckReceive h peer ctx seq ackidx
  | emissionRelease ctx seq => exact keepsForm_emissionRelease h ctx seq
  | heartbeatSend peer => exact keepsForm_heartbeatSend h peer
  | peerSilent peer => exact keepsForm_peerSilent h peer
  | chipFailure cause => exact keepsForm_chipFailure h cause
  | hardwareError err => exact keepsForm_hardwareError h err
  | coreFailure core => exact keepsForm_coreFailure h core
  | registerWrite complex offset size value => exact keepsForm_registerWrite h complex offset size value
  | illegalInstruction word reason => exact keepsForm_illegalInstruction h word reason
  | migrateCommit complex => exact keepsForm_migrateCommit h complex
  | receiveRingFailure bus participant => exact keepsForm_receiveRingFailure h bus participant
  | heartbeatReceive peer => exact keepsForm_heartbeatReceive h peer
  | standbyPowerOn => exact keepsForm_standbyPowerOn h

end

end Sys2Proof.Machine

/-!
The form of device memory under every move of the machine: an issue, a core's cycle, an event, and what passes outside (03 R71, 09 R239-R258).
-/

namespace Sys2Proof.Machine

section
variable {s : State}

/-! ### Turns (09 R251-R253) -/

@[simp] theorem State.takeTurn_mem (s : State) (c slot split : Nat) : (s.takeTurn c slot split).mem = s.mem := by
  simp [State.takeTurn]

@[simp] theorem State.settleTurns_mem (s : State) : s.settleTurns.mem = s.mem := by
  obtain ⟨cores, hcores⟩ := s.settleTurns_eq
  rw [hcores]

theorem keepsForm_settled {o : Out} (ho : keepsForm o) : keepsForm (settled o) := by
  cases o with
  | next t => simpa [settled] using ho
  | fault f => exact keepsForm_fault f
  | refused r => exact keepsForm_refused r

/-! ### Issue of a word (03 R71, R78, 09 R239) -/

theorem keepsForm_runWord (h : Memory.wf s.mem) (f : Focus) : keepsForm (s.runWord f) := by
  unfold State.runWord
  split
  · exact keepsForm_exec (by exact h) _
  · exact keepsForm_exec (by exact h) _

theorem keepsForm_issueWord (h : Memory.wf s.mem) (c slot split : Nat) (k : Pack) (sp : Split) : keepsForm (s.issueWord c slot split k sp) := by
  have hu := State.unitAt_wf h c k sp.pc
  unfold State.issueWord
  dsimp only
  split
  · exact keepsForm_runWord hu _
  · exact keepsForm_runWord hu _
  · exact keepsForm_exec (by exact hu) _
  · split
    · next x hx => exact keepsForm_accessFault (State.issuer_wf hx (by exact hu)) _ _ _
    · exact keepsForm_refused _

theorem Stall.event_wf (h : Memory.wf s.mem) {c slot split : Nat} {st : Stall} {f : State → Out} (hf : st.event c slot split = some f) :
    keepsForm (f s) := by
  cases st with
  | wait _ _ _ => obtain rfl := Option.some.inj hf; exact keepsForm_waitSatisfied h _ _ _
  | fpush | fpop => obtain rfl := Option.some.inj hf; exact keepsForm_fifoUnblock h _ _ _
  | qpush | qpop => obtain rfl := Option.some.inj hf; exact keepsForm_queueUnblock h _ _ _
  | cwpwait => obtain rfl := Option.some.inj hf; exact keepsForm_cwpwaitPass h _ _ _
  | pbwait => obtain rfl := Option.some.inj hf; exact keepsForm_pbwaitPass h _ _ _
  | acquire => obtain rfl := Option.some.inj hf; exact keepsForm_qtokAcqPass h _ _ _
  | wlpush => obtain rfl := Option.some.inj hf; exact keepsForm_wlpushResume h _ _ _
  | wlpop => obtain rfl := Option.some.inj hf; exact keepsForm_wlpopResume h _ _ _
  | jrec => obtain rfl := Option.some.inj hf; exact keepsForm_jrecAcceptance h _ _ _
  | bankcfg | joint | fetchw | yielded => cases hf

theorem State.unstall_wf (h : Memory.wf s.mem) (c slot : Nat) (sp : Split) : ∀ o ∈ s.unstall c slot sp, keepsForm o := by
  intro o ho
  unfold State.unstall at ho
  split at ho
  · next f hf =>
    obtain ⟨st, -, hst⟩ := Option.bind_eq_some_iff.mp hf
    have hform := Stall.event_wf h hst
    split at ho
    · next t ht =>
      obtain rfl := Option.some.inj ho
      exact ht ▸ hform
    · cases ho
  · cases ho

theorem keepsForm_issueNow (h : Memory.wf s.mem) (c slot split : Nat) : keepsForm (s.issueNow c slot split) := by
  unfold State.issueNow
  split
  · exact keepsForm_refused _
  · split
    · exact keepsForm_refused _
    · have ht : Memory.wf (s.takeTurn c slot split).mem := by simpa using h
      dsimp only
      split
      · split
        · exact (keepsForm_next _).2 (by simpa using h)
        · exact keepsForm_issueWord ht _ _ _ _ _
      · exact keepsForm_getD (State.unstall_wf ht _ _ _) (keepsForm_refused _)
      · exact keepsForm_runWord ht _

/-! ### The ports (09 R241) -/

theorem State.portGo_wf (h : Memory.wf s.mem) (c : Nat) (l : List (Nat × Split)) : ∀ r ∈ s.portGo c l, keepsForm r.2 := by
  induction l with
  | nil => simp [State.portGo]
  | cons p rest ih =>
    intro r hr
    have hnow := keepsForm_issueNow h c p.1 p.2.id
    unfold State.portGo at hr
    generalize s.issueNow c p.1 p.2.id = o at hr hnow
    cases o with
    | next t =>
      by_cases hon : s.wentOn t c p.1 p.2.id
      · obtain rfl := Option.some.inj ((if_pos hon).symm.trans hr)
        exact hnow
      · exact ih r ((if_neg hon).symm.trans hr)
    | fault f => obtain rfl := Option.some.inj hr; exact hnow
    | refused e => obtain rfl := Option.some.inj hr; exact hnow

theorem keepsForm_issueAt (h : Memory.wf s.mem) (c slot split : Nat) : keepsForm (s.issueAt c slot split) := by
  simp [State.issueAt, keepsForm_issueNow h]

/-- What is issued ahead only moves its split's own state. -/
theorem keepsForm_issueAhead (h : Memory.wf s.mem) (c slot split : Nat) : keepsForm (s.issueAhead c slot split) := by
  unfold State.issueAhead
  dsimp only
  split
  · exact keepsForm_refused _
  · next x hx =>
    have hat : ∀ k, keepsForm ((s.setPack c slot k).issueAt c slot split) := fun k => keepsForm_issueAt (by simpa using h) _ _ _
    split
    · split
      · split
        · exact keepsForm_refused _
        · split
          · next t ht =>
            have hwf := hat _ t ht
            split
            · exact keepsForm_refused _
            · split
              · exact keepsForm_refused _
              · simp [hwf]
          · exact keepsForm_refused _
      · exact keepsForm_refused _
    · exact keepsForm_refused _

theorem keepsForm_issueBeside {t : State} (h : Memory.wf t.mem) (c : Nat) (a b : Nat × Split) : keepsForm (s.issueBeside t c a b) := by
  unfold State.issueBeside
  split
  · next old first _ _ =>
    have hnow := keepsForm_issueNow (s := t.setPack c b.1 (first.sharedOf old)) (by simpa using h) c b.1 b.2.id
    split
    · split
      · next u hu => exact (keepsForm_next _).2 (by simpa using hnow u hu)
      · exact hnow
    · exact keepsForm_issueNow h _ _ _
  · exact (keepsForm_next _).2 h

theorem keepsForm_bothPorts (h : Memory.wf s.mem) (c : Nat) : keepsForm (s.bothPorts c) := by
  unfold State.bothPorts
  split
  · exact (keepsForm_next _).2 h
  · next p out hfirst =>
    split
    · exact State.portGo_wf h _ _ _ hfirst
    · next q _ _ =>
      dsimp only
      generalize (if lowLane q.2.mask * 16 + q.1 < lowLane p.2.mask * 16 + p.1 then q else p) = a
      generalize (if lowLane q.2.mask * 16 + q.1 < lowLane p.2.mask * 16 + p.1 then p else q) = b
      have hnow := keepsForm_issueNow h c a.1 a.2.id
      split
      · next t ht =>
        have hwf := hnow t ht
        have hbeside : keepsForm (if t.mayIssue c b.1 b.2.id then s.issueBeside t c a b else .next t) := by
          simp [hwf, keepsForm_issueBeside hwf]
        split
        · next u hu => exact (keepsForm_next _).2 (by simpa using hbeside u hu)
        · exact hbeside
      · exact hnow

theorem keepsForm_cycle (h : Memory.wf s.mem) (c : Nat) : keepsForm (s.cycle c) := by
  unfold State.cycle
  split
  · split
    · simp [h, keepsForm_exec h]
    · split
      · simp [h, keepsForm_issueNow h]
      · exact (keepsForm_next _).2 h
  · exact keepsForm_bothPorts h c

/-! ### Every move -/

theorem keepsForm_strike (h : Memory.wf s.mem) (i : Instr) : keepsForm (s.strike i) := by
  unfold State.strike
  split
  · simp [keepsForm_exec (s := s.takeTurn _ _ _) (by simpa using h)]
  · simp [keepsForm_exec h]

theorem keepsForm_move (h : Memory.wf s.mem) (m : Move) : keepsForm (s.move m) := by
  cases m with
  | event i => exact keepsForm_strike h i
  | issue c slot split => exact keepsForm_issueAt h c slot split
  | cycle c => exact keepsForm_cycle h c
  | elapse ns => exact (keepsForm_next _).2 (by simpa using h)
  | sense unit temp => exact (keepsForm_next _).2 (by simpa using h)
  | chunk n =>
    cases ht : s.sendChunk n with
    | none => simp [State.move, ht]
    | some t => simpa [State.move, ht, State.sendChunk_mem ht] using h
  | landed n c =>
    cases ht : s.landChunk n c with
    | none => simp [State.move, ht]
    | some t => simpa [State.move, ht, State.landChunk_mem ht] using h
  | ahead c slot split => exact keepsForm_issueAhead h c slot split

end

/-- Settles O57, from the form's upkeep by each move: whatever a move carries out, each write to device memory it makes keeps the form, and what
a step does afterwards, passing turns on, writes none. -/
theorem stepKeepsMemoryCanonical : Obligations.StepKeepsMemoryCanonical := by
  intro s t hstep hs
  unfold step at hstep
  split at hstep
  · obtain rfl := Host.Outcome.next.inj hstep
    exact hs
  · next m rest _ => exact keepsForm_settled (keepsForm_move (by exact hs) m) t hstep

end Sys2Proof.Machine

/-!
Commands of the command blocks (16 R358): when one ends, and how a command that is refused ends.
-/

namespace Sys2Proof.Machine

/-! ### Commands that end (16 R358, R364) -/

/-- A command ends once its COMMAND event is raised, whatever was raised before it. -/
theorem ended_cmdDone {s t : State} (h : s.events <+: t.events) (c status : Nat) : ended s (t.cmdDone c status) c status := by
  obtain ⟨l, hl⟩ := h
  obtain ⟨e, he, hhead⟩ : ∃ e, (t.cmdDone c status).events = t.events ++ [e] ∧ e.bytes.head? = some 4 := ⟨_, rfl, rfl⟩
  exact ⟨Table.getD_put_self _ _ _ _, Table.get_del_self _ _, l, e, he.trans (by rw [hl]), hhead⟩

theorem ended_cmdDone_self (s : State) (c status : Nat) : ended s (s.cmdDone c status) c status := ended_cmdDone List.prefix_rfl c status

section
variable {s t : State} {mn : String} {kind c : Nat} {run : State → Option State}

/-- A complex's command block that holds a command is always answered. -/
theorem command_answers (hc : c < 2) (hk : s.cmd c 0 1 = kind) : ∃ t, command mn kind c s run = .next t := by
  have hne : (s.cmd c 0 1 != kind) = false := by simp [hk]
  rw [command, if_neg (by omega), if_neg (by simp [hne])]
  cases run s with
  | none => exact ⟨_, rfl⟩
  | some t => exact ⟨t, rfl⟩

theorem command_of_run (hc : c < 2) (hk : s.cmd c 0 1 = kind) (hrun : run s = some t) : command mn kind c s run = .next t := by
  have hne : (s.cmd c 0 1 != kind) = false := by simp [hk]
  rw [command, if_neg (by omega), if_neg (by simp [hne]), hrun]

/-- A command that is done at once leaves what its own effect leaves. -/
theorem command_of_done {run : State → State} (hc : c < 2) (hk : s.cmd c 0 1 = kind) :
    command mn kind c s (fun s => some (run s)) = .next (run s) :=
  command_of_run hc hk rfl

end

/-! ### Each command by its own effect -/

section
variable {s t : State} {c : Nat} (hc : c < 2)
include hc

theorem exec_resume (hk : s.cmd c 0 1 = 1) : exec (.resume c) s = .next (s.runResume c) :=
  command_of_done (run := fun s => s.runResume c) hc hk

theorem exec_retry (hk : s.cmd c 0 1 = 2) : exec (.retry c) s = .next (s.runRetry c) :=
  command_of_done (run := fun s => s.runRetry c) hc hk

theorem exec_revoke (hk : s.cmd c 0 1 = 3) : exec (.revoke c) s = .next (s.runRevoke c) :=
  command_of_done (run := fun s => s.runRevoke c) hc hk

theorem exec_unrevoke (hk : s.cmd c 0 1 = 4) : exec (.unrevoke c) s = .next (s.runUnrevoke c) :=
  command_of_done (run := fun s => s.runUnrevoke c) hc hk

theorem exec_migrate (hk : s.cmd c 0 1 = 5) : exec (.migrate c) s = .next (s.runMigrate c) :=
  command_of_done (run := fun s => s.runMigrate c) hc hk

theorem exec_query (hk : s.cmd c 0 1 = 6) : exec (.query c) s = .next (s.runQuery c) :=
  command_of_done (run := fun s => s.runQuery c) hc hk

theorem exec_attest (hk : s.cmd c 0 1 = 7) : exec (.attest c) s = .next (s.runAttest c) :=
  command_of_done (run := fun s => s.runAttest c) hc hk

theorem exec_reserve (hk : s.cmd c 0 1 = 8) : exec (.reserve c) s = .next (s.runReserve c) :=
  command_of_done (run := fun s => s.runReserve c) hc hk

theorem exec_release (hk : s.cmd c 0 1 = 9) : exec (.release c) s = .next (s.runRelease c) :=
  command_of_done (run := fun s => s.runRelease c) hc hk

theorem exec_partner (hk : s.cmd c 0 1 = 12) : exec (.partner c) s = .next (s.runPartner c) :=
  command_of_done (run := fun s => s.runPartner c) hc hk

theorem exec_jstore (hk : s.cmd c 0 1 = 15) : exec (.jstore c) s = .next (s.runJstore c) :=
  command_of_done (run := fun s => s.runJstore c) hc hk

theorem exec_seqopen (hk : s.cmd c 0 1 = 10) (hrun : s.runSeqopen c = some t) : exec (.seqopen c) s = .next t :=
  command_of_run (run := fun s => s.runSeqopen c) hc hk hrun

theorem exec_seqclose (hk : s.cmd c 0 1 = 11) (hrun : s.runSeqclose c = some t) : exec (.seqclose c) s = .next t :=
  command_of_run (run := fun s => s.runSeqclose c) hc hk hrun

theorem exec_markdone (hk : s.cmd c 0 1 = 13) (hrun : s.runMarkdone c = some t) : exec (.markdone c) s = .next t :=
  command_of_run (run := fun s => s.runMarkdone c) hc hk hrun


/-- A complex's command is always answered. -/
theorem Command.answered {i : Instr} {kind : Nat} (hi : Command i kind c) (hk : s.cmd c 0 1 = kind) : ∃ t, exec i s = .next t := by
  cases hi with
  | resume => exact ⟨_, exec_resume hc hk⟩
  | retry => exact ⟨_, exec_retry hc hk⟩
  | revoke => exact ⟨_, exec_revoke hc hk⟩
  | unrevoke => exact ⟨_, exec_unrevoke hc hk⟩
  | migrate => exact ⟨_, exec_migrate hc hk⟩
  | query => exact ⟨_, exec_query hc hk⟩
  | attest => exact ⟨_, exec_attest hc hk⟩
  | reserve => exact ⟨_, exec_reserve hc hk⟩
  | release => exact ⟨_, exec_release hc hk⟩
  | seqopen => exact command_answers (run := fun s => s.runSeqopen c) hc hk
  | seqclose => exact command_answers (run := fun s => s.runSeqclose c) hc hk
  | partner => exact ⟨_, exec_partner hc hk⟩
  | markdone => exact command_answers (run := fun s => s.runMarkdone c) hc hk
  | jstore => exact ⟨_, exec_jstore hc hk⟩

/-- A command whose reserved bytes are not all zero ends INVALID (16 R358). -/
theorem Command.invalid {i : Instr} {kind : Nat} (hi : Command i kind c) (hk : s.cmd c 0 1 = kind)
    (hidle : kind = 3 ∨ kind = 5 → s.cmdBusy c = false) (hclean : s.cmdClean c (commandFields kind) = false)
    (hctx : kind = 10 → (s.context (s.cmdCtx c)).isSome) : exec i s = .next (s.cmdDone c 5) := by
  cases hi with
  | resume => rw [exec_resume hc hk, State.runResume, show s.cmdClean c [(0, 1), (4, 16)] = false from hclean]; rfl
  | retry => rw [exec_retry hc hk, State.runRetry, show s.cmdClean c [(0, 1), (4, 4)] = false from hclean]; rfl
  | revoke =>
    rw [exec_revoke hc hk, State.runRevoke, hidle (.inl rfl), State.rangeOk, show s.cmdClean c [(0, 1), (4, 4), (8, 16)] = false from hclean]
    rfl
  | unrevoke =>
    rw [exec_unrevoke hc hk, State.runUnrevoke, State.rangeOk, show s.cmdClean c [(0, 1), (4, 4), (8, 16)] = false from hclean]
    rfl
  | migrate =>
    rw [exec_migrate hc hk, State.runMigrate, hidle (.inr rfl), show s.cmdClean c [(0, 1), (4, 4), (8, 17)] = false from hclean]
    rfl
  | query => rw [exec_query hc hk, State.runQuery, show s.cmdClean c [(0, 1), (8, 12)] = false from hclean]; rfl
  | attest => rw [exec_attest hc hk, State.runAttest, show s.cmdClean c [(0, 1), (8, 24)] = false from hclean]; rfl
  | reserve => rw [exec_reserve hc hk, State.runReserve, show s.cmdClean c [(0, 1), (4, 7), (16, 32)] = false from hclean]; rfl
  | release => rw [exec_release hc hk, State.runRelease, show s.cmdClean c [(0, 1), (4, 4), (8, 8)] = false from hclean]; rfl
  | seqopen =>
    have hopen : s.seqopenOk c = false := by simp [State.seqopenOk, show s.cmdClean c [(0, 1), (4, 44)] = false from hclean]
    have hknown : (s.context (s.cmdCtx c)).isNone = false := by simpa [Option.isSome_iff_ne_none] using hctx rfl
    exact exec_seqopen hc hk (by rw [State.runSeqopen, hopen, hknown]; rfl)
  | seqclose => exact exec_seqclose hc hk (by rw [State.runSeqclose, show s.cmdClean c [(0, 1), (4, 8)] = false from hclean]; rfl)
  | partner => rw [exec_partner hc hk, State.runPartner, show s.cmdClean c [(0, 1), (4, 7), (12, 6)] = false from hclean]; rfl
  | markdone => exact exec_markdone hc hk (by rw [State.runMarkdone, show s.cmdClean c [(0, 1), (4, 20)] = false from hclean]; rfl)
  | jstore => rw [exec_jstore hc hk, State.runJstore, show s.cmdClean c [(0, 1), (4, 6), (16, 16)] = false from hclean]; rfl

/-- A command that is well formed and names no context ends NOTFOUND (16 R358). -/
theorem Command.notFound {i : Instr} {kind : Nat} (hi : Command i kind c) (hk : s.cmd c 0 1 = kind)
    (hidle : kind = 3 ∨ kind = 5 → s.cmdBusy c = false) (hclean : s.cmdClean c (commandFields kind) = true)
    (hctx : s.context (s.cmdCtx c) = none) (hkind : kind ∈ [2, 3, 4, 5, 10, 11, 12, 13]) (hput : wellPut s c kind) :
    exec i s = .next (s.cmdDone c 6) := by
  cases hi with
  | retry => simp [exec_retry hc hk, State.runRetry, hctx, show s.cmdClean c [(0, 1), (4, 4)] = true from hclean]
  | revoke =>
    obtain ⟨hbase, hsize⟩ := hput
    simp [exec_revoke hc hk, State.runRevoke, hidle, State.rangeOk, hctx, hbase, hsize,
      show s.cmdClean c [(0, 1), (4, 4), (8, 16)] = true from hclean]
  | unrevoke =>
    obtain ⟨hbase, hsize⟩ := hput
    simp [exec_unrevoke hc hk, State.runUnrevoke, State.rangeOk, hctx, hbase, hsize, show s.cmdClean c [(0, 1), (4, 4), (8, 16)] = true from hclean]
  | migrate =>
    have hsize : ¬ 2 < s.cmd c 24 1 := Nat.not_lt.2 hput
    simp [exec_migrate hc hk, State.runMigrate, hidle, hctx, hsize, show s.cmdClean c [(0, 1), (4, 4), (8, 17)] = true from hclean]
  | seqopen => exact exec_seqopen hc hk (by simp [State.runSeqopen, hctx])
  | seqclose => exact exec_seqclose hc hk (by simp [State.runSeqclose, hctx, show s.cmdClean c [(0, 1), (4, 8)] = true from hclean])
  | partner =>
    obtain ⟨hport, hpeer⟩ := hput
    simp [exec_partner hc hk, State.runPartner, hctx, Nat.not_lt.2 hport, Nat.not_le.2 hpeer,
      show s.cmdClean c [(0, 1), (4, 7), (12, 6)] = true from hclean]
  | markdone =>
    exact exec_markdone hc hk
      (by simp [State.runMarkdone, State.seq, hctx, show s.cmdClean c [(0, 1), (4, 20)] = true from hclean])
  | resume | query | attest | reserve | release | jstore => simp at hkind

end

end Sys2Proof.Machine

/-!
REVOKE and UNREVOKE, RESUME, RETRY, QUERY, ATTEST, RESERVE and RELEASE that are well formed (16 R358, 18 R388, R391, 19 R403).
-/

namespace Sys2Proof.Machine

/-! ### The latched command (16 R358) -/

section
variable (s : State) (c : Nat)

theorem natLE_take_succ (b : List Byte) (off n : Nat) :
    natLE ((b.drop off).take (n + 1)) = natLE ((b.drop off).take 1) + 256 * natLE ((b.drop (off + 1)).take n) := by
  cases h : b.drop off with
  | nil => simp [natLE, List.drop_eq_nil_iff.2 (show b.length ≤ off + 1 by have := List.drop_eq_nil_iff.1 h; omega)]
  | cons x r => simp [natLE, ← List.drop_drop, h]

/-- A field of the command, byte by byte. -/
theorem State.cmd_succ (off n : Nat) : s.cmd c off (n + 1) = s.cmd c off 1 + 256 * s.cmd c (off + 1) n := by
  unfold State.cmd
  cases s.cmdHeld.get c with
  | none => simp [State.win, Bytes.readLE, Nat.add_assoc]
  | some b => exact natLE_take_succ b off n

theorem State.cmd_zero (off : Nat) : s.cmd c off 0 = 0 := by
  unfold State.cmd
  cases s.cmdHeld.get c with
  | none => rfl
  | some b => simp [natLE]

theorem State.cmd_one_lt (off : Nat) : s.cmd c off 1 < 256 := by
  unfold State.cmd
  cases s.cmdHeld.get c with
  | none => exact (Bytes.readLE_lt _ _ 1)
  | some b =>
    cases h : b.drop off with
    | nil => simp [h, natLE]
    | cons x r => simpa [h, natLE] using x.isLt

theorem State.cmd_cmdStart_one {off : Nat} (h : off < 64) : (s.cmdStart c).cmd c off 1 = s.cmd c off 1 := by
  have hlt := s.cmd_one_lt c off
  have hheld : (s.cmdStart c).cmdHeld.get c = some ((List.range 64).map fun o => BitVec.ofNat 8 (s.cmd c o 1)) := Table.get_put_self _ _ _
  rw [State.cmd, hheld]
  dsimp only
  rw [List.drop_eq_getElem_cons (by simpa using h)]
  simp [natLE, Nat.mod_eq_of_lt hlt]

/-- A command that has begun reads as it was when it began. -/
theorem State.cmd_cmdStart {off n : Nat} (h : off + n ≤ 64) : (s.cmdStart c).cmd c off n = s.cmd c off n := by
  induction n generalizing off with
  | zero => rw [State.cmd_zero, State.cmd_zero]
  | succ n ih => rw [State.cmd_succ, s.cmd_succ, s.cmd_cmdStart_one c (by omega), ih (by omega)]

theorem State.cmd_cmdDone_of_ne {c d : Nat} (h : c ≠ d) (status off n : Nat) : (s.cmdDone d status).cmd c off n = s.cmd c off n := by
  have hheld : (s.cmdDone d status).cmdHeld.get c = s.cmdHeld.get c := Table.get_del_of_ne _ h
  rw [State.cmd, State.cmd, hheld]
  rfl

end

/-! ### REVOKEs that end (16 R358) -/

section
variable {s t : State} {c : Nat}

/-- Some placed group of the command's context has a launch with a lease over the command's range. -/
def State.revokeOpen (s : State) (c : Nat) : Bool :=
  s.launches.any fun l => l.ctx == s.cmd c 4 4 && (l.groups.any fun g => !g.2.packs.isEmpty) &&
    l.leases.any fun e => overlap e.base e.len (s.cmd c 8 8) (s.cmd c 16 8)

/-- A complex's REVOKE, where it holds one and no lease keeps it open, ends. -/
def State.settleRevoke (s : State) (c : Nat) : State :=
  if s.cmdStatus.getD c 0 == 1 && s.cmd c 0 1 == 3 then if s.revokeOpen c then s else s.cmdDone c 2 else s

theorem State.settleRevokes_eq_each (s : State) : s.settleRevokes = (s.settleRevoke 0).settleRevoke 1 := rfl

theorem State.settleRevoke_of_done (hbusy : s.cmdStatus.getD c 0 = 1) (hk : s.cmd c 0 1 = 3) (hopen : s.revokeOpen c = false) :
    s.settleRevoke c = s.cmdDone c 2 := by
  simp [State.settleRevoke, hbusy, hk, hopen]

theorem State.settleRevoke_eq_or (s : State) (c : Nat) : s.settleRevoke c = s ∨ s.settleRevoke c = s.cmdDone c 2 := by
  unfold State.settleRevoke
  split
  · split
    · exact .inl rfl
    · exact .inr rfl
  · exact .inl rfl

/-- Another complex's command ends and leaves what has ended. -/
theorem ended_cmdDone_of_ne {d status status' : Nat} (h : ended s t c status) (hne : c ≠ d) : ended s (t.cmdDone d status') c status := by
  obtain ⟨hstatus, hheld, l, e, hevents, -⟩ := h
  obtain ⟨e', he', hhead⟩ : ∃ e', (t.cmdDone d status').events = t.events ++ [e'] ∧ e'.bytes.head? = some 4 := ⟨_, rfl, rfl⟩
  exact ⟨(Table.getD_put_of_ne _ _ _ hne).trans hstatus, (Table.get_del_of_ne _ hne).trans hheld, l ++ [e], e',
    he'.trans (by simp [hevents]), hhead⟩

/-- A REVOKE that no lease keeps open ends, whatever the other complex's command does. -/
theorem ended_settleRevokes (hc : c < 2) (hevents : s.events <+: t.events) (hbusy : t.cmdStatus.getD c 0 = 1) (hk : t.cmd c 0 1 = 3)
    (hopen : t.revokeOpen c = false) : ended s t.settleRevokes c 2 := by
  rw [State.settleRevokes_eq_each]
  obtain rfl | rfl : c = 0 ∨ c = 1 := by omega
  · rw [State.settleRevoke_of_done hbusy hk hopen]
    obtain h | h := (t.cmdDone 0 2).settleRevoke_eq_or 1
    · rw [h]
      exact ended_cmdDone hevents 0 2
    · rw [h]
      exact ended_cmdDone_of_ne (ended_cmdDone hevents 0 2) (by decide)
  · obtain h | h := t.settleRevoke_eq_or 0
    · rw [h, State.settleRevoke_of_done hbusy hk hopen]
      exact ended_cmdDone hevents 1 2
    · have hcmd : ∀ off n, (t.cmdDone 0 2).cmd 1 off n = t.cmd 1 off n := t.cmd_cmdDone_of_ne (by decide) 2
      have hopen' : (t.cmdDone 0 2).revokeOpen 1 = false := by
        rw [← hopen, State.revokeOpen, State.revokeOpen]
        simp only [hcmd]
        rfl
      rw [h, State.settleRevoke_of_done ((Table.getD_put_of_ne _ _ _ (by decide)).trans hbusy) ((hcmd 0 1).trans hk) hopen']
      exact ended_cmdDone (hevents.trans (List.prefix_append _ _)) 1 2

theorem State.settleRevokes_contexts (s : State) : s.settleRevokes.contexts = s.contexts := by
  obtain ⟨_, _, _, h⟩ := s.settleRevokes_eq
  rw [h]

/-- With no lease over its range held by a launch that has a placed group, a command begins no action against a group. -/
theorem State.revokeGroups_of_closed (h : ∀ l ∈ s.launches, l.ctx = s.cmdCtx c → s.leaseIn c l = true → ∀ g ∈ l.groups, g.2.packs = []) :
    s.revokeGroups c = s := by
  have hnil : (s.launches.flatMap fun l =>
      if l.ctx == s.cmdCtx c && l.leased && s.leaseIn c l then
        (l.groups.filter fun g => !g.2.packs.isEmpty && !g.2.ended).map fun g => (l, g.1)
      else []) = [] := by
    refine List.flatMap_eq_nil_iff.2 fun l hl => ?_
    split
    · next hheld =>
      simp only [Bool.and_eq_true, beq_iff_eq] at hheld
      obtain ⟨⟨hctx, -⟩, hlease⟩ := hheld
      simp +contextual [h l hl hctx hlease]
    · rfl
  unfold State.revokeGroups
  rw [hnil]
  rfl

/-- A fold of steps that each leave some part of the state as it is leaves that part as it is. -/
theorem State.foldl_keeps {α β : Type} {g : State → β} {f : State → α → State} (h : ∀ s a, g (f s a) = g s) (l : List α) (s : State) :
    g (l.foldl f s) = g s := by
  induction l generalizing s with
  | nil => rfl
  | cons a l ih => rw [List.foldl_cons, ih, h]

@[simp] theorem State.modPack_contexts (s : State) (c n : Nat) (f : Pack → Pack) : (s.modPack c n f).contexts = s.contexts := by
  cases h : s.pack c n with
  | none => rw [State.modPack_of_none h]
  | some k => rw [State.modPack_of_some h, State.setPack_contexts]

theorem State.stopPacks_contexts (s : State) (ps : List (Nat × Nat × Pack)) (stop : Bool) : (s.stopPacks ps stop).contexts = s.contexts :=
  State.foldl_keeps (g := State.contexts) (fun s (p : Nat × Nat × Pack) => s.modPack_contexts p.1 p.2.1 _) ps s

@[simp] theorem State.beginVictim_contexts (s : State) (l : Launch) (g : Group) (v : Victim) (requester : Option Tag) :
    (s.beginVictim l g v requester).contexts = s.contexts := by
  cases v with
  | drain => exact State.foldl_keeps (g := State.contexts) (fun s (p : Nat × Nat) => s.setCore_contexts p.1 _) _ _
  | flush => exact State.stopPacks_contexts _ _ _
  | save =>
    exact (State.stopPacks_contexts _ _ _).trans
      (State.foldl_keeps (g := State.contexts) (fun s (t : Tag × Nat) => s.modGroup_contexts t.1 t.2 _) _ _)

theorem State.revokeGroups_contexts (s : State) (c : Nat) : (s.revokeGroups c).contexts = s.contexts := by
  refine State.foldl_keeps (g := State.contexts) (fun s p => ?_) _ s
  split
  · split
    · rfl
    · exact State.beginVictim_contexts _ _ _ _ _
  · rfl

/-- A REVOKE's hold stands from then on. -/
theorem State.context_runRevoke {x : Context} (hidle : s.cmdBusy c = false) (hrange : s.rangeOk c = true) (hx : s.context (s.cmdCtx c) = some x) :
    ∃ x', (s.runRevoke c).context x.num = some x' ∧ (s.cmd c 8 8, s.cmd c 16 8) ∈ x'.holds := by
  have hcontexts : (s.runRevoke c).contexts = (s.setContext { x with holds := x.holds ++ [(s.cmd c 8 8, s.cmd c 16 8)] }).contexts := by
    simp only [State.runRevoke, hidle, hrange, hx, Bool.not_true, Bool.false_eq_true, if_false]
    exact (State.settleRevokes_contexts _).trans (State.revokeGroups_contexts _ _)
  refine ⟨{ x with holds := x.holds ++ [(s.cmd c 8 8, s.cmd c 16 8)] }, ?_, List.mem_append_right _ (List.mem_singleton_self _)⟩
  rw [State.context, hcontexts]
  exact s.context_setContext_self _

/-- A REVOKE is done at once where no placed group of its context holds a lease over its range. -/
theorem State.ended_runRevoke (hc : c < 2) (hk : s.cmd c 0 1 = 3) (hidle : s.cmdBusy c = false) (hrange : s.rangeOk c = true)
    (hctx : (s.context (s.cmdCtx c)).isSome)
    (hfree : ∀ l ∈ s.launches, l.ctx = s.cmdCtx c → (∃ g ∈ l.groups, g.2.packs ≠ []) → ∀ e ∈ l.leases,
      overlap e.base e.len (s.cmd c 8 8) (s.cmd c 16 8) = false) : ended s (s.runRevoke c) c 2 := by
  obtain ⟨x, hx⟩ := Option.isSome_iff_exists.1 hctx
  let held : State := s.setContext { x with holds := x.holds ++ [(s.cmd c 8 8, s.cmd c 16 8)] }
  have hcmd {off n : Nat} (h : off + n ≤ 64) : (held.cmdStart c).cmd c off n = s.cmd c off n := held.cmd_cmdStart c h
  have hclosed : (held.cmdStart c).revokeGroups c = held.cmdStart c := by
    refine State.revokeGroups_of_closed fun l hl hlctx hlease g hg => ?_
    rw [State.cmdCtx, hcmd (by decide)] at hlctx
    rw [State.leaseIn, hcmd (by decide), hcmd (by decide)] at hlease
    obtain ⟨e, he, hover⟩ := List.any_eq_true.1 hlease
    by_contra hg'
    exact absurd hover (by simp [hfree l hl hlctx ⟨g, hg, hg'⟩ e he])
  have hopen : (held.cmdStart c).revokeOpen c = false := by
    rw [State.revokeOpen, hcmd (by decide), hcmd (by decide), hcmd (by decide)]
    refine List.any_eq_false.2 fun l hl hheld => ?_
    simp only [Bool.and_eq_true, beq_iff_eq] at hheld
    obtain ⟨⟨hlctx, hgroups⟩, hleases⟩ := hheld
    obtain ⟨g, hg, hpacks⟩ := List.any_eq_true.1 hgroups
    obtain ⟨e, he, hover⟩ := List.any_eq_true.1 hleases
    exact absurd hover (by simp [hfree l hl hlctx ⟨g, hg, by simpa using hpacks⟩ e he])
  have hrun : s.runRevoke c = (held.cmdStart c).settleRevokes := by
    simp only [State.runRevoke, hidle, hrange, hx, Bool.not_true, Bool.false_eq_true, if_false]
    exact congrArg State.settleRevokes hclosed
  rw [hrun]
  exact ended_settleRevokes hc List.prefix_rfl (Table.getD_put_self _ _ _ _) ((hcmd (by decide)).trans hk) hopen

/-! ### Commands done at once (16 R358, 18 R388, R391, 19 R403) -/

/-- UNREVOKE drops each hold equal to its own and is done (log entry 45). -/
theorem State.ended_runUnrevoke {x : Context} (hrange : s.rangeOk c = true) (hx : s.context (s.cmdCtx c) = some x) :
    ∃ x', ended s (s.runUnrevoke c) c 2 ∧ (s.runUnrevoke c).context x.num = some x' ∧ (s.cmd c 8 8, s.cmd c 16 8) ∉ x'.holds := by
  simp only [State.runUnrevoke, hrange, hx, Bool.not_true, Bool.false_eq_true, if_false]
  exact ⟨{ x with holds := x.holds.filter (· != (s.cmd c 8 8, s.cmd c 16 8)) }, ended_cmdDone List.prefix_rfl c 2, Table.get_put_self _ _ _,
    by simp⟩

theorem Split.leave_suspended (sp : Split) (pc : Word) (clock : Nat) : (sp.leave pc clock).suspended = false := by
  unfold Split.leave Split.goto
  split <;> rfl

/-- A split that RESUME names goes on as by `hret.skip`. -/
theorem State.ended_runResume {core slot : Nat} {k : Pack} {sp : Split} (hclean : s.cmdClean c [(0, 1), (4, 16)] = true) (hskip : s.cmd c 15 1 = 0)
    (hat : s.suspendedAt (s.cmdCtx c) (s.cmd c 16 4) (s.cmd c 8 4) (s.cmd c 12 2) (s.cmd c 14 1) = some (core, slot, k, sp)) :
    ∃ k' sp', ended s (s.runResume c) c 2 ∧ (s.runResume c).pack core slot = some k' ∧ k'.split sp.id = some sp' ∧ sp'.suspended = false ∧
      sp'.inh = false ∧ sp'.pc = s.skipFrom core k sp.trap.epc ∧ sp'.win = sp.saved := by
  have hrun : s.runResume c =
      let t := s.setPack core slot (k.setSplit (sp.leave (s.skipFrom core k sp.trap.epc) s.clock))
      ({ t with clock := t.clock + 1 } : State).cmdDone c 2 := by
    simp [State.runResume, hclean, hskip, hat]
  rw [hrun]
  exact ⟨_, sp.leave (s.skipFrom core k sp.trap.epc) s.clock, ended_cmdDone List.prefix_rfl c 2, s.pack_setPack_self core slot _,
    Pack.split_setSplit_of_id k (Split.goto_id _ _ _), Split.leave_suspended .., sp.leave_inh _ _, Split.goto_pc .., Split.goto_win ..⟩

/-- RETRY clears the failed pages of the context's launches and is done (log entry 45). -/
theorem State.ended_runRetry (hclean : s.cmdClean c [(0, 1), (4, 4)] = true) (hctx : (s.context (s.cmdCtx c)).isSome) :
    ended s (s.runRetry c) c 2 ∧ ∀ l ∈ (s.runRetry c).launches, l.ctx = s.cmdCtx c → l.failedPages = [] := by
  simp only [State.runRetry, hclean, Option.isNone_eq_false_iff.2 hctx, Bool.not_true, Bool.false_eq_true, if_false]
  refine ⟨ended_cmdDone List.prefix_rfl c 2, fun l hl hlctx => ?_⟩
  obtain ⟨l', -, rfl⟩ := List.mem_map.1 (show l ∈ mapIf _ _ s.launches from hl)
  split at hlctx
  · next hown => simp [hown]
  · next hown => exact absurd (by simpa using hlctx) hown

/-- QUERY writes how many cores are bound and the generation of their bindings (18 R391). -/
theorem State.ended_runQuery (hclean : s.cmdClean c [(0, 1), (8, 12)] = true) (halign : s.cmd c 8 8 % 8 = 0)
    (hdevice : inDevice (s.cmd c 8 8) (8 + 8 * min s.bindings.length (s.cmd c 16 4)) = true) :
    ended s (s.runQuery c) c 2 ∧ (s.runQuery c).mem.readLE (s.cmd c 8 8) 4 = s.bindings.length % 2 ^ 32 ∧
      (s.runQuery c).mem.readLE (s.cmd c 8 8 + 4) 4 = s.bindGen % 2 ^ 32 := by
  simp only [State.runQuery, hclean, halign, hdevice, bne_self_eq_false, Bool.not_true, Bool.or_self, Bool.false_eq_true, if_false]
  generalize (s.query.take _).flatMap Binding.entry = entries
  have hheld : (s.outsideWrite (s.cmd c 8 8) (bytesLE 4 s.bindings.length ++ bytesLE 4 s.bindGen ++ entries)).mem.holds (s.cmd c 8 8)
      (bytesLE 4 s.bindings.length ++ bytesLE 4 s.bindGen ++ entries) := by
    rw [State.outsideWrite_mem]
    exact Bytes.holds_writeList _ _ _
  obtain ⟨hlength, hgen⟩ := hheld.append.1.append
  exact ⟨ended_cmdDone (by simp) c 2, hlength.readLE, hgen.readLE⟩

/-- A report begins with its magic (18 R388). -/
theorem State.readLE_report (s : State) (nonce rest : List Byte) (m : Bytes) (a : Nat) :
    (m.writeList a (s.report nonce ++ rest)).readLE a 4 = 0x54455441 % 256 ^ 4 := by
  have hreport : s.report nonce = bytesLE 4 0x54455441 ++ (s.report nonce).drop 4 := rfl
  rw [hreport]
  exact (Bytes.holds_writeList m a _).append.1.append.1.readLE

/-- ATTEST writes its report (18 R388). -/
theorem State.ended_runAttest (hclean : s.cmdClean c [(0, 1), (8, 24)] = true) (halign : s.cmd c 24 8 % 64 = 0)
    (hdevice : inDevice (s.cmd c 24 8) 512 = true) :
    ended s (s.runAttest c) c 2 ∧ (s.runAttest c).mem.readLE (s.cmd c 24 8) 4 = 0x54455441 := by
  have hgood : (!s.cmdClean c [(0, 1), (8, 24)] || s.cmd c 24 8 % 64 != 0 || !inDevice (s.cmd c 24 8) 512) = false := by
    simp [hclean, halign, hdevice]
  rw [State.runAttest, hgood, if_neg Bool.false_ne_true]
  dsimp only
  generalize attestSignature _ _ = signature
  constructor
  · exact ended_cmdDone (by rw [State.outsideWrite_events]; exact List.prefix_rfl) c 2
  · rw [State.cmdDone_mem, State.outsideWrite_mem]
    exact s.readLE_report _ _ _ _

/-- RESERVE makes a reservation of the next number and returns that number (19 R403). -/
theorem State.ended_runReserve (hclean : s.cmdClean c [(0, 1), (4, 7), (16, 32)] = true) (hsome : s.cmd c 10 1 ≠ 0) (hplanes : s.cmd c 10 1 ≤ 15)
    (hlen : s.cmd c 32 8 % 65536 = 0) (htoken : s.cmd c 16 8 % 8 = 0) (hin : inDevice (s.cmd c 16 8) 8 = true)
    (hdest : inDevice (s.cmd c 24 8) (s.cmd c 32 8) = true) (hctx : (s.context (s.cmdCtx c)).isSome)
    (hup : ∀ j ∈ planesOf (s.cmd c 10 1), s.planeUp j (s.cmd c 8 2) = true) :
    ∃ r, ended s (s.runReserve c) c 2 ∧ (s.runReserve c).resvs.get s.nextResv = some r ∧ r.ctx = s.cmdCtx c ∧ r.peer = s.cmd c 8 2 ∧
      r.planes = s.cmd c 10 1 ∧ r.contiguous = 0 ∧ (s.runReserve c).nextResv = s.nextResv + 1 ∧
      (s.runReserve c).win (cmdAt c + 40) 8 = s.nextResv % 2 ^ 64 := by
  have hall : (planesOf (s.cmd c 10 1)).all (fun j => s.planeUp j (s.cmd c 8 2)) = true := List.all_eq_true.2 hup
  let r : Resv := { ctx := s.cmdCtx c, peer := s.cmd c 8 2, planes := s.cmd c 10 1, token := s.cmd c 16 8, dest := s.cmd c 24 8, len := s.cmd c 32 8 }
  have hrun : s.runReserve c =
      ({ s with resvs := s.resvs.put s.nextResv (s.settleResv r), nextResv := s.nextResv + 1 }.setWin (cmdAt c + 40) 8 s.nextResv).cmdDone c 2 := by
    simp [State.runReserve, hclean, hsome, Nat.not_lt.2 hplanes, hlen, htoken, hin, hdest, Option.isNone_eq_false_iff.2 hctx, hall, r]
  rw [hrun]
  exact ⟨s.settleResv r, ended_cmdDone List.prefix_rfl c 2, Table.get_put_self _ _ _, rfl, rfl, rfl, rfl, rfl, State.win_setWin_self _ _ _ _⟩

/-- RELEASE frees its reservation (19 R403). -/
theorem State.ended_runRelease {r : Resv} (hclean : s.cmdClean c [(0, 1), (4, 4), (8, 8)] = true) (hr : s.resvs.get (s.cmd c 8 8) = some r)
    (hown : r.ctx = s.cmdCtx c) : ended s (s.runRelease c) c 2 ∧ (s.runRelease c).resvs.get (s.cmd c 8 8) = none := by
  simp only [State.runRelease, hclean, hr, hown, Bool.not_true, Bool.false_eq_true, if_false, if_true]
  exact ⟨ended_cmdDone List.prefix_rfl c 2, Table.get_del_self _ _⟩

end

end Sys2Proof.Machine

/-!
The migration of a page (16 R354): what MIGRATE arms, and what its commit copies.
-/

namespace Sys2Proof.Machine

section
variable {s : State} {c : Nat}

/-! ### Arming a page's granules -/

/-- A byte with ARMED set. -/
theorem armed_byte (b : Byte) : BitVec.ofNat 8 (b.toNat ||| 2) = b ||| 2 := by
  apply BitVec.eq_of_toNat_eq
  have hlt : b.toNat ||| 2 < 256 := Nat.or_lt_two_pow (n := 8) b.isLt (by decide)
  rw [BitVec.toNat_ofNat, Nat.mod_eq_of_lt hlt]
  rfl

/-- Arming sets ARMED in each of the bytes and writes no other. -/
theorem State.get_armed (as : List Nat) (s : State) (a : Nat) :
    (as.foldl (fun s a => s.outsideWrite a (bytesLE 1 ((s.mem.get a).toNat ||| 2))) s).mem.get a =
      if a ∈ as then s.mem.get a ||| 2 else s.mem.get a := by
  induction as generalizing s with
  | nil => rfl
  | cons b as ih =>
    have hbyte : (s.outsideWrite b (bytesLE 1 ((s.mem.get b).toNat ||| 2))).mem.get a = if a = b then s.mem.get a ||| 2 else s.mem.get a := by
      rw [State.outsideWrite_mem, bytesLE, armed_byte, bytesLE, Bytes.writeList, Bytes.writeList, Bytes.get_set]
      split
      · next hab => rw [hab]
      · rfl
    rw [List.foldl_cons, ih, hbyte]
    by_cases hab : a = b
    · simp [hab, BitVec.or_assoc]
    · simp [hab]

/-- Arming a page sets ARMED in the byte of each granule. -/
theorem State.get_arm (s : State) (m : Migration) (map a : Nat) :
    (s.arm m map).1.mem.get a = if a ∈ attrBytes map m.oldPa m.size then s.mem.get a ||| 2 else s.mem.get a :=
  State.get_armed _ s a

/-! ### MIGRATE -/

/-- The size that a MIGRATE asks for. -/
def State.migrateSize (s : State) (c : Nat) : Nat := [4096, 65536, 2097152].getD (s.cmd c 24 1) 0

/-- The migration that a MIGRATE notes, its granules not yet armed. -/
def State.migrationOf (s : State) (c : Nat) (x : Context) (l : Leaf) : Migration :=
  { ctx := x.num, va := s.cmd c 8 8 / s.migrateSize c * s.migrateSize c, newPa := s.cmd c 16 8, size := s.migrateSize c
    oldPa := leafBase l.entry (s.migrateSize c), leafAt := l.at_, leaf := l.entry, armed := [] }

theorem State.migrateSize_eq (h : s.cmd c 24 1 ≤ 2) :
    (if s.cmd c 24 1 = 0 then 4096 else if s.cmd c 24 1 = 1 then 65536 else 2 * 2 ^ 20) = s.migrateSize c := by
  unfold State.migrateSize
  generalize s.cmd c 24 1 = z at h
  obtain rfl | rfl | rfl : z = 0 ∨ z = 1 ∨ z = 2 := by omega
  · rfl
  · rfl
  · rfl

/-- A MIGRATE that may move its page finds it held by a launch, or arms it and goes on (16 R354). -/
theorem State.runMigrate_of_movable {x : Context} {l : Leaf} (hidle : s.cmdBusy c = false) (hclean : s.cmdClean c (commandFields 5) = true)
    (hz : s.cmd c 24 1 ≤ 2) (hx : s.context (s.cmdCtx c) = some x)
    (hmove : movable s x (s.cmd c 8 8) (s.cmd c 16 8) (s.migrateSize c) l) :
    s.runMigrate c =
      if s.pageLeased x.num (s.cmd c 8 8 / s.migrateSize c * s.migrateSize c) (s.migrateSize c) then s.cmdDone c 4
      else
        let t := s.arm (s.migrationOf c x l) x.attrMap
        ({ t.1 with migrations := t.1.migrations.put c t.2 } : State).cmdStart c := by
  obtain ⟨hcanonical, hleaf, hsize, halign, hdevice, hattr, hother⟩ := hmove
  have hclean' : s.cmdClean c [(0, 1), (4, 4), (8, 17)] = true := hclean
  simp only [State.runMigrate, hidle, State.migrateSize_eq hz, hclean', Nat.not_lt.2 hz, hx, hcanonical, hleaf, hsize, halign, hdevice, hattr,
    hother, bne_self_eq_false, Bool.not_true, Bool.or_self, decide_false, Bool.false_eq_true, if_false, if_true]
  rfl

theorem State.runMigrate_of_leased {x : Context} {l : Leaf} (hidle : s.cmdBusy c = false) (hclean : s.cmdClean c (commandFields 5) = true)
    (hz : s.cmd c 24 1 ≤ 2) (hx : s.context (s.cmdCtx c) = some x)
    (hmove : movable s x (s.cmd c 8 8) (s.cmd c 16 8) (s.migrateSize c) l)
    (hleased : s.pageLeased x.num (s.cmd c 8 8 / s.migrateSize c * s.migrateSize c) (s.migrateSize c) = true) :
    ended s (s.runMigrate c) c 4 := by
  rw [State.runMigrate_of_movable hidle hclean hz hx hmove, if_pos hleased]
  exact ended_cmdDone_self s c 4

/-! ### The copy -/

/-- Cells set in rising order of address read as they stand in their list. -/
theorem Bytes.get_foldl_set {l : List (Nat × Byte)} (hl : sortedKeys l = true) {src : Nat} (hsrc : ∀ e ∈ l, src ≤ e.1) (dst j : Nat)
    (m : Bytes) :
    (l.foldl (fun m e => Bytes.set m (dst + (e.1 - src)) e.2) m).get (dst + j) = (Table.get l (src + j)).getD (m.get (dst + j)) := by
  induction l generalizing m with
  | nil => rfl
  | cons e l ih =>
    obtain ⟨hhead, htail⟩ := List.pairwise_cons.1 (sortedKeys_iff.1 hl)
    have he := hsrc e List.mem_cons_self
    rw [List.foldl_cons, ih (sortedKeys_iff.2 htail) fun e' he' => hsrc e' (List.mem_cons_of_mem _ he'), Bytes.get_set, Table.get]
    by_cases hkey : e.1 = src + j
    · have hnone : Table.get l (src + j) = none := by
        refine Option.eq_none_iff_forall_ne_some.2 fun v hv => ?_
        have := hhead _ (Table.mem_of_get hv)
        omega
      rw [if_pos hkey, hnone, if_pos (by omega)]
      rfl
    · rw [if_neg hkey, if_neg (by omega)]

/-- A copy of a range holds what the range held. -/
theorem Bytes.get_copyRange {m : Bytes} (hm : Memory.wf m = true) {src dst n j : Nat} (hj : j < n) :
    (m.copyRange src dst n).get (dst + j) = m.get (src + j) := by
  obtain ⟨hsorted, -⟩ := Store.wf_iff.1 hm
  have hcells := Table.get_filter_key m (fun a => decide (src ≤ a) && decide (a < src + n)) (src + j)
  rw [if_pos (by simpa using hj)] at hcells
  have hsrc : ∀ e ∈ m.filter (fun e => decide (src ≤ e.1) && decide (e.1 < src + n)), src ≤ e.1 := by simp +contextual
  have hcleared : (m.clear dst (dst + n)).get (dst + j) = 0 := by rw [Bytes.get_clear, if_pos (by omega)]
  rw [Bytes.copyRange, Bytes.get_foldl_set (sortedKeys_filter _ hsorted) hsrc, hcleared, hcells]
  rfl

theorem State.copyPage_mem (s : State) (src dst n : Nat) : (s.copyPage src dst n).mem = s.mem.copyRange src dst n := by
  show (((lines128 dst n).foldl (fun s l => s.takeLine none l) s).mem).copyRange src dst n = _
  rw [State.foldl_mem fun s l => s.takeLine_mem none l]

theorem State.unaccessed_copyPage (s : State) (src dst n : Nat) : (s.copyPage src dst n).unaccessed = s.unaccessed :=
  State.foldl_keeps (g := State.unaccessed) (fun s l => s.unaccessed_takeLine none l) (lines128 dst n) s

/-! ### The commit -/

theorem State.unaccessed_moveLeaf (s : State) (m : Migration) : (s.moveLeaf m).unaccessed = s.unaccessed :=
  State.foldl_keeps (g := State.unaccessed) (fun s a => s.unaccessed_outsideWrite a _) _ s

theorem State.unaccessed_disarm (s : State) (m : Migration) : (s.disarm m).unaccessed = s.unaccessed := by
  refine State.foldl_keeps (g := State.unaccessed) (fun s (e : Nat × Nat) => ?_) _ s
  dsimp only
  split
  · exact s.unaccessed_outsideWrite _ _
  · rfl

/-- The leaf of a 4 KiB page is one entry of eight bytes. -/
theorem State.get_moveLeaf {m : Migration} (hsize : m.size = 4096) {a : Nat} (ha : a < m.leafAt ∨ m.leafAt + 8 ≤ a) (s : State) :
    (s.moveLeaf m).mem.get a = s.mem.get a := by
  have hone : s.moveLeaf m = s.outsideWrite m.leafAt (bytesLE 8 (pteMoved (s.mem.readLE m.leafAt 8) m.newPa m.size)) := by
    rw [State.moveLeaf, if_neg (by omega)]
    rfl
  rw [hone, State.outsideWrite_mem, Bytes.get_writeList_of_outside]
  simpa using ha

/-- Disarming writes the granules' bytes only. -/
theorem State.get_disarm {m : Migration} {a : Nat} (ha : ∀ e ∈ m.armed, e.1 ≠ a) (s : State) : (s.disarm m).mem.get a = s.mem.get a := by
  unfold State.disarm
  generalize m.armed = armed at ha
  induction armed generalizing s with
  | nil => rfl
  | cons e armed ih =>
    rw [List.foldl_cons, ih _ fun e' he' => ha e' (List.mem_cons_of_mem _ he')]
    dsimp only
    split
    · have hne := ha e List.mem_cons_self
      rw [State.outsideWrite_mem, Bytes.get_writeList_of_outside]
      simp only [bytesLE, List.length_singleton]
      omega
    · rfl

/-- The state once a migration's page is copied. -/
def State.copied (s : State) (c : Nat) (m : Migration) : State :=
  ({ s with migrations := s.migrations.del c } : State).copyPage m.oldPa m.newPa m.size

theorem State.unaccessed_copied (s : State) (c : Nat) (m : Migration) :
    (s.copied c m).unaccessed = ({ s with migrations := s.migrations.del c } : State).unaccessed :=
  State.unaccessed_copyPage _ _ _ _

/-- A commit whose page is busy no longer ends, by whether a granule was disturbed (16 R354). -/
theorem execMigrateCommit_next {m : Migration} (hm : s.migrations.get c = some m) (hctx : (s.context m.ctx).isSome)
    (hidle : s.pageBusy m.oldPa m.size = false) : exec (.migrateCommit c) s =
      .next (if s.undisturbed m then (((s.copied c m).moveLeaf m).disarm m).cmdDone c 2 else ((s.copied c m).disarm m).cmdDone c 3) := by
  show execMigrateCommit c s = _
  simp only [execMigrateCommit, hm, hidle, Option.isNone_eq_false_iff.2 hctx, Bool.false_eq_true, if_false]
  split
  · rfl
  · rfl

/-- A command that ends after memory writes only has ended, and its complex has no migration left. -/
theorem State.ended_copied {m : Migration} {t : State} (ht : t.unaccessed = (s.copied c m).unaccessed) (status : Nat) :
    ended s (t.cmdDone c status) c status ∧ (t.cmdDone c status).migrations.get c = none := by
  have hall := ht.trans (s.unaccessed_copied c m)
  have hevents : t.events = s.events := (congrArg State.events hall :)
  have hmigrations : t.migrations = s.migrations.del c := (congrArg State.migrations hall :)
  refine ⟨ended_cmdDone (by rw [hevents]) c status, ?_⟩
  show t.migrations.get c = none
  rw [hmigrations]
  exact Table.get_del_self _ _

/-- The new page holds what the old one held, where neither the leaf nor a granule's byte lies in it (log entry 46). -/
theorem State.get_committed (hmem : s.memOk) {m : Migration} (hsize : m.size = 4096)
    (hleaf : m.leafAt + 8 ≤ m.newPa ∨ m.newPa + 4096 ≤ m.leafAt) (harmed : ∀ e ∈ m.armed, e.1 < m.newPa ∨ m.newPa + 4096 ≤ e.1)
    {j : Nat} (hj : j < 4096) : ((((s.copied c m).moveLeaf m).disarm m).cmdDone c 2).mem.get (m.newPa + j) = s.mem.get (m.oldPa + j) := by
  have hattr : ∀ e ∈ m.armed, e.1 ≠ m.newPa + j := fun e he => by have := harmed e he; omega
  rw [State.cmdDone_mem, State.get_disarm hattr, State.get_moveLeaf hsize (by omega), State.copied, State.copyPage_mem, hsize]
  exact Bytes.get_copyRange hmem hj

end

/-! ### The statement's part on REVOKE and MIGRATE -/

/-- What a REVOKE and a MIGRATE come to (16 R354, R358). -/
theorem revokesAndMigrates_holds : revokesAndMigrates := by
  refine ⟨fun c s hc hrange hctx hk hidle hfree => ⟨_, exec_revoke hc hk, State.ended_runRevoke hc hk hidle hrange hctx hfree⟩, ?_⟩
  intro c s x l hc hk hidle hclean hz hx size page hmove
  refine ⟨fun hleased => ⟨_, exec_migrate hc hk, State.runMigrate_of_leased hidle hclean hz hx hmove hleased⟩, fun hfree => ?_⟩
  have hrun := State.runMigrate_of_movable hidle hclean hz hx hmove
  rw [if_neg (by exact Bool.eq_false_iff.1 hfree)] at hrun
  refine ⟨_, (s.arm (s.migrationOf c x l) x.attrMap).2, (exec_migrate hc hk).trans (congrArg _ hrun), Table.get_put_self _ _ _, ?_, rfl, rfl, rfl,
    rfl, rfl, rfl, rfl, fun a ha => ?_, fun a ha => ?_⟩
  · exact beq_iff_eq.2 (Table.getD_put_self _ _ _ _)
  · exact (s.get_arm (s.migrationOf c x l) x.attrMap a).trans (if_pos ha)
  · exact (s.get_arm (s.migrationOf c x l) x.attrMap a).trans (if_neg ha)

end Sys2Proof.Machine

/-!
The journal's commands that are well formed (20 R409, R410, R414, R415, R418), with the statement O49.
-/

namespace Sys2Proof.Machine

section
variable {s : State} {c : Nat}

/-! ### Shipping and appending (20 R412, R413) -/

@[simp] theorem State.ship_events (s : State) (ctx n : Nat) : (s.ship ctx n).events = s.events := by
  unfold State.ship
  split
  · split
    · rfl
    · dsimp only
      split <;> rfl
  · rfl

@[simp] theorem State.appendRecord_events (s : State) (ctx n kind ord pos : Nat) (payload : DWord) :
    (s.appendRecord ctx n kind ord pos payload).events = s.events :=
  State.ship_events _ ctx n

theorem State.closeSeq_events (s : State) (ctx n : Nat) : (s.closeSeq ctx n).events = s.events := by
  unfold State.closeSeq
  split
  · rfl
  · next q _ =>
    exact (State.appendRecord_events _ ctx n 8 0 q.next 0).trans
      (State.foldl_keeps (g := State.events) (fun s p => s.appendRecord_events ctx n 7 0 p 0) q.left s)

/-- A sequence that is closed is open no more. -/
theorem State.seq_closeSeq (s : State) (ctx n : Nat) : (s.closeSeq ctx n).seq ctx n = none := by
  unfold State.closeSeq
  split
  · assumption
  · next q _ =>
    generalize (q.left.foldl _ s).appendRecord ctx n 8 0 q.next 0 = t
    have hctx : (t.modContext ctx fun c => { c with seqs := c.seqs.del n }).context ctx =
        (t.context ctx).map fun c => { c with seqs := c.seqs.del n } := Table.get_update_self _ _ _
    rw [State.seq, hctx]
    cases t.context ctx with
    | none => rfl
    | some x => exact Table.get_del_self _ _

/-- Shipping leaves a context's partner. -/
theorem State.partner_ship (s : State) (ctx n : Nat) :
    ((s.ship ctx n).context ctx).map (·.partner) = (s.context ctx).map (·.partner) := by
  unfold State.ship
  split
  · split
    · rfl
    · have hctx (t : State) (f : Seq → Seq) : ((t.modSeq ctx n f).context ctx).map (·.partner) = (t.context ctx).map (·.partner) := by
        rw [State.modSeq, State.context, State.modContext, Table.get_update_self, Option.map_map]
        rfl
      refine (hctx _ _).trans ?_
      split <;> rfl
  · rfl

/-! ### SEQOPEN, SEQCLOSE and MARKDONE (20 R410) -/

/-- The records that a SEQOPEN gives. -/
def State.openGiven (s : State) (c : Nat) : List JRec :=
  if s.cmd c 16 1 = 1 then s.givenRecords (s.cmd c 32 8) (s.cmd c 40 4) else []

/-- The sequence that a SEQOPEN opens. -/
def State.openedSeq (s : State) (c : Nat) : Seq :=
  let q : Seq :=
    { seq := s.cmd c 8 4, next := s.cmd c 12 4, emit := s.cmd c 12 4, durable := none, port := s.cmd c 17 1, dmac := s.cmd c 18 6
      client := s.cmd c 24 8 }
  if s.cmd c 16 1 = 1 then q.replayed (s.openGiven c) (posOf (s.cmd c 44 4)) else q

/-- A sequence opens at its START, and given records are the start of its stream (20 R410, R418). -/
theorem State.openedSeq_eq (s : State) (c : Nat) : (s.openedSeq c).seq = s.cmd c 8 4 ∧ (s.openedSeq c).next = s.cmd c 12 4 ∧
    (s.openedSeq c).emit = s.cmd c 12 4 ∧ (s.openedSeq c).stream = s.openGiven c ∧ (s.openedSeq c).held = [] ∧ (s.openedSeq c).marks = [] := by
  unfold State.openedSeq
  dsimp only
  by_cases hmode : s.cmd c 16 1 = 1
  · rw [if_pos hmode]
    exact ⟨rfl, rfl, rfl, rfl, rfl, rfl⟩
  · rw [if_neg hmode]
    exact ⟨rfl, rfl, rfl, (if_neg hmode).symm, rfl, rfl⟩

theorem State.runSeqopen_of_ok (hctx : (s.context (s.cmdCtx c)).isSome) (hopen : s.seqopenOk c = true)
    (hturn : s.recordTurn (s.cmdCtx c) none (s.openGiven c).length = true) :
    s.runSeqopen c = some (((s.modContext (s.cmdCtx c) fun x => { x with seqs := x.seqs.put (s.openedSeq c).seq (s.openedSeq c) }).ship (s.cmdCtx c)
      (s.openedSeq c).seq).cmdDone c 2) := by
  have hrun : s.runSeqopen c = if !s.recordTurn (s.cmdCtx c) none (s.openGiven c).length then none
      else some (((s.modContext (s.cmdCtx c) fun x => { x with seqs := x.seqs.put (s.openedSeq c).seq (s.openedSeq c) }).ship (s.cmdCtx c)
        (s.openedSeq c).seq).cmdDone c 2) := by
    simp only [State.runSeqopen, Option.isNone_eq_false_iff.2 hctx, hopen, Bool.not_true, Bool.false_eq_true, if_false]
    rfl
  rw [hrun, hturn]
  rfl

theorem State.ended_runSeqopen (hctx : (s.context (s.cmdCtx c)).isSome) (hopen : s.seqopenOk c = true)
    (hturn : s.recordTurn (s.cmdCtx c) none (s.openGiven c).length = true) :
    ∃ t q, s.runSeqopen c = some t ∧ ended s t c 2 ∧ t.seq (s.cmdCtx c) (s.cmd c 8 4) = some q ∧ q.next = s.cmd c 12 4 ∧
      q.emit = s.cmd c 12 4 ∧ q.stream = s.openGiven c ∧ q.held = [] ∧ q.marks = [] := by
  obtain ⟨x, hx⟩ := Option.isSome_iff_exists.1 hctx
  obtain ⟨hnum, hfields⟩ := s.openedSeq_eq c
  have hrun := State.runSeqopen_of_ok hctx hopen hturn
  rw [hnum] at hrun
  have hput : (s.modContext (s.cmdCtx c) fun x => { x with seqs := x.seqs.put (s.cmd c 8 4) (s.openedSeq c) }).seq (s.cmdCtx c) (s.cmd c 8 4) =
      some (s.openedSeq c) := by
    rw [State.seq, State.context, State.modContext, Table.get_update_self, show s.contexts.get (s.cmdCtx c) = some x from hx]
    exact Table.get_put_self _ _ _
  obtain ⟨m, hm⟩ := State.seq_ship hput
  exact ⟨_, _, hrun, ended_cmdDone (by rw [State.ship_events]; exact List.prefix_rfl) c 2, hm, hfields⟩

/-- A sequence with no emission left to leave closes. -/
theorem State.ended_runSeqclose {x : Context} {q : Seq} (hclean : s.cmdClean c [(0, 1), (4, 8)] = true) (hx : s.context (s.cmdCtx c) = some x)
    (hq : s.seq (s.cmdCtx c) (s.cmd c 8 4) = some q) (hleft : s.releasing x q = false)
    (hturn : s.recordTurn (s.cmdCtx c) (some (.left (s.cmd c 8 4))) (q.left.length + 1) = true) :
    ∃ t, s.runSeqclose c = some t ∧ ended s t c 2 ∧ t.seq (s.cmdCtx c) (s.cmd c 8 4) = none := by
  refine ⟨(s.closeSeq (s.cmdCtx c) (s.cmd c 8 4)).cmdDone c 2, by simp [State.runSeqclose, hclean, hx, hq, hleft, hturn], ?_, ?_⟩
  · exact ended_cmdDone (by rw [State.closeSeq_events]) c 2
  · exact s.seq_closeSeq _ _

/-- A sequence whose mark is done: DURABLE is the mark's position at least. -/
def Seq.markDone (q : Seq) (mark : Nat × DWord) : Seq :=
  { q with durable := some (q.durable.elim mark.1 fun d => max d mark.1), marks := q.marks.erase mark }

theorem Seq.durable_markDone (q : Seq) (mark : Nat × DWord) :
    ∃ d, (q.markDone mark).durable = some d ∧ mark.1 ≤ d ∧ ∀ e, q.durable = some e → e ≤ d := by
  refine ⟨q.durable.elim mark.1 fun d => max d mark.1, rfl, ?_⟩
  cases q.durable with
  | none => exact ⟨Nat.le_refl _, nofun⟩
  | some d => exact ⟨Nat.le_max_right d _, fun e he => Option.some.inj he ▸ Nat.le_max_left d _⟩

/-- MARKDONE does its mark and appends its record. -/
theorem State.ended_runMarkdone {q : Seq} (hclean : s.cmdClean c [(0, 1), (4, 20)] = true) (hq : s.seq (s.cmdCtx c) (s.cmd c 8 4) = some q)
    (hmark : (s.cmd c 12 4, BitVec.ofNat 64 (s.cmd c 16 8)) ∈ q.marks) (hturn : s.recordTurn (s.cmdCtx c) none 1 = true) :
    ∃ t q' d, s.runMarkdone c = some t ∧ ended s t c 2 ∧ t.seq (s.cmdCtx c) (s.cmd c 8 4) = some q' ∧ q'.durable = some d ∧
      s.cmd c 12 4 ≤ d ∧ ∀ e, q.durable = some e → e ≤ d := by
  have hrun : s.runMarkdone c = some (((s.modSeq (s.cmdCtx c) (s.cmd c 8 4) (·.markDone (s.cmd c 12 4, BitVec.ofNat 64 (s.cmd c 16 8)))).appendRecord
      (s.cmdCtx c) (s.cmd c 8 4) 5 0 (s.cmd c 12 4) (BitVec.ofNat 64 (s.cmd c 16 8))).cmdDone c 2) := by
    simp [State.runMarkdone, hclean, hq, hmark, hturn, Seq.markDone]
  have hseq : (s.modSeq (s.cmdCtx c) (s.cmd c 8 4) (·.markDone (s.cmd c 12 4, BitVec.ofNat 64 (s.cmd c 16 8)))).seq (s.cmdCtx c) (s.cmd c 8 4) =
      some (q.markDone (s.cmd c 12 4, BitVec.ofNat 64 (s.cmd c 16 8))) := by
    rw [State.seq_modSeq_self, hq, Option.map_some]
  obtain ⟨m, hm⟩ := State.seq_appendRecord hseq 5 0 (s.cmd c 12 4) (BitVec.ofNat 64 (s.cmd c 16 8))
  obtain ⟨d, hd, hle⟩ := q.durable_markDone (s.cmd c 12 4, BitVec.ofNat 64 (s.cmd c 16 8))
  exact ⟨_, _, d, hrun, ended_cmdDone (by rw [State.appendRecord_events]; exact List.prefix_rfl) c 2, hm, hd, hle⟩

/-! ### PARTNER and JSTORE (20 R414, R415) -/

@[simp] theorem State.watch_contexts (s : State) (peer : Nat) : (s.watch peer).contexts = s.contexts := by
  unfold State.watch
  split <;> rfl

@[simp] theorem State.watch_events (s : State) (peer : Nat) : (s.watch peer).events = s.events := by
  unfold State.watch
  split <;> rfl

@[simp] theorem State.watch_stores (s : State) (peer : Nat) : (s.watch peer).stores = s.stores := by
  unfold State.watch
  split <;> rfl

/-- The partner that a PARTNER names; it counts as silent where it is the present one and silent still (log entry 47). -/
def State.partnerOf (s : State) (c : Nat) (x : Context) : Partner :=
  { peer := s.cmd c 8 2, ethernet := s.cmd c 10 1 == 1, pmac := s.cmd c 12 6
    silent := !(x.partner.elim true fun p => p.peer != s.cmd c 8 2) && (s.peers.getD (s.cmd c 8 2) {}).silent }

/-- PARTNER makes its peer the context's partner. -/
theorem State.ended_runPartner {x : Context} (hclean : s.cmdClean c [(0, 1), (4, 7), (12, 6)] = true) (hport : s.cmd c 10 1 ≤ 1)
    (hpeer : s.cmd c 8 2 < 1024) (hx : s.context (s.cmdCtx c) = some x) :
    ∃ x', ended s (s.runPartner c) c 2 ∧ (s.runPartner c).context x.num = some x' ∧ x'.partner = some (s.partnerOf c x) := by
  simp only [State.runPartner, hclean, Nat.not_lt.2 hport, Nat.not_le.2 hpeer, hx, Bool.not_true, Bool.or_self, decide_false, Bool.false_eq_true,
    if_false]
  generalize hnew : ((s.setContext _).watch (s.cmd c 8 2)).unwatch = t
  have hevents : t.events = s.events := by
    rw [← hnew]
    exact State.watch_events _ _
  have hpartner : (t.context x.num).map (·.partner) = some (some (s.partnerOf c x)) := by
    rw [← hnew, State.context, show ∀ u : State, u.unwatch.contexts = u.contexts from fun _ => rfl, State.watch_contexts]
    exact congrArg (Option.map _) (State.context_setContext_self _ _)
  generalize hend : (if (x.partner.elim true fun p => p.peer != s.cmd c 8 2) = true then
    (x.seqs.map fun (e : Nat × Seq) => e.1).foldl (fun (t : State) q => t.ship x.num q) t else t) = u
  have hkept : u.events = t.events ∧ (u.context x.num).map (·.partner) = (t.context x.num).map (·.partner) := by
    rw [← hend]
    split
    · exact ⟨State.foldl_keeps (g := State.events) (fun s q => s.ship_events x.num q) _ t,
        State.foldl_keeps (g := fun s => (s.context x.num).map (·.partner)) (fun s q => s.partner_ship x.num q) _ t⟩
    · exact ⟨rfl, rfl⟩
  obtain ⟨x', hx', hp⟩ := Option.map_eq_some_iff.1 (hkept.2.trans hpartner)
  exact ⟨x', ended_cmdDone (by rw [hkept.1, hevents]) c 2, hx', hp⟩

/-- A partner that is not silent, or not the present one, counts as live. -/
theorem State.partnerOf_silent (s : State) (c : Nat) (x : Context) :
    ((s.peers.getD (s.partnerOf c x).peer {}).silent = false → (s.partnerOf c x).silent = false) ∧
      ((∀ o, x.partner = some o → o.peer ≠ (s.partnerOf c x).peer) → (s.partnerOf c x).silent = false) := by
  refine ⟨fun h => by rw [State.partnerOf, show (s.peers.getD (s.cmd c 8 2) {}).silent = false from h, Bool.and_false], fun h => ?_⟩
  have hchanged : (x.partner.elim true fun p => p.peer != s.cmd c 8 2) = true := by
    cases hp : x.partner with
    | none => rfl
    | some o => exact bne_iff_ne.2 (h o hp)
  rw [State.partnerOf, hchanged]
  rfl

/-- JSTORE gives the store of a source. -/
theorem State.ended_runJstore (hclean : s.cmdClean c [(0, 1), (4, 6), (16, 16)] = true) (hsource : s.cmd c 8 2 < 1024)
    (hdevice : inDevice (s.cmd c 16 8) (s.cmd c 24 8) = true) :
    ended s (s.runJstore c) c 2 ∧ (s.runJstore c).stores.get (s.cmd c 8 2) = some { base := s.cmd c 16 8, size := s.cmd c 24 8 } := by
  simp only [State.runJstore, hclean, Nat.not_le.2 hsource, hdevice, Bool.not_true, Bool.or_self, decide_false, Bool.false_eq_true, if_false]
  refine ⟨ended_cmdDone (by rw [State.watch_events]) c 2, ?_⟩
  rw [show ∀ u : State, (u.cmdDone c 2).stores = u.stores from fun _ => rfl, State.watch_stores]
  exact Table.get_put_self _ _ _

end

/-- Settles O49, command by command: what a command's own effect leaves, its COMMAND event raised last. -/
theorem commandResults : Obligations.CommandResults := by
  refine ⟨fun i kind c s hi hc hk => hi.answered hc hk,
    fun i kind c s hi hc hk hidle => ⟨fun hclean hctx => ?_, fun hctx hkind hclean hput => ?_⟩,
    revokesAndMigrates_holds, ?_, ?_, ?_, ?_, ?_, ?_, ?_, ?_, ?_, ?_, ?_, ?_, ?_⟩
  · exact ⟨_, hi.invalid hc hk hidle hclean hctx, ended_cmdDone_self s c 5⟩
  · exact ⟨_, hi.notFound hc hk hidle hclean hctx hkind hput, ended_cmdDone_self s c 6⟩
  · intro c s core slot k sp hc hk hclean hskip hat
    obtain ⟨k', sp', hend, hrest⟩ := State.ended_runResume hclean hskip hat
    exact ⟨_, k', sp', exec_resume hc hk, hend, hrest⟩
  · intro c s hc hk hclean hctx
    exact ⟨_, exec_retry hc hk, State.ended_runRetry hclean hctx⟩
  · intro c s x hc hrange hx
    refine ⟨fun hk hidle => ?_, fun hk => ?_⟩
    · obtain ⟨x', hx', hhold⟩ := State.context_runRevoke hidle hrange hx
      exact ⟨_, x', exec_revoke hc hk, hx', hhold⟩
    · obtain ⟨x', hend, hx', hhold⟩ := State.ended_runUnrevoke hrange hx
      exact ⟨_, x', exec_unrevoke hc hk, hend, hx', hhold⟩
  · intro c s hc hk hclean halign hdevice
    exact ⟨_, exec_query hc hk, State.ended_runQuery hclean halign hdevice⟩
  · intro c s hc hk hclean halign hdevice
    exact ⟨_, exec_attest hc hk, State.ended_runAttest hclean halign hdevice⟩
  · intro c s hc hk hclean hsome hplanes hlen htoken hin hdest hctx hup
    obtain ⟨r, hend, hrest⟩ := State.ended_runReserve hclean hsome hplanes hlen htoken hin hdest hctx hup
    exact ⟨_, r, exec_reserve hc hk, hend, hrest⟩
  · intro c s r hc hk hclean hr hown
    exact ⟨_, exec_release hc hk, State.ended_runRelease hclean hr hown⟩
  · intro c s hc hk hctx hopen given hturn
    obtain ⟨t, q, hrun, hrest⟩ := State.ended_runSeqopen hctx hopen hturn
    exact ⟨t, q, exec_seqopen hc hk hrun, hrest⟩
  · intro c s x q hc hk hclean hx hq hleft hturn
    obtain ⟨t, hrun, hrest⟩ := State.ended_runSeqclose hclean hx hq hleft hturn
    exact ⟨t, exec_seqclose hc hk hrun, hrest⟩
  · intro c s x hc hk hclean hport hpeer hx
    obtain ⟨x', hend, hx', hpartner⟩ := State.ended_runPartner hclean hport hpeer hx
    exact ⟨_, x', s.partnerOf c x, exec_partner hc hk, hend, hx', hpartner, rfl, rfl, rfl, s.partnerOf_silent c x⟩
  · intro c s q hc hk hclean hq hmark hturn
    obtain ⟨t, q', d, hrun, hrest⟩ := State.ended_runMarkdone hclean hq hmark hturn
    exact ⟨t, q', d, exec_markdone hc hk hrun, hrest⟩
  · intro c s hc hk hclean hsource hdevice
    exact ⟨_, exec_jstore hc hk, State.ended_runJstore hclean hsource hdevice⟩
  · intro c s m hm hctx hidle
    cases hdisturbed : s.undisturbed m with
    | false =>
      obtain ⟨hend, hnone⟩ := State.ended_copied (State.unaccessed_disarm (s.copied c m) m) 3
      exact ⟨_, (execMigrateCommit_next hm hctx hidle).trans (by rw [hdisturbed]; rfl), hnone, fun _ => hend, nofun⟩
    | true =>
      obtain ⟨hend, hnone⟩ := State.ended_copied
        ((State.unaccessed_disarm ((s.copied c m).moveLeaf m) m).trans (State.unaccessed_moveLeaf (s.copied c m) m)) 2
      exact ⟨_, (execMigrateCommit_next hm hctx hidle).trans (by rw [hdisturbed]; rfl), hnone, nofun,
        fun _ => ⟨hend, fun hmem hsize hleaf harmed j hj => State.get_committed hmem hsize hleaf harmed hj⟩⟩

end Sys2Proof.Machine
